-- ==== Sys2Proof/Word.lean ====
section
/-! DEFINITION. Word.lean: the word types of the model, and sparse maps: lists of (key, value) pairs with strictly
rising keys, in which a key that is not listed holds the map's default value. -/
namespace Sys2Proof

abbrev Byte := BitVec 8
abbrev W16 := BitVec 16
abbrev W32 := BitVec 32
abbrev W64 := BitVec 64
abbrev W128 := BitVec 128

/-- A sparse map from keys to values. -/
abbrev SMap (α : Type) := List (Nat × α)

namespace SMap
variable {α : Type}

/-- The value listed under a key, if any. -/
def find? : SMap α → Nat → Option α
  | [], _ => none
  | (k, v) :: m, q => if k = q then some v else find? m q

/-- The value of a key, with the map's default for a key that is not listed. -/
def get (d : α) (m : SMap α) (k : Nat) : α := (find? m k).getD d

/-- List the value `v` under `k`, in the place that keeps the keys rising. -/
def insert : SMap α → Nat → α → SMap α
  | [], k, v => [(k, v)]
  | (q, w) :: m, k, v =>
    if k < q then (k, v) :: (q, w) :: m
    else if k = q then (k, v) :: m
    else (q, w) :: insert m k v

/-- Remove every entry of a key. -/
def erase (m : SMap α) (k : Nat) : SMap α := m.filter (fun e => e.1 != k)

/-- Give `k` the value `v`; the default value is kept by listing nothing. -/
def put [DecidableEq α] (d : α) (m : SMap α) (k : Nat) (v : α) : SMap α :=
  if v = d then erase m k else insert m k v

/-- Keys strictly rise. -/
def sorted : SMap α → Bool
  | [] => true
  | [_] => true
  | (a, _) :: (b, w) :: m => decide (a < b) && sorted ((b, w) :: m)

/-- The canonical form: keys strictly rise and no entry equals the default. -/
def wf [DecidableEq α] (d : α) (m : SMap α) : Bool := sorted m && m.all (fun e => decide (e.2 ≠ d))

end SMap
end Sys2Proof
end

