-- ==== Sys2Proof/Syntax.lean ====
section
/-! DEFINITION. Syntax.lean: the commands of the block, one constructor per row of the operation table, and their operands. -/
namespace Sys2Proof

/-- A PCIe function: port, and 0 for the PF or 1–16 for a VF (R263). -/
structure PciFn where
  port : Fin 2
  idx : Fin 17
deriving DecidableEq, Repr

/-- A requester of register accesses (R9): a PCIe function or one of the four management cores (R36). -/
inductive Requester where
  | fn (f : PciFn)
  | fw (core : Fin 4)
deriving DecidableEq, Repr

/-- Ring number (R276). -/
abbrev Ring := Fin 4096
/-- Mailbox number (R296). -/
abbrev Mailbox := Fin 64
/-- Course number (R13). -/
abbrev Course := Fin 100
/-- Partition number (R30). -/
abbrev Part := Fin 16
/-- Physical core: 110 · row + column (R13, R50). -/
abbrev Core := Fin 11000
/-- ZL port (R36). -/
abbrev ZlPort := Fin 8

/-- What resets a port (R274). -/
inductive PortResetCause where
  | perst | hotReset | dlDown
deriving DecidableEq, Repr

/-- What a host configures in a function through configuration requests, for which the operation table has no row:
whether its BARs are configured with Memory Space enabled, and whether ATS and PRI are enabled. -/
structure FnConfig where
  memory : Bool
  ats : Bool
  pri : Bool
deriving DecidableEq, Repr

/-- The same for every function of a port (bit i is function i), and the BAR4 size in force: 2^bar4 times 256 MiB (R200). -/
structure PortConfig where
  memory : BitVec 17
  ats : BitVec 17
  pri : BitVec 17
  bar4 : Fin 9 := 0
deriving DecidableEq, Repr

/-- Page request group response codes (R290). -/
inductive PrsCode where
  | success | invalidRequest | responseFailure
deriving DecidableEq, Repr

/-- An access through BAR4: a write of bytes, or a read of a number of bytes. -/
inductive WindowAccess where
  | write (data : List Byte)
  | read (len : Nat)
deriving DecidableEq, Repr

/-- What the stack code finds at a read (R386). -/
inductive EccOutcome where
  | clean | corrected | uncorrectable
deriving DecidableEq, Repr

/-- A rung of the ladder with its target (R408). -/
inductive ResetTarget where
  | context (part : Part) (context : W16)
  | course (course : Course)
  | partition (part : Part)
  | chip
deriving DecidableEq, Repr

/-- A token drawn by the sampler: its ID and its LOGPROB (R259). -/
structure Drawn where
  token : W32
  logprob : W16
deriving DecidableEq, Repr

/-- What one step of a context produced at its step boundary (Table 7.3). The logits are analog results, so the tokens
drawn from them come with the command. -/
structure StepResult where
  /-- a prompt token ID at or above the vocabulary was met (R232) -/
  badToken : Bool := false
  /-- the prompt read failed after a page fault, with this code (Table 8.9) -/
  promptFail : Option Byte := none
  /-- no logit was finite or +∞ (R260) -/
  noDistribution : Bool := false
  /-- a non-finite logit was met (R260) -/
  nonfinite : Bool := false
  /-- a row tile committed degraded (R117) -/
  degraded : Bool := false
  /-- the step's data derives from SUSPECT data (R383) -/
  suspect : Bool := false
  /-- a draft step: the token proposed (R254) -/
  draft : Option W32 := none
  /-- a verify step: the accepted drafts, first to last (R254) -/
  accepted : List Drawn := []
  /-- the token of the main model: the sampled token, the replacement or the token after the last draft -/
  token : Drawn := ⟨0, 0⟩
deriving DecidableEq, Repr

/-- What ADAPTER_LOAD finds in the landed blob (R221, R222): whether its signature verifies and its fields are valid,
its largest byte count in one layer, and whether its factors fit the adapter caches. -/
structure AdapterBlob where
  signed : Bool
  valid : Bool
  layerBytes : Nat
  cacheFits : Bool
deriving DecidableEq, Repr

/-- What CHECK finds in an image beyond its manifest's bytes (R208, R209): facts of tabs, descriptors and placement. -/
structure ImageFacts where
  /-- the tab rules R94, R105, R143, R150, R153, R154, R171 and R79 are met -/
  tabsOk : Bool
  /-- no core's tab, replay sources, buffers, barrier entries or constant bank overflow (Table 6.5, reason 3) -/
  sramFits : Bool
  /-- no layer time exceeds half of STEP_MS (R407) -/
  layerTimeOk : Bool
  /-- the two copies of every tile lie in different courses (Table 6.5, reason 7) -/
  copiesApart : Bool
  /-- the highest KV page index stays at or below 8,388,607 (R245) -/
  kvIndexOk : Bool
  /-- the declared maximum context in tokens (R230) -/
  maxContext : Nat
  /-- vocabulary size (R232, R255) -/
  vocabulary : Nat
  /-- KV streams of this member (R245) -/
  streams : Nat
  /-- log2 of tokens per page (R245) -/
  log2Tp : Nat
  /-- barrier participants at this member (R178): root course, barrier number, count -/
  barriers : List (Nat × Nat × Nat)
  /-- ZL ports that the member's channel tables name (R326) -/
  ports : List (Fin 8)
deriving DecidableEq, Repr

/-- One tile record of a TIER shard (R197): its tier address, tier format, the 32 column scales and the 8,192 stored
levels in row-major order. -/
structure TileRecord where
  address : W32
  format : W16
  scales : List Byte
  levels : List (BitVec 4)
deriving DecidableEq, Repr

/-- What a PROGRAM or FALLBACK shard holds for the core at logical (x, y): its instructions, operand descriptors and channel
table (R143), and the tab's epoch constant window as first granule and count (R213). -/
structure TabRecord where
  x : Nat
  y : Nat
  words : List W128
  descs : List (BitVec 256)
  channels : List W64
  window : Nat × Nat
deriving DecidableEq, Repr

/-- What a CONST shard holds: bytes from an offset of the data SRAM of the core at logical (x, y) up. -/
structure ConstRecord where
  x : Nat
  y : Nat
  offset : Nat
  data : List Byte
deriving DecidableEq, Repr

/-- What a shard whose digest matches holds, by its KIND: tile records, tabs with the entries of the ingress tables (R325),
or constants. -/
structure ShardContents where
  tiles : List TileRecord := []
  tabs : List TabRecord := []
  ingress : List (Fin 8 × Fin 4096 × W64) := []
  consts : List ConstRecord := []
  /-- gap tables (R342): x, y, and entries of instruction index, quiet clocks and PASS_END -/
  gaps : List (Nat × Nat × List (Nat × Nat × Bool)) := []
deriving DecidableEq, Repr

/-- What a Relay stream carries (R328). -/
inductive RelayKind where
  | shard | manifest | endMarker
deriving DecidableEq, Repr

/-- One exponent group of a row tile (R98): its E8M0 exponent, its first row, its elements, and the saturation and
flush counts its block carries (R104). -/
structure Group where
  exp : Byte
  row : Nat
  elems : List Int
  sat : Nat := 0
  flush : Nat := 0
deriving DecidableEq, Repr

/-- The ports of a core-mesh router (R166). -/
inductive RouterPort where
  | north | east | south | west | core | attach
deriving DecidableEq, Repr

/-- An on-die flit (R169): route word, tag and the eight 32-bit words of its payload. -/
structure Flit where
  route : W64
  tag : W64
  payload : List W32
deriving DecidableEq, Repr

/-- A change of the maps of R189 to R191. -/
inductive MapUpdate where
  /-- the spare of a physical row and course column stands for a logical column -/
  | spare (row : Fin 100) (courseCol : Fin 10) (column : Fin 10)
  /-- the spare core of a row and course column has failed -/
  | spareFailed (row : Fin 100) (courseCol : Fin 10)
  /-- a logical course maps to a physical course -/
  | course (logical physical : Course)
  /-- a logical course is out of service -/
  | courseOut (logical : Course)
  /-- a router, an outgoing link or an attachment has failed -/
  | failed (router : Core) (what : Option RouterPort)
  /-- a course's express router has failed -/
  | express (course : Course)
deriving DecidableEq, Repr

/-- A temperature sensor (Table 12.1). -/
abbrev Sensor := Fin 144
/-- A monitored rail, numbered as in `TRM_RAIL_SEL` (R450); VDD_AON, rail 7, has no monitor. -/
abbrev Rail := Fin 9

/-- The body of a FULL hello (R319). -/
structure Hello where
  serial : W64
  /-- digest of the sender's identity key -/
  identity : BitVec 256
  fwGen : W32
  cfgGen : W32
  port : Fin 8
  /-- the partition exported on this port, its chain ID and member index -/
  part : Fin 16
  chain : W64
  member : Byte
  admitting : Bool
  /-- open epoch transactions of that partition: epoch and TXN -/
  txns : List (Nat × W64)
  /-- nonce that the receiver sent in its own last hello -/
  nonce : W64
  /-- the sender's fresh nonce -/
  own : W64
deriving DecidableEq, Repr

/-- The parts of a ZL MSG flit that carry a message (Tables 10.3, 10.4). -/
structure ZlFlit where
  tag : W64
  seq : BitVec 12
  ack : BitVec 12
  cvc : BitVec 2
  cred : BitVec 6
  rch : BitVec 12
  off : BitVec 12
  granule : BitVec 256
deriving DecidableEq, Repr

/-- How a ZL flit arrives (R313, R314): clean, from a codeword that was corrected, failing its CRC, or from an uncorrectable
codeword. -/
inductive FlitQuality where
  | clean | corrected | crcFailed | uncorrectable
deriving DecidableEq, Repr

/-- What the rows of a tier read in a full verify sweep (R340): 256 rows of 35 cells, and whether the retune of its
cells outside ±0.25 level ended inside in six slots. -/
structure TierReading where
  core : Core
  array : Fin 9
  tier : Fin 128
  rows : List (List Int)
  retuned : Bool
deriving DecidableEq, Repr

/-- Measurements of a calibration step (Table 11.6). -/
structure CalReadings where
  /-- the metrology converter gave its results -/
  mcvOk : Bool := true
  /-- step 3: reference in µV, over-range, and the value the factory trims predict from bandgap 0 -/
  refUv : Nat := 0
  overRange : Bool := false
  predictedUv : Nat := 0
  /-- step 4: bandgaps in µV -/
  bandgap0 : BitVec 24 := 0
  bandgap1 : BitVec 24 := 0
  /-- step 6: probe-bus currents of the 100 courses, in nA -/
  probeNa : List Nat := []
  /-- steps 5 and 7: trims found, by array (9 · core + array), as a number -/
  trims : List (Nat × Int) := []
  /-- step 7: check bands found, by array: four quarter-code tolerances, and the rms of E in codes (R139, R333) -/
  bands : List (Nat × BitVec 32 × Nat) := []
  /-- step 8: readings of the 144 sensors on factory trims, in 1/16 °C; in a staged set, the offsets found from them -/
  temps : List Int := []
deriving DecidableEq, Repr

/-- Who commands a power state: a register write, or the tray controller over PLDM (R378). -/
inductive Commander where
  | register (who : Requester)
  | tray
deriving DecidableEq, Repr

/-- The channels of SPDM (R429): MCTP on the sideband, or DOE on a port's PF. -/
inductive SpdmChannel where
  | mctp
  | doe (port : Fin 2)
deriving DecidableEq, Repr

/-- An APPROVE message (R435): its content, and the SHAKE256 digest of the key under which its signature verifies. -/
structure Approval where
  serial : W64
  gen : W32
  nonce : W64
  digest : BitVec 256
  signer : Option (BitVec 256)
deriving DecidableEq, Repr

/-- What a boot finds in the system tiers (R425, R439, R415). -/
structure BootFacts where
  /-- the images verify against key slot 0 -/
  imageA : Bool
  imageB : Bool
  /-- the configuration copies verify -/
  copyA : Bool
  copyB : Bool
  /-- straps SB_ADDR1 and SB_ADDR0 (R459) -/
  straps : BitVec 2
deriving DecidableEq, Repr

/-- The commands: one constructor per row of the operation table, in its order. -/
inductive Instr where
  /-- `REGISTER_WRITE` (R6): a 32-bit write at a BAR0 offset. -/
  | registerWrite (who : Requester) (offset : BitVec 26) (value : W32)
  /-- `LOW_HALF_READ` (R9): a read at a BAR0 offset, of the low half of a 64-bit register. -/
  | lowHalfRead (who : Requester) (offset : BitVec 26)
  /-- `TIME_READ` (R293): a read of `HIF_TIME_LO`. -/
  | timeRead (who : Requester)
  /-- `TIER_MVM` (R75): the core, the TMVM instruction word (Table 4.3), and the saturation and flush counts that its eight input blocks carry (R104). -/
  | tierMvm (core : Core) (word : W128) (carried : List (Fin 33 × Fin 33))
  /-- `CONVERSION` (R20): the physical array. -/
  | conversion (core : Core) (array : Fin 9)
  /-- `TIER_MVM_COMPLETE` (R78): the physical array, and whether the core holds the lowest-numbered column tile of the row tile (R117). -/
  | tierMvmComplete (core : Core) (array : Fin 9) (lowest : Bool)
  /-- `TMVM_ABORT` (R77): the physical array. -/
  | tmvmAbort (core : Core) (array : Fin 9)
  /-- `REEMIT` (R112): the producer, the tag of the request, the channel of the row tile, the level (3: recovery). -/
  | reemit (core : Core) (tag : W64) (channel : Fin 4096) (level : Fin 4)
  /-- `REPLAY_BLOCKS_ARRIVE` (R111): the consumer's array, the level of the blocks, and the row tile's exponent groups. -/
  | replayBlocksArrive (core : Core) (array : Fin 9) (level : Fin 3) (groups : List Group)
  /-- `RECOVERY_PASS` (R122): the consumer's array and the row tile's INT16 blocks. -/
  | recoveryPass (core : Core) (array : Fin 9) (blocks : List Group)
  /-- `PROGRAM_SLOT` (R60): the array, and whether the verify read finds the row in its window. -/
  | programSlot (core : Core) (array : Fin 9) (rowDone : Bool)
  /-- `CAP_CLEAR` (R85): the writer and the course window written. -/
  | capClear (who : Requester) (course : Course)
  /-- `SPARE_ARRAY_MAP` (R88): the core and its failed array. -/
  | spareArrayMap (core : Core) (failed : Fin 8)
  /-- `SPARE_ACTIVE` (R89): the core. -/
  | spareActive (core : Core)
  /-- `COURSE_BOUNDARY` (R29): the course. -/
  | courseBoundary (course : Course)
  /-- `DTU_TILE` (R144): the core and its instruction word. -/
  | dtuTile (core : Core) (word : W128)
  /-- `DTU_TILE_END` (R384): the core, and whether its checksums agree. -/
  | dtuTileEnd (core : Core) (ok : Bool)
  /-- `VEC_COPY` (R145): the core and its instruction word. -/
  | vecCopy (core : Core) (word : W128)
  /-- `VEC_ADD` (R145): the core and its instruction word. -/
  | vecAdd (core : Core) (word : W128)
  /-- `VEC_MUL` (R145): the core and its instruction word. -/
  | vecMul (core : Core) (word : W128)
  /-- `VEC_FMA` (R145): the core and its instruction word. -/
  | vecFma (core : Core) (word : W128)
  /-- `VEC_MAX` (R145): the core and its instruction word. -/
  | vecMax (core : Core) (word : W128)
  /-- `ROWSCALE` (R145): the core and its instruction word. -/
  | rowscale (core : Core) (word : W128)
  /-- `EXP` (R145): the core and its instruction word. -/
  | exp (core : Core) (word : W128)
  /-- `RCP` (R145): the core and its instruction word. -/
  | rcp (core : Core) (word : W128)
  /-- `RSQRT` (R145): the core and its instruction word. -/
  | rsqrt (core : Core) (word : W128)
  /-- `ROWSUM` (R145): the core and its instruction word. -/
  | rowsum (core : Core) (word : W128)
  /-- `ROWMAX` (R145): the core and its instruction word. -/
  | rowmax (core : Core) (word : W128)
  /-- `ROWSUMSQ` (R145): the core and its instruction word. -/
  | rowsumsq (core : Core) (word : W128)
  /-- `SMAXN` (R157): the core and its instruction word. -/
  | smaxn (core : Core) (word : W128)
  /-- `SMAXR` (R157): the core and its instruction word. -/
  | smaxr (core : Core) (word : W128)
  /-- `TOPK` (R158): the core and its instruction word. -/
  | topk (core : Core) (word : W128)
  /-- `SAMPLE` (R258): the core and its instruction word. -/
  | sample (core : Core) (word : W128)
  /-- `RAND` (R159): the core and its instruction word. -/
  | rand (core : Core) (word : W128)
  /-- `SCAN` (R160): the core and its instruction word. -/
  | scan (core : Core) (word : W128)
  /-- `SEND` (R154): the core and its instruction word. -/
  | send (core : Core) (word : W128)
  /-- `RECV` (R155): the core and its instruction word. -/
  | recv (core : Core) (word : W128)
  /-- `RECVRED` (R185): the core and its instruction word. -/
  | recvred (core : Core) (word : W128)
  /-- `RED_ADD` (R182): the core and its instruction word. -/
  | redAdd (core : Core) (word : W128)
  /-- `RED_MAX` (R182): the core and its instruction word. -/
  | redMax (core : Core) (word : W128)
  /-- `BAR_ARRIVE_WAIT` (R179): the core and its instruction word. -/
  | barArriveWait (core : Core) (word : W128)
  /-- `FLAG_ADD` (R156): the core and its instruction word. -/
  | flagAdd (core : Core) (word : W128)
  /-- `WAIT_GE` (R156): the core and its instruction word. -/
  | waitGe (core : Core) (word : W128)
  /-- `STREAM_LOAD` (R151): the core and its instruction word. -/
  | streamLoad (core : Core) (word : W128)
  /-- `STREAM_STORE` (R151): the core and its instruction word. -/
  | streamStore (core : Core) (word : W128)
  /-- `KVLOAD` (R157): the core and its instruction word. -/
  | kvload (core : Core) (word : W128)
  /-- `KVSTORE` (R157): the core and its instruction word. -/
  | kvstore (core : Core) (word : W128)
  /-- `ADLOAD` (R160): the core and its instruction word. -/
  | adload (core : Core) (word : W128)
  /-- `GATHER` (R150): the core and its instruction word. -/
  | gather (core : Core) (word : W128)
  /-- `CTRL_FOREACH` (R146): the core and its instruction word. -/
  | ctrlForeach (core : Core) (word : W128)
  /-- `CTRL_ENDEACH` (R146): the core and its instruction word. -/
  | ctrlEndeach (core : Core) (word : W128)
  /-- `CTRL_SETI` (R147): the core and its instruction word. -/
  | ctrlSeti (core : Core) (word : W128)
  /-- `CTRL_ADDI` (R147): the core and its instruction word. -/
  | ctrlAddi (core : Core) (word : W128)
  /-- `CTRL_DIVC` (R151): the core and its instruction word. -/
  | ctrlDivc (core : Core) (word : W128)
  /-- `CTRL_BR` (R151): the core and its instruction word. -/
  | ctrlBr (core : Core) (word : W128)
  /-- `CTRL_LOOP` (R151): the core and its instruction word. -/
  | ctrlLoop (core : Core) (word : W128)
  /-- `CTRL_LAYER` (R163): the core and its instruction word. -/
  | ctrlLayer (core : Core) (word : W128)
  /-- `CTRL_END` (R146): the core and its instruction word. -/
  | ctrlEnd (core : Core) (word : W128)
  /-- `STEP_ABORT` (R162): the context and the low 16 bits of its step counter. -/
  | stepAbort (part : Part) (context : W16) (step : W16)
  /-- `CANCEL_FLIT` (R161): the core and the tag of the CANCEL flit. -/
  | cancelFlit (core : Core) (tag : W64)
  /-- `TAB_WATCHDOG` (R165): the core. -/
  | tabWatchdog (core : Core)
  /-- `TAB_SCRUB` (R142): the core, and what the scrub finds. -/
  | tabScrub (core : Core) (outcome : EccOutcome)
  /-- `TAB_RELOAD_COMPLETE` (R142): the core. -/
  | tabReloadComplete (core : Core)
  /-- `CORE_HALT` (R165): the writer and the course window written. -/
  | coreHalt (who : Requester) (course : Course)
  /-- `CORE_RESUME` (R165): the writer and the course window written. -/
  | coreResume (who : Requester) (course : Course)
  /-- `FAULT_CLEAR` (R165): the writer and the course window written. -/
  | faultClear (who : Requester) (course : Course)
  /-- `FLIT_ARRIVE` (R172): the router (11,000 + course for an express router) and its input, the flit, whether parity holds, whether duplicated adders agree, whether the next router holds a free buffer. -/
  | flitArrive (router : Fin 11100) (input : RouterPort) (flit : Flit) (parityOk adderOk credit : Bool)
  /-- `REDUCTION_CONTRIBUTION` (R185): the destination core, the flit, whether its duplicated adder agrees. -/
  | reductionContribution (core : Core) (flit : Flit) (adderOk : Bool)
  /-- `BARRIER_ARRIVE` (R179): the course of the express router and the ARRIVE flit. -/
  | barrierArrive (course : Course) (flit : Flit)
  /-- `BARRIER_RELEASE` (R179): the participant, the tag and the barrier number. -/
  | barrierRelease (core : Core) (tag : W64) (number : Fin 4096)
  /-- `FLAG_ADD_ARRIVE` (R156): the core, the flag, the value and the tag. -/
  | flagAddArrive (core : Core) (flag : Fin 64) (value : W16) (tag : W64)
  /-- `MAP_UPDATE` (R192): the map entry the firmware writes. -/
  | mapUpdate (update : MapUpdate)
  /-- `MAP_APPLIED` (R192): no operand. -/
  | mapApplied
  /-- `LINK_WATCHDOG` (R406): the router, numbered likewise, and the input that passes nothing. -/
  | linkWatchdog (router : Fin 11100) (input : RouterPort)
  /-- `FABRIC_SELF_TEST_DONE` (R409): whether the self-test ran to its end, and the links that failed it. -/
  | fabricSelfTestDone (completed : Bool) (failed : List (Fin 11100 × RouterPort))
  /-- `BEGIN` (R207): the LOAD ring, its next descriptor (Table 6.3), and the Relay plan the loader reads (none: the read failed). -/
  | beginLoad (ring : Ring) (desc : BitVec 512) (plan : Option (List W32))
  /-- `SHARD` (R467): the LOAD ring and its next descriptor. -/
  | shardPosted (ring : Ring) (desc : BitVec 512)
  /-- `END` (R206): the LOAD ring and its next descriptor. -/
  | endStream (ring : Ring) (desc : BitVec 512)
  /-- `COMMIT` (R216): the LOAD ring and its next descriptor. -/
  | commit (ring : Ring) (desc : BitVec 512)
  /-- `ROLLBACK` (R219): the LOAD ring and its next descriptor. -/
  | rollback (ring : Ring) (desc : BitVec 512)
  /-- `RELEASE` (R214): the LOAD ring and its next descriptor. -/
  | release (ring : Ring) (desc : BitVec 512)
  /-- `ABORT` (R207): the LOAD ring and its next descriptor. -/
  | abort (ring : Ring) (desc : BitVec 512)
  /-- `ADAPTER_LOAD` (R221): the LOAD ring, its next descriptor, and what the blob's signature check and layer table show. -/
  | adapterLoad (ring : Ring) (desc : BitVec 512) (blob : AdapterBlob)
  /-- `ADAPTER_FREE` (R223): the LOAD ring and its next descriptor. -/
  | adapterFree (ring : Ring) (desc : BitVec 512)
  /-- `SHADOW_REBUILD` (R224): the LOAD ring and its next descriptor. -/
  | shadowRebuild (ring : Ring) (desc : BitVec 512)
  /-- `SHADOW_REBUILD_DONE` (R224): the partition. -/
  | shadowRebuildDone (part : Part)
  /-- `MANIFEST_ARRIVAL` (R195): the partition, the manifest's bytes, whether its signature verifies, and what CHECK finds in the image. -/
  | manifestArrival (part : Part) (bytes : List Byte) (signed : Bool) (image : ImageFacts)
  /-- `MANIFEST_TIMEOUT` (R466): the partition. -/
  | manifestTimeout (part : Part)
  /-- `SHARD_COMPLETE` (R211): the partition, the shard, whether its digest matches and its contents are usable, and what it holds. -/
  | shardComplete (part : Part) (index : W32) (digestOk wellFormed : Bool) (contents : ShardContents)
  /-- `SHARD_TIMEOUT` (R212): the partition and the shard. -/
  | shardTimeout (part : Part) (index : W32)
  /-- `RELAY_HEAD` (R328): the ZL port, the local partition, the stream, what it carries, the shard index and the length. -/
  | relayHead (port : ZlPort) (part : Part) (stream : Fin 4) (kind : RelayKind) (index : W32) (len : W32)
  /-- `RELAY_DATA` (R203): the ZL port, the stream and up to 40 bytes. -/
  | relayData (port : ZlPort) (stream : Fin 4) (data : List Byte)
  /-- `RELAY_REQ` (R211): the ZL port, the local partition, the shard, and the position that asks. -/
  | relayReq (port : ZlPort) (part : Part) (index : W32) (position : Byte)
  /-- `EPOCH_PREPARE` (R216): the local partition and the epoch message (Table 6.8). -/
  | epochPrepare (part : Part) (msg : BitVec 256)
  /-- `EPOCH_READY` (R216): the local partition and the epoch message. -/
  | epochReady (part : Part) (msg : BitVec 256)
  /-- `SCALE_CALIBRATION_DONE` (R124): the partition, whether the Harmonic lane overflowed, and the largest channel count. -/
  | scaleCalibrationDone (part : Part) (overflow : Bool) (maxCh : Fin 16)
  /-- `EPOCH_PREPARED` (R216): the local partition and the epoch message. -/
  | epochPrepared (part : Part) (msg : BitVec 256)
  /-- `EPOCH_REFUSED` (R38): the local partition and the epoch message. -/
  | epochRefused (part : Part) (msg : BitVec 256)
  /-- `EPOCH_COMMIT` (R214): the local partition and the epoch message. -/
  | epochCommit (part : Part) (msg : BitVec 256)
  /-- `EPOCH_ABORT` (R38): the local partition and the epoch message. -/
  | epochAbort (part : Part) (msg : BitVec 256)
  /-- `EPOCH_RETIRE` (R214): the local partition and the epoch message. -/
  | epochRetire (part : Part) (msg : BitVec 256)
  /-- `PREPARE_TIMEOUT` (R216): the partition. -/
  | prepareTimeout (part : Part)
  /-- `GENERATE` (R230): the SUBMIT ring and its next entry (Table 7.4). -/
  | generate (ring : Ring) (entry : BitVec 512)
  /-- `CANCEL` (R251): the SUBMIT ring and its next entry. -/
  | cancel (ring : Ring) (entry : BitVec 512)
  /-- `PREFIX_DROP` (R250): the SUBMIT ring and its next entry. -/
  | prefixDrop (ring : Ring) (entry : BitVec 512)
  /-- `PASS_FORMATION` (R239): the partition. -/
  | passFormation (part : Part)
  /-- `STEP_COMPLETE` (R228): the context and what its step produced. -/
  | stepComplete (context : W16) (result : StepResult)
  /-- `TOKEN_WRITE` (R234): the context whose held tokens are written. -/
  | tokenWrite (context : W16)
  /-- `COMPLETION_WRITE` (R235): the context. -/
  | completionWrite (context : W16)
  /-- `ADMIT` (R226): the local partition and the header granule (Table 7.8). -/
  | admitMessage (part : Part) (message : BitVec 256)
  /-- `PASS` (R242): the local partition, the header granule and its slot records (Table 7.7). -/
  | passMessage (part : Part) (message : BitVec 256) (records : List (BitVec 256))
  /-- `SHORT` (R242): the local partition and the header granule. -/
  | short (part : Part) (message : BitVec 256)
  /-- `SERVING_RELEASE` (R242): the local partition and the header granule. -/
  | servingRelease (part : Part) (message : BitVec 256)
  /-- `DEADLINE_EXPIRY` (R243): the context. -/
  | deadlineExpiry (context : W16)
  /-- `PAGEWAIT_TIMEOUT` (R246): the context. -/
  | pagewaitTimeout (context : W16)
  /-- `PAUSE_RESUME` (R246): the context. -/
  | pauseResume (context : W16)
  /-- `CANCEL_DRAIN_COMPLETE` (R251): the context. -/
  | cancelDrainComplete (context : W16)
  /-- `PORT_RESET` (R274): the port and what reset it. -/
  | portReset (port : Fin 2) (cause : PortResetCause)
  /-- `FLR` (R275): the function. -/
  | flr (fn : PciFn)
  /-- `FLR_COMPLETE` (R275): the function, and the configuration its host then gives it. -/
  | flrComplete (fn : PciFn) (cfg : FnConfig)
  /-- `D3HOT_ENTRY` (R263): the function. -/
  | d3hotEntry (fn : PciFn)
  /-- `OWN_CLAIM` (R269): the writer and the nonce. -/
  | ownClaim (who : Requester) (nonce : W32)
  /-- `HANDOVER_OFFER` (R271): the writer. -/
  | handoverOffer (who : Requester)
  /-- `HANDOVER_ACCEPT` (R271): the writer and the nonce. -/
  | handoverAccept (who : Requester) (nonce : W32)
  /-- `HANDOVER_EXPIRY` (R271): no operand. -/
  | handoverExpiry
  /-- `RECLAIM` (R438): the nonce the message carries, and the digest of the key under which its signature verifies. -/
  | reclaim (nonce : W64) (signer : Option (BitVec 256))
  /-- `RING_ENABLE` (R279): the writer and the ring. -/
  | ringEnable (who : Requester) (ring : Ring)
  /-- `RING_DISABLE` (R284): the writer and the ring. -/
  | ringDisable (who : Requester) (ring : Ring)
  /-- `RING_STOP` (R284): the writer and the ring. -/
  | ringStop (who : Requester) (ring : Ring)
  /-- `RING_RESUME` (R284): the writer and the ring. -/
  | ringResume (who : Requester) (ring : Ring)
  /-- `DB_INDEX` (R281): the function whose BAR2 is written, the ring of the page, the index. -/
  | dbIndex (fn : PciFn) (ring : Ring) (value : W32)
  /-- `DB_ARM` (R283): the function whose BAR2 is written, the ring of the page, the word written. -/
  | dbArm (fn : PciFn) (ring : Ring) (value : W32)
  /-- `COALESCE_TIMER` (R283): the ring. -/
  | coalesceTimer (ring : Ring)
  /-- `COPY_IN` (R286): the DMA ring and its next descriptor (Table 8.7). -/
  | copyIn (ring : Ring) (desc : BitVec 256)
  /-- `COPY_OUT` (R286): the DMA ring and its next descriptor. -/
  | copyOut (ring : Ring) (desc : BitVec 256)
  /-- `ZERO` (R286): the DMA ring and its next descriptor. -/
  | zero (ring : Ring) (desc : BitVec 256)
  /-- `DMA_PIECE` (R291): the DMA ring whose piece an engine moved, and the host bytes a COPY_IN piece read. -/
  | dmaPiece (ring : Ring) (hostData : List Byte)
  /-- `PAGE_REQUEST_RESPONSE` (R290): the parked ring and the response code. -/
  | pageRequestResponse (ring : Ring) (code : PrsCode)
  /-- `PAGE_REQUEST_TIMEOUT` (R290): the parked ring. -/
  | pageRequestTimeout (ring : Ring)
  /-- `ATS_INVALIDATION` (R289): the port, first page and page count of the range. -/
  | atsInvalidation (port : Fin 2) (page : BitVec 52) (pages : Nat)
  /-- `MAILBOX_COMMIT` (R297): the writer, the mailbox, the high half written. -/
  | mailboxCommit (who : Requester) (m : Mailbox) (high : W32)
  /-- `MAILBOX_ACK` (R300): the writer, the mailbox, the code. -/
  | mailboxAck (who : Requester) (m : Mailbox) (code : W16)
  /-- `MAILBOX_WITHDRAW` (R303): the writer and the mailbox. -/
  | mailboxWithdraw (who : Requester) (m : Mailbox)
  /-- `MAILBOX_TIMEOUT` (R302): the mailbox. -/
  | mailboxTimeout (m : Mailbox)
  /-- `ECHO` (R297): the mailbox that holds the ECHO message. -/
  | echo (m : Mailbox)
  /-- `MBX_DB_CLEAR` (R305): the port and the word written. -/
  | mbxDbClear (port : Fin 2) (bits : W32)
  /-- `MBX_DB_MASK_WRITE` (R305): the port and the mask written. -/
  | mbxDbMaskWrite (port : Fin 2) (mask : W32)
  /-- `CLOCK_HOLD` (R309): the port and the HOLD bit written. -/
  | clockHold (port : Fin 2) (hold : Bool)
  /-- `HOLD_LAPSE` (R309): the port. -/
  | holdLapse (port : Fin 2)
  /-- `HELD_ACCESS_RELEASE` (R308): the crossing whose oldest access that may proceed does: a port, or 2 and up a management core. -/
  | heldAccessRelease (lane : Fin 6)
  /-- `TRAINING_START` (R318): the port and the lanes with signal. -/
  | trainingStart (port : ZlPort) (signal : BitVec 4)
  /-- `TRAINING_DONE` (R318): the port and the lanes that lock FEC and deskew. -/
  | trainingDone (port : ZlPort) (locked : BitVec 4)
  /-- `TRAINING_TIMEOUT` (R318): the port. -/
  | trainingTimeout (port : ZlPort)
  /-- `FULL_HELLO` (R319): the port, the partner's FULL hello, and whether its identity and signature verify. -/
  | fullHello (port : ZlPort) (hello : Hello) (signed : Bool)
  /-- `HELLO_TIMEOUT` (R318): the port. -/
  | helloTimeout (port : ZlPort)
  /-- `SHORT_HELLO` (R319): the port and the digest the SHORT hello carries. -/
  | shortHello (port : ZlPort) (digest : W128)
  /-- `HELLO_REQ` (R319): the port. -/
  | helloReq (port : ZlPort)
  /-- `HELLO_TIMER` (R319): the port. -/
  | helloTimer (port : ZlPort)
  /-- `LINK_REPLAY` (R314): the port and the first missing SEQ. -/
  | linkReplay (port : ZlPort) (seq : BitVec 12)
  /-- `LANE_FAIL` (R322): the port and its failed lane. -/
  | laneFail (port : ZlPort) (lane : Fin 4)
  /-- `LANE_DROP` (R322): the port, the lane dropped and the first missing SEQ. -/
  | laneDrop (port : ZlPort) (lane : Fin 4) (seq : BitVec 12)
  /-- `GOODBYE` (R321): the port. -/
  | goodbye (port : ZlPort)
  /-- `PARTNER_LOSS` (R323): the port. -/
  | partnerLoss (port : ZlPort)
  /-- `RETRAIN` (R318): the writer and the port. -/
  | retrain (who : Requester) (port : ZlPort)
  /-- `PORT_DISABLE` (R318): the writer and the port. -/
  | portDisable (who : Requester) (port : ZlPort)
  /-- `MSG` (R325): the port, the MSG flit, and how it arrives. -/
  | msg (port : ZlPort) (flit : ZlFlit) (quality : FlitQuality)
  /-- `CHAIN_WAIT_TIMEOUT` (R323): the partition. -/
  | chainWaitTimeout (part : Part)
  /-- `TIER_DUE` (R337): the array and its tier. -/
  | tierDue (core : Core) (array : Fin 9) (tier : Fin 128)
  /-- `TIER_OVERDUE` (R339): the array and its tier. -/
  | tierOverdue (core : Core) (array : Fin 9) (tier : Fin 128)
  /-- `PROBE_PASS` (R333): the array, and the 34 codes of each of the 64 probe conversions of its next tier. -/
  | probePass (core : Core) (array : Fin 9) (codes : List (List Nat))
  /-- `VERIFY_READ` (R334): the array, the row of the tier at hand, and the 35 readings of its cells. -/
  | verifyRead (core : Core) (array : Fin 9) (row : Fin 256) (cells : List Int)
  /-- `RETUNE_SLOT` (R335): the array, a marked row, and its 35 cells after the slot, in 1/64 level. -/
  | retuneSlot (core : Core) (array : Fin 9) (row : Fin 256) (cells : List Int)
  /-- `FULL_VERIFY_SWEEP` (R340): the tiers treated and what their rows read. -/
  | fullVerifySweep (tiers : List TierReading)
  /-- `SWEEP_COMPLETE` (R379): no operand. -/
  | sweepComplete
  /-- `CAL_START` (R353): the writer and the TEMP and ARRAYS bits written with START. -/
  | calStart (who : Requester) (temp arrays : Bool)
  /-- `CAL_ABORT` (R353): the writer. -/
  | calAbort (who : Requester)
  /-- `CAL_STEP` (R353): the measurements of the step in progress. -/
  | calStep (m : CalReadings)
  /-- `RECALIBRATION_TRIGGER` (R352): the course. -/
  | recalibrationTrigger (course : Course)
  /-- `MCV_RESULT` (R358): the unclamped code and whether the modulator overloaded. -/
  | mcvResult (value : Int) (overload : Bool)
  /-- `MCV_RESULT_READ` (R358): the reader. -/
  | mcvResultRead (who : Requester)
  /-- `MCV_DROP_READ` (R358): the reader. -/
  | mcvDropRead (who : Requester)
  /-- `SENSOR_SAMPLE` (R360): the sensor and its reading in 1/16 °C. -/
  | sensorSample (sensor : Sensor) (reading : Int)
  /-- `POWER_INTERVAL` (R367): the device power of the last 10 µs and its unclamped part, in 1/8 W. -/
  | powerInterval (p pu : W16)
  /-- `CAP_ALERT` (R369): no operand. -/
  | capAlert
  /-- `CAP_ALERT_DEASSERT` (R369): no operand. -/
  | capAlertDeassert
  /-- `TRAY_CAP_SET` (R367): whether ALERT_W or TRAY_W is set, and the value. -/
  | trayCapSet (alert : Bool) (watts : BitVec 10)
  /-- `SCAN_STALL` (R370): the sensor not sampled. -/
  | scanStall (sensor : Sensor)
  /-- `TRIP_ACK` (R373): the writer and the SEQ written. -/
  | tripAck (who : Requester) (seq : W32)
  /-- `IDLE_GATE` (R376): the course. -/
  | idleGate (course : Course)
  /-- `COURSE_NAP` (R377): the writer, the course, and the bit written. -/
  | courseNap (who : Requester) (course : Course) (nap : Bool)
  /-- `PSTATE_NAP` (R377): the writer and the AUTOWAKE bit written. -/
  | pstateNap (who : Requester) (autowake : Bool)
  /-- `NAP_ENTRY_COMPLETE` (R377): no operand. -/
  | napEntryComplete
  /-- `PSTATE_REST` (R378): who commands it and the AUTOWAKE bit written. -/
  | pstateRest (who : Commander) (autowake : Bool)
  /-- `REST_ENTRY` (R378): no operand. -/
  | restEntry
  /-- `PSTATE_ACTIVE` (R378): who commands it and the AUTOWAKE bit written. -/
  | pstateActive (who : Commander) (autowake : Bool)
  /-- `PATROL_SCRUB` (R386): the stack address read and what its code found. -/
  | patrolScrub (address : BitVec 39) (outcome : EccOutcome)
  /-- `REDUNDANCY_COMPARE` (R388): the consumer, its channel, the unit IDs of the producers of the primary stream and of its twin, and whether a tier MVM fed them. -/
  | redundancyCompare (core : Core) (chan : Fin 4096) (producer twinProducer : W32) (analog : Bool)
  /-- `TWIN_WAIT_EXPIRY` (R418): the consumer, its channel and the producing core of the late copy. -/
  | twinWaitExpiry (core : Core) (chan : Fin 4096) (late : Core)
  /-- `AUDIT_COMPARISON` (R390): the sampled instruction, and the codes expected from the tier's levels, conversion by conversion and column by column. -/
  | auditComparison (core : Core) (instr : Fin 2048) (expected : List Nat)
  /-- `AUDIT_ABANDON` (R390): the sampled instruction. -/
  | auditAbandon (core : Core) (instr : Fin 2048)
  /-- `STAND_ALONE_AUDIT` (R391): the instruction, the codes the replay gave and the codes expected. -/
  | standAloneAudit (core : Core) (instr : Fin 2048) (codes expected : List Nat)
  /-- `AUDIT_ROLLBACK` (R393): the named context, its logged VERSION, the first pass of the window and the accused tier. -/
  | auditRollback (part : Part) (context : W16) (version : W16) (window : Nat) (unit : W32)
  /-- `CONFIRMATION` (R397): the quarantined array, or none for the core itself, and whether its replacement passes the replay. -/
  | confirmation (core : Core) (array : Option (Fin 9)) (passed : Bool)
  /-- `FIELD_TEST_START` (R399): the writer and the word written with START set. -/
  | fieldTestStart (who : Requester) (value : W32)
  /-- `FIELD_TEST_ABORT` (R399): the writer and the word written with ABORT set. -/
  | fieldTestAbort (who : Requester) (value : W32)
  /-- `FIELD_TEST_DONE` (R399): the arrays that failed library entries. -/
  | fieldTestDone (failures : List (Core × Fin 9))
  /-- `FAULT_REPORT` (R402): the reporting unit, the accused unit, the class and the tag. -/
  | faultReport (sender : W32) (unit : W32) (cls : Fin 16) (tag : W64)
  /-- `AGGREGATION_WINDOW_CLOSE` (R402): the aggregator: a course, or 100 for the die level. -/
  | aggregationWindowClose (agg : Fin 101)
  /-- `DIE_LOG_WRITE` (R404): no operand. -/
  | dieLogWrite
  /-- `LOG_RD_WRITE` (R404): the writer and the new RD. -/
  | logRdWrite (who : Requester) (index : W32)
  /-- `FFC_CLEAR` (R405): the writer. -/
  | ffcClear (who : Requester)
  /-- `STEP_WATCHDOG` (R407): the core of the slot's oldest incomplete instruction, and the slot. -/
  | stepWatchdog (core : Core) (slot : Fin 64)
  /-- `COURSE_HEARTBEAT_MISS` (R406): the course. -/
  | courseHeartbeatMiss (course : Course)
  /-- `PARTITION_HEARTBEAT_MISS` (R406): the partition. -/
  | partitionHeartbeatMiss (part : Part)
  /-- `FIRMWARE_WATCHDOG` (R406): no operand. -/
  | firmwareWatchdog
  /-- `RESET_OVERRUN` (R409): the rung that overran its bound, and its target. -/
  | resetOverrun (target : ResetTarget)
  /-- `CONTEXT_RESET` (R410): the context and the cause. -/
  | contextReset (part : Part) (context : W16) (cause : Fin 16)
  /-- `COURSE_RESET` (R411): the course and the cause. -/
  | courseReset (course : Course) (cause : Fin 16)
  /-- `COURSE_RESET_COMPLETE` (R411): the course. -/
  | courseResetComplete (course : Course)
  /-- `PARTITION_RESET` (R412): the partition and the cause. -/
  | partitionReset (part : Part) (cause : Fin 16)
  /-- `CHIP_RESET` (R414): the cause. -/
  | chipReset (cause : Fin 16)
  /-- `DEV_RESET` (R453): no operand. -/
  | devReset
  /-- `RESET_NOTICE` (R413): the local partition and the notice (Table 14.4). -/
  | resetNotice (part : Part) (notice : W128)
  /-- `POWER_UP` (R452): what the boot finds. -/
  | powerUp (facts : BootFacts)
  /-- `AON_POWER_ON_RESET` (R451): no operand. -/
  | aonPowerOnReset
  /-- `RAIL_EXCURSION` (R450): the rail, and whether it is above its window. -/
  | railExcursion (rail : Rail) (tooHigh : Bool)
  /-- `RAIL_RECOVERY` (R450): the rail. -/
  | railRecovery (rail : Rail)
  /-- `RAIL_EXCURSION_TIMEOUT` (R450): the rail. -/
  | railExcursionTimeout (rail : Rail)
  /-- `STACK_RAIL_TIMEOUT` (R449): no operand. -/
  | stackRailTimeout
  /-- `CRYSTAL_LOSS` (R455): no operand. -/
  | crystalLoss
  /-- `REFCLK_SYS_LOSS` (R455): no operand. -/
  | refclkSysLoss
  /-- `REFCLK_SYS_RESTORE` (R455): no operand. -/
  | refclkSysRestore
  /-- `PCIE_REFCLK_LOSS` (R455): the port. -/
  | pcieRefclkLoss (port : Fin 2)
  /-- `DYNAMIC_ADDRESS_ASSIGNMENT` (R459): the address ENTDAA gives, or none for SETAASA. -/
  | dynamicAddressAssignment (assigned : Option (BitVec 7))
  /-- `FIRMWARE_INSTALL` (R426): the writer, and the landed image: whether its signature verifies against slot 0, and its SVN. -/
  | firmwareInstall (who : Requester) (signed : Bool) (svn : BitVec 12)
  /-- `COMMIT_SVN` (R426): the writer. -/
  | commitSvn (who : Requester)
  /-- `STAGED_WRITE` (R433): the writer, the BAR0 offset of an RW2 field, and the value. -/
  | stagedWrite (who : Requester) (offset : BitVec 26) (value : W32)
  /-- `KEY_STAGE` (R433): the writer, the word written to SEC_KEY_STAGE, and whether the key's bytes read without an uncorrectable error. -/
  | keyStage (who : Requester) (value : W32) (readable : Bool)
  /-- `SEAL` (R434): the writer. -/
  | seal (who : Requester)
  /-- `STAGE_ABORT` (R437): the writer. -/
  | stageAbort (who : Requester)
  /-- `CONFIG_ROLLBACK` (R441): the writer. -/
  | configRollback (who : Requester)
  /-- `APPROVE` (R435): the channel and the message. -/
  | approve (channel : SpdmChannel) (a : Approval)
  /-- `STAGE_TIMEOUT` (R437): no operand. -/
  | stageTimeout
  /-- `GET_STAGE` (R435): the channel and the byte offset into the stage record. -/
  | getStage (channel : SpdmChannel) (offset : W32)
  /-- `GET_NONCE` (R438): the channel. -/
  | getNonce (channel : SpdmChannel)
  /-- `GENERATION_RECORD` (R440): no operand. -/
  | generationRecord
  /-- `NEGOTIATE_ALGORITHMS` (R430): the channel and whether the requester offers Falcon-1024. -/
  | negotiateAlgorithms (channel : SpdmChannel) (falcon : Bool)
  /-- `GET_MEASUREMENTS` (R431): the channel, the operation (0 the count, 255 all, or one block), the nonce, and whether a signature is asked. -/
  | getMeasurements (channel : SpdmChannel) (index : Byte) (nonce : BitVec 256) (signed : Bool)
  /-- `GET_CERTIFICATE` (R429): the channel, the certificate slot, the offset and length. -/
  | getCertificate (channel : SpdmChannel) (slot : Byte) (offset length : W16)
  /-- `CHALLENGE` (R429): the channel, the certificate slot and the nonce. -/
  | challenge (channel : SpdmChannel) (slot : Byte) (nonce : BitVec 256)
  /-- `KEY_EXCHANGE` (R429): the channel, the certificate slot, the requester's session ID half and its public value. -/
  | keyExchange (channel : SpdmChannel) (slot : Byte) (session : W16) (exchange : List Byte)
  /-- `BAR_MAX_READ` (R6): the reader. -/
  | barMaxRead (who : Requester)
  /-- `PEAK_READ` (R6): the reader. -/
  | peakRead (who : Requester)
  /-- `NAP_EXIT_COMPLETE` (R377): no operand. -/
  | napExitComplete
  /-- `CRYSTAL_RETURN` (R455): no operand. -/
  | crystalReturn
  /-- `PCIE_LINK_UP` (R274): the trained rate code, width, IDE stream, and the configuration the host then gives the functions. -/
  | pcieLinkUp (port : Fin 2) (rate : Fin 6) (width : Fin 17) (ide : Bool) (cfg : PortConfig)
  /-- `DEV_RESET_RELEASE` (R452): no operand. -/
  | devResetRelease
  /-- `BAR4_ACCESS` (R268): the function, the BAR4 offset, and the write with its bytes or the read with its length. -/
  | bar4Access (fn : PciFn) (offset : BitVec 36) (access : WindowAccess)
  /-- `ATS_TRANSLATION_COMPLETION` (R289): the ring whose transfer waits, and the access the completion grants. -/
  | atsTranslationCompletion (ring : Ring) (readable writable : Bool)
deriving DecidableEq, Repr

end Sys2Proof
end

