-- ==== Sys2Proof/WellFormed.lean ====
section
/-! DEFINITION. WellFormed.lean: when a command's operands say what its row names: the CLASS and OP of an instruction word, the OP of a
ring entry, aligned offsets, and readings of the right number and range. A command that is not well formed still has a meaning: the
device takes such a word, entry or reading as its rules say. -/
namespace Sys2Proof

/-- An instruction word has the CLASS and OP of its command (Table 4.4). -/
def wordIs (w : W128) (cls op : Nat) : Bool := w.extractLsb' 0 4 == BitVec.ofNat 4 cls && w.extractLsb' 4 6 == BitVec.ofNat 6 op

/-- A ring entry has the OP of its command, in its first byte (Tables 6.3, 7.4, 8.7). -/
def entryIs {n : Nat} (e : BitVec n) (op : Nat) : Bool := e.extractLsb' 0 8 == BitVec.ofNat 8 op

/-- Converter codes are 0 to 63 (R71). -/
def codesOk (l : List Nat) : Bool := l.all (fun c => decide (c < 64))

/-- A row is read as 35 cells (R334). -/
def cellsOk (l : List Int) : Bool := l.length == 35

/-- A tier is read as 256 rows (R340). -/
def tierOk (t : TierReading) : Bool := t.rows.length == 256 && t.rows.all cellsOk

/-- Offsets of registers are multiples of 4. -/
def aligned (a : BitVec 26) : Bool := a.extractLsb' 0 2 == 0

/-- A command is well formed. -/
def Instr.wf (i : Instr) : Bool :=
  match i with
  | .registerWrite _ a _ | .lowHalfRead _ a | .stagedWrite _ a _ => aligned a
  | .tierMvm _ w _ => wordIs w 0 0
  | .dtuTile _ w => wordIs w 1 0
  | .vecCopy _ w => wordIs w 2 0
  | .vecAdd _ w => wordIs w 2 1
  | .vecMul _ w => wordIs w 2 2
  | .vecFma _ w => wordIs w 2 3
  | .vecMax _ w => wordIs w 2 4
  | .rowscale _ w => wordIs w 2 5
  | .exp _ w => wordIs w 2 6
  | .rcp _ w => wordIs w 2 7
  | .rsqrt _ w => wordIs w 2 8
  | .rowsum _ w => wordIs w 2 9
  | .rowmax _ w => wordIs w 2 10
  | .rowsumsq _ w => wordIs w 2 11
  | .smaxn _ w => wordIs w 2 12
  | .smaxr _ w => wordIs w 2 13
  | .topk _ w => wordIs w 2 14
  | .sample _ w => wordIs w 2 15
  | .rand _ w => wordIs w 2 16
  | .scan _ w => wordIs w 2 17
  | .send _ w => wordIs w 3 0
  | .recv _ w => wordIs w 4 0
  | .recvred _ w => wordIs w 4 1
  | .redAdd _ w => wordIs w 5 0
  | .redMax _ w => wordIs w 5 1
  | .barArriveWait _ w => wordIs w 6 0
  | .flagAdd _ w => wordIs w 7 0
  | .waitGe _ w => wordIs w 8 0
  | .streamLoad _ w => wordIs w 9 0
  | .streamStore _ w => wordIs w 9 1
  | .kvload _ w => wordIs w 9 2
  | .kvstore _ w => wordIs w 9 3
  | .adload _ w => wordIs w 9 4
  | .gather _ w => wordIs w 9 5
  | .ctrlForeach _ w => wordIs w 10 0
  | .ctrlEndeach _ w => wordIs w 10 1
  | .ctrlSeti _ w => wordIs w 10 2
  | .ctrlAddi _ w => wordIs w 10 3
  | .ctrlDivc _ w => wordIs w 10 4
  | .ctrlBr _ w => wordIs w 10 5
  | .ctrlLoop _ w => wordIs w 10 6
  | .ctrlLayer _ w => wordIs w 10 7
  | .ctrlEnd _ w => wordIs w 10 8
  | .beginLoad _ d _ => entryIs d 1
  | .shardPosted _ d => entryIs d 2
  | .endStream _ d => entryIs d 3
  | .commit _ d => entryIs d 4
  | .rollback _ d => entryIs d 5
  | .release _ d => entryIs d 6
  | .abort _ d => entryIs d 7
  | .adapterLoad _ d _ => entryIs d 8
  | .adapterFree _ d => entryIs d 9
  | .shadowRebuild _ d => entryIs d 10
  | .generate _ e => entryIs e 1
  | .cancel _ e => entryIs e 2
  | .prefixDrop _ e => entryIs e 3
  | .copyIn _ d => entryIs d 1
  | .copyOut _ d => entryIs d 2
  | .zero _ d => entryIs d 3
  | .probePass _ _ codes => codes.length == 64 && codes.all (fun c => c.length == 34 && codesOk c)
  | .verifyRead _ _ _ cells | .retuneSlot _ _ _ cells => cellsOk cells
  | .fullVerifySweep tiers => tiers.all tierOk
  | .auditComparison _ _ expected => codesOk expected
  | .standAloneAudit _ _ codes expected => codesOk codes && codesOk expected && codes.length == expected.length
  | .railExcursion rail _ | .railRecovery rail | .railExcursionTimeout rail => rail != 7
  | .timeRead _ | .conversion _ _ | .tierMvmComplete _ _ _ | .tmvmAbort _ _ | .reemit _ _ _ _ | .replayBlocksArrive _ _ _ _
  | .recoveryPass _ _ _ | .programSlot _ _ _ | .capClear _ _ | .spareArrayMap _ _ | .spareActive _ | .courseBoundary _
  | .dtuTileEnd _ _ | .stepAbort _ _ _ | .cancelFlit _ _ | .tabWatchdog _ | .tabScrub _ _ | .tabReloadComplete _
  | .coreHalt _ _ | .coreResume _ _ | .faultClear _ _ | .flitArrive _ _ _ _ _ _ | .reductionContribution _ _ _
  | .barrierArrive _ _ | .barrierRelease _ _ _ | .flagAddArrive _ _ _ _ | .mapUpdate _ | .mapApplied | .linkWatchdog _ _
  | .fabricSelfTestDone _ _ | .shadowRebuildDone _ | .manifestArrival _ _ _ _ | .manifestTimeout _ | .shardComplete _ _ _ _ _
  | .shardTimeout _ _ | .relayHead _ _ _ _ _ _ | .relayData _ _ _ | .relayReq _ _ _ _ | .epochPrepare _ _ | .epochReady _ _
  | .scaleCalibrationDone _ _ _ | .epochPrepared _ _ | .epochRefused _ _ | .epochCommit _ _ | .epochAbort _ _ | .epochRetire _ _
  | .prepareTimeout _ | .passFormation _ | .stepComplete _ _ | .tokenWrite _ | .completionWrite _ | .admitMessage _ _
  | .passMessage _ _ _ | .short _ _ | .servingRelease _ _ | .deadlineExpiry _ | .pagewaitTimeout _ | .pauseResume _
  | .cancelDrainComplete _ | .portReset _ _ | .flr _ | .flrComplete _ _ | .d3hotEntry _ | .ownClaim _ _ | .handoverOffer _
  | .handoverAccept _ _ | .handoverExpiry | .reclaim _ _ | .ringEnable _ _ | .ringDisable _ _ | .ringStop _ _ | .ringResume _ _
  | .dbIndex _ _ _ | .dbArm _ _ _ | .coalesceTimer _ | .dmaPiece _ _ | .pageRequestResponse _ _ | .pageRequestTimeout _
  | .atsInvalidation _ _ _ | .mailboxCommit _ _ _ | .mailboxAck _ _ _ | .mailboxWithdraw _ _ | .mailboxTimeout _ | .echo _
  | .mbxDbClear _ _ | .mbxDbMaskWrite _ _ | .clockHold _ _ | .holdLapse _ | .heldAccessRelease _ | .trainingStart _ _
  | .trainingDone _ _ | .trainingTimeout _ | .fullHello _ _ _ | .helloTimeout _ | .shortHello _ _ | .helloReq _ | .helloTimer _
  | .linkReplay _ _ | .laneFail _ _ | .laneDrop _ _ _ | .goodbye _ | .partnerLoss _ | .retrain _ _ | .portDisable _ _ | .msg _ _ _
  | .chainWaitTimeout _ | .tierDue _ _ _ | .tierOverdue _ _ _ | .sweepComplete | .calStart _ _ _ | .calAbort _ | .calStep _
  | .recalibrationTrigger _ | .mcvResult _ _ | .mcvResultRead _ | .mcvDropRead _ | .sensorSample _ _ | .powerInterval _ _
  | .capAlert | .capAlertDeassert | .trayCapSet _ _ | .scanStall _ | .tripAck _ _ | .idleGate _ | .courseNap _ _ _
  | .pstateNap _ _ | .napEntryComplete | .pstateRest _ _ | .restEntry | .pstateActive _ _ | .patrolScrub _ _
  | .redundancyCompare _ _ _ _ _ | .twinWaitExpiry _ _ _ | .auditAbandon _ _ | .auditRollback _ _ _ _ _ | .confirmation _ _ _
  | .fieldTestStart _ _ | .fieldTestAbort _ _ | .fieldTestDone _ | .faultReport _ _ _ _ | .aggregationWindowClose _ | .dieLogWrite
  | .logRdWrite _ _ | .ffcClear _ | .stepWatchdog _ _ | .courseHeartbeatMiss _ | .partitionHeartbeatMiss _ | .firmwareWatchdog
  | .resetOverrun _ | .contextReset _ _ _ | .courseReset _ _ | .courseResetComplete _ | .partitionReset _ _ | .chipReset _
  | .devReset | .resetNotice _ _ | .powerUp _ | .aonPowerOnReset | .stackRailTimeout | .crystalLoss | .refclkSysLoss
  | .refclkSysRestore | .pcieRefclkLoss _ | .dynamicAddressAssignment _ | .firmwareInstall _ _ _ | .commitSvn _ | .keyStage _ _ _
  | .seal _ | .stageAbort _ | .configRollback _ | .approve _ _ | .stageTimeout | .getStage _ _ | .getNonce _ | .generationRecord
  | .negotiateAlgorithms _ _ | .getMeasurements _ _ _ _ | .getCertificate _ _ _ _ | .challenge _ _ _ | .keyExchange _ _ _ _
  | .barMaxRead _ | .peakRead _ | .napExitComplete | .crystalReturn | .pcieLinkUp _ _ _ _ _ | .devResetRelease | .bar4Access _ _ _
  | .atsTranslationCompletion _ _ _ => true

end Sys2Proof
end

