-- ==== Sys2Proof/Decode.lean ====
section
/-! DEFINITION. Decode.lean: the command that a word of the operation table spells. -/
namespace Sys2Proof

/-- No row of the operation table gives bits: a command is not spelled by a word. -/
def decodeTableWord (_nbits _w : Nat) : Option Instr := none

end Sys2Proof
end

