-- ==== Sys2Proof/Config.lean ====
section
/-! DEFINITION. Config.lean: what an implementation fixes and what the spec leaves open. Each constant has no body, so
nothing can be proved of its value. -/
namespace Sys2Proof.Config

/-- `HIF_ID.VENDOR`: Kwejan's PCI-SIG-assigned vendor identifier, which the manual does not state (R264). -/
opaque vendorId : BitVec 16
/-- `HIF_DSN`: the device's serial number (R263). -/
opaque serialNumber : BitVec 64
/-- `CAL_BG0`: the factory value of bandgap 0 in µV. -/
opaque factoryBandgap0 : BitVec 24
/-- `CAL_BG1`: the factory value of bandgap 1 in µV. -/
opaque factoryBandgap1 : BitVec 24
/-- The `n`-th fresh value the device draws: a nonce or a transaction number that the manual calls fresh. -/
opaque fresh64 : Nat → BitVec 64
/-- The analog error of the `n`-th conversion, in sixty-fourths of a code (R71, R133): the manual bounds its spread
statistically and never fixes a value. -/
opaque analogError : Nat → Int
/-- The `n`-th 32-bit value the manual leaves open. -/
opaque free32 : Nat → BitVec 32
/-- What a byte of stack memory at or past its 288 GiB reads as: the manual gives no such byte. -/
opaque absentByte : Nat → BitVec 8
/-- The element of an operand format (by its FMT code) that stands for an FP32 value out of the format's range, or for
any value when the tensor scale is zero or not finite: the manual states no result. -/
opaque outOfFormat : Nat → BitVec 32 → BitVec 32
/-- RAND's uniform variate of a seed and a position (R159): the generator's function is not given. -/
opaque randValue : BitVec 64 → Nat → BitVec 32
/-- A ceiling division of an index register by zero (CTRL.DIVC): no result is stated. -/
opaque divByZero : Nat → BitVec 32
/-- Byte `i` of what an ADLOAD of (adapter handle, layer, part) fetches, and of the `n`-th GATHER: the manual gives neither
the adapter pool's layout nor GATHER's addresses. -/
opaque adapterByte : Nat → Nat → Nat → Nat → BitVec 8
opaque gatherByte : Nat → Nat → BitVec 8
/-- LOGPROB of a word that is no finite positive number or zero: the manual states none (R259). -/
opaque logProb : BitVec 32 → BitVec 16
/-- EXP, RCP and RSQRT of an FP32 operand: the manual bounds the relative error (kept in Machine/Elementary.lean) and fixes no
result (R145). -/
opaque expValue : BitVec 32 → BitVec 32
opaque rcpValue : BitVec 32 → BitVec 32
opaque rsqrtValue : BitVec 32 → BitVec 32
/-- The level of a cell reading outside the span of the reference readings, in sixty-fourths (R334): interpolation has
no result there. -/
opaque outsideLevel : Int → Int
/-- SHAKE256 of a byte string, first 256 bits: a named algorithm whose mathematics the manual does not give. -/
opaque shake256 : List (BitVec 8) → BitVec 256
/-- Byte `i` of the shard that has a digest: what a holder resends (R211). -/
opaque shardByte : BitVec 256 → Nat → BitVec 8
/-- A Falcon-1024 signature of a byte string by the device identity (R427). -/
opaque identitySign : List (BitVec 8) → List (BitVec 8)
/-- The certificate chain of slot 0 (R429). -/
opaque certificateChain : List (BitVec 8)
/-- The digest of the device's identity key (R319). -/
opaque identityDigest : BitVec 256
/-- The `n`-th secp384r1 public value the responder gives in a key exchange (R430). -/
opaque exchangeValue : Nat → List (BitVec 8)
/-- Bytes of the boot ROM and of a firmware image, which measurements digest (R431): 0 the ROM, 1 image A, 2 image B. -/
opaque codeBytes : Nat → List (BitVec 8)
/-- The digest of a configuration record, and of the hardware configuration that measurement block 5 covers, from what they hold:
the manual gives neither layout (R431, R439). -/
opaque recordDigest : Nat → List (Nat × Nat) → BitVec 256
opaque hardwareDigest : List (Nat × Nat) → BitVec 256
/-- The key digest of slot 0, fixed at manufacture (R428). -/
opaque slot0Digest : BitVec 256

end Sys2Proof.Config
end

