-- ==== Sys2Proof/Machine/Bits.lean ====
section
/-! DEFINITION. Machine/Bits.lean: bit fields, byte order (little-endian throughout, R3), signed values. -/
namespace Sys2Proof.Machine

/-- `n` bits of `w` from bit `lo` up. -/
def bits (w lo n : Nat) : Nat := (w >>> lo) % 2 ^ n

/-- Bit `i` of `w`. -/
def bit (w i : Nat) : Bool := bits w i 1 == 1

/-- `w` with `n` bits from `lo` replaced by `v`. -/
def setBits (w lo n v : Nat) : Nat :=
  w % 2 ^ lo + (v % 2 ^ n) * 2 ^ lo + (w >>> (lo + n)) * 2 ^ (lo + n)

/-- `w` with bit `i` set or cleared. -/
def setBit (w i : Nat) (b : Bool) : Nat := setBits w i 1 b.toNat

/-- The low `n` bytes of `v`, least significant first. -/
def leBytes (n v : Nat) : List Byte := (List.range n).map (fun i => BitVec.ofNat 8 (v >>> (8 * i)))

/-- The number whose bytes are given, least significant first. -/
def leNat : List Byte → Nat
  | [] => 0
  | b :: r => b.toNat + 256 * leNat r

/-- The `n`-bit two's-complement number whose bits are `w`. -/
def toSigned (n w : Nat) : Int :=
  if w % 2 ^ n < 2 ^ (n - 1) then (w % 2 ^ n : Nat) else ((w % 2 ^ n : Nat) : Int) - (2 ^ n : Nat)

/-- The `n` low bits of an integer's two's complement. -/
def ofSigned (n : Nat) (i : Int) : Nat := (i % ((2 ^ n : Nat) : Int)).toNat

/-- `v` held between `lo` and `hi`. -/
def clampInt (lo hi v : Int) : Int := if v < lo then lo else if hi < v then hi else v

/-- Number of bits set among the low `n`. -/
def popcount (n w : Nat) : Nat := ((List.range n).filter (fun i => bit w i)).length

/-- Bits set among the low `n`, lowest first. -/
def bitList (n w : Nat) : List Nat := (List.range n).filter (fun i => bit w i)

/-- The `n`-th 32-bit words of a list of bytes, four bytes each. -/
def wordsOf (bs : List Byte) : List W32 :=
  (List.range (bs.length / 4)).map (fun i => BitVec.ofNat 32 (leNat ((bs.drop (4 * i)).take 4)))

/-- Little-endian bytes of a list of words. -/
def bytesOf (ws : List W32) : List Byte := ws.flatMap (fun w => leBytes 4 w.toNat)

/-- Rounding of `num / den` to the nearest integer, ties away from zero as told (`up`: ties to the larger). -/
def roundDiv (num : Int) (den : Nat) (up : Bool) : Int :=
  if up then (2 * num + den) / (2 * den) else (2 * num + den - 1) / (2 * den)

/-- Element `i` of a list of numbers, 0 past its end. -/
def nth (l : List Int) (i : Nat) : Int := l.getD i 0

/-- The list with element `i` replaced. -/
def setNth {α : Type} (l : List α) (i : Nat) (v : α) : List α := l.set i v

/-- The first key from `lo` up to `lo + n` that satisfies `p`. -/
def firstFrom (lo n : Nat) (p : Nat → Bool) : Option Nat := ((List.range n).map (· + lo)).find? p

end Sys2Proof.Machine
end

