-- ==== Sys2Proof/Machine/Float.lean ====
section
/-! DEFINITION. Machine/Float.lean: numbers. A value is held exactly, as a dyadic number; FP32 arithmetic rounds the exact
result once, to nearest with ties to even (R126, R184). -/
namespace Sys2Proof.Machine

/-- A number: a NaN, an infinity, or `±m · 2^e`. -/
inductive Fp where
  | nan
  | inf (neg : Bool)
  | fin (neg : Bool) (m : Nat) (e : Int)
deriving DecidableEq, Repr

/-- Zero, and the number an integer stands for at scale `2^e`. -/
def Fp.zero : Fp := .fin false 0 0
def Fp.ofInt (i : Int) (e : Int) : Fp := .fin (decide (i < 0)) i.natAbs e

/-- The number a binary word stands for, with `eb` exponent and `mb` fraction bits; `ieee` when the top exponent holds
infinities and NaNs. -/
def Fp.decode (eb mb : Nat) (ieee : Bool) (w : Nat) : Fp :=
  let neg := bit w (eb + mb)
  let x := bits w mb eb
  let f := bits w 0 mb
  let bias : Int := 2 ^ (eb - 1) - 1
  if ieee && x == 2 ^ eb - 1 then (if f = 0 then .inf neg else .nan)
  else if x = 0 then .fin neg f (1 - bias - mb)
  else .fin neg (2 ^ mb + f) (x - bias - mb)

/-- An FP32 word's number. -/
def Fp.of32 (w : W32) : Fp := Fp.decode 8 23 true w.toNat

/-- Place of the leading bit of a number that is not zero: floor(log2 (m · 2^e)). -/
def topBit (m : Nat) (e : Int) : Int := (Nat.log2 m : Int) + e

/-- Comparison of absolute values of finite numbers: |a| < |b|. -/
def absBelow (m : Nat) (e : Int) (n : Nat) (f : Int) : Bool :=
  let q := min e f
  decide (m <<< (e - q).toNat < n <<< (f - q).toNat)

/-- round_even of the quotient of two dyadic numbers times `2^k`: the integer nearest to `m·2^e / (n·2^f) · 2^k`. -/
def roundQuotient (m : Nat) (e : Int) (n : Nat) (f k : Int) : Nat :=
  let t := e - f + k
  let a := if 0 ≤ t then m <<< t.toNat else m
  let b := if 0 ≤ t then n else n <<< (-t).toNat
  let d := a / b
  let r := a - d * b
  if 2 * r < b then d else if b < 2 * r then d + 1 else d + d % 2

/-- floor(log2 (m·2^e / (n·2^f))) for numbers that are not zero. -/
def logQuotient (m : Nat) (e : Int) (n : Nat) (f : Int) : Int :=
  let g := topBit m e - topBit n f
  -- the quotient lies in [2^(g-1), 2^(g+1))
  if absBelow m e n (f + g) then g - 1 else g

/-- The word of a binary format nearest to the finite quotient `m·2^e / (n·2^f)`, ties to even; `none` past the largest
finite one, which is `top` in units of fraction and exponent bits together. -/
def packQuotient (eb mb top : Nat) (m : Nat) (e : Int) (n : Nat) (f : Int) : Option Nat :=
  if m = 0 then some 0 else
  let bias : Int := 2 ^ (eb - 1) - 1
  let least : Int := 1 - bias - mb
  let q := max (logQuotient m e n f - mb) least
  let d := roundQuotient m e n f (-q)
  let w := if q = least then d else ((q - least).toNat <<< mb) + d
  if w ≤ top then some w else none
def packFinite (eb mb top : Nat) (m : Nat) (e : Int) : Option Nat := packQuotient eb mb top m e 1 0

/-- The FP32 word nearest to a number. -/
def Fp.to32 : Fp → W32
  | .nan => 0x7FC00000
  | .inf neg => if neg then 0xFF800000 else 0x7F800000
  | .fin neg m e =>
    let w := (packFinite 8 23 0x7F7FFFFF m e).getD 0x7F800000
    BitVec.ofNat 32 (w + (if neg then 2 ^ 31 else 0))

/-- The exact integer of a finite number in units `2^q`, where `q` is at most its exponent. -/
def unitsOf (neg : Bool) (m : Nat) (e q : Int) : Int :=
  let v : Int := (m <<< (e - q).toNat : Nat)
  if neg then -v else v

/-- Exact sum; opposite infinities have none. The sum of two zeros of one sign keeps the sign. -/
def Fp.add : Fp → Fp → Fp
  | .nan, _ | _, .nan => .nan
  | .inf a, .inf b => if a = b then .inf a else .nan
  | .inf a, _ => .inf a
  | _, .inf b => .inf b
  | .fin a m e, .fin b n f =>
    let q := min e f
    let v := unitsOf a m e q + unitsOf b n f q
    if v = 0 then .fin (a && b && m == 0 && n == 0) 0 0 else Fp.ofInt v q

def Fp.neg : Fp → Fp
  | .nan => .nan
  | .inf a => .inf (!a)
  | .fin a m e => .fin (!a) m e

/-- Exact product. -/
def Fp.mul : Fp → Fp → Fp
  | .nan, _ | _, .nan => .nan
  | .inf a, .inf b => .inf (a != b)
  | .inf a, .fin b n _ | .fin b n _, .inf a => if n = 0 then .nan else .inf (a != b)
  | .fin a m e, .fin b n f => .fin (a != b) (m * n) (e + f)

/-- A number times a power of two. -/
def Fp.scale (k : Int) : Fp → Fp
  | .fin a m e => .fin a m (e + k)
  | x => x

/-- `a < b` for numbers that are not NaN, with −0 below +0 (R184). -/
def Fp.below : Fp → Fp → Bool
  | .nan, _ | _, .nan => false
  | .inf a, .inf b => a && !b
  | .inf a, .fin _ _ _ => a
  | .fin _ _ _, .inf b => !b
  | .fin a m e, .fin b n f =>
    let q := min e f
    let x := unitsOf a m e q
    let y := unitsOf b n f q
    decide (x < y) || (x == y && m == 0 && a && !b)

/-- Maximum: NaN if either is. -/
def Fp.max : Fp → Fp → Fp
  | .nan, _ | _, .nan => .nan
  | x, y => if Fp.below x y then y else x

/-! FP32 arithmetic on words: the exact result, rounded once -/

def fpAdd (a b : W32) : W32 := (Fp.add (Fp.of32 a) (Fp.of32 b)).to32
def fpSub (a b : W32) : W32 := (Fp.add (Fp.of32 a) (Fp.of32 b).neg).to32
def fpMul (a b : W32) : W32 := (Fp.mul (Fp.of32 a) (Fp.of32 b)).to32
def fpFma (a b c : W32) : W32 := (Fp.add (Fp.mul (Fp.of32 a) (Fp.of32 b)) (Fp.of32 c)).to32
def fpMax (a b : W32) : W32 := (Fp.max (Fp.of32 a) (Fp.of32 b)).to32
def fpSum (l : List W32) : W32 := match l with | [] => 0 | a :: r => r.foldl fpAdd a
def fpNegInf : W32 := 0xFF800000

/-- E8M0: the power of two of an exponent code (Table 3.2); 0xFF is a group of NaN, 0x00 a group of zeros. -/
def e8m0 (x : Fp) (code : Nat) : Fp :=
  if code = 255 then .nan else if code = 0 then .zero else x.scale ((code : Int) - 127)

end Sys2Proof.Machine
end

