-- ==== Sys2Proof/Machine/Activation.lean ====
section
/-! DEFINITION. Machine/Activation.lean: the activation tables of R80: each function at −16 to +16 in steps of 1/16,
evaluated exactly and rounded to FP32, and linear interpolation between entries. -/
namespace Sys2Proof.Machine

def geluTable0 : List Nat := [
  0x80000000, 0x80000000, 0x80000000, 0x80000000, 0x80000000, 0x80000000, 0x80000000, 0x80000000, 0x80000000, 0x80000000,
  0x80000000, 0x80000000, 0x80000000, 0x80000000, 0x80000000, 0x80000000, 0x80000000, 0x80000000, 0x80000000, 0x80000000,
  0x80000000, 0x80000000, 0x80000000, 0x80000000, 0x80000000, 0x80000000, 0x80000000, 0x80000001, 0x80000002, 0x80000006,
  0x8000000D, 0x80000020, 0x8000004E, 0x800000BA, 0x800001BD, 0x80000420, 0x800009C3, 0x80001701, 0x80003603, 0x80007E50,
  0x8001263E, 0x8002AAC3, 0x80062A1E, 0x800E3163, 0x80208CBC, 0x804A5B99, 0x80A9340B, 0x813FC344, 0x81D87B8A, 0x82736F9D,
  0x830856C3, 0x83981EE1, 0x84291138, 0x84BB2B48, 0x854E66A9, 0x85E2B8B5, 0x8678124A, 0x87072FCC, 0x8792C3FF, 0x881EB705,
  0x88AAF7C2, 0x893772CC, 0x89C41292, 0x8A50BF87]
def geluTable1 : List Nat := [
  0x8ADD6065, 0x8B69DA76, 0x8BF611ED, 0x8C80F523, 0x8D06A35C, 0x8D8C054D, 0x8E110CF3, 0x8E95ACD7, 0x8F19D849, 0x8F9D8397,
  0x9020A44A, 0x90A33152, 0x91252335, 0x91A6742F, 0x92272056, 0x92A725A6, 0x9326840F, 0x93A53D73, 0x942355A0, 0x94A0D23A,
  0x951DBAA0, 0x959A17C9, 0x9615F418, 0x96915B2A, 0x970C59A1, 0x9786FCEA, 0x98015302, 0x9876D470, 0x98EAA1E7, 0x995E2AF5,
  0x99D18B77, 0x9A44DE39, 0x9AB83C9B, 0x9B2BBE4A, 0x9B9F78FB, 0x9C13803C, 0x9C87E552, 0x9CF96E3B, 0x9D64042D, 0x9DCFA09B,
  0x9E3C52F1, 0x9EAA261E, 0x9F1920CD, 0x9F8945BA, 0x9FF52817, 0xA05A0F67, 0xA0C133AD, 0xA12A826C, 0xA195E52E, 0xA2034251,
  0xA264FB97, 0xA2C6F3B9, 0xA32C2F6E, 0xA394702C, 0xA3FEEF01, 0xA45A0FEF, 0xA4B9CBB4, 0xA51DAF93, 0xA5854E79, 0xA5E0835F,
  0xA63C52BF, 0xA69D59AB, 0xA702F54B, 0xA759227B]
def geluTable2 : List Nat := [
  0xA7B34E96, 0xA8137DC8, 0xA871B1D7, 0xA8C5428B, 0xA9205DA6, 0xA981DCF3, 0xA9D180D2, 0xAA2854F9, 0xAA86B932, 0xAAD6CED9,
  0xAB2A9484, 0xAB86EDF5, 0xABD4A034, 0xAC26E065, 0xAC827591, 0xACCB2E82, 0xAD1D9A58, 0xAD738ABE, 0xADBB6FA2, 0xAE0FB11E,
  0xAE5B73DC, 0xAEA6EC86, 0xAEFCF1DC, 0xAF3EE5F1, 0xAF8F821F, 0xAFD6EC05, 0xB0204EA8, 0xB06E34EA, 0xB0B049C0, 0xB101F43F,
  0xB13ED8C3, 0xB18B9672, 0xB1CB64B3, 0xB2139A3A, 0xB255643D, 0xB299A5F1, 0xB2DC656C, 0xB31D7392, 0xB360160D, 0xB39ED5FF,
  0xB3E049EC, 0xB41DBC70, 0xB45CFE43, 0xB49A33C8, 0xB4D659EF, 0xB5146597, 0xB54CAA83, 0xB58C94F3, 0xB5C05E5D, 0xB603196C,
  0xB631FC8E, 0xB670B178, 0xB6A21B39, 0xB6D97F6D, 0xB7115588, 0xB741767D, 0xB7804203, 0xB7A963AB, 0xB7DED45F, 0xB811FC9A,
  0xB83E880C, 0xB877AFA4, 0xB8A05B52, 0xB8CED0A4]
def geluTable3 : List Nat := [
  0xB904D6BD, 0xB929F88E, 0xB9589ED6, 0xB9897D2E, 0xB9ADD5E0, 0xB9DAEAB0, 0xBA094BC6, 0xBA2B86F4, 0xBA557028, 0xBA8443A9,
  0xBAA344BC, 0xBAC8BB9D, 0xBAF5CDAE, 0xBB15E447, 0xBB361288, 0xBB5C44E4, 0xBB84B34C, 0xBB9F3DBF, 0xBBBE5028, 0xBBE2852A,
  0xBC064197, 0xBC1E7DC0, 0xBC3A5477, 0xBC5A26F6, 0xBC7E590F, 0xBC93A7D0, 0xBCAAB758, 0xBCC48B9E, 0xBCE1524D, 0xBD009A63,
  0xBD122B40, 0xBD25699A, 0xBD3A5E7C, 0xBD510D16, 0xBD6971AE, 0xBD81C045, 0xBD8F9270, 0xBD9E1FE1, 0xBDAD5395, 0xBDBD1288,
  0xBDCD3B52, 0xBDDDA5D8, 0xBDEE2317, 0xBDFE7D08, 0xBE073B51, 0xBE0EE605, 0xBE16196B, 0xBE1CAD40, 0xBE227686, 0xBE2747DB,
  0xBE2AF1F3, 0xBE2D4418, 0xBE2E0CC0, 0xBE2D1A2C, 0xBE2A3B12, 0xBE253F50, 0xBE1DF8A2, 0xBE143B52, 0xBE07DEED, 0xBDF17DCB,
  0xBDCD765D, 0xBDA3718E, 0xBD6688B6, 0xBCF33DFE]
def geluTable4 : List Nat := [
  0x0, 0x3D066101, 0x3D8CBBA5, 0x3DDC8E72, 0x3E1944D1, 0x3E47411A, 0x3E782113, 0x3E95E257, 0x3EB103AF, 0x3ECD6058,
  0x3EEAE277, 0x3F04B975, 0x3F147CD0, 0x3F24AEFA, 0x3F354383, 0x3F462E09, 0x3F57625F, 0x3F68D4B0, 0x3F7A79A5, 0x3F86233F,
  0x3F8F1896, 0x3F981830, 0x3FA11DCF, 0x3FAA25A2, 0x3FB32C4B, 0x3FBC2ED7, 0x3FC52AC7, 0x3FCE1E02, 0x3FD706D9, 0x3FDFE3FC,
  0x3FE8B473, 0x3FF17797, 0x3FFA2D0C, 0x40016A5A, 0x4005B753, 0x4009FD96, 0x400E3D5B, 0x401276E9, 0x4016AA91, 0x401AD8B0,
  0x401F01A7, 0x402325D9, 0x402745AC, 0x402B6182, 0x402F79BE, 0x40338EBD, 0x4037A0D8, 0x403BB061, 0x403FBDA6, 0x4043C8EF,
  0x4047D27B, 0x404BDA87, 0x404FE146, 0x4053E6E9, 0x4057EB97, 0x405BEF78, 0x405FF2A9, 0x4063F548, 0x4067F76B, 0x406BF929,
  0x406FFA91, 0x4073FBB4, 0x4077FC9E, 0x407BFD58]
def geluTable5 : List Nat := [
  0x407FFDED, 0x4081FF31, 0x4083FF60, 0x4085FF84, 0x4087FFA1, 0x4089FFB7, 0x408BFFC8, 0x408DFFD6, 0x408FFFE0, 0x4091FFE8,
  0x4093FFEE, 0x4095FFF2, 0x4097FFF6, 0x4099FFF8, 0x409BFFFA, 0x409DFFFC, 0x409FFFFD, 0x40A1FFFE, 0x40A3FFFE, 0x40A5FFFF,
  0x40A7FFFF, 0x40A9FFFF, 0x40AC0000, 0x40AE0000, 0x40B00000, 0x40B20000, 0x40B40000, 0x40B60000, 0x40B80000, 0x40BA0000,
  0x40BC0000, 0x40BE0000, 0x40C00000, 0x40C20000, 0x40C40000, 0x40C60000, 0x40C80000, 0x40CA0000, 0x40CC0000, 0x40CE0000,
  0x40D00000, 0x40D20000, 0x40D40000, 0x40D60000, 0x40D80000, 0x40DA0000, 0x40DC0000, 0x40DE0000, 0x40E00000, 0x40E20000,
  0x40E40000, 0x40E60000, 0x40E80000, 0x40EA0000, 0x40EC0000, 0x40EE0000, 0x40F00000, 0x40F20000, 0x40F40000, 0x40F60000,
  0x40F80000, 0x40FA0000, 0x40FC0000, 0x40FE0000]
def geluTable6 : List Nat := [
  0x41000000, 0x41010000, 0x41020000, 0x41030000, 0x41040000, 0x41050000, 0x41060000, 0x41070000, 0x41080000, 0x41090000,
  0x410A0000, 0x410B0000, 0x410C0000, 0x410D0000, 0x410E0000, 0x410F0000, 0x41100000, 0x41110000, 0x41120000, 0x41130000,
  0x41140000, 0x41150000, 0x41160000, 0x41170000, 0x41180000, 0x41190000, 0x411A0000, 0x411B0000, 0x411C0000, 0x411D0000,
  0x411E0000, 0x411F0000, 0x41200000, 0x41210000, 0x41220000, 0x41230000, 0x41240000, 0x41250000, 0x41260000, 0x41270000,
  0x41280000, 0x41290000, 0x412A0000, 0x412B0000, 0x412C0000, 0x412D0000, 0x412E0000, 0x412F0000, 0x41300000, 0x41310000,
  0x41320000, 0x41330000, 0x41340000, 0x41350000, 0x41360000, 0x41370000, 0x41380000, 0x41390000, 0x413A0000, 0x413B0000,
  0x413C0000, 0x413D0000, 0x413E0000, 0x413F0000]
def geluTable7 : List Nat := [
  0x41400000, 0x41410000, 0x41420000, 0x41430000, 0x41440000, 0x41450000, 0x41460000, 0x41470000, 0x41480000, 0x41490000,
  0x414A0000, 0x414B0000, 0x414C0000, 0x414D0000, 0x414E0000, 0x414F0000, 0x41500000, 0x41510000, 0x41520000, 0x41530000,
  0x41540000, 0x41550000, 0x41560000, 0x41570000, 0x41580000, 0x41590000, 0x415A0000, 0x415B0000, 0x415C0000, 0x415D0000,
  0x415E0000, 0x415F0000, 0x41600000, 0x41610000, 0x41620000, 0x41630000, 0x41640000, 0x41650000, 0x41660000, 0x41670000,
  0x41680000, 0x41690000, 0x416A0000, 0x416B0000, 0x416C0000, 0x416D0000, 0x416E0000, 0x416F0000, 0x41700000, 0x41710000,
  0x41720000, 0x41730000, 0x41740000, 0x41750000, 0x41760000, 0x41770000, 0x41780000, 0x41790000, 0x417A0000, 0x417B0000,
  0x417C0000, 0x417D0000, 0x417E0000, 0x417F0000]
def geluTable8 : List Nat := [
  0x41800000]
/-- GELU, x · Φ(x). -/
def geluTable : List Nat := geluTable0 ++ geluTable1 ++ geluTable2 ++ geluTable3 ++ geluTable4 ++ geluTable5 ++ geluTable6 ++ geluTable7 ++ geluTable8

def siluTable0 : List Nat := [
  0xB5F1AADC, 0xB6001FD6, 0xB607DA53, 0xB6100B94, 0xB618BAB2, 0xB621EF2F, 0xB62BB100, 0xB6360893, 0xB640FED5, 0xB64C9D3A,
  0xB658EDC7, 0xB665FB18, 0xB673D067, 0xB6813CCE, 0xB68901A9, 0xB6913D70, 0xB699F734, 0xB6A33671, 0xB6AD0314, 0xB6B76582,
  0xB6C2669D, 0xB6CE0FCF, 0xB6DA6B0E, 0xB6E782E6, 0xB6F56283, 0xB7020ADD, 0xB709D487, 0xB71214E0, 0xB71AD2EE, 0xB724161C,
  0xB72DE649, 0xB7384BC8, 0xB7434F66, 0xB74EFA79, 0xB75B56DF, 0xB7686F0B, 0xB7764E0C, 0xB7827FCB, 0xB78A4806, 0xB7928644,
  0xB79B4176, 0xB7A480F2, 0xB7AE4C7C, 0xB7B8AC4D, 0xB7C3A916, 0xB7CF4C0A, 0xB7DB9EE6, 0xB7E8ABF6, 0xB7F67E20, 0xB8029074,
  0xB80A5042, 0xB81284EB, 0xB81B3541, 0xB824687D, 0xB82E2640, 0xB838769C, 0xB843621B, 0xB84EF1C4, 0xB85B2F22, 0xB868244E,
  0xB875DBF6, 0xB88230B2, 0xB889E042, 0xB89202FC]
def siluTable1 : List Nat := [
  0xB89A9F8B, 0xB8A3BCFC, 0xB8AD62C4, 0xB8B798C3, 0xB8C2674F, 0xB8CDD734, 0xB8D9F1C2, 0xB8E6C0CC, 0xB8F44EB9, 0xB9015341,
  0xB908E9E2, 0xB910F160, 0xB9197036, 0xB9226D3C, 0xB92BEFAD, 0xB935FF2C, 0xB940A3CB, 0xB94BE60E, 0xB957CEF7, 0xB9646807,
  0xB971BB49, 0xB97FD355, 0xB9875DAF, 0xB98F3F9B, 0xB99795AB, 0xB9A06676, 0xB9A9B8F1, 0xB9B39471, 0xB9BE00B7, 0xB9C905F0,
  0xB9D4ACBC, 0xB9E0FE37, 0xB9EE03FD, 0xB9FBC830, 0xBA052AC2, 0xBA0CDB9F, 0xBA14FCA4, 0xBA1D9417, 0xBA26A896, 0xBA30411D,
  0xBA3A6508, 0xBA451C19, 0xBA506E7E, 0xBA5C64D9, 0xBA69083F, 0xBA766246, 0xBA823E83, 0xBA89B192, 0xBA918FEA, 0xBA99DF73,
  0xBAA2A666, 0xBAABEB4E, 0xBAB5B514, 0xBAC00AF9, 0xBACAF4A6, 0xBAD67A26, 0xBAE2A3F4, 0xBAEF7AFB, 0xBAFD089F, 0xBB05AB60,
  0xBB0D37E2, 0xBB152F4B, 0xBB1D975C, 0xBB26761F]
def siluTable2 : List Nat := [
  0xBB2FD1EF, 0xBB39B17A, 0xBB441BC6, 0xBB4F1833, 0xBB5AAE82, 0xBB66E6D6, 0xBB73C9BE, 0xBB80B01A, 0xBB87D9D3, 0xBB8F66FC,
  0xBB975CC7, 0xBB9FC0A6, 0xBBA89850, 0xBBB1E9C3, 0xBBBBBB47, 0xBBC61371, 0xBBD0F929, 0xBBDC73A8, 0xBBE88A7F, 0xBBF5459E,
  0xBC0156A7, 0xBC08651E, 0xBC0FD2BF, 0xBC17A449, 0xBC1FDEB2, 0xBC288728, 0xBC31A316, 0xBC3B3822, 0xBC454C31, 0xBC4FE56C,
  0xBC5B0A3B, 0xBC66C14D, 0xBC731199, 0xBC80012F, 0xBC86CD92, 0xBC8DF1E2, 0xBC957231, 0xBC9D52B8, 0xBCA597DC, 0xBCAE4629,
  0xBCB76256, 0xBCC0F143, 0xBCCAF7FC, 0xBCD57BB7, 0xBCE081D6, 0xBCEC0FE4, 0xBCF82B9A, 0xBD026D6B, 0xBD0911D0, 0xBD100616,
  0xBD174D67, 0xBD1EEB01, 0xBD26E231, 0xBD2F3655, 0xBD37EAD9, 0xBD410334, 0xBD4A82E6, 0xBD546D77, 0xBD5EC672, 0xBD699163,
  0xBD74D1D3, 0xBD8045A0, 0xBD866090, 0xBD8CBB69]
def siluTable3 : List Nat := [
  0xBD9357D1, 0xBD9A375B, 0xBDA15B89, 0xBDA8C5C4, 0xBDB07759, 0xBDB87174, 0xBDC0B519, 0xBDC94321, 0xBDD21C2E, 0xBDDB40A8,
  0xBDE4B0B6, 0xBDEE6C32, 0xBDF872A1, 0xBE016194, 0xBE06AE44, 0xBE0C1E84, 0xBE11B139, 0xBE176501, 0xBE1D382B, 0xBE2328B3,
  0xBE29343A, 0xBE2F57FA, 0xBE3590C5, 0xBE3BDAF5, 0xBE42326B, 0xBE48927E, 0xBE4EF5FC, 0xBE555718, 0xBE5BAF67, 0xBE61F7D6,
  0xBE6828A3, 0xBE6E3951, 0xBE7420A9, 0xBE79D4AD, 0xBE7F4A95, 0xBE823B67, 0xBE84A679, 0xBE86DFE8, 0xBE88E0B1, 0xBE8AA16D,
  0xBE8C1A51, 0xBE8D4335, 0xBE8E1396, 0xBE8E829F, 0xBE8E8731, 0xBE8E17ED, 0xBE8D2B41, 0xBE8BB773, 0xBE89B2B1, 0xBE87131F,
  0xBE83CEED, 0xBE7FB8CC, 0xBE766409, 0xBE6B8D0C, 0xBE5F2205, 0xBE5111FD, 0xBE414D03, 0xBE2FC454, 0xBE1C6A81, 0xBE073394,
  0xBDE02A67, 0xBDAE0D74, 0xBD700553, 0xBCF800AB]
def siluTable4 : List Nat := [
  0x0, 0x3D03FFAB, 0x3D87FD56, 0x3DD1F28C, 0x3E0FEACD, 0x3E38CC6C, 0x3E63957F, 0x3E881DD6, 0x3E9F597F, 0x3EB77702,
  0x3ED06EFE, 0x3EEA397A, 0x3F0266FE, 0x3F1011CD, 0x3F1E1889, 0x3F2C7671, 0x3F3B26A8, 0x3F4A2446, 0x3F596A5F, 0x3F68F409,
  0x3F78BC68, 0x3F845F58, 0x3F8C7B1A, 0x3F94AF33, 0x3F9CF96C, 0x3FA557A5, 0x3FADC7D4, 0x3FB64806, 0x3FBED662, 0x3FC77126,
  0x3FD016AD, 0x3FD8C56A, 0x3FE17BEB, 0x3FEA38D6, 0x3FF2FAEC, 0x3FFBC105, 0x4002450A, 0x4006AA8F, 0x400B10A0, 0x400F76D8,
  0x4013DCD9, 0x40184251, 0x401CA6F4, 0x40210A80, 0x40256CBC, 0x4029CD75, 0x402E2C7D, 0x403289B0, 0x4036E4EC, 0x403B3E18,
  0x403F951C, 0x4043E9E7, 0x40483C6B, 0x404C8C9E, 0x4050DA7A, 0x405525FB, 0x40596F1F, 0x405DB5E7, 0x4061FA57, 0x40663C74,
  0x406A7C45, 0x406EB9D2, 0x4072F524, 0x40772E45]
def siluTable5 : List Nat := [
  0x407B6541, 0x407F9A25, 0x4081E67E, 0x4083FEE9, 0x4086165C, 0x40882CDD, 0x408A4273, 0x408C5725, 0x408E6AFA, 0x40907DFA,
  0x4092902A, 0x4094A193, 0x4096B23C, 0x4098C22A, 0x409AD165, 0x409CDFF4, 0x409EEDDC, 0x40A0FB25, 0x40A307D4, 0x40A513F0,
  0x40A71F7E, 0x40A92A84, 0x40AB3508, 0x40AD3F0F, 0x40AF489E, 0x40B151BA, 0x40B35A68, 0x40B562AD, 0x40B76A8E, 0x40B9720E,
  0x40BB7932, 0x40BD7FFF, 0x40BF8677, 0x40C18C9F, 0x40C3927B, 0x40C5980D, 0x40C79D5A, 0x40C9A264, 0x40CBA72E, 0x40CDABBC,
  0x40CFB011, 0x40D1B42E, 0x40D3B817, 0x40D5BBCD, 0x40D7BF55, 0x40D9C2AF, 0x40DBC5DD, 0x40DDC8E3, 0x40DFCBC2, 0x40E1CE7B,
  0x40E3D111, 0x40E5D386, 0x40E7D5DA, 0x40E9D810, 0x40EBDA29, 0x40EDDC26, 0x40EFDE0A, 0x40F1DFD4, 0x40F3E187, 0x40F5E323,
  0x40F7E4AA, 0x40F9E61D, 0x40FBE77D, 0x40FDE8CA]
def siluTable6 : List Nat := [
  0x40FFEA06, 0x4100F599, 0x4101F627, 0x4102F6AD, 0x4103F72D, 0x4104F7A5, 0x4105F818, 0x4106F884, 0x4107F8EB, 0x4108F94C,
  0x4109F9A8, 0x410AFA00, 0x410BFA52, 0x410CFAA1, 0x410DFAEB, 0x410EFB31, 0x410FFB74, 0x4110FBB2, 0x4111FBEE, 0x4112FC26,
  0x4113FC5C, 0x4114FC8E, 0x4115FCBE, 0x4116FCEC, 0x4117FD16, 0x4118FD3F, 0x4119FD65, 0x411AFD8A, 0x411BFDAC, 0x411CFDCD,
  0x411DFDEB, 0x411EFE08, 0x411FFE24, 0x4120FE3E, 0x4121FE57, 0x4122FE6E, 0x4123FE84, 0x4124FE99, 0x4125FEAD, 0x4126FEBF,
  0x4127FED1, 0x4128FEE2, 0x4129FEF1, 0x412AFF00, 0x412BFF0E, 0x412CFF1C, 0x412DFF28, 0x412EFF34, 0x412FFF3F, 0x4130FF4A,
  0x4131FF54, 0x4132FF5E, 0x4133FF67, 0x4134FF6F, 0x4135FF77, 0x4136FF7F, 0x4137FF86, 0x4138FF8D, 0x4139FF93, 0x413AFF99,
  0x413BFF9F, 0x413CFFA4, 0x413DFFA9, 0x413EFFAE]
def siluTable7 : List Nat := [
  0x413FFFB3, 0x4140FFB7, 0x4141FFBB, 0x4142FFBF, 0x4143FFC3, 0x4144FFC6, 0x4145FFC9, 0x4146FFCC, 0x4147FFCF, 0x4148FFD2,
  0x4149FFD4, 0x414AFFD7, 0x414BFFD9, 0x414CFFDB, 0x414DFFDD, 0x414EFFDF, 0x414FFFE1, 0x4150FFE3, 0x4151FFE5, 0x4152FFE6,
  0x4153FFE8, 0x4154FFE9, 0x4155FFEA, 0x4156FFEB, 0x4157FFED, 0x4158FFEE, 0x4159FFEF, 0x415AFFF0, 0x415BFFF1, 0x415CFFF1,
  0x415DFFF2, 0x415EFFF3, 0x415FFFF4, 0x4160FFF4, 0x4161FFF5, 0x4162FFF6, 0x4163FFF6, 0x4164FFF7, 0x4165FFF7, 0x4166FFF8,
  0x4167FFF8, 0x4168FFF9, 0x4169FFF9, 0x416AFFFA, 0x416BFFFA, 0x416CFFFA, 0x416DFFFB, 0x416EFFFB, 0x416FFFFB, 0x4170FFFB,
  0x4171FFFC, 0x4172FFFC, 0x4173FFFC, 0x4174FFFC, 0x4175FFFD, 0x4176FFFD, 0x4177FFFD, 0x4178FFFD, 0x4179FFFD, 0x417AFFFD,
  0x417BFFFE, 0x417CFFFE, 0x417DFFFE, 0x417EFFFE]
def siluTable8 : List Nat := [
  0x417FFFFE]
/-- SiLU, x ÷ (1 + e^−x). -/
def siluTable : List Nat := siluTable0 ++ siluTable1 ++ siluTable2 ++ siluTable3 ++ siluTable4 ++ siluTable5 ++ siluTable6 ++ siluTable7 ++ siluTable8

def tanhTable0 : List Nat := [
  0xBF800000, 0xBF800000, 0xBF800000, 0xBF800000, 0xBF800000, 0xBF800000, 0xBF800000, 0xBF800000, 0xBF800000, 0xBF800000,
  0xBF800000, 0xBF800000, 0xBF800000, 0xBF800000, 0xBF800000, 0xBF800000, 0xBF800000, 0xBF800000, 0xBF800000, 0xBF800000,
  0xBF800000, 0xBF800000, 0xBF800000, 0xBF800000, 0xBF800000, 0xBF800000, 0xBF800000, 0xBF800000, 0xBF800000, 0xBF800000,
  0xBF800000, 0xBF800000, 0xBF800000, 0xBF800000, 0xBF800000, 0xBF800000, 0xBF800000, 0xBF800000, 0xBF800000, 0xBF800000,
  0xBF800000, 0xBF800000, 0xBF800000, 0xBF800000, 0xBF800000, 0xBF800000, 0xBF800000, 0xBF800000, 0xBF800000, 0xBF800000,
  0xBF800000, 0xBF800000, 0xBF800000, 0xBF800000, 0xBF800000, 0xBF800000, 0xBF800000, 0xBF800000, 0xBF800000, 0xBF800000,
  0xBF800000, 0xBF800000, 0xBF800000, 0xBF800000]
def tanhTable1 : List Nat := [
  0xBF800000, 0xBF800000, 0xBF800000, 0xBF800000, 0xBF800000, 0xBF800000, 0xBF800000, 0xBF800000, 0xBF800000, 0xBF800000,
  0xBF800000, 0xBF800000, 0xBF800000, 0xBF800000, 0xBF800000, 0xBF800000, 0xBF800000, 0xBF800000, 0xBF800000, 0xBF800000,
  0xBF800000, 0xBF800000, 0xBF800000, 0xBF800000, 0xBF800000, 0xBF800000, 0xBF800000, 0xBF800000, 0xBF800000, 0xBF800000,
  0xBF800000, 0xBF800000, 0xBF800000, 0xBF800000, 0xBF800000, 0xBF800000, 0xBF800000, 0xBF800000, 0xBF800000, 0xBF800000,
  0xBF800000, 0xBF800000, 0xBF800000, 0xBF800000, 0xBF800000, 0xBF800000, 0xBF800000, 0xBF800000, 0xBF7FFFFF, 0xBF7FFFFF,
  0xBF7FFFFF, 0xBF7FFFFF, 0xBF7FFFFF, 0xBF7FFFFF, 0xBF7FFFFF, 0xBF7FFFFF, 0xBF7FFFFF, 0xBF7FFFFE, 0xBF7FFFFE, 0xBF7FFFFE,
  0xBF7FFFFE, 0xBF7FFFFD, 0xBF7FFFFD, 0xBF7FFFFD]
def tanhTable2 : List Nat := [
  0xBF7FFFFC, 0xBF7FFFFC, 0xBF7FFFFB, 0xBF7FFFFB, 0xBF7FFFFA, 0xBF7FFFF9, 0xBF7FFFF8, 0xBF7FFFF7, 0xBF7FFFF6, 0xBF7FFFF4,
  0xBF7FFFF3, 0xBF7FFFF1, 0xBF7FFFEF, 0xBF7FFFED, 0xBF7FFFEA, 0xBF7FFFE7, 0xBF7FFFE4, 0xBF7FFFE0, 0xBF7FFFDC, 0xBF7FFFD7,
  0xBF7FFFD2, 0xBF7FFFCC, 0xBF7FFFC5, 0xBF7FFFBD, 0xBF7FFFB4, 0xBF7FFFAA, 0xBF7FFF9F, 0xBF7FFF92, 0xBF7FFF83, 0xBF7FFF72,
  0xBF7FFF5F, 0xBF7FFF4A, 0xBF7FFF32, 0xBF7FFF16, 0xBF7FFEF7, 0xBF7FFED4, 0xBF7FFEAC, 0xBF7FFE7F, 0xBF7FFE4C, 0xBF7FFE11,
  0xBF7FFDD0, 0xBF7FFD85, 0xBF7FFD30, 0xBF7FFCD1, 0xBF7FFC64, 0xBF7FFBE9, 0xBF7FFB5E, 0xBF7FFAC0, 0xBF7FFA0D, 0xBF7FF942,
  0xBF7FF85C, 0xBF7FF758, 0xBF7FF631, 0xBF7FF4E2, 0xBF7FF367, 0xBF7FF1BA, 0xBF7FEFD4, 0xBF7FEDAC, 0xBF7FEB3C, 0xBF7FE878,
  0xBF7FE556, 0xBF7FE1C9, 0xBF7FDDC4, 0xBF7FD935]
def tanhTable3 : List Nat := [
  0xBF7FD40C, 0xBF7FCE32, 0xBF7FC791, 0xBF7FC00E, 0xBF7FB78C, 0xBF7FADE8, 0xBF7FA2FB, 0xBF7F969B, 0xBF7F8896, 0xBF7F78B4,
  0xBF7F66B6, 0xBF7F5254, 0xBF7F3B3D, 0xBF7F2115, 0xBF7F0376, 0xBF7EE1E8, 0xBF7EBBE9, 0xBF7E90E0, 0xBF7E6026, 0xBF7E28FB,
  0xBF7DEA85, 0xBF7DA3D0, 0xBF7D53CA, 0xBF7CF939, 0xBF7C92C1, 0xBF7C1ED6, 0xBF7B9BBB, 0xBF7B077E, 0xBF7A5FEB, 0xBF79A28F,
  0xBF78CCA7, 0xBF77DB1E, 0xBF76CA83, 0xBF7596FF, 0xBF743C4F, 0xBF72B5B8, 0xBF70FDFD, 0xBF6F0F5B, 0xBF6CE37D, 0xBF6A737A,
  0xBF67B7CC, 0xBF64A852, 0xBF613C53, 0xBF5D6A85, 0xBF59291E, 0xBF546DE6, 0xBF4F2E5B, 0xBF495FDA, 0xBF42F7D6, 0xBF3BEC1C,
  0xBF343328, 0xBF2BC480, 0xBF22991F, 0xBF18ABF0, 0xBF0DFA3F, 0xBF028438, 0xBEEC9A9F, 0xBED2B94F, 0xBEB77A9F, 0xBE9AFCC5,
  0xBE7ACBF5, 0xBE3DC7FD, 0xBDFEACC9, 0xBD7FAACD]
def tanhTable4 : List Nat := [
  0x0, 0x3D7FAACD, 0x3DFEACC9, 0x3E3DC7FD, 0x3E7ACBF5, 0x3E9AFCC5, 0x3EB77A9F, 0x3ED2B94F, 0x3EEC9A9F, 0x3F028438,
  0x3F0DFA3F, 0x3F18ABF0, 0x3F22991F, 0x3F2BC480, 0x3F343328, 0x3F3BEC1C, 0x3F42F7D6, 0x3F495FDA, 0x3F4F2E5B, 0x3F546DE6,
  0x3F59291E, 0x3F5D6A85, 0x3F613C53, 0x3F64A852, 0x3F67B7CC, 0x3F6A737A, 0x3F6CE37D, 0x3F6F0F5B, 0x3F70FDFD, 0x3F72B5B8,
  0x3F743C4F, 0x3F7596FF, 0x3F76CA83, 0x3F77DB1E, 0x3F78CCA7, 0x3F79A28F, 0x3F7A5FEB, 0x3F7B077E, 0x3F7B9BBB, 0x3F7C1ED6,
  0x3F7C92C1, 0x3F7CF939, 0x3F7D53CA, 0x3F7DA3D0, 0x3F7DEA85, 0x3F7E28FB, 0x3F7E6026, 0x3F7E90E0, 0x3F7EBBE9, 0x3F7EE1E8,
  0x3F7F0376, 0x3F7F2115, 0x3F7F3B3D, 0x3F7F5254, 0x3F7F66B6, 0x3F7F78B4, 0x3F7F8896, 0x3F7F969B, 0x3F7FA2FB, 0x3F7FADE8,
  0x3F7FB78C, 0x3F7FC00E, 0x3F7FC791, 0x3F7FCE32]
def tanhTable5 : List Nat := [
  0x3F7FD40C, 0x3F7FD935, 0x3F7FDDC4, 0x3F7FE1C9, 0x3F7FE556, 0x3F7FE878, 0x3F7FEB3C, 0x3F7FEDAC, 0x3F7FEFD4, 0x3F7FF1BA,
  0x3F7FF367, 0x3F7FF4E2, 0x3F7FF631, 0x3F7FF758, 0x3F7FF85C, 0x3F7FF942, 0x3F7FFA0D, 0x3F7FFAC0, 0x3F7FFB5E, 0x3F7FFBE9,
  0x3F7FFC64, 0x3F7FFCD1, 0x3F7FFD30, 0x3F7FFD85, 0x3F7FFDD0, 0x3F7FFE11, 0x3F7FFE4C, 0x3F7FFE7F, 0x3F7FFEAC, 0x3F7FFED4,
  0x3F7FFEF7, 0x3F7FFF16, 0x3F7FFF32, 0x3F7FFF4A, 0x3F7FFF5F, 0x3F7FFF72, 0x3F7FFF83, 0x3F7FFF92, 0x3F7FFF9F, 0x3F7FFFAA,
  0x3F7FFFB4, 0x3F7FFFBD, 0x3F7FFFC5, 0x3F7FFFCC, 0x3F7FFFD2, 0x3F7FFFD7, 0x3F7FFFDC, 0x3F7FFFE0, 0x3F7FFFE4, 0x3F7FFFE7,
  0x3F7FFFEA, 0x3F7FFFED, 0x3F7FFFEF, 0x3F7FFFF1, 0x3F7FFFF3, 0x3F7FFFF4, 0x3F7FFFF6, 0x3F7FFFF7, 0x3F7FFFF8, 0x3F7FFFF9,
  0x3F7FFFFA, 0x3F7FFFFB, 0x3F7FFFFB, 0x3F7FFFFC]
def tanhTable6 : List Nat := [
  0x3F7FFFFC, 0x3F7FFFFD, 0x3F7FFFFD, 0x3F7FFFFD, 0x3F7FFFFE, 0x3F7FFFFE, 0x3F7FFFFE, 0x3F7FFFFE, 0x3F7FFFFF, 0x3F7FFFFF,
  0x3F7FFFFF, 0x3F7FFFFF, 0x3F7FFFFF, 0x3F7FFFFF, 0x3F7FFFFF, 0x3F7FFFFF, 0x3F7FFFFF, 0x3F800000, 0x3F800000, 0x3F800000,
  0x3F800000, 0x3F800000, 0x3F800000, 0x3F800000, 0x3F800000, 0x3F800000, 0x3F800000, 0x3F800000, 0x3F800000, 0x3F800000,
  0x3F800000, 0x3F800000, 0x3F800000, 0x3F800000, 0x3F800000, 0x3F800000, 0x3F800000, 0x3F800000, 0x3F800000, 0x3F800000,
  0x3F800000, 0x3F800000, 0x3F800000, 0x3F800000, 0x3F800000, 0x3F800000, 0x3F800000, 0x3F800000, 0x3F800000, 0x3F800000,
  0x3F800000, 0x3F800000, 0x3F800000, 0x3F800000, 0x3F800000, 0x3F800000, 0x3F800000, 0x3F800000, 0x3F800000, 0x3F800000,
  0x3F800000, 0x3F800000, 0x3F800000, 0x3F800000]
def tanhTable7 : List Nat := [
  0x3F800000, 0x3F800000, 0x3F800000, 0x3F800000, 0x3F800000, 0x3F800000, 0x3F800000, 0x3F800000, 0x3F800000, 0x3F800000,
  0x3F800000, 0x3F800000, 0x3F800000, 0x3F800000, 0x3F800000, 0x3F800000, 0x3F800000, 0x3F800000, 0x3F800000, 0x3F800000,
  0x3F800000, 0x3F800000, 0x3F800000, 0x3F800000, 0x3F800000, 0x3F800000, 0x3F800000, 0x3F800000, 0x3F800000, 0x3F800000,
  0x3F800000, 0x3F800000, 0x3F800000, 0x3F800000, 0x3F800000, 0x3F800000, 0x3F800000, 0x3F800000, 0x3F800000, 0x3F800000,
  0x3F800000, 0x3F800000, 0x3F800000, 0x3F800000, 0x3F800000, 0x3F800000, 0x3F800000, 0x3F800000, 0x3F800000, 0x3F800000,
  0x3F800000, 0x3F800000, 0x3F800000, 0x3F800000, 0x3F800000, 0x3F800000, 0x3F800000, 0x3F800000, 0x3F800000, 0x3F800000,
  0x3F800000, 0x3F800000, 0x3F800000, 0x3F800000]
def tanhTable8 : List Nat := [
  0x3F800000]
/-- tanh. -/
def tanhTable : List Nat := tanhTable0 ++ tanhTable1 ++ tanhTable2 ++ tanhTable3 ++ tanhTable4 ++ tanhTable5 ++ tanhTable6 ++ tanhTable7 ++ tanhTable8

/-- Linear interpolation in a table for a finite value in −16 to +16: exact, rounded once. -/
def interpolate (table : List Nat) (neg : Bool) (m : Nat) (e : Int) : W32 :=
  let q := min e (-4)
  let v := unitsOf neg m e q + unitsOf false 16 0 q
  let step : Int := 2 ^ ((-4) - q).toNat
  let i := min 511 (v / step).toNat
  let y0 := Fp.of32 (BitVec.ofNat 32 (table.getD i 0))
  let y1 := Fp.of32 (BitVec.ofNat 32 (table.getD (i + 1) 0))
  let t := Fp.ofInt (v - i * step) (q + 4)
  (Fp.add y0 (Fp.mul (Fp.add y1 y0.neg) t)).to32

/-- A tabulated function, with its results below −16 and above +16. -/
def tabulated (table : List Nat) (low high : W32) (x : W32) : W32 :=
  match Fp.of32 x with
  | .nan => 0x7FC00000
  | .inf neg => if neg then low else high
  | .fin neg m e => if absBelow 16 0 m e then (if neg then low else high) else interpolate table neg m e

/-- Activation codes of the instruction word: 0 identity, 1 ReLU, 2 GELU, 3 SiLU, 4 tanh (Table 4.5). A code above 4 acts
as identity. -/
def activate (code : Nat) (x : W32) : W32 :=
  match code with
  | 1 => if bits x.toNat 31 1 = 1 ∧ Fp.of32 x ≠ .nan then 0 else x
  | 2 => tabulated geluTable 0 x x
  | 3 => tabulated siluTable 0 x x
  | 4 => tabulated tanhTable 0xBF800000 0x3F800000 x
  | _ => x

end Sys2Proof.Machine
end

