-- ==== Sys2Proof/Machine/RegTypes.lean ====
section
/-! DEFINITION. Machine/RegTypes.lean: what a register field is: its block, place, access code (Table 0.3), Reset value,
Survives value (Table 0.4) and what an instance of it belongs to (the selectors of R9). -/
namespace Sys2Proof.Machine

/-- The register blocks of Table 8.4. -/
inductive Block where
  | hif | mbx | rcb | dma | srv | ldr | noc | lnk | cal | mcv | trm | flt | sec | clk | prt | crs
deriving DecidableEq, Repr

/-- The access codes of Table 0.3. -/
inductive Access where
  | ro | rw | rwo | rw2 | w1c | w1s | wo | rc
deriving DecidableEq, Repr

/-- The Survives values of Table 0.4, and `none` for a field whose column holds a dash: a live value or an action bit,
which no reset returns by itself. -/
inductive Survives where
  | nv | power | chip | port | partition | course | context | none
deriving DecidableEq, Repr

/-- Strength of a Survives value: the larger survives more. `none` survives every reset by itself. -/
def Survives.rank : Survives → Nat
  | .context => 1 | .course => 2 | .partition => 3 | .port => 4 | .chip => 5 | .power => 6 | .nv => 7 | .none => 8

/-- What one instance of a field belongs to, and so what its instance number counts. -/
inductive Scope where
  /-- the die: instance 0 -/
  | die
  /-- one of the device's own copies, selected by address: instance = copy number -/
  | index
  /-- a requester (R9): instance = `Requester.code` -/
  | req
  /-- a requester and a course: 100 · code + course -/
  | reqCourse
  /-- tier of an array: (9 · core + array) · 128 + tier, with core = 110 · row + column -/
  | tier
  /-- array: 9 · core + array -/
  | array
  /-- physical core: 110 · row + column -/
  | core
  /-- course 0–99 -/
  | course
  /-- logical course 0–99 -/
  | logicalCourse
  /-- the spare of a row in a course column: 10 · row + column of courses -/
  | spareSite
  /-- router: 110 · row + column -/
  | router
  /-- partition 0–15 -/
  | part
  /-- epoch slot: 4 · partition + slot -/
  | epochSlot
  /-- adapter slot 0–1,023 -/
  | adapterSlot
  /-- request-table entry -/
  | request
  /-- PCIe port 0–1 -/
  | port
  /-- PCIe function, encoded as in `HIF_FSEL` -/
  | func
  /-- ring 0–4,095 -/
  | ring
  /-- DMA window: 8 · partition + window -/
  | window
  /-- mailbox 0–63 -/
  | mailbox
  /-- ZL port 0–7 -/
  | zlPort
  /-- temperature sensor 0–143 -/
  | sensor
  /-- rail 0–15 -/
  | rail
  /-- fault class 0–15 -/
  | cls
  /-- key slot 0–15 -/
  | keySlot
  /-- word of a key slot's digest: 8 · slot + word -/
  | keyWord
deriving DecidableEq, Repr

/-- A register field. -/
structure Field where
  /-- its place in `Reg.table` -/
  id : Nat
  block : Block
  /-- offset of its register in the block -/
  offset : Nat
  lsb : Nat
  width : Nat
  access : Access
  reset : Nat
  survives : Survives
  scope : Scope
  /-- the Reset value is the instance number itself (`NOC_COURSE_MAP.PHYS`) -/
  resetSelf : Bool
deriving DecidableEq, Repr

/-- The key under which the register store lists an instance of a field. -/
def Field.key (f : Field) (i : Nat) : Nat := f.id * 16777216 + i % 16777216

end Sys2Proof.Machine
end

