-- ==== Sys2Proof/Machine/RegTable.lean ====
section
/-! DEFINITION. Machine/RegTable.lean: every register field of the spec's register tables, one descriptor per field,
named `REGISTER_FIELD` as the manual names them. A 64-bit quantity held in two adjacent registers (R9) is ONE field of
width 64 at the low half's offset. Offsets count from the block's base (Table 8.4); an indexed register
(RCB, MBX, LNK, CRS, MCV_SCAN and the like) is listed once, at its first copy's offset. -/
namespace Sys2Proof.Machine.Reg

/-! `CRS_ARR_SEL` (02, R92) -/
def CRS_ARR_SEL_CROW : Field := ⟨0, .crs, 0x4000, 0, 4, .rw, 0, .context, .reqCourse, false⟩
def CRS_ARR_SEL_CCOL : Field := ⟨1, .crs, 0x4000, 4, 4, .rw, 0, .context, .reqCourse, false⟩
def CRS_ARR_SEL_ARRAY : Field := ⟨2, .crs, 0x4000, 8, 4, .rw, 0, .context, .reqCourse, false⟩
def CRS_ARR_SEL_TIER : Field := ⟨3, .crs, 0x4000, 12, 7, .rw, 0, .context, .reqCourse, false⟩
def CRS_ARR_SEL_CAPIDX : Field := ⟨4, .crs, 0x4000, 19, 4, .rw, 0, .context, .reqCourse, false⟩
/-! `CRS_ARR_TFMT` (02, R92) -/
def CRS_ARR_TFMT_WIDTH : Field := ⟨5, .crs, 0x4004, 0, 4, .ro, 0, .nv, .tier, false⟩
def CRS_ARR_TFMT_SIGNED : Field := ⟨6, .crs, 0x4004, 4, 1, .ro, 0, .nv, .tier, false⟩
def CRS_ARR_TFMT_GAIN : Field := ⟨7, .crs, 0x4004, 5, 2, .ro, 0, .nv, .tier, false⟩
def CRS_ARR_TFMT_PARTIAL_FMT : Field := ⟨8, .crs, 0x4004, 7, 1, .ro, 0, .nv, .tier, false⟩
def CRS_ARR_TFMT_VERIFIED : Field := ⟨9, .crs, 0x4004, 16, 1, .ro, 0, .chip, .tier, false⟩
def CRS_ARR_TFMT_PROGRAMMING : Field := ⟨10, .crs, 0x4004, 17, 1, .ro, 0, .context, .tier, false⟩
/-! `CRS_ARR_STATUS` (02, R92) -/
def CRS_ARR_STATUS_STATE : Field := ⟨11, .crs, 0x4008, 0, 2, .ro, 0, .nv, .array, false⟩
def CRS_ARR_STATUS_BUSY : Field := ⟨12, .crs, 0x4008, 2, 1, .ro, 0, .context, .array, false⟩
def CRS_ARR_STATUS_PROG : Field := ⟨13, .crs, 0x4008, 3, 1, .ro, 0, .context, .array, false⟩
def CRS_ARR_STATUS_PTIER : Field := ⟨14, .crs, 0x4008, 4, 7, .ro, 0, .context, .array, false⟩
/-! `CRS_ARR_CHK_TOL` (02, R92) -/
def CRS_ARR_CHK_TOL_TOL_G1 : Field := ⟨15, .crs, 0x400C, 0, 8, .rwo, 78, .nv, .array, false⟩
def CRS_ARR_CHK_TOL_TOL_G2 : Field := ⟨16, .crs, 0x400C, 8, 8, .rwo, 83, .nv, .array, false⟩
def CRS_ARR_CHK_TOL_TOL_G4 : Field := ⟨17, .crs, 0x400C, 16, 8, .rwo, 100, .nv, .array, false⟩
def CRS_ARR_CHK_TOL_TOL_G8 : Field := ⟨18, .crs, 0x400C, 24, 8, .rwo, 154, .nv, .array, false⟩
/-! `CRS_ARR_CHK_CNT` (02, R92) -/
def CRS_ARR_CHK_CNT_C0_FAIL : Field := ⟨19, .crs, 0x4010, 0, 16, .ro, 0, .context, .array, false⟩
def CRS_ARR_CHK_CNT_C1_ONLY : Field := ⟨20, .crs, 0x4010, 16, 16, .ro, 0, .context, .array, false⟩
/-! `CRS_ARR_SAT_CNT` (02, R92) -/
def CRS_ARR_SAT_CNT_COUNT : Field := ⟨21, .crs, 0x4014, 0, 32, .ro, 0, .context, .array, false⟩
/-! `CRS_ARR_CONV` (02, R92) -/
def CRS_ARR_CONV_COUNT : Field := ⟨22, .crs, 0x4018, 0, 64, .ro, 0, .context, .array, false⟩
/-! `CRS_ARR_DENSE` (02, R92) -/
def CRS_ARR_DENSE_COUNT : Field := ⟨23, .crs, 0x4020, 0, 64, .ro, 0, .context, .array, false⟩
/-! `CRS_ARR_WEAR` (02, R92) -/
def CRS_ARR_WEAR_MAX_CYCLES : Field := ⟨24, .crs, 0x4028, 0, 17, .ro, 0, .nv, .array, false⟩
/-! `CRS_ARR_SPARE_MAP` (02, R92) -/
def CRS_ARR_SPARE_MAP_REPLACED : Field := ⟨25, .crs, 0x402C, 0, 4, .ro, 15, .nv, .core, false⟩
def CRS_ARR_SPARE_MAP_ACTIVE : Field := ⟨26, .crs, 0x402C, 4, 1, .ro, 0, .nv, .core, false⟩
def CRS_ARR_SPARE_MAP_SYS_MOVED : Field := ⟨27, .crs, 0x402C, 5, 1, .ro, 0, .nv, .core, false⟩
/-! `CRS_ARR_CAP_STATUS` (02, R92) -/
def CRS_ARR_CAP_STATUS_COUNT : Field := ⟨28, .crs, 0x4030, 0, 5, .ro, 0, .context, .array, false⟩
def CRS_ARR_CAP_STATUS_LOST : Field := ⟨29, .crs, 0x4030, 8, 8, .ro, 0, .context, .array, false⟩
def CRS_ARR_CAP_STATUS_WRAP : Field := ⟨30, .crs, 0x4030, 16, 1, .ro, 0, .context, .array, false⟩
/-! `CRS_ARR_CAP_CLR` (02, R92) -/
def CRS_ARR_CAP_CLR_CLEAR : Field := ⟨31, .crs, 0x4034, 0, 1, .wo, 0, .none, .array, false⟩
/-! `CRS_PRC_CTRL` (03, R139) -/
def CRS_PRC_CTRL_SAT_THR : Field := ⟨32, .crs, 0x4400, 0, 6, .rwo, 0, .nv, .course, false⟩
def CRS_PRC_CTRL_REPLAY_MAX : Field := ⟨33, .crs, 0x4400, 6, 2, .rwo, 2, .nv, .course, false⟩
def CRS_PRC_CTRL_HREC_EN : Field := ⟨34, .crs, 0x4400, 8, 1, .rwo, 1, .nv, .course, false⟩
def CRS_PRC_CTRL_FORCE : Field := ⟨35, .crs, 0x4400, 10, 2, .rwo, 0, .course, .course, false⟩
/-! `CRS_PRC_FLUSH_THR_LO` (03, R139) -/
def CRS_PRC_FLUSH_THR_LO_THR_A1 : Field := ⟨36, .crs, 0x4404, 0, 8, .rwo, 32, .nv, .course, false⟩
def CRS_PRC_FLUSH_THR_LO_THR_A2 : Field := ⟨37, .crs, 0x4404, 8, 8, .rwo, 24, .nv, .course, false⟩
def CRS_PRC_FLUSH_THR_LO_THR_A3 : Field := ⟨38, .crs, 0x4404, 16, 8, .rwo, 16, .nv, .course, false⟩
def CRS_PRC_FLUSH_THR_LO_THR_A4 : Field := ⟨39, .crs, 0x4404, 24, 8, .rwo, 12, .nv, .course, false⟩
/-! `CRS_PRC_FLUSH_THR_HI` (03, R139) -/
def CRS_PRC_FLUSH_THR_HI_THR_A5 : Field := ⟨40, .crs, 0x4408, 0, 8, .rwo, 6, .nv, .course, false⟩
def CRS_PRC_FLUSH_THR_HI_THR_A6 : Field := ⟨41, .crs, 0x4408, 8, 8, .rwo, 6, .nv, .course, false⟩
def CRS_PRC_FLUSH_THR_HI_THR_A7 : Field := ⟨42, .crs, 0x4408, 16, 8, .rwo, 4, .nv, .course, false⟩
def CRS_PRC_FLUSH_THR_HI_THR_A8 : Field := ⟨43, .crs, 0x4408, 24, 8, .rwo, 4, .nv, .course, false⟩
/-! `CRS_PRC_TRIP_SAT` (03, R139) -/
def CRS_PRC_TRIP_SAT_COUNT : Field := ⟨44, .crs, 0x4410, 0, 32, .ro, 0, .context, .course, false⟩
/-! `CRS_PRC_TRIP_FLUSH` (03, R139) -/
def CRS_PRC_TRIP_FLUSH_COUNT : Field := ⟨45, .crs, 0x4414, 0, 32, .ro, 0, .context, .course, false⟩
/-! `CRS_PRC_REPLAY` (03, R139) -/
def CRS_PRC_REPLAY_COUNT : Field := ⟨46, .crs, 0x4418, 0, 32, .ro, 0, .context, .course, false⟩
/-! `CRS_PRC_HREC` (03, R139) -/
def CRS_PRC_HREC_COUNT : Field := ⟨47, .crs, 0x441C, 0, 32, .ro, 0, .context, .course, false⟩
/-! `CRS_PRC_HOVF` (03, R139) -/
def CRS_PRC_HOVF_COUNT : Field := ⟨48, .crs, 0x4420, 0, 32, .ro, 0, .context, .course, false⟩
/-! `CRS_PRC_DEGRADED` (03, R139) -/
def CRS_PRC_DEGRADED_COUNT : Field := ⟨49, .crs, 0x4424, 0, 32, .ro, 0, .context, .course, false⟩
/-! `CRS_PRC_NONFINITE` (03, R139) -/
def CRS_PRC_NONFINITE_COUNT : Field := ⟨50, .crs, 0x4428, 0, 32, .ro, 0, .context, .course, false⟩
/-! `CRS_PRC_CO_FLUSH` (03, R139) -/
def CRS_PRC_CO_FLUSH_COUNT : Field := ⟨51, .crs, 0x442C, 0, 32, .ro, 0, .context, .course, false⟩
/-! `CRS_PRC_CO_SAT` (03, R139) -/
def CRS_PRC_CO_SAT_COUNT : Field := ⟨52, .crs, 0x4430, 0, 32, .ro, 0, .context, .course, false⟩
/-! `CRS_PRC_HCAL` (03, R139) -/
def CRS_PRC_HCAL_MAX_CH : Field := ⟨53, .crs, 0x4440, 0, 4, .ro, 0, .chip, .course, false⟩
def CRS_PRC_HCAL_EPOCH : Field := ⟨54, .crs, 0x4440, 8, 8, .ro, 0, .chip, .course, false⟩
def CRS_PRC_HCAL_DONE : Field := ⟨55, .crs, 0x4440, 16, 1, .ro, 0, .chip, .course, false⟩
def CRS_PRC_HCAL_OVF : Field := ⟨56, .crs, 0x4440, 17, 1, .ro, 0, .chip, .course, false⟩
/-! `CRS_CORE_STATUS` (04, R165) -/
def CRS_CORE_STATUS_STATE : Field := ⟨57, .crs, 0x4800, 0, 3, .ro, 0, .context, .core, false⟩
def CRS_CORE_STATUS_PC : Field := ⟨58, .crs, 0x4800, 4, 11, .ro, 0, .context, .core, false⟩
def CRS_CORE_STATUS_SLOT : Field := ⟨59, .crs, 0x4800, 15, 6, .ro, 0, .context, .core, false⟩
/-! `CRS_CORE_CTRL` (04, R165) -/
def CRS_CORE_CTRL_HALT : Field := ⟨60, .crs, 0x4804, 0, 1, .rwo, 0, .course, .core, false⟩
def CRS_CORE_CTRL_STEP1 : Field := ⟨61, .crs, 0x4804, 1, 1, .rwo, 0, .course, .core, false⟩
def CRS_CORE_CTRL_RESUME : Field := ⟨62, .crs, 0x4804, 2, 1, .w1s, 0, .none, .core, false⟩
def CRS_CORE_CTRL_SCRUB_EN : Field := ⟨63, .crs, 0x4804, 3, 1, .rwo, 1, .chip, .core, false⟩
/-! `CRS_CORE_TAB` (04, R165) -/
def CRS_CORE_TAB_NINSTR : Field := ⟨64, .crs, 0x4808, 0, 12, .ro, 0, .context, .core, false⟩
def CRS_CORE_TAB_NDESC : Field := ⟨65, .crs, 0x4808, 12, 9, .ro, 0, .context, .core, false⟩
def CRS_CORE_TAB_EPOCH : Field := ⟨66, .crs, 0x4808, 21, 8, .ro, 0, .context, .core, false⟩
/-! `CRS_CORE_PASS` (04, R165) -/
def CRS_CORE_PASS_LAYER : Field := ⟨67, .crs, 0x480C, 0, 12, .ro, 4095, .context, .core, false⟩
def CRS_CORE_PASS_NLIVE : Field := ⟨68, .crs, 0x480C, 12, 7, .ro, 0, .context, .core, false⟩
/-! `CRS_CORE_RETIRE` (04, R165) -/
def CRS_CORE_RETIRE_COUNT : Field := ⟨69, .crs, 0x4810, 0, 64, .ro, 0, .context, .core, false⟩
/-! `CRS_CORE_ECC` (04, R165) -/
def CRS_CORE_ECC_DS_CE : Field := ⟨70, .crs, 0x4818, 0, 12, .ro, 0, .context, .core, false⟩
def CRS_CORE_ECC_DS_UE : Field := ⟨71, .crs, 0x4818, 12, 4, .ro, 0, .context, .core, false⟩
def CRS_CORE_ECC_TS_CE : Field := ⟨72, .crs, 0x4818, 16, 12, .ro, 0, .context, .core, false⟩
def CRS_CORE_ECC_TS_UE : Field := ⟨73, .crs, 0x4818, 28, 4, .ro, 0, .context, .core, false⟩
/-! `CRS_CORE_EVENTS` (04, R165) -/
def CRS_CORE_EVENTS_ABORTS : Field := ⟨74, .crs, 0x481C, 0, 16, .ro, 0, .context, .core, false⟩
def CRS_CORE_EVENTS_TNR : Field := ⟨75, .crs, 0x481C, 16, 8, .ro, 0, .context, .core, false⟩
def CRS_CORE_EVENTS_WDOG : Field := ⟨76, .crs, 0x481C, 24, 8, .ro, 0, .context, .core, false⟩
/-! `CRS_CORE_FAULT` (04, R165) -/
def CRS_CORE_FAULT_PC : Field := ⟨77, .crs, 0x4820, 0, 11, .ro, 0, .context, .core, false⟩
def CRS_CORE_FAULT_CLASS : Field := ⟨78, .crs, 0x4820, 11, 4, .ro, 0, .context, .core, false⟩
def CRS_CORE_FAULT_SLOT : Field := ⟨79, .crs, 0x4820, 15, 6, .ro, 0, .context, .core, false⟩
def CRS_CORE_FAULT_VALID : Field := ⟨80, .crs, 0x4820, 31, 1, .ro, 0, .context, .core, false⟩
/-! `CRS_CORE_FAULT_CLR` (04, R165) -/
def CRS_CORE_FAULT_CLR_CLEAR : Field := ⟨81, .crs, 0x4824, 0, 1, .wo, 0, .none, .core, false⟩
/-! `NOC_CTRL` (05, R193) -/
def NOC_CTRL_COMBINE_EN : Field := ⟨82, .noc, 0x0, 0, 1, .rwo, 1, .nv, .die, false⟩
def NOC_CTRL_EXPRESS_EN : Field := ⟨83, .noc, 0x0, 1, 1, .rwo, 1, .nv, .die, false⟩
def NOC_CTRL_RETRY_MAX : Field := ⟨84, .noc, 0x0, 4, 4, .rwo, 4, .nv, .die, false⟩
/-! `NOC_SHARE` (05, R193) -/
def NOC_SHARE_BULK_MIN : Field := ⟨85, .noc, 0x4, 0, 5, .rwo, 4, .nv, .die, false⟩
def NOC_SHARE_MAINT_MIN : Field := ⟨86, .noc, 0x4, 5, 5, .rwo, 1, .nv, .die, false⟩
/-! `NOC_FALLBACK` (05, R193) -/
def NOC_FALLBACK_PART : Field := ⟨87, .noc, 0x8, 0, 16, .rwo, 0, .chip, .die, false⟩
def NOC_FALLBACK_ACTIVE : Field := ⟨88, .noc, 0x8, 16, 16, .ro, 0, .chip, .die, false⟩
/-! `NOC_MAP_SEL` (05, R193) -/
def NOC_MAP_SEL_PROW : Field := ⟨89, .noc, 0x10, 0, 7, .rw, 0, .port, .req, false⟩
def NOC_MAP_SEL_CRSCOL : Field := ⟨90, .noc, 0x10, 7, 4, .rw, 0, .port, .req, false⟩
def NOC_MAP_SEL_PCOL : Field := ⟨91, .noc, 0x10, 11, 7, .rw, 0, .port, .req, false⟩
def NOC_MAP_SEL_LCRS : Field := ⟨92, .noc, 0x10, 18, 7, .rw, 0, .port, .req, false⟩
/-! `NOC_SPARE_MAP` (05, R193) -/
def NOC_SPARE_MAP_REPLACED : Field := ⟨93, .noc, 0x14, 0, 4, .ro, 15, .nv, .spareSite, false⟩
def NOC_SPARE_MAP_SPARE_FAILED : Field := ⟨94, .noc, 0x14, 4, 1, .ro, 0, .nv, .spareSite, false⟩
def NOC_SPARE_MAP_ACTIVE : Field := ⟨95, .noc, 0x14, 5, 1, .ro, 0, .nv, .spareSite, false⟩
/-! `NOC_COURSE_MAP` (05, R193) -/
def NOC_COURSE_MAP_PHYS : Field := ⟨96, .noc, 0x18, 0, 7, .ro, 0, .nv, .logicalCourse, true⟩
def NOC_COURSE_MAP_OUT : Field := ⟨97, .noc, 0x18, 7, 1, .ro, 0, .nv, .logicalCourse, false⟩
/-! `NOC_FAIL` (05, R193) -/
def NOC_FAIL_ROUTER : Field := ⟨98, .noc, 0x1C, 0, 1, .ro, 0, .nv, .router, false⟩
def NOC_FAIL_LINK : Field := ⟨99, .noc, 0x1C, 1, 4, .ro, 0, .nv, .router, false⟩
def NOC_FAIL_ATTACH : Field := ⟨100, .noc, 0x1C, 5, 1, .ro, 0, .nv, .router, false⟩
def NOC_FAIL_EXPRESS : Field := ⟨101, .noc, 0x1C, 6, 1, .ro, 0, .nv, .course, false⟩
/-! `NOC_MAP_GEN` (05, R193) -/
def NOC_MAP_GEN_GEN : Field := ⟨102, .noc, 0x20, 0, 16, .ro, 0, .port, .die, false⟩
def NOC_MAP_GEN_PENDING : Field := ⟨103, .noc, 0x20, 16, 1, .ro, 0, .port, .die, false⟩
/-! `NOC_RETRY` (05, R193) -/
def NOC_RETRY_COUNT : Field := ⟨104, .noc, 0x30, 0, 32, .ro, 0, .port, .die, false⟩
/-! `NOC_COMBCHK` (05, R193) -/
def NOC_COMBCHK_COUNT : Field := ⟨105, .noc, 0x34, 0, 32, .ro, 0, .port, .die, false⟩
/-! `NOC_DROP` (05, R193) -/
def NOC_DROP_COUNT : Field := ⟨106, .noc, 0x38, 0, 32, .ro, 0, .port, .die, false⟩
/-! `NOC_BAR_MAX` (05, R193) -/
def NOC_BAR_MAX_CLOCKS : Field := ⟨107, .noc, 0x3C, 0, 16, .rc, 0, .port, .die, false⟩
/-! `LDR_CTRL` (06, R224) -/
def LDR_CTRL_PROG_CONC : Field := ⟨108, .ldr, 0x0, 0, 7, .rwo, 20, .nv, .die, false⟩
/-! `LDR_TIMEOUT` (06, R224) -/
def LDR_TIMEOUT_SHARD_MS : Field := ⟨109, .ldr, 0x4, 0, 16, .rwo, 2000, .nv, .die, false⟩
def LDR_TIMEOUT_PREP_10MS : Field := ⟨110, .ldr, 0x4, 16, 16, .rwo, 1000, .nv, .die, false⟩
/-! `LDR_LAND_BASE` (06, R224) -/
def LDR_LAND_BASE_OFFSET : Field := ⟨111, .ldr, 0x8, 0, 64, .rwo, 0, .nv, .die, false⟩
/-! `LDR_LAND_SIZE` (06, R224) -/
def LDR_LAND_SIZE_BUFFERS : Field := ⟨112, .ldr, 0x10, 0, 8, .rwo, 4, .nv, .die, false⟩
def LDR_LAND_SIZE_USABLE : Field := ⟨113, .ldr, 0x10, 8, 8, .ro, 4, .none, .die, false⟩
/-! `LDR_PSEL` (06, R224) -/
def LDR_PSEL_PART : Field := ⟨114, .ldr, 0x20, 0, 4, .rw, 0, .port, .req, false⟩
def LDR_PSEL_ESLOT : Field := ⟨115, .ldr, 0x20, 4, 2, .rw, 0, .port, .req, false⟩
def LDR_PSEL_ASLOT : Field := ⟨116, .ldr, 0x20, 6, 10, .rw, 0, .port, .req, false⟩
/-! `LDR_LOAD` (06, R224) -/
def LDR_LOAD_STATE : Field := ⟨117, .ldr, 0x24, 0, 3, .ro, 0, .course, .part, false⟩
def LDR_LOAD_EPOCH : Field := ⟨118, .ldr, 0x24, 4, 8, .ro, 0, .course, .part, false⟩
def LDR_LOAD_POSITION : Field := ⟨119, .ldr, 0x24, 12, 8, .ro, 0, .course, .part, false⟩
def LDR_LOAD_MEMBER : Field := ⟨120, .ldr, 0x24, 20, 8, .ro, 0, .course, .part, false⟩
/-! `LDR_LOAD_SHARDS` (06, R224) -/
def LDR_LOAD_SHARDS_EXPECTED : Field := ⟨121, .ldr, 0x28, 0, 16, .ro, 0, .course, .part, false⟩
def LDR_LOAD_SHARDS_DONE : Field := ⟨122, .ldr, 0x28, 16, 16, .ro, 0, .course, .part, false⟩
/-! `LDR_LOAD_ERR` (06, R224) -/
def LDR_LOAD_ERR_CODE : Field := ⟨123, .ldr, 0x2C, 0, 8, .ro, 0, .course, .part, false⟩
def LDR_LOAD_ERR_REASON : Field := ⟨124, .ldr, 0x2C, 8, 8, .ro, 0, .course, .part, false⟩
def LDR_LOAD_ERR_NOFIT_MASK : Field := ⟨125, .ldr, 0x2C, 16, 8, .ro, 0, .course, .part, false⟩
def LDR_LOAD_ERR_DETAIL : Field := ⟨126, .ldr, 0x2C, 24, 4, .ro, 0, .course, .part, false⟩
/-! `LDR_LOAD_BAD` (06, R224) -/
def LDR_LOAD_BAD_SHARD : Field := ⟨127, .ldr, 0x30, 0, 32, .ro, 4294967295, .course, .part, false⟩
/-! `LDR_RELAY_FWD` (06, R224) -/
def LDR_RELAY_FWD_COUNT : Field := ⟨128, .ldr, 0x34, 0, 32, .ro, 0, .port, .die, false⟩
/-! `LDR_RELAY_BAD` (06, R224) -/
def LDR_RELAY_BAD_COUNT : Field := ⟨129, .ldr, 0x38, 0, 32, .ro, 0, .port, .die, false⟩
/-! `LDR_RELAY_REQ` (06, R224) -/
def LDR_RELAY_REQ_COUNT : Field := ⟨130, .ldr, 0x3C, 0, 32, .ro, 0, .port, .die, false⟩
/-! `LDR_EPOCH` (06, R224) -/
def LDR_EPOCH_NUMBER : Field := ⟨131, .ldr, 0x40, 0, 8, .ro, 0, .nv, .epochSlot, false⟩
def LDR_EPOCH_STATE : Field := ⟨132, .ldr, 0x40, 8, 3, .ro, 0, .nv, .epochSlot, false⟩
def LDR_EPOCH_HOLD : Field := ⟨133, .ldr, 0x40, 11, 1, .ro, 0, .nv, .epochSlot, false⟩
def LDR_EPOCH_REFS : Field := ⟨134, .ldr, 0x40, 16, 16, .ro, 0, .course, .epochSlot, false⟩
/-! `LDR_PART_INFO` (06, R224) -/
def LDR_PART_INFO_BAR_ROOT : Field := ⟨135, .ldr, 0x44, 0, 7, .ro, 0, .chip, .part, false⟩
def LDR_PART_INFO_ADMITTING : Field := ⟨136, .ldr, 0x44, 7, 1, .ro, 0, .nv, .part, false⟩
/-! `LDR_SHADOW` (06, R224) -/
def LDR_SHADOW_EN : Field := ⟨137, .ldr, 0x48, 0, 16, .ro, 0, .nv, .die, false⟩
def LDR_SHADOW_READY : Field := ⟨138, .ldr, 0x48, 16, 16, .ro, 0, .power, .die, false⟩
/-! `LDR_ADP_POOL` (06, R224) -/
def LDR_ADP_POOL_BASE : Field := ⟨139, .ldr, 0x50, 0, 64, .rwo, 0, .nv, .die, false⟩
/-! `LDR_ADP_POOL_SIZE` (06, R224) -/
def LDR_ADP_POOL_SIZE_UNITS : Field := ⟨140, .ldr, 0x58, 0, 10, .rwo, 64, .nv, .die, false⟩
/-! `LDR_ADP_BW` (06, R224) -/
def LDR_ADP_BW_GBPS : Field := ⟨141, .ldr, 0x5C, 0, 16, .rwo, 0, .nv, .part, false⟩
/-! `LDR_ADP_SLOT` (06, R224) -/
def LDR_ADP_SLOT_VERSION : Field := ⟨142, .ldr, 0x60, 0, 6, .ro, 0, .power, .adapterSlot, false⟩
def LDR_ADP_SLOT_PART : Field := ⟨143, .ldr, 0x60, 6, 4, .ro, 0, .power, .adapterSlot, false⟩
def LDR_ADP_SLOT_VALID : Field := ⟨144, .ldr, 0x60, 10, 1, .ro, 0, .power, .adapterSlot, false⟩
def LDR_ADP_SLOT_RESIDENT : Field := ⟨145, .ldr, 0x60, 11, 1, .ro, 0, .power, .adapterSlot, false⟩
def LDR_ADP_SLOT_SUPERSEDED : Field := ⟨146, .ldr, 0x60, 12, 1, .ro, 0, .power, .adapterSlot, false⟩
def LDR_ADP_SLOT_REFS : Field := ⟨147, .ldr, 0x60, 16, 16, .ro, 0, .course, .adapterSlot, false⟩
/-! `SRV_PSEL` (07, R261) -/
def SRV_PSEL_PART : Field := ⟨148, .srv, 0x0, 0, 4, .rw, 0, .port, .req, false⟩
/-! `SRV_RQ_SEL` (07, R261) -/
def SRV_RQ_SEL_INDEX : Field := ⟨149, .srv, 0x4, 0, 16, .rw, 0, .port, .req, false⟩
/-! `SRV_PART_SLICE` (07, R261) -/
def SRV_PART_SLICE_BASE : Field := ⟨150, .srv, 0x10, 0, 16, .rw2, 0, .nv, .part, false⟩
def SRV_PART_SLICE_COUNT : Field := ⟨151, .srv, 0x10, 16, 16, .rw2, 0, .nv, .part, false⟩
/-! `SRV_PART_POOL_BASE` (07, R261) -/
def SRV_PART_POOL_BASE_FRAME : Field := ⟨152, .srv, 0x14, 0, 23, .rw2, 0, .nv, .part, false⟩
/-! `SRV_PART_POOL_COUNT` (07, R261) -/
def SRV_PART_POOL_COUNT_FRAMES : Field := ⟨153, .srv, 0x18, 0, 23, .rw2, 0, .nv, .part, false⟩
/-! `SRV_PART_SCHED` (07, R261) -/
def SRV_PART_SCHED_BATCH_CAP : Field := ⟨154, .srv, 0x1C, 0, 7, .rwo, 0, .nv, .part, false⟩
def SRV_PART_SCHED_CHUNK : Field := ⟨155, .srv, 0x1C, 7, 14, .rwo, 2048, .nv, .part, false⟩
def SRV_PART_SCHED_SLICE_US : Field := ⟨156, .srv, 0x1C, 21, 8, .rwo, 64, .nv, .part, false⟩
/-! `SRV_PART_COST` (07, R261) -/
def SRV_PART_COST_A_NS : Field := ⟨157, .srv, 0x20, 0, 16, .rwo, 0, .nv, .part, false⟩
def SRV_PART_COST_B_PS : Field := ⟨158, .srv, 0x20, 16, 16, .rwo, 0, .nv, .part, false⟩
/-! `SRV_PART_COST2` (07, R261) -/
def SRV_PART_COST2_C_NS : Field := ⟨159, .srv, 0x24, 0, 16, .rwo, 0, .nv, .part, false⟩
/-! `SRV_PART_KVGEO` (07, R261) -/
def SRV_PART_KVGEO_STREAMS : Field := ⟨160, .srv, 0x28, 0, 10, .ro, 0, .nv, .part, false⟩
def SRV_PART_KVGEO_LOG2_TP : Field := ⟨161, .srv, 0x28, 10, 4, .ro, 0, .nv, .part, false⟩
/-! `SRV_PART_WAIT` (07, R261) -/
def SRV_PART_WAIT_PAGEWAIT_MS : Field := ⟨162, .srv, 0x2C, 0, 16, .rwo, 100, .nv, .part, false⟩
/-! `SRV_PART_DRAFT` (07, R261) -/
def SRV_PART_DRAFT_DPART : Field := ⟨163, .srv, 0x30, 0, 4, .rwo, 0, .nv, .part, false⟩
def SRV_PART_DRAFT_EN : Field := ⟨164, .srv, 0x30, 4, 1, .rwo, 0, .nv, .part, false⟩
def SRV_PART_DRAFT_OK : Field := ⟨165, .srv, 0x30, 5, 1, .ro, 0, .chip, .part, false⟩
/-! `SRV_PART_STATUS` (07, R261) -/
def SRV_PART_STATUS_LIVE : Field := ⟨166, .srv, 0x34, 0, 17, .ro, 0, .course, .part, false⟩
def SRV_PART_STATUS_PREFIXES : Field := ⟨167, .srv, 0x34, 17, 15, .ro, 0, .course, .part, false⟩
/-! `SRV_PART_PAGES_FREE` (07, R261) -/
def SRV_PART_PAGES_FREE_FRAMES : Field := ⟨168, .srv, 0x38, 0, 23, .ro, 0, .course, .part, false⟩
/-! `SRV_PART_PAGES_RES` (07, R261) -/
def SRV_PART_PAGES_RES_FRAMES : Field := ⟨169, .srv, 0x3C, 0, 23, .ro, 0, .course, .part, false⟩
/-! `SRV_RQ_STATE` (07, R261) -/
def SRV_RQ_STATE_STATE : Field := ⟨170, .srv, 0x40, 0, 4, .ro, 0, .course, .request, false⟩
def SRV_RQ_STATE_CAUSE : Field := ⟨171, .srv, 0x40, 4, 4, .ro, 0, .course, .request, false⟩
def SRV_RQ_STATE_CODE : Field := ⟨172, .srv, 0x40, 8, 8, .ro, 0, .course, .request, false⟩
def SRV_RQ_STATE_VERSION : Field := ⟨173, .srv, 0x40, 16, 16, .ro, 0, .course, .request, false⟩
/-! `SRV_RQ_PROGRESS` (07, R261) -/
def SRV_RQ_PROGRESS_KVLEN : Field := ⟨174, .srv, 0x44, 0, 21, .ro, 0, .course, .request, false⟩
def SRV_RQ_PROGRESS_DRAFT_CUR : Field := ⟨175, .srv, 0x44, 21, 5, .ro, 0, .course, .request, false⟩
/-! `SRV_RQ_GEN` (07, R261) -/
def SRV_RQ_GEN_GEN : Field := ⟨176, .srv, 0x48, 0, 21, .ro, 0, .course, .request, false⟩
/-! `SRV_RQ_USER` (07, R261) -/
def SRV_RQ_USER_USER_ID : Field := ⟨177, .srv, 0x50, 0, 64, .ro, 0, .course, .request, false⟩
/-! `SRV_CNT_ADMIT` (07, R261) -/
def SRV_CNT_ADMIT_COUNT : Field := ⟨178, .srv, 0x60, 0, 32, .ro, 0, .course, .part, false⟩
/-! `SRV_CNT_REFUSE` (07, R261) -/
def SRV_CNT_REFUSE_COUNT : Field := ⟨179, .srv, 0x64, 0, 32, .ro, 0, .course, .part, false⟩
/-! `SRV_CNT_FULL` (07, R261) -/
def SRV_CNT_FULL_COUNT : Field := ⟨180, .srv, 0x68, 0, 32, .ro, 0, .course, .part, false⟩
/-! `SRV_CNT_CANCEL` (07, R261) -/
def SRV_CNT_CANCEL_COUNT : Field := ⟨181, .srv, 0x6C, 0, 32, .ro, 0, .course, .part, false⟩
/-! `SRV_CNT_CANCEL_LATE` (07, R261) -/
def SRV_CNT_CANCEL_LATE_COUNT : Field := ⟨182, .srv, 0x70, 0, 32, .ro, 0, .course, .part, false⟩
/-! `SRV_CNT_PREEMPT` (07, R261) -/
def SRV_CNT_PREEMPT_COUNT : Field := ⟨183, .srv, 0x74, 0, 32, .ro, 0, .course, .part, false⟩
/-! `SRV_CNT_PAGEWAIT` (07, R261) -/
def SRV_CNT_PAGEWAIT_COUNT : Field := ⟨184, .srv, 0x78, 0, 32, .ro, 0, .course, .part, false⟩
/-! `SRV_CNT_DRAFTED` (07, R261) -/
def SRV_CNT_DRAFTED_COUNT : Field := ⟨185, .srv, 0x7C, 0, 32, .ro, 0, .course, .part, false⟩
/-! `SRV_CNT_ACCEPTED` (07, R261) -/
def SRV_CNT_ACCEPTED_COUNT : Field := ⟨186, .srv, 0x80, 0, 32, .ro, 0, .course, .part, false⟩
/-! `SRV_CNT_NONFINITE` (07, R261) -/
def SRV_CNT_NONFINITE_COUNT : Field := ⟨187, .srv, 0x84, 0, 32, .ro, 0, .course, .part, false⟩
/-! `HIF_ID` (08, R294) -/
def HIF_ID_VENDOR : Field := ⟨188, .hif, 0x0, 0, 16, .ro, Config.vendorId.toNat, .nv, .die, false⟩
def HIF_ID_DEVICE : Field := ⟨189, .hif, 0x0, 16, 16, .ro, 2705, .nv, .die, false⟩
/-! `HIF_REV` (08, R294) -/
def HIF_REV_STEPPING : Field := ⟨190, .hif, 0x4, 0, 8, .ro, 176, .nv, .die, false⟩
def HIF_REV_COURSES : Field := ⟨191, .hif, 0x4, 8, 7, .ro, 100, .nv, .die, false⟩
def HIF_REV_STACKS : Field := ⟨192, .hif, 0x4, 15, 4, .ro, 4, .nv, .die, false⟩
def HIF_REV_ZLPORTS : Field := ⟨193, .hif, 0x4, 19, 4, .ro, 8, .nv, .die, false⟩
def HIF_REV_PCIEPORTS : Field := ⟨194, .hif, 0x4, 23, 2, .ro, 2, .nv, .die, false⟩
/-! `HIF_DSN` (08, R294) -/
def HIF_DSN_SERIAL : Field := ⟨195, .hif, 0x8, 0, 64, .ro, Config.serialNumber.toNat, .nv, .die, false⟩
/-! `HIF_DEV_STATE` (08, R294) -/
def HIF_DEV_STATE_STATE : Field := ⟨196, .hif, 0x10, 0, 3, .ro, 0, .port, .die, false⟩
def HIF_DEV_STATE_TRIP_REC : Field := ⟨197, .hif, 0x10, 3, 1, .ro, 0, .port, .die, false⟩
def HIF_DEV_STATE_VERIFY : Field := ⟨198, .hif, 0x10, 4, 1, .ro, 0, .port, .die, false⟩
/-! `HIF_TIME` (08, R294) -/
def HIF_TIME_TIME : Field := ⟨199, .hif, 0x18, 0, 64, .ro, 0, .power, .die, false⟩
/-! `HIF_OWN_CLAIM` (08, R294) -/
def HIF_OWN_CLAIM_NONCE : Field := ⟨200, .hif, 0x20, 0, 32, .wo, 0, .none, .die, false⟩
/-! `HIF_OWN_STATUS` (08, R294) -/
def HIF_OWN_STATUS_OWNER : Field := ⟨201, .hif, 0x24, 0, 2, .ro, 0, .port, .die, false⟩
def HIF_OWN_STATUS_OFFER : Field := ⟨202, .hif, 0x24, 2, 1, .ro, 0, .port, .die, false⟩
def HIF_OWN_STATUS_ABANDONED : Field := ⟨203, .hif, 0x24, 3, 1, .ro, 0, .port, .die, false⟩
def HIF_OWN_STATUS_RECLAIMED : Field := ⟨204, .hif, 0x24, 4, 1, .ro, 0, .port, .die, false⟩
def HIF_OWN_STATUS_MINE : Field := ⟨205, .hif, 0x24, 5, 1, .ro, 0, .none, .die, false⟩
/-! `HIF_OWN_NONCE` (08, R294) -/
def HIF_OWN_NONCE_NONCE : Field := ⟨206, .hif, 0x28, 0, 32, .ro, 0, .port, .die, false⟩
/-! `HIF_OWN_HANDOVER` (08, R294) -/
def HIF_OWN_HANDOVER_OFFER : Field := ⟨207, .hif, 0x2C, 0, 1, .rwo, 0, .port, .die, false⟩
/-! `HIF_OWN_ACCEPT` (08, R294) -/
def HIF_OWN_ACCEPT_NONCE : Field := ⟨208, .hif, 0x30, 0, 32, .wo, 0, .none, .die, false⟩
/-! `HIF_OWN_POLICY` (08, R294) -/
def HIF_OWN_POLICY_CLAIM_PORTS : Field := ⟨209, .hif, 0x34, 0, 2, .rw2, 0, .nv, .die, false⟩
def HIF_OWN_POLICY_RECLAIM_EN : Field := ⟨210, .hif, 0x34, 2, 1, .rw2, 1, .nv, .die, false⟩
/-! `HIF_BAR4_BASE` (08, R294) -/
def HIF_BAR4_BASE_BASE : Field := ⟨211, .hif, 0x40, 0, 64, .rwo, 0, .nv, .die, false⟩
/-! `HIF_PORT_STATUS` (08, R294) -/
def HIF_PORT_STATUS_RATE : Field := ⟨212, .hif, 0x50, 0, 3, .ro, 0, .port, .port, false⟩
def HIF_PORT_STATUS_WIDTH : Field := ⟨213, .hif, 0x50, 3, 5, .ro, 0, .port, .port, false⟩
def HIF_PORT_STATUS_DL_UP : Field := ⟨214, .hif, 0x50, 8, 1, .ro, 0, .port, .port, false⟩
def HIF_PORT_STATUS_DEGRADED : Field := ⟨215, .hif, 0x50, 9, 1, .ro, 0, .port, .port, false⟩
def HIF_PORT_STATUS_IDE : Field := ⟨216, .hif, 0x50, 10, 1, .ro, 0, .port, .port, false⟩
def HIF_PORT_STATUS_LAST_RESET : Field := ⟨217, .hif, 0x50, 11, 3, .ro, 0, .port, .port, false⟩
/-! `HIF_FSEL` (08, R294) -/
def HIF_FSEL_FUNCTION : Field := ⟨218, .hif, 0x60, 0, 6, .rw, 0, .port, .req, false⟩
/-! `HIF_FUNC_PART` (08, R294) -/
def HIF_FUNC_PART_PARTS : Field := ⟨219, .hif, 0x64, 0, 16, .rw2, 0, .nv, .func, false⟩
/-! `HIF_NOW_CNT` (08, R294) -/
def HIF_NOW_CNT_NONOWNER : Field := ⟨220, .hif, 0x70, 0, 16, .ro, 0, .port, .die, false⟩
def HIF_NOW_CNT_BADDB : Field := ⟨221, .hif, 0x70, 16, 16, .ro, 0, .port, .die, false⟩
/-! `HIF_NOW_LAST` (08, R294) -/
def HIF_NOW_LAST_OFFSET : Field := ⟨222, .hif, 0x74, 0, 24, .ro, 0, .port, .die, false⟩
def HIF_NOW_LAST_FUNCTION : Field := ⟨223, .hif, 0x74, 24, 6, .ro, 0, .port, .die, false⟩
def HIF_NOW_LAST_BAR : Field := ⟨224, .hif, 0x74, 30, 2, .ro, 0, .port, .die, false⟩
/-! `HIF_NOW_LAST_HI` (08, R294) -/
def HIF_NOW_LAST_HI_OFFSET_HI : Field := ⟨225, .hif, 0x78, 0, 10, .ro, 0, .port, .die, false⟩
/-! `RCB_ASSIGN` (08, R294) -/
def RCB_ASSIGN_PARTITION : Field := ⟨226, .rcb, 0x0, 0, 4, .rw2, 0, .nv, .ring, false⟩
def RCB_ASSIGN_FUNCTION : Field := ⟨227, .rcb, 0x0, 4, 6, .rw2, 0, .nv, .ring, false⟩
def RCB_ASSIGN_VALID : Field := ⟨228, .rcb, 0x0, 10, 1, .rw2, 0, .nv, .ring, false⟩
/-! `RCB_CFG` (08, R294) -/
def RCB_CFG_KIND : Field := ⟨229, .rcb, 0x4, 0, 3, .rw, 0, .partition, .ring, false⟩
def RCB_CFG_CFMT : Field := ⟨230, .rcb, 0x4, 3, 2, .rw, 0, .partition, .ring, false⟩
def RCB_CFG_SIZE_EXP : Field := ⟨231, .rcb, 0x4, 5, 5, .rw, 0, .partition, .ring, false⟩
def RCB_CFG_ENABLE : Field := ⟨232, .rcb, 0x4, 10, 1, .rw, 0, .partition, .ring, false⟩
/-! `RCB_PAIR` (08, R294) -/
def RCB_PAIR_CPL : Field := ⟨233, .rcb, 0x8, 0, 12, .rw, 0, .partition, .ring, false⟩
def RCB_PAIR_TOKEN : Field := ⟨234, .rcb, 0x8, 16, 12, .rw, 0, .partition, .ring, false⟩
/-! `RCB_INTR` (08, R294) -/
def RCB_INTR_VECTOR : Field := ⟨235, .rcb, 0xC, 0, 9, .rw, 0, .partition, .ring, false⟩
def RCB_INTR_INTR_EN : Field := ⟨236, .rcb, 0xC, 9, 1, .rw, 0, .partition, .ring, false⟩
def RCB_INTR_COAL_CNT : Field := ⟨237, .rcb, 0xC, 16, 8, .rw, 0, .partition, .ring, false⟩
def RCB_INTR_COAL_T : Field := ⟨238, .rcb, 0xC, 24, 8, .rw, 0, .partition, .ring, false⟩
/-! `RCB_BASE` (08, R294) -/
def RCB_BASE_ADDR : Field := ⟨239, .rcb, 0x10, 0, 64, .rw, 0, .partition, .ring, false⟩
/-! `RCB_WB` (08, R294) -/
def RCB_WB_ADDR : Field := ⟨240, .rcb, 0x18, 0, 64, .rw, 0, .partition, .ring, false⟩
/-! `RCB_HEAD` (08, R294) -/
def RCB_HEAD_INDEX : Field := ⟨241, .rcb, 0x20, 0, 32, .ro, 0, .partition, .ring, false⟩
/-! `RCB_TAIL` (08, R294) -/
def RCB_TAIL_INDEX : Field := ⟨242, .rcb, 0x24, 0, 32, .ro, 0, .partition, .ring, false⟩
/-! `RCB_STATUS` (08, R294) -/
def RCB_STATUS_STATE : Field := ⟨243, .rcb, 0x28, 0, 2, .ro, 0, .partition, .ring, false⟩
def RCB_STATUS_ERR : Field := ⟨244, .rcb, 0x28, 4, 4, .ro, 0, .partition, .ring, false⟩
def RCB_STATUS_ARMED : Field := ⟨245, .rcb, 0x28, 8, 1, .ro, 0, .partition, .ring, false⟩
def RCB_STATUS_FAULT_WAIT : Field := ⟨246, .rcb, 0x28, 9, 1, .ro, 0, .partition, .ring, false⟩
/-! `RCB_CTRL` (08, R294) -/
def RCB_CTRL_STOP : Field := ⟨247, .rcb, 0x2C, 0, 1, .w1s, 0, .none, .ring, false⟩
def RCB_CTRL_RESUME : Field := ⟨248, .rcb, 0x2C, 1, 1, .w1s, 0, .none, .ring, false⟩
/-! `RCB_COUNT` (08, R294) -/
def RCB_COUNT_ENTRIES : Field := ⟨249, .rcb, 0x30, 0, 32, .ro, 0, .partition, .ring, false⟩
/-! `DMA_WSEL` (08, R294) -/
def DMA_WSEL_PART : Field := ⟨250, .dma, 0x0, 0, 4, .rw, 0, .port, .req, false⟩
def DMA_WSEL_WIN : Field := ⟨251, .dma, 0x0, 4, 3, .rw, 0, .port, .req, false⟩
/-! `DMA_WIN_BASE` (08, R294) -/
def DMA_WIN_BASE_ADDR : Field := ⟨252, .dma, 0x4, 0, 64, .rw2, 0, .nv, .window, false⟩
/-! `DMA_WIN_SIZE` (08, R294) -/
def DMA_WIN_SIZE_PAGES : Field := ⟨253, .dma, 0xC, 0, 32, .rw2, 0, .nv, .window, false⟩
/-! `DMA_WIN_ATTR` (08, R294) -/
def DMA_WIN_ATTR_FUNCTION : Field := ⟨254, .dma, 0x10, 0, 6, .rw2, 0, .nv, .window, false⟩
def DMA_WIN_ATTR_PASID_EN : Field := ⟨255, .dma, 0x10, 6, 1, .rw2, 0, .nv, .window, false⟩
def DMA_WIN_ATTR_PASID : Field := ⟨256, .dma, 0x10, 7, 20, .rw2, 0, .nv, .window, false⟩
def DMA_WIN_ATTR_RD : Field := ⟨257, .dma, 0x10, 27, 1, .rw2, 0, .nv, .window, false⟩
def DMA_WIN_ATTR_WR : Field := ⟨258, .dma, 0x10, 28, 1, .rw2, 0, .nv, .window, false⟩
/-! `DMA_DATA_BASE` (08, R294) -/
def DMA_DATA_BASE_FRAME : Field := ⟨259, .dma, 0x20, 0, 23, .rw2, 0, .nv, .part, false⟩
/-! `DMA_DATA_COUNT` (08, R294) -/
def DMA_DATA_COUNT_FRAME : Field := ⟨260, .dma, 0x24, 0, 23, .rw2, 0, .nv, .part, false⟩
/-! `DMA_PRI_CTRL` (08, R294) -/
def DMA_PRI_CTRL_TIMEOUT_MS : Field := ⟨261, .dma, 0x30, 0, 16, .rwo, 1000, .nv, .die, false⟩
/-! `DMA_CNT_PRQ` (08, R294) -/
def DMA_CNT_PRQ_COUNT : Field := ⟨262, .dma, 0x40, 0, 32, .ro, 0, .port, .die, false⟩
/-! `DMA_CNT_PFAIL` (08, R294) -/
def DMA_CNT_PFAIL_COUNT : Field := ⟨263, .dma, 0x44, 0, 32, .ro, 0, .port, .die, false⟩
/-! `DMA_CNT_ATSINV` (08, R294) -/
def DMA_CNT_ATSINV_COUNT : Field := ⟨264, .dma, 0x48, 0, 32, .ro, 0, .port, .die, false⟩
/-! `MBX_DATA` (09, R306) -/
def MBX_DATA_WORD : Field := ⟨265, .mbx, 0x0, 0, 64, .rw, 0, .partition, .mailbox, false⟩
/-! `MBX_STATUS` (09, R306) -/
def MBX_STATUS_FULL : Field := ⟨266, .mbx, 0x8, 0, 1, .ro, 0, .partition, .mailbox, false⟩
def MBX_STATUS_TMO : Field := ⟨267, .mbx, 0x8, 1, 1, .ro, 0, .partition, .mailbox, false⟩
def MBX_STATUS_WD_FAIL : Field := ⟨268, .mbx, 0x8, 2, 1, .ro, 0, .partition, .mailbox, false⟩
def MBX_STATUS_REJ : Field := ⟨269, .mbx, 0x8, 3, 1, .ro, 0, .partition, .mailbox, false⟩
/-! `MBX_ACK` (09, R306) -/
def MBX_ACK_CODE : Field := ⟨270, .mbx, 0xC, 0, 16, .rw, 0, .partition, .mailbox, false⟩
def MBX_ACK_VALID : Field := ⟨271, .mbx, 0xC, 16, 1, .ro, 0, .partition, .mailbox, false⟩
/-! `MBX_TMO` (09, R306) -/
def MBX_TMO_US : Field := ⟨272, .mbx, 0x10, 0, 24, .rw, 0, .partition, .mailbox, false⟩
/-! `MBX_WITHDRAW` (09, R306) -/
def MBX_WITHDRAW_WITHDRAW : Field := ⟨273, .mbx, 0x14, 0, 1, .wo, 0, .none, .mailbox, false⟩
/-! `MBX_DB` (09, R306) -/
def MBX_DB_IN : Field := ⟨274, .mbx, 0x800, 0, 16, .w1c, 0, .partition, .port, false⟩
def MBX_DB_OUT : Field := ⟨275, .mbx, 0x800, 16, 16, .w1c, 0, .partition, .port, false⟩
/-! `MBX_DB_MASK` (09, R306) -/
def MBX_DB_MASK_MASK : Field := ⟨276, .mbx, 0x804, 0, 32, .rw, 4294967295, .partition, .port, false⟩
/-! `MBX_IRQ` (09, R306) -/
def MBX_IRQ_VECTOR : Field := ⟨277, .mbx, 0x808, 0, 9, .rw, 0, .partition, .port, false⟩
def MBX_IRQ_EN : Field := ⟨278, .mbx, 0x808, 9, 1, .rw, 0, .partition, .port, false⟩
/-! `MBX_CNT` (09, R306) -/
def MBX_CNT_REJECT : Field := ⟨279, .mbx, 0x810, 0, 16, .ro, 0, .port, .die, false⟩
def MBX_CNT_FOREIGN : Field := ⟨280, .mbx, 0x810, 16, 16, .ro, 0, .port, .die, false⟩
/-! `CLK_DOMAIN_ALIVE` (09, R309) -/
def CLK_DOMAIN_ALIVE_MEM : Field := ⟨281, .clk, 0x0, 0, 4, .ro, 0, .none, .die, false⟩
def CLK_DOMAIN_ALIVE_LINK : Field := ⟨282, .clk, 0x0, 4, 8, .ro, 0, .none, .die, false⟩
def CLK_DOMAIN_ALIVE_MCV : Field := ⟨283, .clk, 0x0, 12, 1, .ro, 0, .none, .die, false⟩
def CLK_DOMAIN_ALIVE_FABRIC : Field := ⟨284, .clk, 0x0, 13, 1, .ro, 0, .none, .die, false⟩
def CLK_DOMAIN_ALIVE_PCIE : Field := ⟨285, .clk, 0x0, 14, 2, .ro, 0, .none, .die, false⟩
def CLK_DOMAIN_ALIVE_COURSES_ALL : Field := ⟨286, .clk, 0x0, 16, 1, .ro, 0, .none, .die, false⟩
/-! `CLK_COURSE_ALIVE` (09, R309) -/
def CLK_COURSE_ALIVE_COURSE : Field := ⟨287, .clk, 0x4, 0, 32, .ro, 0, .none, .index, false⟩
/-! `CLK_KEEP` (09, R309) -/
def CLK_KEEP_HOLD : Field := ⟨288, .clk, 0x20, 0, 1, .rw, 0, .partition, .port, false⟩
def CLK_KEEP_LAPSED : Field := ⟨289, .clk, 0x20, 1, 1, .w1c, 0, .partition, .port, false⟩
/-! `CLK_STALL` (09, R309) -/
def CLK_STALL_HELD : Field := ⟨290, .clk, 0x24, 0, 8, .ro, 0, .none, .die, false⟩
def CLK_STALL_DOMAIN : Field := ⟨291, .clk, 0x24, 8, 8, .ro, 255, .port, .die, false⟩
def CLK_STALL_TOTAL : Field := ⟨292, .clk, 0x24, 16, 16, .ro, 0, .port, .die, false⟩
/-! `LNK_CTRL` (10, R328) -/
def LNK_CTRL_ENABLE : Field := ⟨293, .lnk, 0x0, 0, 1, .rwo, 1, .nv, .zlPort, false⟩
def LNK_CTRL_MODE : Field := ⟨294, .lnk, 0x0, 1, 1, .rwo, 0, .nv, .zlPort, false⟩
def LNK_CTRL_MIN_LANES : Field := ⟨295, .lnk, 0x0, 2, 2, .rwo, 2, .nv, .zlPort, false⟩
def LNK_CTRL_RETRAIN : Field := ⟨296, .lnk, 0x0, 4, 1, .w1s, 0, .none, .zlPort, false⟩
def LNK_CTRL_LANE_EN : Field := ⟨297, .lnk, 0x0, 8, 4, .rwo, 15, .nv, .zlPort, false⟩
/-! `LNK_STATUS` (10, R328) -/
def LNK_STATUS_STATE : Field := ⟨298, .lnk, 0x4, 0, 3, .ro, 0, .none, .zlPort, false⟩
def LNK_STATUS_LANES : Field := ⟨299, .lnk, 0x4, 3, 4, .ro, 0, .none, .zlPort, false⟩
def LNK_STATUS_LAST_DOWN : Field := ⟨300, .lnk, 0x4, 8, 4, .ro, 0, .port, .zlPort, false⟩
def LNK_STATUS_EVENTS : Field := ⟨301, .lnk, 0x4, 12, 16, .ro, 0, .port, .zlPort, false⟩
def LNK_STATUS_FAILED : Field := ⟨302, .lnk, 0x4, 28, 4, .ro, 0, .port, .zlPort, false⟩
/-! `LNK_PWAIT` (10, R328) -/
def LNK_PWAIT_MS : Field := ⟨303, .lnk, 0x8, 0, 16, .rwo, 5000, .nv, .zlPort, false⟩
/-! `LNK_SHARE` (10, R328) -/
def LNK_SHARE_BULK_MIN : Field := ⟨304, .lnk, 0xC, 0, 5, .rwo, 16, .nv, .zlPort, false⟩
def LNK_SHARE_MAINT_MIN : Field := ⟨305, .lnk, 0xC, 5, 5, .rwo, 14, .nv, .zlPort, false⟩
/-! `LNK_PARTNER_DSN` (10, R328) -/
def LNK_PARTNER_DSN_SERIAL : Field := ⟨306, .lnk, 0x10, 0, 64, .ro, 0, .port, .zlPort, false⟩
/-! `LNK_PARTNER_INFO` (10, R328) -/
def LNK_PARTNER_INFO_PORT : Field := ⟨307, .lnk, 0x18, 0, 3, .ro, 0, .port, .zlPort, false⟩
def LNK_PARTNER_INFO_ADMIT : Field := ⟨308, .lnk, 0x18, 3, 1, .ro, 0, .port, .zlPort, false⟩
def LNK_PARTNER_INFO_PART : Field := ⟨309, .lnk, 0x18, 4, 4, .ro, 0, .port, .zlPort, false⟩
def LNK_PARTNER_INFO_MAPPED : Field := ⟨310, .lnk, 0x18, 8, 1, .ro, 0, .none, .zlPort, false⟩
def LNK_PARTNER_INFO_MEMBER : Field := ⟨311, .lnk, 0x18, 9, 8, .ro, 0, .port, .zlPort, false⟩
/-! `LNK_PARTNER_FW` (10, R328) -/
def LNK_PARTNER_FW_GEN : Field := ⟨312, .lnk, 0x1C, 0, 32, .ro, 0, .port, .zlPort, false⟩
/-! `LNK_EXP` (10, R328) -/
def LNK_EXP_PART : Field := ⟨313, .lnk, 0x20, 0, 4, .rw2, 0, .nv, .zlPort, false⟩
def LNK_EXP_EN : Field := ⟨314, .lnk, 0x20, 4, 1, .rw2, 0, .nv, .zlPort, false⟩
def LNK_EXP_PEER_MEMBER : Field := ⟨315, .lnk, 0x20, 5, 8, .rw2, 0, .nv, .zlPort, false⟩
/-! `LNK_EXP_CHAIN` (10, R328) -/
def LNK_EXP_CHAIN_ID : Field := ⟨316, .lnk, 0x24, 0, 64, .rw2, 0, .nv, .zlPort, false⟩
/-! `LNK_CNT_FECC` (10, R328) -/
def LNK_CNT_FECC_COUNT : Field := ⟨317, .lnk, 0x100, 0, 32, .ro, 0, .port, .zlPort, false⟩
/-! `LNK_CNT_FECU` (10, R328) -/
def LNK_CNT_FECU_COUNT : Field := ⟨318, .lnk, 0x104, 0, 32, .ro, 0, .port, .zlPort, false⟩
/-! `LNK_CNT_CRC` (10, R328) -/
def LNK_CNT_CRC_COUNT : Field := ⟨319, .lnk, 0x108, 0, 32, .ro, 0, .port, .zlPort, false⟩
/-! `LNK_CNT_REPLAY` (10, R328) -/
def LNK_CNT_REPLAY_COUNT : Field := ⟨320, .lnk, 0x10C, 0, 32, .ro, 0, .port, .zlPort, false⟩
/-! `LNK_CNT_HELLO_BAD` (10, R328) -/
def LNK_CNT_HELLO_BAD_COUNT : Field := ⟨321, .lnk, 0x110, 0, 32, .ro, 0, .port, .zlPort, false⟩
/-! `LNK_CNT_TX` (10, R328) -/
def LNK_CNT_TX_COUNT : Field := ⟨322, .lnk, 0x120, 0, 64, .ro, 0, .port, .zlPort, false⟩
/-! `LNK_CNT_RX` (10, R328) -/
def LNK_CNT_RX_COUNT : Field := ⟨323, .lnk, 0x128, 0, 64, .ro, 0, .port, .zlPort, false⟩
/-! `CAL_PEG_CTRL` (11, R358) -/
def CAL_PEG_CTRL_EN : Field := ⟨324, .cal, 0x0, 0, 1, .rwo, 1, .nv, .die, false⟩
def CAL_PEG_CTRL_GAPS_EN : Field := ⟨325, .cal, 0x0, 1, 1, .rwo, 1, .nv, .die, false⟩
def CAL_PEG_CTRL_HOLD_US : Field := ⟨326, .cal, 0x0, 8, 8, .rwo, 40, .nv, .die, false⟩
def CAL_PEG_CTRL_HOLD_PM : Field := ⟨327, .cal, 0x0, 16, 8, .rwo, 20, .nv, .die, false⟩
/-! `CAL_PEG_INTERVAL` (11, R358) -/
def CAL_PEG_INTERVAL_NORMAL_S : Field := ⟨328, .cal, 0x4, 0, 16, .rwo, 600, .nv, .die, false⟩
def CAL_PEG_INTERVAL_HOT_S : Field := ⟨329, .cal, 0x4, 16, 16, .rwo, 120, .nv, .die, false⟩
/-! `CAL_PEG_THR` (11, R358) -/
def CAL_PEG_THR_RETUNE : Field := ⟨330, .cal, 0x8, 0, 8, .rwo, 16, .nv, .die, false⟩
def CAL_PEG_THR_PROBE_TOL : Field := ⟨331, .cal, 0x8, 8, 8, .rwo, 8, .nv, .die, false⟩
def CAL_PEG_THR_CHK_TOL : Field := ⟨332, .cal, 0x8, 16, 8, .rwo, 2, .nv, .die, false⟩
/-! `CAL_SIG_BASE` (11, R358) -/
def CAL_SIG_BASE_FRAME : Field := ⟨333, .cal, 0xC, 0, 23, .rw2, 4678904, .nv, .die, false⟩
/-! `CAL_PEG_SEL` (11, R358) -/
def CAL_PEG_SEL_COURSE : Field := ⟨334, .cal, 0x10, 0, 7, .rw, 0, .port, .req, false⟩
/-! `CAL_PEG_STATUS` (11, R358) -/
def CAL_PEG_STATUS_STATE : Field := ⟨335, .cal, 0x14, 0, 2, .ro, 0, .chip, .course, false⟩
def CAL_PEG_STATUS_HOT : Field := ⟨336, .cal, 0x14, 2, 1, .ro, 0, .chip, .course, false⟩
def CAL_PEG_STATUS_OVERDUE : Field := ⟨337, .cal, 0x14, 3, 1, .ro, 0, .chip, .course, false⟩
def CAL_PEG_STATUS_GAPS_OFF : Field := ⟨338, .cal, 0x14, 4, 1, .ro, 0, .chip, .course, false⟩
/-! `CAL_PEG_LAST` (11, R358) -/
def CAL_PEG_LAST_TIME : Field := ⟨339, .cal, 0x18, 0, 64, .ro, 0, .chip, .course, false⟩
/-! `CAL_PEG_CNT_SUSPECT` (11, R358) -/
def CAL_PEG_CNT_SUSPECT_COUNT : Field := ⟨340, .cal, 0x20, 0, 32, .ro, 0, .port, .course, false⟩
/-! `CAL_PEG_CNT_CELLS` (11, R358) -/
def CAL_PEG_CNT_CELLS_COUNT : Field := ⟨341, .cal, 0x24, 0, 32, .ro, 0, .port, .course, false⟩
/-! `CAL_PEG_CNT_REPROG` (11, R358) -/
def CAL_PEG_CNT_REPROG_COUNT : Field := ⟨342, .cal, 0x28, 0, 32, .ro, 0, .port, .course, false⟩
/-! `CAL_PEG_CNT_DEFER` (11, R358) -/
def CAL_PEG_CNT_DEFER_COUNT : Field := ⟨343, .cal, 0x2C, 0, 32, .ro, 0, .port, .course, false⟩
/-! `CAL_PEG_CNT_INTRUDE` (11, R358) -/
def CAL_PEG_CNT_INTRUDE_COUNT : Field := ⟨344, .cal, 0x30, 0, 32, .ro, 0, .port, .course, false⟩
/-! `CAL_PEG_HOLD` (11, R358) -/
def CAL_PEG_HOLD_US : Field := ⟨345, .cal, 0x34, 0, 16, .ro, 0, .none, .course, false⟩
/-! `CAL_CMD` (11, R358) -/
def CAL_CMD_START : Field := ⟨346, .cal, 0x40, 0, 1, .w1s, 0, .none, .die, false⟩
def CAL_CMD_ABORT : Field := ⟨347, .cal, 0x40, 1, 1, .w1s, 0, .none, .die, false⟩
def CAL_CMD_TEMP : Field := ⟨348, .cal, 0x40, 2, 1, .rwo, 0, .chip, .die, false⟩
def CAL_CMD_ARRAYS : Field := ⟨349, .cal, 0x40, 3, 1, .rwo, 1, .chip, .die, false⟩
/-! `CAL_STATUS` (11, R358) -/
def CAL_STATUS_STATE : Field := ⟨350, .cal, 0x44, 0, 2, .ro, 0, .chip, .die, false⟩
def CAL_STATUS_TRACE : Field := ⟨351, .cal, 0x44, 2, 1, .ro, 0, .nv, .die, false⟩
def CAL_STATUS_TEMP_TRACE : Field := ⟨352, .cal, 0x44, 3, 1, .ro, 0, .nv, .die, false⟩
def CAL_STATUS_ERR : Field := ⟨353, .cal, 0x44, 4, 4, .ro, 0, .chip, .die, false⟩
def CAL_STATUS_STEP : Field := ⟨354, .cal, 0x44, 8, 4, .ro, 0, .chip, .die, false⟩
/-! `CAL_REF_UV` (11, R358) -/
def CAL_REF_UV_UV : Field := ⟨355, .cal, 0x48, 0, 32, .rwo, 0, .nv, .die, false⟩
/-! `CAL_REF_PPM` (11, R358) -/
def CAL_REF_PPM_PPM : Field := ⟨356, .cal, 0x4C, 0, 16, .rwo, 0, .nv, .die, false⟩
/-! `CAL_TREF` (11, R358) -/
def CAL_TREF_TEMP : Field := ⟨357, .cal, 0x50, 0, 16, .rwo, 0, .chip, .die, false⟩
def CAL_TREF_VALID : Field := ⟨358, .cal, 0x50, 16, 1, .rwo, 0, .chip, .die, false⟩
/-! `CAL_BG0` (11, R358) -/
def CAL_BG0_UV : Field := ⟨359, .cal, 0x54, 0, 24, .ro, Config.factoryBandgap0.toNat, .nv, .die, false⟩
/-! `CAL_BG1` (11, R358) -/
def CAL_BG1_UV : Field := ⟨360, .cal, 0x58, 0, 24, .ro, Config.factoryBandgap1.toNat, .nv, .die, false⟩
/-! `CAL_SET` (11, R358) -/
def CAL_SET_GEN : Field := ⟨361, .cal, 0x5C, 0, 16, .ro, 0, .nv, .die, false⟩
def CAL_SET_PENDING : Field := ⟨362, .cal, 0x5C, 16, 7, .ro, 0, .chip, .die, false⟩
/-! `CAL_LAST` (11, R358) -/
def CAL_LAST_TIME : Field := ⟨363, .cal, 0x60, 0, 64, .ro, 0, .power, .die, false⟩
/-! `CAL_TRACK` (11, R358) -/
def CAL_TRACK_DELTA_C : Field := ⟨364, .cal, 0x68, 0, 8, .rwo, 10, .nv, .die, false⟩
def CAL_TRACK_HOURS : Field := ⟨365, .cal, 0x68, 8, 16, .rwo, 24, .nv, .die, false⟩
/-! `CAL_MCV_EN` (11, R358) -/
def CAL_MCV_EN_EN : Field := ⟨366, .cal, 0x70, 0, 1, .rwo, 1, .chip, .die, false⟩
/-! `MCV_CTRL` (11, R358) -/
def MCV_CTRL_RUN : Field := ⟨367, .mcv, 0x0, 0, 1, .rwo, 1, .chip, .die, false⟩
def MCV_CTRL_KEEP_SETTLE : Field := ⟨368, .mcv, 0x0, 1, 1, .rwo, 0, .chip, .die, false⟩
def MCV_CTRL_NOTCH_EN : Field := ⟨369, .mcv, 0x0, 2, 1, .rwo, 0, .chip, .die, false⟩
def MCV_CTRL_SCAN_LEN : Field := ⟨370, .mcv, 0x0, 8, 6, .rwo, 0, .chip, .die, false⟩
/-! `MCV_NOTCH` (11, R358) -/
def MCV_NOTCH_FREQ_KHZ : Field := ⟨371, .mcv, 0x4, 0, 13, .rwo, 1000, .chip, .die, false⟩
/-! `MCV_PROBE` (11, R358) -/
def MCV_PROBE_COURSE : Field := ⟨372, .mcv, 0x8, 0, 7, .rwo, 0, .chip, .die, false⟩
def MCV_PROBE_CROW : Field := ⟨373, .mcv, 0x8, 7, 4, .rwo, 0, .chip, .die, false⟩
def MCV_PROBE_CCOL : Field := ⟨374, .mcv, 0x8, 11, 4, .rwo, 0, .chip, .die, false⟩
def MCV_PROBE_ARRAY : Field := ⟨375, .mcv, 0x8, 15, 4, .rwo, 0, .chip, .die, false⟩
def MCV_PROBE_TIER : Field := ⟨376, .mcv, 0x8, 19, 7, .rwo, 0, .chip, .die, false⟩
def MCV_PROBE_LEVEL : Field := ⟨377, .mcv, 0x8, 26, 4, .rwo, 0, .chip, .die, false⟩
/-! `MCV_RESULT` (11, R358) -/
def MCV_RESULT_ENTRY : Field := ⟨378, .mcv, 0x10, 0, 32, .rc, 1056964608, .port, .die, false⟩
/-! `MCV_QSTAT` (11, R358) -/
def MCV_QSTAT_COUNT : Field := ⟨379, .mcv, 0x14, 0, 9, .ro, 0, .port, .die, false⟩
/-! `MCV_DROP` (11, R358) -/
def MCV_DROP_COUNT : Field := ⟨380, .mcv, 0x18, 0, 16, .rc, 0, .port, .die, false⟩
/-! `MCV_STATE` (11, R358) -/
def MCV_STATE_ENTRY : Field := ⟨381, .mcv, 0x1C, 0, 6, .ro, 0, .none, .die, false⟩
def MCV_STATE_SETTLING : Field := ⟨382, .mcv, 0x1C, 6, 1, .ro, 0, .none, .die, false⟩
def MCV_STATE_RUNNING : Field := ⟨383, .mcv, 0x1C, 7, 1, .ro, 0, .none, .die, false⟩
/-! `MCV_SCAN` (11, R358) -/
def MCV_SCAN_CH : Field := ⟨384, .mcv, 0x100, 0, 4, .rwo, 0, .chip, .index, false⟩
def MCV_SCAN_SEL : Field := ⟨385, .mcv, 0x100, 4, 8, .rwo, 0, .chip, .index, false⟩
def MCV_SCAN_ORDER : Field := ⟨386, .mcv, 0x100, 12, 2, .rwo, 2, .chip, .index, false⟩
def MCV_SCAN_OSR : Field := ⟨387, .mcv, 0x100, 14, 3, .rwo, 6, .chip, .index, false⟩
def MCV_SCAN_REPEAT : Field := ⟨388, .mcv, 0x100, 17, 8, .rwo, 0, .chip, .index, false⟩
/-! `TRM_SSEL` (12, R380) -/
def TRM_SSEL_SENSOR : Field := ⟨389, .trm, 0x0, 0, 8, .rw, 0, .port, .req, false⟩
/-! `TRM_SENSOR` (12, R380) -/
def TRM_SENSOR_TEMP : Field := ⟨390, .trm, 0x4, 0, 16, .ro, 0, .none, .sensor, false⟩
def TRM_SENSOR_RATE : Field := ⟨391, .trm, 0x4, 16, 2, .ro, 0, .none, .sensor, false⟩
def TRM_SENSOR_FAILED : Field := ⟨392, .trm, 0x4, 18, 1, .ro, 0, .chip, .sensor, false⟩
/-! `TRM_HOT` (12, R380) -/
def TRM_HOT_TEMP : Field := ⟨393, .trm, 0x8, 0, 16, .ro, 0, .none, .die, false⟩
def TRM_HOT_SENSOR : Field := ⟨394, .trm, 0x8, 16, 8, .ro, 0, .none, .die, false⟩
/-! `TRM_PEAK` (12, R380) -/
def TRM_PEAK_TEMP : Field := ⟨395, .trm, 0xC, 0, 16, .rc, 0, .port, .die, false⟩
def TRM_PEAK_SENSOR : Field := ⟨396, .trm, 0xC, 16, 8, .rc, 0, .port, .die, false⟩
/-! `TRM_STATUS` (12, R380) -/
def TRM_STATUS_WARN : Field := ⟨397, .trm, 0x10, 0, 1, .ro, 0, .none, .die, false⟩
def TRM_STATUS_THROT : Field := ⟨398, .trm, 0x10, 1, 1, .ro, 0, .none, .die, false⟩
def TRM_STATUS_CAPPED : Field := ⟨399, .trm, 0x10, 2, 1, .ro, 0, .none, .die, false⟩
def TRM_STATUS_ALERT : Field := ⟨400, .trm, 0x10, 3, 1, .ro, 0, .none, .die, false⟩
def TRM_STATUS_CAP_UNMET : Field := ⟨401, .trm, 0x10, 4, 1, .ro, 0, .none, .die, false⟩
/-! `TRM_CLAMP` (12, R380) -/
def TRM_CLAMP_F : Field := ⟨402, .trm, 0x14, 0, 9, .ro, 256, .none, .die, false⟩
def TRM_CLAMP_F_T : Field := ⟨403, .trm, 0x14, 9, 9, .ro, 256, .none, .die, false⟩
def TRM_CLAMP_F_P : Field := ⟨404, .trm, 0x14, 18, 9, .ro, 256, .none, .die, false⟩
/-! `TRM_POWER` (12, R380) -/
def TRM_POWER_P : Field := ⟨405, .trm, 0x18, 0, 16, .ro, 0, .none, .die, false⟩
def TRM_POWER_P_U : Field := ⟨406, .trm, 0x18, 16, 16, .ro, 0, .none, .die, false⟩
/-! `TRM_CAP` (12, R380) -/
def TRM_CAP_HOST_W : Field := ⟨407, .trm, 0x1C, 0, 10, .rwo, 750, .chip, .die, false⟩
def TRM_CAP_TRAY_W : Field := ⟨408, .trm, 0x1C, 10, 10, .ro, 750, .power, .die, false⟩
def TRM_CAP_ALERT_W : Field := ⟨409, .trm, 0x1C, 20, 10, .ro, 400, .power, .die, false⟩
/-! `TRM_CNT_WARN_MS` (12, R380) -/
def TRM_CNT_WARN_MS_MS : Field := ⟨410, .trm, 0x20, 0, 32, .ro, 0, .power, .die, false⟩
/-! `TRM_CNT_THROT_MS` (12, R380) -/
def TRM_CNT_THROT_MS_MS : Field := ⟨411, .trm, 0x24, 0, 32, .ro, 0, .power, .die, false⟩
/-! `TRM_CNT_CAPPED_MS` (12, R380) -/
def TRM_CNT_CAPPED_MS_MS : Field := ⟨412, .trm, 0x28, 0, 32, .ro, 0, .power, .die, false⟩
/-! `TRM_PSTATE_CMD` (12, R380) -/
def TRM_PSTATE_CMD_TARGET : Field := ⟨413, .trm, 0x40, 0, 2, .rwo, 0, .chip, .die, false⟩
def TRM_PSTATE_CMD_AUTOWAKE : Field := ⟨414, .trm, 0x40, 2, 1, .rwo, 1, .chip, .die, false⟩
/-! `TRM_PSTATE` (12, R380) -/
def TRM_PSTATE_STATE : Field := ⟨415, .trm, 0x44, 0, 3, .ro, 0, .none, .die, false⟩
/-! `TRM_NAP_MASK` (12, R380) -/
def TRM_NAP_MASK_COURSE : Field := ⟨416, .trm, 0x48, 0, 32, .rwo, 0, .chip, .index, false⟩
/-! `TRM_NAP_SAVE` (12, R380) -/
def TRM_NAP_SAVE_FRAME : Field := ⟨417, .trm, 0x58, 0, 23, .rw2, 0, .nv, .die, false⟩
/-! `TRM_IDLE` (12, R380) -/
def TRM_IDLE_US : Field := ⟨418, .trm, 0x5C, 0, 16, .rwo, 10, .nv, .die, false⟩
/-! `TRM_TRIP_STATUS` (12, R380) -/
def TRM_TRIP_STATUS_UNACK : Field := ⟨419, .trm, 0x60, 0, 4, .ro, 0, .nv, .die, false⟩
def TRM_TRIP_STATUS_WRITTEN : Field := ⟨420, .trm, 0x60, 4, 1, .ro, 0, .nv, .die, false⟩
/-! `TRM_TRIP_SEL` (12, R380) -/
def TRM_TRIP_SEL_INDEX : Field := ⟨421, .trm, 0x64, 0, 3, .rw, 0, .port, .req, false⟩
/-! `TRM_TRIP_ACK` (12, R380) -/
def TRM_TRIP_ACK_SEQ : Field := ⟨422, .trm, 0x68, 0, 32, .rwo, 0, .nv, .die, false⟩
/-! `FLT_LOG_BASE` (13, R405) -/
def FLT_LOG_BASE_FRAME : Field := ⟨423, .flt, 0x0, 0, 23, .rw2, 4678373, .nv, .die, false⟩
/-! `FLT_LOG_WR` (13, R405) -/
def FLT_LOG_WR_INDEX : Field := ⟨424, .flt, 0x4, 0, 32, .ro, 0, .chip, .die, false⟩
/-! `FLT_LOG_RD` (13, R405) -/
def FLT_LOG_RD_INDEX : Field := ⟨425, .flt, 0x8, 0, 32, .rwo, 0, .chip, .die, false⟩
/-! `FLT_STATUS` (13, R405) -/
def FLT_STATUS_OVERFLOW : Field := ⟨426, .flt, 0xC, 0, 1, .w1c, 0, .chip, .die, false⟩
def FLT_STATUS_LOG_FULL : Field := ⟨427, .flt, 0xC, 1, 1, .ro, 0, .none, .die, false⟩
def FLT_STATUS_FFC_COUNT : Field := ⟨428, .flt, 0xC, 5, 5, .ro, 0, .chip, .die, false⟩
def FLT_STATUS_FFC_LAST : Field := ⟨429, .flt, 0xC, 10, 1, .ro, 0, .chip, .die, false⟩
/-! `FLT_AGG_CTRL` (13, R405) -/
def FLT_AGG_CTRL_WINDOW_US : Field := ⟨430, .flt, 0x10, 0, 8, .rwo, 10, .nv, .die, false⟩
def FLT_AGG_CTRL_FABRIC_THR : Field := ⟨431, .flt, 0x10, 8, 8, .rwo, 16, .nv, .die, false⟩
/-! `FLT_CSEL` (13, R405) -/
def FLT_CSEL_CLASS : Field := ⟨432, .flt, 0x14, 0, 4, .rw, 0, .port, .req, false⟩
/-! `FLT_CNT_REPORT` (13, R405) -/
def FLT_CNT_REPORT_COUNT : Field := ⟨433, .flt, 0x18, 0, 32, .ro, 0, .chip, .cls, false⟩
/-! `FLT_CNT_RECORD` (13, R405) -/
def FLT_CNT_RECORD_COUNT : Field := ⟨434, .flt, 0x1C, 0, 32, .ro, 0, .chip, .cls, false⟩
/-! `FLT_CNT_LOST` (13, R405) -/
def FLT_CNT_LOST_COUNT : Field := ⟨435, .flt, 0x20, 0, 32, .ro, 0, .chip, .cls, false⟩
/-! `FLT_LOG_SEL` (13, R405) -/
def FLT_LOG_SEL_INDEX : Field := ⟨436, .flt, 0x24, 0, 32, .rw, 0, .port, .req, false⟩
/-! `FLT_FFC_SEL` (13, R405) -/
def FLT_FFC_SEL_INDEX : Field := ⟨437, .flt, 0x28, 0, 5, .rw, 0, .port, .req, false⟩
/-! `FLT_FFC_CLR` (13, R405) -/
def FLT_FFC_CLR_CLEAR : Field := ⟨438, .flt, 0x2C, 0, 1, .wo, 0, .none, .die, false⟩
/-! `FLT_QUAR_CTRL` (13, R405) -/
def FLT_QUAR_CTRL_COUNT : Field := ⟨439, .flt, 0x30, 0, 4, .rwo, 3, .nv, .die, false⟩
def FLT_QUAR_CTRL_WINDOW_KP : Field := ⟨440, .flt, 0x30, 4, 20, .rwo, 1000, .nv, .die, false⟩
/-! `FLT_QUAR_CNT` (13, R405) -/
def FLT_QUAR_CNT_QUAR : Field := ⟨441, .flt, 0x34, 0, 10, .ro, 0, .nv, .die, false⟩
def FLT_QUAR_CNT_CONFIRMED : Field := ⟨442, .flt, 0x34, 10, 10, .ro, 0, .nv, .die, false⟩
def FLT_QUAR_CNT_ESCALATED : Field := ⟨443, .flt, 0x34, 20, 10, .ro, 0, .nv, .die, false⟩
/-! `FLT_AUDIT_CTRL` (13, R405) -/
def FLT_AUDIT_CTRL_EN : Field := ⟨444, .flt, 0x40, 0, 1, .rwo, 1, .nv, .die, false⟩
def FLT_AUDIT_CTRL_PERIOD_LOG2 : Field := ⟨445, .flt, 0x40, 1, 4, .rwo, 10, .nv, .die, false⟩
/-! `FLT_AUDIT_SAMPLE` (13, R405) -/
def FLT_AUDIT_SAMPLE_COUNT : Field := ⟨446, .flt, 0x44, 0, 32, .ro, 0, .chip, .die, false⟩
/-! `FLT_AUDIT_FAIL` (13, R405) -/
def FLT_AUDIT_FAIL_COUNT : Field := ⟨447, .flt, 0x48, 0, 32, .ro, 0, .chip, .die, false⟩
/-! `FLT_AUDIT_ABANDON` (13, R405) -/
def FLT_AUDIT_ABANDON_COUNT : Field := ⟨448, .flt, 0x4C, 0, 32, .ro, 0, .chip, .die, false⟩
/-! `FLT_AUDIT_RB` (13, R405) -/
def FLT_AUDIT_RB_COUNT : Field := ⟨449, .flt, 0x50, 0, 32, .ro, 0, .chip, .die, false⟩
/-! `FLT_FT_CMD` (13, R405) -/
def FLT_FT_CMD_COURSE : Field := ⟨450, .flt, 0x60, 0, 7, .rwo, 0, .chip, .die, false⟩
def FLT_FT_CMD_START : Field := ⟨451, .flt, 0x60, 7, 1, .w1s, 0, .none, .die, false⟩
def FLT_FT_CMD_ABORT : Field := ⟨452, .flt, 0x60, 8, 1, .w1s, 0, .none, .die, false⟩
def FLT_FT_CMD_VOLT : Field := ⟨453, .flt, 0x60, 9, 1, .rwo, 1, .chip, .die, false⟩
def FLT_FT_CMD_CLK : Field := ⟨454, .flt, 0x60, 10, 1, .rwo, 1, .chip, .die, false⟩
def FLT_FT_CMD_HEAT : Field := ⟨455, .flt, 0x60, 11, 1, .rwo, 1, .chip, .die, false⟩
def FLT_FT_CMD_PASSES : Field := ⟨456, .flt, 0x60, 12, 4, .rwo, 1, .chip, .die, false⟩
/-! `FLT_FT_STATUS` (13, R405) -/
def FLT_FT_STATUS_STATE : Field := ⟨457, .flt, 0x64, 0, 2, .ro, 0, .chip, .die, false⟩
def FLT_FT_STATUS_REFUSE : Field := ⟨458, .flt, 0x64, 2, 2, .ro, 0, .chip, .die, false⟩
def FLT_FT_STATUS_FAILS : Field := ⟨459, .flt, 0x64, 4, 16, .ro, 0, .chip, .die, false⟩
/-! `FLT_FT_LIB` (13, R405) -/
def FLT_FT_LIB_ENTRIES : Field := ⟨460, .flt, 0x68, 0, 13, .ro, 64, .nv, .die, false⟩
/-! `FLT_WD_CTRL` (14, R424) -/
def FLT_WD_CTRL_STEP_MS : Field := ⟨461, .flt, 0x200, 0, 16, .rwo, 20, .nv, .die, false⟩
def FLT_WD_CTRL_RERUN_MAX : Field := ⟨462, .flt, 0x200, 16, 4, .rwo, 8, .nv, .die, false⟩
def FLT_WD_CTRL_TWIN_US : Field := ⟨463, .flt, 0x200, 20, 8, .rwo, 16, .nv, .die, false⟩
/-! `FLT_RST_CMD` (14, R424) -/
def FLT_RST_CMD_KIND : Field := ⟨464, .flt, 0x204, 0, 3, .rwo, 0, .none, .die, false⟩
def FLT_RST_CMD_PARTITION : Field := ⟨465, .flt, 0x204, 3, 4, .rwo, 0, .none, .die, false⟩
def FLT_RST_CMD_COURSE : Field := ⟨466, .flt, 0x204, 7, 7, .rwo, 0, .none, .die, false⟩
def FLT_RST_CMD_CONTEXT : Field := ⟨467, .flt, 0x204, 14, 16, .rwo, 0, .none, .die, false⟩
/-! `FLT_RST_STATUS` (14, R424) -/
def FLT_RST_STATUS_KIND : Field := ⟨468, .flt, 0x208, 0, 3, .ro, 0, .power, .die, false⟩
def FLT_RST_STATUS_CAUSE : Field := ⟨469, .flt, 0x208, 3, 4, .ro, 0, .power, .die, false⟩
def FLT_RST_STATUS_BUSY : Field := ⟨470, .flt, 0x208, 7, 1, .ro, 0, .none, .die, false⟩
def FLT_RST_STATUS_COURSE : Field := ⟨471, .flt, 0x208, 8, 7, .ro, 0, .power, .die, false⟩
def FLT_RST_STATUS_PARTITION : Field := ⟨472, .flt, 0x208, 15, 4, .ro, 0, .power, .die, false⟩
def FLT_RST_STATUS_OVERRUN : Field := ⟨473, .flt, 0x208, 19, 1, .ro, 0, .power, .die, false⟩
/-! `FLT_RST_TIME` (14, R424) -/
def FLT_RST_TIME_TIME : Field := ⟨474, .flt, 0x20C, 0, 64, .ro, 0, .power, .die, false⟩
/-! `FLT_RST_CNT_CTX` (14, R424) -/
def FLT_RST_CNT_CTX_COUNT : Field := ⟨475, .flt, 0x220, 0, 32, .ro, 0, .chip, .die, false⟩
/-! `FLT_RST_CNT_COURSE` (14, R424) -/
def FLT_RST_CNT_COURSE_COUNT : Field := ⟨476, .flt, 0x224, 0, 32, .ro, 0, .chip, .die, false⟩
/-! `FLT_RST_CNT_PART` (14, R424) -/
def FLT_RST_CNT_PART_COUNT : Field := ⟨477, .flt, 0x228, 0, 32, .ro, 0, .chip, .die, false⟩
/-! `FLT_RST_CNT_CHIP` (14, R424) -/
def FLT_RST_CNT_CHIP_COUNT : Field := ⟨478, .flt, 0x22C, 0, 32, .ro, 0, .power, .die, false⟩
/-! `FLT_RST_CNT_PWR` (14, R424) -/
def FLT_RST_CNT_PWR_COUNT : Field := ⟨479, .flt, 0x230, 0, 32, .ro, 0, .nv, .die, false⟩
/-! `FLT_HB_STATUS` (14, R424) -/
def FLT_HB_STATUS_PART_LATE : Field := ⟨480, .flt, 0x240, 0, 16, .ro, 0, .none, .die, false⟩
def FLT_HB_STATUS_FW_LATE : Field := ⟨481, .flt, 0x240, 16, 1, .ro, 0, .none, .die, false⟩
def FLT_HB_STATUS_COURSE : Field := ⟨482, .flt, 0x240, 17, 7, .ro, 127, .chip, .die, false⟩
/-! `FLT_PROG_LOST` (14, R424) -/
def FLT_PROG_LOST_PART : Field := ⟨483, .flt, 0x250, 0, 16, .ro, 0, .nv, .die, false⟩
/-! `SEC_STATE` (15, R442) -/
def SEC_STATE_PROV : Field := ⟨484, .sec, 0x0, 0, 1, .ro, 0, .nv, .die, false⟩
/-! `SEC_FW_STATUS` (15, R442) -/
def SEC_FW_STATUS_ACTIVE : Field := ⟨485, .sec, 0x4, 0, 1, .ro, 0, .nv, .die, false⟩
def SEC_FW_STATUS_RUNNING : Field := ⟨486, .sec, 0x4, 1, 1, .ro, 0, .chip, .die, false⟩
def SEC_FW_STATUS_FAIL_A : Field := ⟨487, .sec, 0x4, 2, 1, .ro, 0, .nv, .die, false⟩
def SEC_FW_STATUS_FAIL_B : Field := ⟨488, .sec, 0x4, 3, 1, .ro, 0, .nv, .die, false⟩
def SEC_FW_STATUS_SVN : Field := ⟨489, .sec, 0x4, 4, 12, .ro, 0, .chip, .die, false⟩
def SEC_FW_STATUS_MIN_SVN : Field := ⟨490, .sec, 0x4, 16, 12, .ro, 0, .nv, .die, false⟩
/-! `SEC_FW_CMD` (15, R442) -/
def SEC_FW_CMD_INSTALL : Field := ⟨491, .sec, 0x8, 0, 1, .w1s, 0, .none, .die, false⟩
def SEC_FW_CMD_COMMIT_SVN : Field := ⟨492, .sec, 0x8, 1, 1, .w1s, 0, .none, .die, false⟩
def SEC_FW_CMD_RESULT : Field := ⟨493, .sec, 0x8, 2, 2, .ro, 0, .chip, .die, false⟩
/-! `SEC_FW_ADDR` (15, R442) -/
def SEC_FW_ADDR_OFFSET : Field := ⟨494, .sec, 0xC, 0, 64, .rwo, 0, .chip, .die, false⟩
/-! `SEC_GEN` (15, R442) -/
def SEC_GEN_GEN : Field := ⟨495, .sec, 0x20, 0, 32, .ro, 0, .nv, .die, false⟩
/-! `SEC_GEN_STATUS` (15, R442) -/
def SEC_GEN_STATUS_COPY : Field := ⟨496, .sec, 0x24, 0, 1, .ro, 0, .nv, .die, false⟩
def SEC_GEN_STATUS_PREV_VALID : Field := ⟨497, .sec, 0x24, 1, 1, .ro, 0, .nv, .die, false⟩
def SEC_GEN_STATUS_TWO_PARTY : Field := ⟨498, .sec, 0x24, 2, 1, .ro, 0, .nv, .die, false⟩
def SEC_GEN_STATUS_DIRTY : Field := ⟨499, .sec, 0x24, 3, 1, .ro, 0, .none, .die, false⟩
/-! `SEC_TP_CMD` (15, R442) -/
def SEC_TP_CMD_SEAL : Field := ⟨500, .sec, 0x30, 0, 1, .w1s, 0, .none, .die, false⟩
def SEC_TP_CMD_ABORT : Field := ⟨501, .sec, 0x30, 1, 1, .w1s, 0, .none, .die, false⟩
def SEC_TP_CMD_ROLLBACK : Field := ⟨502, .sec, 0x30, 2, 1, .w1s, 0, .none, .die, false⟩
/-! `SEC_TP_STATUS` (15, R442) -/
def SEC_TP_STATUS_STATE : Field := ⟨503, .sec, 0x34, 0, 2, .ro, 0, .port, .die, false⟩
def SEC_TP_STATUS_ERR : Field := ⟨504, .sec, 0x34, 2, 4, .ro, 0, .port, .die, false⟩
def SEC_TP_STATUS_OVER : Field := ⟨505, .sec, 0x34, 6, 1, .ro, 0, .port, .die, false⟩
def SEC_TP_STATUS_LATE : Field := ⟨506, .sec, 0x34, 7, 1, .ro, 0, .port, .die, false⟩
def SEC_TP_STATUS_ENTRIES : Field := ⟨507, .sec, 0x34, 8, 11, .ro, 0, .port, .die, false⟩
def SEC_TP_STATUS_BAD : Field := ⟨508, .sec, 0x34, 19, 13, .ro, 0, .port, .die, false⟩
/-! `SEC_TP_NONCE` (15, R442) -/
def SEC_TP_NONCE_NONCE : Field := ⟨509, .sec, 0x38, 0, 64, .ro, 0, .port, .die, false⟩
/-! `SEC_TP_DIGEST` (15, R442) -/
def SEC_TP_DIGEST_DIGEST : Field := ⟨510, .sec, 0x40, 0, 32, .ro, 0, .port, .index, false⟩
/-! `SEC_TP_CTRL` (15, R442) -/
def SEC_TP_CTRL_APPROVER : Field := ⟨511, .sec, 0x60, 0, 1, .rw2, 0, .nv, .die, false⟩
def SEC_TP_CTRL_TIMEOUT_S : Field := ⟨512, .sec, 0x60, 1, 16, .rw2, 600, .nv, .die, false⟩
/-! `SEC_KEY_SEL` (15, R442) -/
def SEC_KEY_SEL_SLOT : Field := ⟨513, .sec, 0x70, 0, 4, .rw, 0, .port, .req, false⟩
/-! `SEC_KEY_INFO` (15, R442) -/
def SEC_KEY_INFO_ROLES : Field := ⟨514, .sec, 0x74, 0, 4, .ro, 0, .nv, .keySlot, false⟩
def SEC_KEY_INFO_VALID : Field := ⟨515, .sec, 0x74, 4, 1, .ro, 0, .nv, .keySlot, false⟩
/-! `SEC_KEY_DIGEST` (15, R442) -/
def SEC_KEY_DIGEST_DIGEST : Field := ⟨516, .sec, 0x80, 0, 32, .ro, 0, .nv, .keyWord, false⟩
/-! `SEC_KEY_STAGE` (15, R442) -/
def SEC_KEY_STAGE_SLOT : Field := ⟨517, .sec, 0xA0, 0, 4, .rw2, 0, .nv, .die, false⟩
def SEC_KEY_STAGE_ROLES : Field := ⟨518, .sec, 0xA0, 4, 4, .rw2, 0, .nv, .die, false⟩
def SEC_KEY_STAGE_OP : Field := ⟨519, .sec, 0xA0, 8, 1, .rw2, 0, .nv, .die, false⟩
/-! `SEC_KEY_ADDR` (15, R442) -/
def SEC_KEY_ADDR_OFFSET : Field := ⟨520, .sec, 0xA4, 0, 64, .rwo, 0, .port, .die, false⟩
/-! `PRT_CSEL` (15, R442) -/
def PRT_CSEL_COURSE : Field := ⟨521, .prt, 0x0, 0, 7, .rw, 0, .port, .req, false⟩
/-! `PRT_COURSE` (15, R442) -/
def PRT_COURSE_PART : Field := ⟨522, .prt, 0x4, 0, 4, .rw2, 0, .nv, .logicalCourse, false⟩
def PRT_COURSE_ASSIGNED : Field := ⟨523, .prt, 0x4, 4, 1, .rw2, 0, .nv, .logicalCourse, false⟩
/-! `PRT_PSEL` (15, R442) -/
def PRT_PSEL_PART : Field := ⟨524, .prt, 0x8, 0, 4, .rw, 0, .port, .req, false⟩
/-! `PRT_PCTRL` (15, R442) -/
def PRT_PCTRL_REDUNDANT : Field := ⟨525, .prt, 0xC, 0, 1, .rw2, 0, .nv, .part, false⟩
/-! `PRT_PSTATUS` (15, R442) -/
def PRT_PSTATUS_COURSES : Field := ⟨526, .prt, 0x10, 0, 7, .ro, 0, .nv, .part, false⟩
def PRT_PSTATUS_PENDING : Field := ⟨527, .prt, 0x10, 7, 7, .ro, 0, .none, .part, false⟩
/-! `TRM_RAIL_SEL` (16, R464) -/
def TRM_RAIL_SEL_RAIL : Field := ⟨528, .trm, 0xC0, 0, 4, .rw, 0, .port, .req, false⟩
/-! `TRM_RAIL` (16, R464) -/
def TRM_RAIL_MV : Field := ⟨529, .trm, 0xC4, 0, 16, .ro, 0, .none, .rail, false⟩
def TRM_RAIL_UV : Field := ⟨530, .trm, 0xC4, 16, 1, .ro, 0, .none, .rail, false⟩
def TRM_RAIL_OV : Field := ⟨531, .trm, 0xC4, 17, 1, .ro, 0, .none, .rail, false⟩
def TRM_RAIL_ARMED : Field := ⟨532, .trm, 0xC4, 18, 1, .ro, 0, .none, .rail, false⟩
/-! `TRM_RAIL_CNT` (16, R464) -/
def TRM_RAIL_CNT_UV : Field := ⟨533, .trm, 0xC8, 0, 16, .ro, 0, .power, .rail, false⟩
def TRM_RAIL_CNT_OV : Field := ⟨534, .trm, 0xC8, 16, 16, .ro, 0, .power, .rail, false⟩
/-! `TRM_CLKIN` (16, R464) -/
def TRM_CLKIN_XTAL_OK : Field := ⟨535, .trm, 0xCC, 0, 1, .ro, 0, .none, .die, false⟩
def TRM_CLKIN_REFSYS_OK : Field := ⟨536, .trm, 0xCC, 1, 1, .ro, 0, .none, .die, false⟩
def TRM_CLKIN_PCIE_OK : Field := ⟨537, .trm, 0xCC, 2, 2, .ro, 0, .none, .die, false⟩
def TRM_CLKIN_FALLBACK : Field := ⟨538, .trm, 0xCC, 4, 1, .ro, 0, .power, .die, false⟩

def table0 : List Field :=
  [CRS_ARR_SEL_CROW, CRS_ARR_SEL_CCOL, CRS_ARR_SEL_ARRAY,
   CRS_ARR_SEL_TIER, CRS_ARR_SEL_CAPIDX, CRS_ARR_TFMT_WIDTH,
   CRS_ARR_TFMT_SIGNED, CRS_ARR_TFMT_GAIN, CRS_ARR_TFMT_PARTIAL_FMT,
   CRS_ARR_TFMT_VERIFIED, CRS_ARR_TFMT_PROGRAMMING, CRS_ARR_STATUS_STATE,
   CRS_ARR_STATUS_BUSY, CRS_ARR_STATUS_PROG, CRS_ARR_STATUS_PTIER,
   CRS_ARR_CHK_TOL_TOL_G1, CRS_ARR_CHK_TOL_TOL_G2, CRS_ARR_CHK_TOL_TOL_G4,
   CRS_ARR_CHK_TOL_TOL_G8, CRS_ARR_CHK_CNT_C0_FAIL, CRS_ARR_CHK_CNT_C1_ONLY,
   CRS_ARR_SAT_CNT_COUNT, CRS_ARR_CONV_COUNT, CRS_ARR_DENSE_COUNT,
   CRS_ARR_WEAR_MAX_CYCLES, CRS_ARR_SPARE_MAP_REPLACED, CRS_ARR_SPARE_MAP_ACTIVE,
   CRS_ARR_SPARE_MAP_SYS_MOVED, CRS_ARR_CAP_STATUS_COUNT, CRS_ARR_CAP_STATUS_LOST,
   CRS_ARR_CAP_STATUS_WRAP, CRS_ARR_CAP_CLR_CLEAR, CRS_PRC_CTRL_SAT_THR,
   CRS_PRC_CTRL_REPLAY_MAX, CRS_PRC_CTRL_HREC_EN, CRS_PRC_CTRL_FORCE,
   CRS_PRC_FLUSH_THR_LO_THR_A1, CRS_PRC_FLUSH_THR_LO_THR_A2, CRS_PRC_FLUSH_THR_LO_THR_A3,
   CRS_PRC_FLUSH_THR_LO_THR_A4, CRS_PRC_FLUSH_THR_HI_THR_A5, CRS_PRC_FLUSH_THR_HI_THR_A6,
   CRS_PRC_FLUSH_THR_HI_THR_A7, CRS_PRC_FLUSH_THR_HI_THR_A8, CRS_PRC_TRIP_SAT_COUNT,
   CRS_PRC_TRIP_FLUSH_COUNT, CRS_PRC_REPLAY_COUNT, CRS_PRC_HREC_COUNT,
   CRS_PRC_HOVF_COUNT, CRS_PRC_DEGRADED_COUNT, CRS_PRC_NONFINITE_COUNT,
   CRS_PRC_CO_FLUSH_COUNT, CRS_PRC_CO_SAT_COUNT, CRS_PRC_HCAL_MAX_CH,
   CRS_PRC_HCAL_EPOCH, CRS_PRC_HCAL_DONE, CRS_PRC_HCAL_OVF,
   CRS_CORE_STATUS_STATE, CRS_CORE_STATUS_PC, CRS_CORE_STATUS_SLOT]

def table1 : List Field :=
  [CRS_CORE_CTRL_HALT, CRS_CORE_CTRL_STEP1, CRS_CORE_CTRL_RESUME,
   CRS_CORE_CTRL_SCRUB_EN, CRS_CORE_TAB_NINSTR, CRS_CORE_TAB_NDESC,
   CRS_CORE_TAB_EPOCH, CRS_CORE_PASS_LAYER, CRS_CORE_PASS_NLIVE,
   CRS_CORE_RETIRE_COUNT, CRS_CORE_ECC_DS_CE, CRS_CORE_ECC_DS_UE,
   CRS_CORE_ECC_TS_CE, CRS_CORE_ECC_TS_UE, CRS_CORE_EVENTS_ABORTS,
   CRS_CORE_EVENTS_TNR, CRS_CORE_EVENTS_WDOG, CRS_CORE_FAULT_PC,
   CRS_CORE_FAULT_CLASS, CRS_CORE_FAULT_SLOT, CRS_CORE_FAULT_VALID,
   CRS_CORE_FAULT_CLR_CLEAR, NOC_CTRL_COMBINE_EN, NOC_CTRL_EXPRESS_EN,
   NOC_CTRL_RETRY_MAX, NOC_SHARE_BULK_MIN, NOC_SHARE_MAINT_MIN,
   NOC_FALLBACK_PART, NOC_FALLBACK_ACTIVE, NOC_MAP_SEL_PROW,
   NOC_MAP_SEL_CRSCOL, NOC_MAP_SEL_PCOL, NOC_MAP_SEL_LCRS,
   NOC_SPARE_MAP_REPLACED, NOC_SPARE_MAP_SPARE_FAILED, NOC_SPARE_MAP_ACTIVE,
   NOC_COURSE_MAP_PHYS, NOC_COURSE_MAP_OUT, NOC_FAIL_ROUTER,
   NOC_FAIL_LINK, NOC_FAIL_ATTACH, NOC_FAIL_EXPRESS,
   NOC_MAP_GEN_GEN, NOC_MAP_GEN_PENDING, NOC_RETRY_COUNT,
   NOC_COMBCHK_COUNT, NOC_DROP_COUNT, NOC_BAR_MAX_CLOCKS,
   LDR_CTRL_PROG_CONC, LDR_TIMEOUT_SHARD_MS, LDR_TIMEOUT_PREP_10MS,
   LDR_LAND_BASE_OFFSET, LDR_LAND_SIZE_BUFFERS, LDR_LAND_SIZE_USABLE,
   LDR_PSEL_PART, LDR_PSEL_ESLOT, LDR_PSEL_ASLOT,
   LDR_LOAD_STATE, LDR_LOAD_EPOCH, LDR_LOAD_POSITION]

def table2 : List Field :=
  [LDR_LOAD_MEMBER, LDR_LOAD_SHARDS_EXPECTED, LDR_LOAD_SHARDS_DONE,
   LDR_LOAD_ERR_CODE, LDR_LOAD_ERR_REASON, LDR_LOAD_ERR_NOFIT_MASK,
   LDR_LOAD_ERR_DETAIL, LDR_LOAD_BAD_SHARD, LDR_RELAY_FWD_COUNT,
   LDR_RELAY_BAD_COUNT, LDR_RELAY_REQ_COUNT, LDR_EPOCH_NUMBER,
   LDR_EPOCH_STATE, LDR_EPOCH_HOLD, LDR_EPOCH_REFS,
   LDR_PART_INFO_BAR_ROOT, LDR_PART_INFO_ADMITTING, LDR_SHADOW_EN,
   LDR_SHADOW_READY, LDR_ADP_POOL_BASE, LDR_ADP_POOL_SIZE_UNITS,
   LDR_ADP_BW_GBPS, LDR_ADP_SLOT_VERSION, LDR_ADP_SLOT_PART,
   LDR_ADP_SLOT_VALID, LDR_ADP_SLOT_RESIDENT, LDR_ADP_SLOT_SUPERSEDED,
   LDR_ADP_SLOT_REFS, SRV_PSEL_PART, SRV_RQ_SEL_INDEX,
   SRV_PART_SLICE_BASE, SRV_PART_SLICE_COUNT, SRV_PART_POOL_BASE_FRAME,
   SRV_PART_POOL_COUNT_FRAMES, SRV_PART_SCHED_BATCH_CAP, SRV_PART_SCHED_CHUNK,
   SRV_PART_SCHED_SLICE_US, SRV_PART_COST_A_NS, SRV_PART_COST_B_PS,
   SRV_PART_COST2_C_NS, SRV_PART_KVGEO_STREAMS, SRV_PART_KVGEO_LOG2_TP,
   SRV_PART_WAIT_PAGEWAIT_MS, SRV_PART_DRAFT_DPART, SRV_PART_DRAFT_EN,
   SRV_PART_DRAFT_OK, SRV_PART_STATUS_LIVE, SRV_PART_STATUS_PREFIXES,
   SRV_PART_PAGES_FREE_FRAMES, SRV_PART_PAGES_RES_FRAMES, SRV_RQ_STATE_STATE,
   SRV_RQ_STATE_CAUSE, SRV_RQ_STATE_CODE, SRV_RQ_STATE_VERSION,
   SRV_RQ_PROGRESS_KVLEN, SRV_RQ_PROGRESS_DRAFT_CUR, SRV_RQ_GEN_GEN,
   SRV_RQ_USER_USER_ID, SRV_CNT_ADMIT_COUNT, SRV_CNT_REFUSE_COUNT]

def table3 : List Field :=
  [SRV_CNT_FULL_COUNT, SRV_CNT_CANCEL_COUNT, SRV_CNT_CANCEL_LATE_COUNT,
   SRV_CNT_PREEMPT_COUNT, SRV_CNT_PAGEWAIT_COUNT, SRV_CNT_DRAFTED_COUNT,
   SRV_CNT_ACCEPTED_COUNT, SRV_CNT_NONFINITE_COUNT, HIF_ID_VENDOR,
   HIF_ID_DEVICE, HIF_REV_STEPPING, HIF_REV_COURSES,
   HIF_REV_STACKS, HIF_REV_ZLPORTS, HIF_REV_PCIEPORTS,
   HIF_DSN_SERIAL, HIF_DEV_STATE_STATE, HIF_DEV_STATE_TRIP_REC,
   HIF_DEV_STATE_VERIFY, HIF_TIME_TIME, HIF_OWN_CLAIM_NONCE,
   HIF_OWN_STATUS_OWNER, HIF_OWN_STATUS_OFFER, HIF_OWN_STATUS_ABANDONED,
   HIF_OWN_STATUS_RECLAIMED, HIF_OWN_STATUS_MINE, HIF_OWN_NONCE_NONCE,
   HIF_OWN_HANDOVER_OFFER, HIF_OWN_ACCEPT_NONCE, HIF_OWN_POLICY_CLAIM_PORTS,
   HIF_OWN_POLICY_RECLAIM_EN, HIF_BAR4_BASE_BASE, HIF_PORT_STATUS_RATE,
   HIF_PORT_STATUS_WIDTH, HIF_PORT_STATUS_DL_UP, HIF_PORT_STATUS_DEGRADED,
   HIF_PORT_STATUS_IDE, HIF_PORT_STATUS_LAST_RESET, HIF_FSEL_FUNCTION,
   HIF_FUNC_PART_PARTS, HIF_NOW_CNT_NONOWNER, HIF_NOW_CNT_BADDB,
   HIF_NOW_LAST_OFFSET, HIF_NOW_LAST_FUNCTION, HIF_NOW_LAST_BAR,
   HIF_NOW_LAST_HI_OFFSET_HI, RCB_ASSIGN_PARTITION, RCB_ASSIGN_FUNCTION,
   RCB_ASSIGN_VALID, RCB_CFG_KIND, RCB_CFG_CFMT,
   RCB_CFG_SIZE_EXP, RCB_CFG_ENABLE, RCB_PAIR_CPL,
   RCB_PAIR_TOKEN, RCB_INTR_VECTOR, RCB_INTR_INTR_EN,
   RCB_INTR_COAL_CNT, RCB_INTR_COAL_T, RCB_BASE_ADDR]

def table4 : List Field :=
  [RCB_WB_ADDR, RCB_HEAD_INDEX, RCB_TAIL_INDEX,
   RCB_STATUS_STATE, RCB_STATUS_ERR, RCB_STATUS_ARMED,
   RCB_STATUS_FAULT_WAIT, RCB_CTRL_STOP, RCB_CTRL_RESUME,
   RCB_COUNT_ENTRIES, DMA_WSEL_PART, DMA_WSEL_WIN,
   DMA_WIN_BASE_ADDR, DMA_WIN_SIZE_PAGES, DMA_WIN_ATTR_FUNCTION,
   DMA_WIN_ATTR_PASID_EN, DMA_WIN_ATTR_PASID, DMA_WIN_ATTR_RD,
   DMA_WIN_ATTR_WR, DMA_DATA_BASE_FRAME, DMA_DATA_COUNT_FRAME,
   DMA_PRI_CTRL_TIMEOUT_MS, DMA_CNT_PRQ_COUNT, DMA_CNT_PFAIL_COUNT,
   DMA_CNT_ATSINV_COUNT, MBX_DATA_WORD, MBX_STATUS_FULL,
   MBX_STATUS_TMO, MBX_STATUS_WD_FAIL, MBX_STATUS_REJ,
   MBX_ACK_CODE, MBX_ACK_VALID, MBX_TMO_US,
   MBX_WITHDRAW_WITHDRAW, MBX_DB_IN, MBX_DB_OUT,
   MBX_DB_MASK_MASK, MBX_IRQ_VECTOR, MBX_IRQ_EN,
   MBX_CNT_REJECT, MBX_CNT_FOREIGN, CLK_DOMAIN_ALIVE_MEM,
   CLK_DOMAIN_ALIVE_LINK, CLK_DOMAIN_ALIVE_MCV, CLK_DOMAIN_ALIVE_FABRIC,
   CLK_DOMAIN_ALIVE_PCIE, CLK_DOMAIN_ALIVE_COURSES_ALL, CLK_COURSE_ALIVE_COURSE,
   CLK_KEEP_HOLD, CLK_KEEP_LAPSED, CLK_STALL_HELD,
   CLK_STALL_DOMAIN, CLK_STALL_TOTAL, LNK_CTRL_ENABLE,
   LNK_CTRL_MODE, LNK_CTRL_MIN_LANES, LNK_CTRL_RETRAIN,
   LNK_CTRL_LANE_EN, LNK_STATUS_STATE, LNK_STATUS_LANES]

def table5 : List Field :=
  [LNK_STATUS_LAST_DOWN, LNK_STATUS_EVENTS, LNK_STATUS_FAILED,
   LNK_PWAIT_MS, LNK_SHARE_BULK_MIN, LNK_SHARE_MAINT_MIN,
   LNK_PARTNER_DSN_SERIAL, LNK_PARTNER_INFO_PORT, LNK_PARTNER_INFO_ADMIT,
   LNK_PARTNER_INFO_PART, LNK_PARTNER_INFO_MAPPED, LNK_PARTNER_INFO_MEMBER,
   LNK_PARTNER_FW_GEN, LNK_EXP_PART, LNK_EXP_EN,
   LNK_EXP_PEER_MEMBER, LNK_EXP_CHAIN_ID, LNK_CNT_FECC_COUNT,
   LNK_CNT_FECU_COUNT, LNK_CNT_CRC_COUNT, LNK_CNT_REPLAY_COUNT,
   LNK_CNT_HELLO_BAD_COUNT, LNK_CNT_TX_COUNT, LNK_CNT_RX_COUNT,
   CAL_PEG_CTRL_EN, CAL_PEG_CTRL_GAPS_EN, CAL_PEG_CTRL_HOLD_US,
   CAL_PEG_CTRL_HOLD_PM, CAL_PEG_INTERVAL_NORMAL_S, CAL_PEG_INTERVAL_HOT_S,
   CAL_PEG_THR_RETUNE, CAL_PEG_THR_PROBE_TOL, CAL_PEG_THR_CHK_TOL,
   CAL_SIG_BASE_FRAME, CAL_PEG_SEL_COURSE, CAL_PEG_STATUS_STATE,
   CAL_PEG_STATUS_HOT, CAL_PEG_STATUS_OVERDUE, CAL_PEG_STATUS_GAPS_OFF,
   CAL_PEG_LAST_TIME, CAL_PEG_CNT_SUSPECT_COUNT, CAL_PEG_CNT_CELLS_COUNT,
   CAL_PEG_CNT_REPROG_COUNT, CAL_PEG_CNT_DEFER_COUNT, CAL_PEG_CNT_INTRUDE_COUNT,
   CAL_PEG_HOLD_US, CAL_CMD_START, CAL_CMD_ABORT,
   CAL_CMD_TEMP, CAL_CMD_ARRAYS, CAL_STATUS_STATE,
   CAL_STATUS_TRACE, CAL_STATUS_TEMP_TRACE, CAL_STATUS_ERR,
   CAL_STATUS_STEP, CAL_REF_UV_UV, CAL_REF_PPM_PPM,
   CAL_TREF_TEMP, CAL_TREF_VALID, CAL_BG0_UV]

def table6 : List Field :=
  [CAL_BG1_UV, CAL_SET_GEN, CAL_SET_PENDING,
   CAL_LAST_TIME, CAL_TRACK_DELTA_C, CAL_TRACK_HOURS,
   CAL_MCV_EN_EN, MCV_CTRL_RUN, MCV_CTRL_KEEP_SETTLE,
   MCV_CTRL_NOTCH_EN, MCV_CTRL_SCAN_LEN, MCV_NOTCH_FREQ_KHZ,
   MCV_PROBE_COURSE, MCV_PROBE_CROW, MCV_PROBE_CCOL,
   MCV_PROBE_ARRAY, MCV_PROBE_TIER, MCV_PROBE_LEVEL,
   MCV_RESULT_ENTRY, MCV_QSTAT_COUNT, MCV_DROP_COUNT,
   MCV_STATE_ENTRY, MCV_STATE_SETTLING, MCV_STATE_RUNNING,
   MCV_SCAN_CH, MCV_SCAN_SEL, MCV_SCAN_ORDER,
   MCV_SCAN_OSR, MCV_SCAN_REPEAT, TRM_SSEL_SENSOR,
   TRM_SENSOR_TEMP, TRM_SENSOR_RATE, TRM_SENSOR_FAILED,
   TRM_HOT_TEMP, TRM_HOT_SENSOR, TRM_PEAK_TEMP,
   TRM_PEAK_SENSOR, TRM_STATUS_WARN, TRM_STATUS_THROT,
   TRM_STATUS_CAPPED, TRM_STATUS_ALERT, TRM_STATUS_CAP_UNMET,
   TRM_CLAMP_F, TRM_CLAMP_F_T, TRM_CLAMP_F_P,
   TRM_POWER_P, TRM_POWER_P_U, TRM_CAP_HOST_W,
   TRM_CAP_TRAY_W, TRM_CAP_ALERT_W, TRM_CNT_WARN_MS_MS,
   TRM_CNT_THROT_MS_MS, TRM_CNT_CAPPED_MS_MS, TRM_PSTATE_CMD_TARGET,
   TRM_PSTATE_CMD_AUTOWAKE, TRM_PSTATE_STATE, TRM_NAP_MASK_COURSE,
   TRM_NAP_SAVE_FRAME, TRM_IDLE_US, TRM_TRIP_STATUS_UNACK]

def table7 : List Field :=
  [TRM_TRIP_STATUS_WRITTEN, TRM_TRIP_SEL_INDEX, TRM_TRIP_ACK_SEQ,
   FLT_LOG_BASE_FRAME, FLT_LOG_WR_INDEX, FLT_LOG_RD_INDEX,
   FLT_STATUS_OVERFLOW, FLT_STATUS_LOG_FULL, FLT_STATUS_FFC_COUNT,
   FLT_STATUS_FFC_LAST, FLT_AGG_CTRL_WINDOW_US, FLT_AGG_CTRL_FABRIC_THR,
   FLT_CSEL_CLASS, FLT_CNT_REPORT_COUNT, FLT_CNT_RECORD_COUNT,
   FLT_CNT_LOST_COUNT, FLT_LOG_SEL_INDEX, FLT_FFC_SEL_INDEX,
   FLT_FFC_CLR_CLEAR, FLT_QUAR_CTRL_COUNT, FLT_QUAR_CTRL_WINDOW_KP,
   FLT_QUAR_CNT_QUAR, FLT_QUAR_CNT_CONFIRMED, FLT_QUAR_CNT_ESCALATED,
   FLT_AUDIT_CTRL_EN, FLT_AUDIT_CTRL_PERIOD_LOG2, FLT_AUDIT_SAMPLE_COUNT,
   FLT_AUDIT_FAIL_COUNT, FLT_AUDIT_ABANDON_COUNT, FLT_AUDIT_RB_COUNT,
   FLT_FT_CMD_COURSE, FLT_FT_CMD_START, FLT_FT_CMD_ABORT,
   FLT_FT_CMD_VOLT, FLT_FT_CMD_CLK, FLT_FT_CMD_HEAT,
   FLT_FT_CMD_PASSES, FLT_FT_STATUS_STATE, FLT_FT_STATUS_REFUSE,
   FLT_FT_STATUS_FAILS, FLT_FT_LIB_ENTRIES, FLT_WD_CTRL_STEP_MS,
   FLT_WD_CTRL_RERUN_MAX, FLT_WD_CTRL_TWIN_US, FLT_RST_CMD_KIND,
   FLT_RST_CMD_PARTITION, FLT_RST_CMD_COURSE, FLT_RST_CMD_CONTEXT,
   FLT_RST_STATUS_KIND, FLT_RST_STATUS_CAUSE, FLT_RST_STATUS_BUSY,
   FLT_RST_STATUS_COURSE, FLT_RST_STATUS_PARTITION, FLT_RST_STATUS_OVERRUN,
   FLT_RST_TIME_TIME, FLT_RST_CNT_CTX_COUNT, FLT_RST_CNT_COURSE_COUNT,
   FLT_RST_CNT_PART_COUNT, FLT_RST_CNT_CHIP_COUNT, FLT_RST_CNT_PWR_COUNT]

def table8 : List Field :=
  [FLT_HB_STATUS_PART_LATE, FLT_HB_STATUS_FW_LATE, FLT_HB_STATUS_COURSE,
   FLT_PROG_LOST_PART, SEC_STATE_PROV, SEC_FW_STATUS_ACTIVE,
   SEC_FW_STATUS_RUNNING, SEC_FW_STATUS_FAIL_A, SEC_FW_STATUS_FAIL_B,
   SEC_FW_STATUS_SVN, SEC_FW_STATUS_MIN_SVN, SEC_FW_CMD_INSTALL,
   SEC_FW_CMD_COMMIT_SVN, SEC_FW_CMD_RESULT, SEC_FW_ADDR_OFFSET,
   SEC_GEN_GEN, SEC_GEN_STATUS_COPY, SEC_GEN_STATUS_PREV_VALID,
   SEC_GEN_STATUS_TWO_PARTY, SEC_GEN_STATUS_DIRTY, SEC_TP_CMD_SEAL,
   SEC_TP_CMD_ABORT, SEC_TP_CMD_ROLLBACK, SEC_TP_STATUS_STATE,
   SEC_TP_STATUS_ERR, SEC_TP_STATUS_OVER, SEC_TP_STATUS_LATE,
   SEC_TP_STATUS_ENTRIES, SEC_TP_STATUS_BAD, SEC_TP_NONCE_NONCE,
   SEC_TP_DIGEST_DIGEST, SEC_TP_CTRL_APPROVER, SEC_TP_CTRL_TIMEOUT_S,
   SEC_KEY_SEL_SLOT, SEC_KEY_INFO_ROLES, SEC_KEY_INFO_VALID,
   SEC_KEY_DIGEST_DIGEST, SEC_KEY_STAGE_SLOT, SEC_KEY_STAGE_ROLES,
   SEC_KEY_STAGE_OP, SEC_KEY_ADDR_OFFSET, PRT_CSEL_COURSE,
   PRT_COURSE_PART, PRT_COURSE_ASSIGNED, PRT_PSEL_PART,
   PRT_PCTRL_REDUNDANT, PRT_PSTATUS_COURSES, PRT_PSTATUS_PENDING,
   TRM_RAIL_SEL_RAIL, TRM_RAIL_MV, TRM_RAIL_UV,
   TRM_RAIL_OV, TRM_RAIL_ARMED, TRM_RAIL_CNT_UV,
   TRM_RAIL_CNT_OV, TRM_CLKIN_XTAL_OK, TRM_CLKIN_REFSYS_OK,
   TRM_CLKIN_PCIE_OK, TRM_CLKIN_FALLBACK]

/-- Every register field, in the order of the spec. The `n`-th entry has `id = n`. -/
def table : List Field :=
  table0 ++
  table1 ++
  table2 ++
  table3 ++
  table4 ++
  table5 ++
  table6 ++
  table7 ++
  table8

end Sys2Proof.Machine.Reg
end

