-- ==== Sys2Proof/Machine/State.lean ====
section
/-! DEFINITION. Machine/State.lean: the state of the block as plain data, its reset value, and the reasons to stop. -/
namespace Sys2Proof.Machine

/-- Reasons a step stops with a fault. No command of this block raises one: every event the manual describes has an
effect, and a write to an address that does not exist is discarded (R10). Safe. -/
inductive Fault where
  /-- raised by nothing; it keeps the type inhabited. Safe. -/
  | unreachable
deriving DecidableEq, Repr

/-- Reasons a step is refused. -/
inductive Refusal where
  /-- raised by `exec` for a command without a meaning yet, by its mnemonic. Safe. -/
  | notModelled (mnemonic : String)
deriving DecidableEq, Repr

/-! What the device emits -/

/-- What the device sends out of itself: the model's own trace, in order. -/
inductive Output where
  /-- a ring entry written to host memory: ring, free-running index, host address, size in bytes, little-endian value -/
  | ringEntry (ring index address size value : Nat)
  /-- a writeback word (R282): ring, host address, value -/
  | writeback (ring address value : Nat)
  /-- an MSI-X message: function code and vector -/
  | msix (fn vector : Nat)
  /-- an Unsupported Request logged as an Advisory Non-Fatal Error under AER on a function (R270) -/
  | unsupported (fn : Nat)
  /-- the completion of a register read: requester code and value -/
  | readData (requester value : Nat)
  /-- a read that completes with Unsupported Request: function code -/
  | readUnsupported (fn : Nat)
  /-- an error response on a management core's write (R298) -/
  | busError (core : Nat)
  /-- bytes written to host memory through a function -/
  | hostWrite (fn address : Nat) (data : List Byte)
  /-- a page request for a host page (R290) -/
  | pageRequest (fn page : Nat)
  /-- an ATS Translation Request for a host page (R289) -/
  | translationRequest (fn page : Nat)
  /-- an ATS invalidation completed (R289) -/
  | invalidationDone (port : Nat)
  /-- the completion of a BAR4 read -/
  | windowData (fn : Nat) (data : List Byte)
  /-- a fabric flit injected: sending core, route word (Table 5.3), tag, the route word's KIND or 4 for a CONTROL flit, payload -/
  | flit (source route : Nat) (tag : W64) (kind : Nat) (payload : List W32)
  /-- a CONTROL broadcast on the die for a partition: opcode, tag, argument (Table 5.6) -/
  | control (part opcode : Nat) (tag : W64) (argument : Nat)
  /-- a flit that leaves a router: router (11,000 + course for an express router), output port, flit -/
  | hop (router port : Nat) (flit : Flit)
  /-- a ZL flit sent on a port: SEQ, FTYPE, LINK opcode or Relay stream, tag, body -/
  | zl (port seq ftype op : Nat) (tag : W64) (body : Nat)
  /-- a hello sent on a port, FULL or SHORT; a SHORT hello carries the digest of this body (R319) -/
  | hello (port : Nat) (full : Bool) (body : Hello)
  /-- a response of the SPDM responder: channel, response code, and what it carries -/
  | message (channel code : Nat) (data : List Byte)
  /-- a context of a failed audit's window, named to the admitting device: partition, context, VERSION, first pass, tier (R393) -/
  | auditName (part context version window : Nat) (unit : W32)
  /-- a PLDM event over the sideband (R415) -/
  | pldm (event : Nat)
  /-- a wake or other indication to a management core: doorbell bit -/
  | firmwareEvent (event : Nat)
deriving DecidableEq, Repr

/-! Fault reports (chapter 13) -/

/-- A fault record (Table 13.5). -/
structure FaultRecord where
  unit : W32 := 0
  seq : Nat := 0
  tag : W64 := 0
  time : Nat := 0
  cls : Nat := 0
  dieMerged : Bool := false
  confirmed : Bool := false
  quar : Bool := false
  trunc : Bool := false
  course : Nat := 0
  count : Nat := 0
  aux : W32 := 0
deriving DecidableEq, Repr

/-- One aggregator (R402, R403): its open records, and the distinct accused units of the running window. -/
structure Aggregator where
  records : List FaultRecord := []
  start : Nat := 0
  units : List W32 := []
deriving DecidableEq, Repr

/-- A slot of a pass in the pass log (R392). -/
structure PassLogSlot where
  context : Nat
  version : Nat
  step : Nat
  kvlen : Nat
  gen : Nat
  prefillPos : Nat
  token : Nat
deriving DecidableEq, Repr

/-- One pass of the pass log. -/
structure PassLogRecord where
  number : Nat
  slots : List PassLogSlot
deriving DecidableEq, Repr

/-- An audit sample (R389): its pass, the tier sampled, its input, row count and codes. -/
structure AuditSample where
  pass : Nat := 0
  /-- last passing audit's pass -/
  lastPass : Nat := 0
  tier : Nat := 0
  gain : Nat := 1
  waiting : Bool := false
  resample : Bool := false
  /-- rows that each conversion selected (R390) -/
  rows : List (List Nat) := []
  /-- codes of the 32 data columns, conversion by conversion -/
  codes : List Nat := []
  conversions : Nat := 0
  input : List Int := []
deriving DecidableEq, Repr

/-- The field test in progress (R399). -/
structure FieldTest where
  course : Nat
  aborting : Bool := false
deriving DecidableEq, Repr

/-- State of checking and fault reporting. -/
structure FaultState where
  /-- aggregators: course 0–99, and 100 for the die level -/
  aggs : SMap Aggregator := []
  /-- course queues, oldest first, at most 64 records (R404) -/
  queues : SMap (List FaultRecord) := []
  /-- records held by the die-log writer, each since when it holds it -/
  held : List (Nat × FaultRecord) := []
  /-- distinct accused units that the writer saw in its running window, with their courses, and when it began (R403) -/
  dieStart : Nat := 0
  dieUnits : List (W32 × Nat) := []
  /-- the next SEQ number (R401) -/
  seqNext : Nat := 1
  /-- first-failure capture slots 0–15 and 16 (R405) -/
  ffc : List FaultRecord := []
  ffcLast : Option FaultRecord := none
  /-- passes of the failures of a unit within its window, by unit ID (R396) -/
  failures : SMap (List Nat) := []
  /-- audit samples by 2,048 · core + instruction -/
  samples : SMap AuditSample := []
  /-- pass counts since the tabs were loaded, by partition (R389) -/
  passCount : SMap Nat := []
  /-- pass logs, newest first, at most 2,048 passes, by partition (R392) -/
  passLog : SMap (List PassLogRecord) := []
  /-- captured entries of the pattern library: input, width, signedness (R398) -/
  library : List (List Int × Nat × Bool) := []
  /-- where the next captured entry goes once the library is full -/
  libraryNext : Nat := 0
  fieldTest : Option FieldTest := none
  /-- quarantined units that wait for confirmation, by unit ID, with the class of the record (R396, R397) -/
  quarantined : SMap Nat := []
  /-- courses declared absent for a partition (R418): 100 · partition + course -/
  absent : List Nat := []
  /-- log index at the last FAULT post, per port (R404) -/
  posted : SMap Nat := []
deriving DecidableEq, Repr

/-! The hosts (chapter 8) -/

/-- A DMA descriptor in progress (R286, R292). -/
structure DmaJob where
  op : Nat
  bytes : Nat
  done : Nat := 0
  host : Nat
  offset : Nat
  cookie : W64
  /-- a translation request is outstanding -/
  translating : Bool := false
  /-- a page request is outstanding since this time (R290) -/
  parked : Option Nat := none
  /-- the code it ends with at its next 4 KiB boundary, if it is to end there -/
  ending : Option Nat := none
deriving DecidableEq, Repr

/-- A host page that a ring's own accesses wait for: the access needed, and since when a page request for it is outstanding, none
while it is translated (R289, R290). -/
structure PageWait where
  page : Nat
  write : Bool
  parked : Option Nat := none
deriving DecidableEq, Repr

/-- What a ring holds beside its control block. -/
structure RingState where
  /-- entries written since the last interrupt (R283) -/
  unsignalled : Nat := 0
  /-- local time of the first entry not yet signalled -/
  firstTime : Option Nat := none
  job : Option DmaJob := none
  /-- consumption stands still: no FREE entry in the slice (R231) -/
  stalled : Bool := false
  /-- entries a device-producer ring could not take yet: size in bytes and value (R234, R290) -/
  held : List (Nat × Nat) := []
  wait : Option PageWait := none
  /-- its writeback word waits for such a page -/
  wbDue : Bool := false
deriving DecidableEq, Repr

/-- A translation cache entry (R289): its function's code, page, readable, writable. -/
structure AtcEntry where
  fn : Nat
  page : Nat
  readable : Bool
  writable : Bool
deriving DecidableEq, Repr

/-- What the device knows of a PCIe function beside its registers. -/
structure FnState where
  memory : Bool := false
  ats : Bool := false
  pri : Bool := false
  flr : Bool := false
  /-- no further page requests after a Response Failure (R290) -/
  priStopped : Bool := false
deriving DecidableEq, Repr

/-- What a PCIe port holds. -/
structure PortState where
  /-- start of the present DL_Down, none while the link is up (R272) -/
  downSince : Option Nat := none
  atc : List AtcEntry := []
  /-- BAR4 size in force: 2^bar4 times 256 MiB -/
  bar4 : Nat := 0
  /-- pieces of other classes served since the last class-3 piece (R291) -/
  sinceData : Nat := 0
  /-- the ring served last in class 3 -/
  lastRing : Nat := 0
deriving DecidableEq, Repr

/-- State of the host interface. -/
structure HostState where
  fns : SMap FnState := []
  ports : SMap PortState := []
  rings : SMap RingState := []
  /-- local time of the pending OFFER (R271) -/
  offerTime : Nat := 0
  /-- MSI-X table words, by 8,192 · function code + word -/
  msix : SMap Nat := []
deriving DecidableEq, Repr

/-! Mailboxes and clock crossings (chapter 9) -/

/-- The timer of a committed message (R302): its commit time and the timeout latched with it, in µs. -/
structure MailTimer where
  committed : Nat := 0
  timeout : Nat := 0
  running : Bool := false
deriving DecidableEq, Repr

/-- A register or doorbell access held in a crossing (R308): at a stopped domain, or behind a held posted write of
its port. -/
structure HeldAccess where
  who : Requester
  /-- 0 BAR0, 1 BAR2, 2 BAR4, as in `HIF_NOW_LAST.BAR` -/
  bar : Nat
  offset : Nat
  /-- the value written; none for a read -/
  value : Option W32
  /-- the stopped domain, coded as in `CLK_STALL.DOMAIN`; 255 for an access held only behind another -/
  domain : Nat
  /-- an access through BAR4 -/
  window : Option WindowAccess := none
deriving DecidableEq, Repr

/-- State of mailboxes and crossings. -/
structure MailState where
  timers : SMap MailTimer := []
  /-- firmware doorbell bits: 0–31 messages to take, 32–63 acknowledgements to read -/
  firmware : BitVec 64 := 0
  /-- an untaken message discarded by a port reset, of which the firmware was told: mailbox numbers (R304) -/
  untaken : List Nat := []
  /-- event words the firmware holds back while a mailbox is full, oldest first, by mailbox (R324, R364, R440) -/
  backlog : SMap (List Nat) := []
  /-- accesses held per port, oldest first -/
  accesses : SMap (List HeldAccess) := []
  /-- when each port's HOLD was set (R309) -/
  holdSince : SMap Nat := []
  /-- commanded stops deferred by a hold -/
  deferred : List Nat := []
deriving DecidableEq, Repr

/-! The serving engine (chapter 7) -/

/-- Request states (Table 7.2). -/
inductive ReqState where
  | free | queued | prefill | decode | verify | paused | cancelling | done | faulted
deriving DecidableEq, Repr

/-- Pause causes (Table 7.1). -/
inductive PauseCause where
  | none | pages | tier | ring
deriving DecidableEq, Repr

/-- A page of a page list (R244): its frame and whether it is shared with a prefix. -/
structure PageEntry where
  frame : Nat
  shared : Bool
deriving DecidableEq, Repr

/-- A request-table entry (Table 7.1), or a member entry (R226), with what the engine holds for it besides. -/
structure Request where
  state : ReqState := .free
  cause : PauseCause := .none
  code : Nat := 0
  prio : Nat := 0
  bulk : Bool := false
  rebind : Bool := false
  reserve : Bool := false
  dlAbort : Bool := false
  specOff : Bool := false
  part : Nat := 0
  subring : Nat := 0
  version : Nat := 0
  userId : W64 := 0
  promptLen : Nat := 0
  draftMax : Nat := 0
  draftCur : Nat := 0
  maxNew : Nat := 0
  topK : Nat := 0
  kvlen : Nat := 0
  gen : Nat := 0
  rejectRun : Nat := 0
  specWait : Nat := 0
  prefillPos : Nat := 0
  epoch : Nat := 0
  startLayer : Nat := 0xFFF
  adapter : Nat := 0xFFFF
  temp : W16 := 0
  topP : W16 := 0
  pfxEntry : Nat := 0xFFFF
  deadline : Nat := 0
  admitTime : Nat := 0
  prefixHandle : W64 := 0
  /-- stack address of the page directory, in 2 KiB units -/
  pagedir : W32 := 0
  seed : W64 := 0
  stop0 : W32 := 0xFFFFFFFF
  stop1 : W32 := 0xFFFFFFFF
  promptAddr : Nat := 0
  drafted : Nat := 0
  acceptedCount : Nat := 0
  firstTime : Nat := 0
  step : Nat := 0
  companion : Nat := 0xFFFF
  /-- a member entry: no rings, no completion (R226) -/
  member : Bool := false
  /-- this entry is the draft-model context of another request (R253) -/
  isCompanion : Bool := false
  /-- the page list: list index to page (R245) -/
  pages : SMap PageEntry := []
  /-- frames still held in this request's reserve (R246) -/
  reserved : Nat := 0
  /-- the reserve could not be set aside yet (R246) -/
  reserveWait : Bool := false
  /-- a step is in flight -/
  inFlight : Bool := false
  /-- NTOK of the step in flight -/
  ntok : Nat := 0
  /-- drafts proposed in the running round (R254) -/
  drafts : List W32 := []
  /-- consecutive rounds in which every draft was accepted (R256) -/
  acceptRun : Nat := 0
  /-- the token that feeds the next step -/
  lastToken : W32 := 0
  /-- a KVSTORE of the step stored SUSPECT data (R383) -/
  suspectStore : Bool := false
  /-- committed token entries not yet on the token ring, oldest first (R234) -/
  heldTokens : List Nat := []
  /-- CODE of a cancel in progress -/
  cancelCode : Nat := 2
  /-- cancelled by the reset of its rings' function: no completion entry (R274) -/
  ringless : Bool := false
  /-- a partition reset has dropped its references on adapter and prefix already -/
  unbound : Bool := false
  /-- a pre-empt request for its slot is pending (R241) -/
  preempt : Bool := false
  pausedAt : Nat := 0
  /-- step aborts in a row without a commit (R409) -/
  aborts : Nat := 0
  /-- the last layer mark of the running prefill chunk: where a step abort restarts it (Table 4.8) -/
  mark : Nat := 0xFFF
  stopped : Bool := false
  degraded : Bool := false
  nonfinite : Bool := false
  prefixKept : Bool := false
  specUsed : Bool := false
  rebound : Bool := false
  pagewait : Bool := false
  rolledBack : Bool := false
  /-- local time since which it waits for a whole chain (R323) -/
  chainWait : Option Nat := none
deriving DecidableEq, Repr

/-- A prefix-table entry (R248). -/
structure PrefixEntry where
  handle : W64
  part : Nat
  epoch : Nat
  adapter : Nat
  length : Nat
  pages : SMap PageEntry := []
  /-- the partition's pass count when it was entered (R393) -/
  created : Nat := 0
  parent : Option Nat := none
  refs : Nat := 0
  dropped : Bool := false
deriving DecidableEq, Repr

/-- A slot record (Table 7.7). -/
structure SlotRecord where
  context : Nat
  cls : Nat
  pos : Nat
  ntok : Nat
  kvlen : Nat
  adapter : Nat
  epoch : Nat
  step : Nat
  startLayer : Nat
deriving DecidableEq, Repr

/-- State of the serving engine. -/
structure ServingState where
  requests : SMap Request := []
  prefixes : SMap PrefixEntry := []
  /-- the pass running at this device, by partition; an empty list: none -/
  passes : SMap (List SlotRecord) := []
  /-- passes that wait for the first-stage cores, oldest first, by partition (members, R241) -/
  waiting : SMap (List (List SlotRecord)) := []
deriving DecidableEq, Repr

/-! The loader (chapter 6) -/

/-- A shard entry of a manifest (Table 6.2). -/
structure ShardEntry where
  index : Nat
  member : Nat
  kind : Nat
  len : Nat
  digest : BitVec 256
deriving DecidableEq, Repr

/-- A manifest as the loader holds it (Table 6.1), with this member's record. -/
structure Manifest where
  keyslot : Nat
  members : Nat
  redundant : Bool
  update : Bool
  model : W64
  base : BitVec 256
  courses : BitVec 100
  tabDigest : BitVec 256
  kvPages : Nat
  rings : Nat
  layerNs : Nat
  shards : List ShardEntry
  digest : BitVec 256
deriving DecidableEq, Repr

/-- Progress of one kept shard. -/
structure ShardState where
  verified : Bool := false
  programmed : Bool := false
  attempts : Nat := 0
  /-- when its present wait began -/
  since : Nat := 0
  missing : Bool := false
  /-- the SHARD descriptors that name it and wait for their completion: ring and cookie -/
  posters : List (Nat × W64) := []
  /-- the landing buffer it holds (R201) -/
  buffer : Option Nat := none
deriving DecidableEq, Repr

/-- A tile waiting for its array (R210): its tier key, its shard, and the record. -/
structure Tile where
  tier : Nat
  shard : Nat
  format : W16
  levels : List (BitVec 4)
deriving DecidableEq, Repr

/-- A load in progress. -/
structure Load where
  ring : Nat
  cookie : W64
  started : Nat
  plan : List W32
  shadow : Bool
  upport : Nat
  dnport : Nat
  addr : Nat
  len : Nat
  timeoutMs : Nat
  manifest : Option Manifest := none
  facts : Option ImageFacts := none
  shards : SMap ShardState := []
  endSeen : Bool := false
  endAt : Nat := 0
  tiles : List Tile := []
  /-- the epoch slot reserved at CHECK -/
  slot : Nat := 0
  /-- BEGIN has had its completion -/
  answered : Bool := false
deriving DecidableEq, Repr

/-- What an epoch slot holds beside `LDR_EPOCH`. -/
structure EpochInfo where
  digest : BitVec 256 := 0
  tabDigest : BitVec 256 := 0
  members : Nat := 1
  courses : BitVec 100 := 0
  tiers : List Nat := []
  maxContext : Nat := 1048576
  vocabulary : Nat := 0
  streams : Nat := 0
  log2Tp : Nat := 0
  layerNs : Nat := 0
  /-- local time at which it last became CURRENT -/
  currentAt : Nat := 0
  /-- this device's member index -/
  member : Nat := 0
  /-- loaded from a restore image (R423) -/
  restore : Bool := false
deriving DecidableEq, Repr

/-- A commit or rollback transaction at the admitting device (R216, R219). -/
structure Txn where
  id : W64
  epoch : Nat
  rollback : Bool
  opened : Nat
  timeoutMs : Nat
  nohold : Bool
  ring : Nat
  cookie : W64
  members : Nat
  ready : List Nat := []
  prepared : List Nat := []
  calibrating : Bool := false
deriving DecidableEq, Repr

/-- A Relay stream of a ZL port (R328). -/
structure RelayStream where
  part : Nat
  kind : RelayKind
  index : Nat
  len : Nat
  received : Nat := 0
  keep : Bool := false
  forward : Bool := false
deriving DecidableEq, Repr

/-- What an adapter slot holds beside `LDR_ADP_SLOT`. -/
structure AdapterInfo where
  /-- the slot has held an adapter before -/
  used : Bool := false
  bytes : Nat := 0
  rank : Nat := 0
  layerBytes : Nat := 0
  /-- the handle that replaced a superseded one (R223) -/
  next : Option Nat := none
deriving DecidableEq, Repr

/-- State of the loader. -/
structure LoaderState where
  loads : SMap Load := []
  epochs : SMap EpochInfo := []
  txns : SMap Txn := []
  /-- the transaction a member has open: its epoch and TXN, by partition -/
  memberTxn : SMap (Nat × W64) := []
  /-- tier translations of an update epoch: (4 · core + slot) · 128 + tier (R213); unlisted: identity -/
  tierMap : SMap Nat := []
  /-- COFF, by 4 · core + slot (R213), and the tab's epoch constant window, by core: first granule and count -/
  coff : SMap Nat := []
  constWindow : SMap (Nat × Nat) := []
  streams : SMap RelayStream := []
  adapters : SMap AdapterInfo := []
  /-- program copies in stack memory: tabs, fallback tabs and constants, by 100 · y + x; constants with their epoch slot -/
  tabs : SMap TabRecord := []
  fallbacks : SMap TabRecord := []
  consts : List (Nat × ConstRecord) := []
  /-- what its image gives a tier: format and levels, by tier key: the weight source of a repair -/
  source : SMap (W16 × List (BitVec 4)) := []
  /-- tiles to program again on replacements, oldest first (R188) -/
  repairs : List Tile := []
  /-- a shadow refill in progress: ring and cookie of its descriptor, by partition (R224) -/
  refills : SMap (Nat × W64) := []
deriving DecidableEq, Repr

/-! Arrays (chapters 2 and 3) -/

/-- One tier MVM to convert: the rows' values of one exponent group and its exponent (R67, R110). -/
structure MvmPart where
  exp : Nat
  input : List Int
deriving DecidableEq, Repr

/-- One conversion to do: plane weight and selected rows (R69). -/
structure Conversion where
  weight : Int
  rows : List Nat
  /-- of the lane pass (R119) -/
  lane : Bool := false
deriving DecidableEq, Repr

/-- A tier MVM in progress on an array (R75, R111). -/
structure Mvm where
  word : W128
  slot : Nat
  tag : W64
  /-- physical tier, after the epoch map -/
  tier : Nat
  gain : Nat
  width : Nat
  signed : Bool
  /-- the input is empty and not read (R153) -/
  nan : Bool := false
  /-- replay level: 0, 1, 2, or 3 for the recovery pass -/
  level : Nat := 0
  /-- replays done -/
  replays : Nat := 0
  /-- lane channels: row and 16-bit element (R119), with their exponent -/
  lane : List (Nat × Int) := []
  laneExp : Nat := 0
  /-- every exponent group of the attempt, and those still to issue after the present one -/
  all : List MvmPart := []
  parts : List MvmPart := []
  /-- the present one -/
  part : MvmPart := ⟨0, []⟩
  todo : List Conversion := []
  /-- accumulators of the 34 columns, in level units (R78) -/
  acc : List Int := []
  pop : Int := 0
  laneAcc : List Int := []
  lanePop : Int := 0
  /-- checked conversions and the two deviation sums (R83) -/
  checked : Nat := 0
  d0 : Int := 0
  d1 : Int := 0
  laneChecked : Nat := 0
  laneD0 : Int := 0
  laneD1 : Int := 0
  /-- output columns that received a saturated conversion (R72) -/
  saturated : List Nat := []
  /-- largest carried saturation count of the input blocks (R107) -/
  carried : Nat := 0
  /-- FP32 results of the groups already done -/
  sums : List W32 := []
  /-- FLUSH_THR and SAT_THR of the operation, TS of its input, and its column count -/
  flushThr : Nat := 0
  satThr : Nat := 0
  ts : W32 := 0
  /-- reissued after a check failure (R382) -/
  reissue : Bool := false
  /-- index of its instruction -/
  pc : Nat := 0
  /-- an audit sample takes its codes (R389) -/
  sampled : Bool := false
  /-- a trip on flushes was judged (R107) -/
  flushTrip : Bool := false
  /-- the lane overflowed (R123) -/
  overflow : Bool := false
  /-- waits for re-emitted blocks (R112) -/
  waiting : Bool := false
deriving DecidableEq, Repr

/-- A capture entry (Table 2.7). -/
structure CaptureEntry where
  tag : W64
  time : Nat
  tier : Nat
  tfmt : Nat
  nchk : Nat
  actw : Nat
  acts : Bool
  sumd0 : Int
  sumd1 : Int
  loc : Nat
  c0 : Bool
  c1 : Bool
  sat : Bool
  input : List Byte
deriving DecidableEq, Repr

/-- A tier under programming (R60): the tile, the next row and the slots spent. -/
structure ProgJob where
  tile : Tile
  row : Nat := 0
  slots : Nat := 0
  /-- 0 load, 1 repair, 2 full reprogram by the Peg engine (R336) -/
  purpose : Nat := 0
deriving DecidableEq, Repr

/-- What an array holds beside its registers. -/
structure ArrayState where
  /-- tier of the previous conversion (R59) -/
  lastTier : Option Nat := none
  mvm : Option Mvm := none
  /-- capture buffer, oldest first (R85) -/
  captures : List CaptureEntry := []
  prog : Option ProgJob := none
  /-- results held in the pooling registers (R81) -/
  pool : List (List W32) := []
  /-- results of the window still to skip, for strides (R81) -/
  poolSkip : Nat := 0
  /-- other results carry SUSPECT until a reissue passes (R383) -/
  suspect : Bool := false
  /-- trims of the converters: gain and offset numbers set by calibration (R351) -/
  trim : Int := 0
deriving DecidableEq, Repr

/-! Cores and the fabric (chapters 4 and 5) -/

/-- A slot of the running pass at a core. -/
structure CoreSlot where
  slotRec : SlotRecord
  dropped : Bool := false
  preempt : Bool := false
  /-- the step meets SUSPECT data (R383) -/
  suspect : Bool := false
deriving DecidableEq, Repr

/-- What a parked instruction waits for (R155). -/
inductive Park where
  | recv (word : W128)
  | recvred (word : W128) (count : Nat)
  | wait (flag value : Nat)
  | bar (number : Nat)
deriving DecidableEq, Repr

/-- A message being received (R155, R169): its granules by offset. -/
structure Packet where
  channel : Nat
  tag : W64
  granules : SMap (List W32)
  /-- the packet with LAST set has come -/
  closed : Bool := false
  empty : Bool := false
  suspect : Bool := false
  /-- local time of its last packet (R418) -/
  since : Nat := 0
deriving DecidableEq, Repr

/-- A reduction being accumulated (R185): per granule the sum and its CNT, and the empty contributions. -/
structure RedBuffer where
  channel : Nat
  tag : W64
  max : Bool
  int : Bool
  granules : SMap (List W32 × Nat) := []
  empties : Nat := 0
  suspect : Bool := false
  /-- local time of its last contribution (R418) -/
  since : Nat := 0
deriving DecidableEq, Repr

/-- A replay source (R113): the FP32 values of a row tile emitted for a context on a channel, and the levels answered. -/
structure ReplaySource where
  tag : W64
  channel : Nat
  ts : W32
  width : Nat
  signed : Bool
  values : List W32
  answered : List Nat := []
deriving DecidableEq, Repr

/-- A DTU instruction in progress (R144, R385): its word, slot, and the output computed. -/
structure DtuJob where
  word : W128
  slot : Nat
  tag : W64
  out : List W32
  reissue : Bool := false
deriving DecidableEq, Repr

/-- An instruction issued and not complete: its unit (an array, or 9 for the DTU), its index, its slot, and the granules
it reads and writes, as (first, count) (R148). -/
structure InFlight where
  unit : Nat
  pc : Nat
  slot : Nat
  reads : List (Nat × Nat)
  writes : List (Nat × Nat)
deriving DecidableEq, Repr

/-- What a core holds beside its registers and SRAMs. -/
structure CoreState where
  /-- partition of the running pass -/
  part : Nat := 0
  /-- index of the next instruction to issue -/
  pc : Nat := 0
  /-- instructions in flight, oldest first -/
  inflight : List InFlight := []
  /-- FP32 values that a quantiser turned into the narrow operand at a granule (R113) -/
  quantised : SMap (List W32) := []
  /-- index registers IX0 to IX15 (R147) -/
  ix : SMap Nat := []
  /-- flags 0–63 (R156) -/
  flags : SMap Nat := []
  slots : List CoreSlot := []
  /-- current slot: index into `slots` -/
  cur : Nat := 0
  /-- PC of the open FOREACH -/
  body : Option Nat := none
  running : Bool := false
  /-- CTRL.END was reached with instructions in flight (R148, Table 4.8) -/
  ending : Bool := false
  park : Option Park := none
  /-- local time of the last retirement (R165) -/
  lastRetire : Nat := 0
  watchdogs : List Nat := []
  packets : List Packet := []
  reductions : List RedBuffer := []
  /-- contributions accepted by completed reductions, discarded when late (R185): channel and tag -/
  closedReds : List (Nat × W64) := []
  sources : List ReplaySource := []
  dtu : Option DtuJob := none
  /-- factors cached: adapter slot, layer, part (R160) -/
  cached : List (Nat × Nat × Nat) := []
  /-- halted by an uncorrectable tab SRAM error; it waits for its reload (R142) -/
  reload : Bool := false
  /-- quarantined: HALTED for good (R396) -/
  quarantined : Bool := false
  /-- fallback tab installed (R187) -/
  fallback : Bool := false
  /-- the pass is a job tab (R154) -/
  job : Bool := false
  /-- issue-scaled time of the last layer mark, or of the pass's start (R407) -/
  markAt : Nat := 0
deriving DecidableEq, Repr

/-- One output port's arbitration window (R174). -/
structure Window where
  w : Nat := 0
  sentB : Nat := 0
  sentM : Nat := 0
  /-- `NOC_SHARE` as this window took it: a change takes effect at the next window of every port -/
  bulkMin : Nat := 0
  maintMin : Nat := 0
deriving DecidableEq, Repr

/-- What a router holds (R170, R173, R186). -/
structure RouterState where
  /-- flits waiting, oldest first, with their output port -/
  waiting : List (Nat × Flit) := []
  windows : SMap Window := []
  /-- consecutive failed retries, by input port -/
  retries : SMap Nat := []
  /-- pass counts at its combining mismatches (R186) -/
  mismatches : List Nat := []
  /-- combining disabled after three mismatches -/
  combineOff : Bool := false
deriving DecidableEq, Repr

/-- A live barrier state at a root (R178): its key, the arrivals so far, and the time of the last. -/
structure Barrier where
  part : Nat
  context : Nat
  number : Nat
  step : Nat
  count : Nat
deriving DecidableEq, Repr

/-- State of the fabric. -/
structure FabricState where
  routers : SMap RouterState := []
  /-- participant counts: (100 · partition + root course) · 4,096 + barrier number (R178) -/
  participants : SMap Nat := []
  barriers : SMap (List Barrier) := []
  /-- the spare maps, course maps or failures were written and wait for every router (R192): cores given up -/
  failedCores : List Nat := []
  /-- map updates withheld while a die-wide release is in flight, oldest first (R193) -/
  heldMaps : List MapUpdate := []
  selfTest : Bool := false
  /-- failed links of the express mesh, by course: bits north, east, south, west (R170) -/
  expressLinks : SMap Nat := []
  /-- die-wide releases in flight, with the time of the last arrival (R193) -/
  releases : List (Barrier × Nat) := []
  /-- fallback in force, course by course: 100 · partition + course (R187) -/
  fallback : List Nat := []
deriving DecidableEq, Repr

/-! Zilgor Link ports (chapter 10) -/

/-- A flit of the replay buffer (R314). -/
structure SentFlit where
  seq : Nat
  ftype : Nat
  op : Nat
  tag : W64
  body : Nat
deriving DecidableEq, Repr

/-- What a ZL port holds beside its registers; its state code is `LNK_STATUS.STATE`. -/
structure ZlState where
  /-- local time of its entry into the present state -/
  since : Nat := 0
  /-- no new training before this time (Table 10.5) -/
  retryAt : Nat := 0
  /-- mode of the present training -/
  optical : Bool := false
  /-- the nonce sent in the port's own last hello (R319) -/
  nonce : W64 := 0
  /-- the nonce in the partner's last hello -/
  peerNonce : W64 := 0
  /-- the first MSG flit after the next entry to UP is a RESET_NOTICE (R413) -/
  notice : Bool := false
  /-- the body of the last FULL hello sent -/
  sent : Option Hello := none
  /-- the partner's last verified FULL hello -/
  partner : Option Hello := none
  /-- the map of R320: the partner's partition number and the local one -/
  map : Option (Nat × Nat) := none
  /-- the partner's serial number when it was lost -/
  lost : Option W64 := none
  lastFull : Nat := 0
  lastShort : Nat := 0
  /-- next SEQ to send, next SEQ expected, and the unacknowledged flits, oldest first (R314) -/
  txSeq : Nat := 0
  rxSeq : Nat := 0
  replay : List SentFlit := []
  /-- the SEQ already asked for by a REPLAY -/
  asked : Option Nat := none
  /-- SEQ of the last replay and consecutive replays of it -/
  replaySeq : Option Nat := none
  replays : Nat := 0
  /-- credits in use by virtual channel (R315) -/
  credits : SMap Nat := []
  /-- MSG flits that wait for a credit, oldest first: class, tag and body -/
  queue : List (Nat × W64 × Nat) := []
  /-- the egress arbitration window (R316) -/
  window : Window := {}
deriving DecidableEq, Repr

/-- State of the chain links. -/
structure LinkState where
  ports : SMap ZlState := []
  /-- ingress tables (R325): 4,096 · port + RCH -/
  ingress : SMap W64 := []
  /-- members that arrived at a chain-scope barrier of the admitting device (R327): the count is of members -/
  chainBarriers : List Barrier := []
deriving DecidableEq, Repr

/-! Drift, retuning and calibration (chapter 11) -/

/-- A gap table entry (Table 11.2). -/
structure GapEntry where
  instr : Nat
  quiet : Nat
  passEnd : Bool
deriving DecidableEq, Repr

/-- A tier with suspect or marked rows (R333 to R335). -/
structure RetuneJob where
  tier : Nat
  /-- suspect probe groups (k, g) -/
  groups : List (Nat × Nat)
  /-- readings of the rows read so far, by row: raw, and once judged in sixty-fourths of a level -/
  reads : SMap (List Int) := []
  /-- marked rows, and the program slots spent on the first of them -/
  marked : List Nat := []
  /-- readings are complete and rows are marked -/
  judged : Bool := false
  slots : Nat := 0
deriving DecidableEq, Repr

/-- State of the Peg engines. -/
structure PegState where
  /-- local time of a tier's last probe, by tier key -/
  lastProbe : SMap Nat := []
  /-- queue of tiers to probe, oldest first, by array; and tiers that a CHECK_ANALOG report accuses, ahead of it (R338) -/
  due : SMap (List Nat) := []
  named : SMap (List Nat) := []
  /-- overdue tiers, by tier key (R339) -/
  overdue : List Nat := []
  jobs : SMap (List RetuneJob) := []
  /-- residues of R331, 64 values of 3 bits, by tier key -/
  residues : SMap (List Nat) := []
  /-- rms of E that the chain measured last, in codes, by array (R333) -/
  rms : SMap Nat := []
  /-- gap tables by core, and the cores whose tables are ignored (R346) -/
  gaps : SMap (List GapEntry) := []
  gapsOff : List Nat := []
  /-- the quiet interval of an array's latest gap-table entry: its end in thirty-thirds of a ns, and PASS_END -/
  quiet : SMap (Nat × Bool) := []
  /-- array busy with a unit until this time in thirty-thirds of a ns -/
  busy : SMap Nat := []
  /-- holds of a course: start and length in ns -/
  holds : SMap (List (Nat × Nat)) := []
  /-- a full verify sweep runs, and the tiers it treated (R340) -/
  sweeping : Bool := false
  treated : List Nat := []
  /-- wear in thousandths of a program cycle (R58): full programs by tier key, and retunes by 256 · tier key + row -/
  wear : SMap Nat := []
  rowWear : SMap Nat := []
deriving DecidableEq, Repr

/-- State of the calibration chain. -/
structure CalState where
  aborting : Bool := false
  /-- readings of the running sequence, by step -/
  staged : List CalReadings := []
  /-- a finished set waiting for its courses (R351) -/
  pending : List CalReadings := []
  /-- fields written that take effect at their course's next boundary (R29), by store key -/
  boundary : SMap Nat := []
  /-- courses that have not yet taken it, and its generation -/
  waiting : List Nat := []
  gen : Nat := 0
  /-- sensor offsets in 1/16 °C (R350) -/
  offsets : SMap Int := []
  /-- course temperature and local time of its last calibration (R352) -/
  temps : SMap Int := []
  times : SMap Nat := []
  /-- recalibration of a course requested -/
  recal : List Nat := []
  /-- local time of the last serving work (R350) -/
  lastWork : Nat := 0
deriving DecidableEq, Repr

/-- State of the metrology converter (R354 to R358). -/
structure McvState where
  queue : List W32 := []
  /-- the scan entry being converted, and results taken in the present visit -/
  entry : Nat := 0
  taken : Nat := 0
  /-- settling periods left -/
  settle : Nat := 0
  /-- channel, selector, order, OSR code and notch in force -/
  setting : Option (Nat × Nat × Nat × Nat × Bool) := none
deriving DecidableEq, Repr

/-! Temperature and power (chapter 12) -/

/-- What is known of a temperature sensor. -/
structure SensorState where
  last : Int := 0
  /-- it has been sampled -/
  seen : Bool := false
  time : Nat := 0
  /-- consecutive identical readings, and its neighbours' readings when they began (R361) -/
  run : Nat := 0
  base : List Int := []
  /-- consecutive samples at or above 115 °C (R370) -/
  hot : Nat := 0
deriving DecidableEq, Repr

/-- A trip record (Table 12.6). -/
structure TripRecord where
  seq : Nat
  cause : Nat
  sensor : Nat
  temp : Int
  time : Nat
  power : Nat
  clamp : Nat
  devState : Nat
  hot : Nat
  gen : Nat
  uptime : Nat
deriving DecidableEq, Repr

/-- State of the Capo and of the power states. -/
structure ThermalState where
  sensors : SMap SensorState := []
  /-- f_T in 1/32,000,000, and when it was set: it rises by at most one such unit per ns (R366) -/
  ftFine : Nat := 32000000
  ftTime : Nat := 0
  /-- TRM_PEAK has taken a reading since it was last read -/
  peakSeen : Bool := false
  /-- local time times the issue fraction, in ns/256 (R407) -/
  scaled : Nat := 0
  /-- powers of the last 100 intervals, newest first -/
  powers : List Nat := []
  /-- trip records, newest first, at most 8, and the next number (R372) -/
  trips : List TripRecord := []
  tripNext : Nat := 1
  /-- a trip is under way: no issue, THERM_TRIP# asserted (R371) -/
  tripped : Bool := false
  /-- local time of the last power-up -/
  powerUp : Nat := 0
  /-- clock-gated courses (R376), and when each course last had a pass -/
  gated : List Nat := []
  lastPass : SMap Nat := []
  /-- device Nap since -/
  napSince : Option Nat := none
  /-- a wake is due as soon as Nap entry completes (R380) -/
  wake : Bool := false
  /-- the device waits in BOOT for cooling (R373) -/
  cooling : Bool := false
deriving DecidableEq, Repr

/-! Recovery (chapter 14) -/

/-- A reset in progress: rung (0 context, 1 course, 2 partition, 3 chip), target, start, and the bound it must meet. -/
structure Rung where
  level : Nat
  target : Nat
  start : Nat
  bound : Nat
deriving DecidableEq, Repr

/-- State of recovery. -/
structure RecoveryState where
  rungs : List Rung := []
  /-- courses in reset: tabs and data SRAM wait for its end -/
  courses : List Nat := []
  /-- starts of a course's resets in the last 10 s (R409) -/
  courseTimes : SMap (List Nat) := []
  /-- DEV_RESET# is low, or REFCLK_SYS is lost: the chip is held in reset -/
  held : Bool := false
  devLow : Bool := false
  refLost : Bool := false
  /-- CAUSE of the chip reset to complete at release -/
  cause : Nat := 0
  /-- a power cycle has been asked for (R415) -/
  powerCycle : Bool := false
  /-- local time at which DEV_RESET# was released: the MCTP answer timer of R415 -/
  released : Option Nat := none
deriving DecidableEq, Repr

/-! Security and configuration (chapter 15) -/

/-- A staged field entry (Table 15.4). -/
structure StagedEntry where
  offset : Nat
  selector : Nat
  value : W32
deriving DecidableEq, Repr

/-- A staged key entry: its operation is 0 install, 1 remove. -/
structure StagedKey where
  slot : Nat
  roles : Nat
  op : Nat
  digest : BitVec 256
  /-- the key was read in full (R433) -/
  whole : Bool
deriving DecidableEq, Repr

/-- A firmware image in its slot: whether it verifies, its SVN. -/
structure FirmwareImage where
  valid : Bool
  svn : Nat
deriving DecidableEq, Repr

/-- A copy of the configuration record (R439): its generation, the NV fields that differ from their Reset values, and of the
calibration set the converter trims, sensor offsets and rms of E (R351). -/
structure ConfigCopy where
  gen : Nat := 0
  valid : Bool := true
  /-- it came from a two-party commit -/
  two : Bool := false
  fields : SMap Nat := []
  trims : SMap Int := []
  offsets : SMap Int := []
  rms : SMap Nat := []
deriving DecidableEq, Repr

/-- An SPDM connection on a channel. -/
structure SpdmState where
  negotiated : Bool := false
  /-- transcript of the running exchange -/
  transcript : List Byte := []
  /-- session identifiers established -/
  sessions : List Nat := []
deriving DecidableEq, Repr

/-- State of the security block. -/
structure SecState where
  entries : List StagedEntry := []
  keys : List StagedKey := []
  rollback : Bool := false
  /-- digest of the previous copy that a rollback stage holds -/
  previous : BitVec 256 := 0
  sealedGen : Nat := 0
  sealedAt : Nat := 0
  /-- the stage record formed at SEAL -/
  record : List Byte := []
  /-- nonces drawn for GET_NONCE, with their times (R438) -/
  nonces : List (W64 × Nat) := []
  imageA : FirmwareImage := ⟨true, 0⟩
  imageB : FirmwareImage := ⟨true, 0⟩
  /-- the ACTIVE image was installed and has not yet completed a boot (R426) -/
  trial : Bool := false
  /-- the copy in force as last recorded, and the other copy (R439) -/
  current : ConfigCopy := {}
  other : Option ConfigCopy := none
  /-- time of the first NV write not yet recorded (R440) -/
  dirty : Option Nat := none
  spdm : SMap SpdmState := []
  /-- course assignments that wait for R32: course, and its new PRT_COURSE value -/
  handover : List (Nat × Nat) := []
  /-- redundancy settings that wait: partition and value -/
  redundancy : List (Nat × Nat) := []
deriving DecidableEq, Repr

/-! Rails, clock inputs and sideband (chapter 16) -/

/-- State of the board-level signals. -/
structure BoardState where
  /-- start of a running excursion, by rail -/
  excursions : SMap Nat := []
  /-- time STK_EN rose, while the stacks' rails are awaited (R449) -/
  stkRise : Option Nat := none
  stkEn : Bool := true
  /-- straps read at AON reset release, and the dynamic address (R459) -/
  straps : BitVec 2 := 0
  dynamic : Option (BitVec 7) := none
  /-- power is applied: AON is out of power-on reset -/
  powered : Bool := true
deriving DecidableEq, Repr

/-! The state -/

/-- The state of the block. A sparse map lists what differs from its default. -/
structure State where
  /-- commands waiting, first in, first out -/
  pending : List Instr := []
  /-- the local time counter in ns (R54); `HIF_TIME` reads its low 64 bits -/
  time : Nat := 0
  /-- free values drawn so far: the model's own counter -/
  fresh : Nat := 0
  /-- what the device has sent out of itself, oldest first: the model's own trace -/
  out : List Output := []
  /-- every register field of `Reg.table` by `Field.key` -/
  regs : SMap Nat := []
  /-- latches of low halves (R9): 67,108,864 · requester + offset -/
  latches : SMap Nat := []
  /-- snapshots of high halves (R9), likewise -/
  snapshots : SMap Nat := []
  fault : FaultState := {}
  host : HostState := {}
  mail : MailState := {}
  serving : ServingState := {}
  loader : LoaderState := {}
  arrays : SMap ArrayState := []
  /-- stored levels of cells: 8,192 · tier key + 32 · row + column -/
  cells : SMap Nat := []
  cores : SMap CoreState := []
  fabric : FabricState := {}
  link : LinkState := {}
  peg : PegState := {}
  cal : CalState := {}
  mcv : McvState := {}
  thermal : ThermalState := {}
  recovery : RecoveryState := {}
  sec : SecState := {}
  board : BoardState := {}
  /-- stack memory, 309,237,645,312 bytes -/
  stack : List Host.Cell := []
  /-- data SRAMs: 131,072 · core + offset -/
  dsram : List Host.Cell := []
  /-- tab SRAMs: 32,768 · core + offset -/
  tsram : List Host.Cell := []
deriving DecidableEq, Repr

/-- The machine right after a power-on reset: every register at its Reset value, nothing stored, no command waiting. -/
def State.reset : State := {}

end Sys2Proof.Machine
end

