-- ==== Sys2Proof/Machine/Ops.lean ====
section
/-! DEFINITION. Machine/Ops.lean: the named operations over registers, memories and what the device sends out. -/
namespace Sys2Proof.Machine

/-! Registers -/

/-- Reset value of one copy of a field. The spare array of a core starts SPARE_IDLE (R92), and key slot 0 is fixed at
manufacture (R428). -/
def Field.resetAt (f : Field) (i : Nat) : Nat :=
  if f.resetSelf then i
  else if f.id = Reg.CRS_ARR_STATUS_STATE.id ∧ i % 9 = 8 then 1
  else if f.id = Reg.SEC_KEY_INFO_ROLES.id ∧ i = 0 then 8
  else if f.id = Reg.SEC_KEY_INFO_VALID.id ∧ i = 0 then 1
  else if f.id = Reg.SEC_KEY_DIGEST_DIGEST.id ∧ i < 8 then bits Config.slot0Digest.toNat (32 * i) 32
  else f.reset

/-- Read copy `i` of a field as it is stored. -/
def State.rd (s : State) (f : Field) (i : Nat := 0) : Nat := SMap.get (f.resetAt i) s.regs (f.key i)

/-- Store into copy `i` of a field; bits beyond its width are dropped. -/
def State.wr (s : State) (f : Field) (i : Nat) (v : Nat) : State :=
  { s with regs := SMap.put (f.resetAt i) s.regs (f.key i) (v % 2 ^ f.width) }

/-- A one-bit field is 1. -/
def State.is (s : State) (f : Field) (i : Nat := 0) : Bool := s.rd f i == 1

/-- Advance a counter field, saturating at its largest value. -/
def State.bump (s : State) (f : Field) (i : Nat := 0) (n : Nat := 1) : State :=
  s.wr f i (min (s.rd f i + n) (2 ^ f.width - 1))

/-- The field of `Reg.table` under a store key. -/
def fieldOfKey (k : Nat) : Option Field := Reg.table.find? (fun f => f.id == k / 16777216)

/-- The store key is of a field weaker than `n` (a rank of `Survives`), of a copy that `scope` picks. -/
def resetHits (n : Nat) (scope : Field → Nat → Bool) (k : Nat) : Bool :=
  match fieldOfKey k with
  | some f => decide (f.survives.rank < n) && scope f (k % 16777216)
  | none => false

/-- A reset of strength `n`: every field weaker than it, in the copies that `scope` picks, returns to its Reset value (R7, R8). -/
def State.resetFields (s : State) (n : Nat) (scope : Field → Nat → Bool) : State :=
  { s with regs := s.regs.filter (fun e => !resetHits n scope e.1) }

/-- Copies of a list of fields return to their Reset values. -/
def State.clearFields (s : State) (fs : List Field) (i : Nat) : State :=
  fs.foldl (fun s f => s.wr f i (f.resetAt i)) s

/-! The trace, fresh values -/

/-- Send something out. -/
def State.emit (s : State) (o : Output) : State := { s with out := s.out ++ [o] }

/-- The number of the next free value, and the state that has drawn it. -/
def State.draw (s : State) : Nat × State := (s.fresh, { s with fresh := s.fresh + 1 })

/-! Memories -/

/-- Bytes of stack memory (R44). -/
def stackSize : Nat := 309237645312
/-- Bytes of a data SRAM and of a tab SRAM (R50). -/
def dataSize : Nat := 131072
def tabSize : Nat := 32768

/-- Write bytes from an address up. -/
def memWrite (m : List Host.Cell) (a : Nat) : List Byte → List Host.Cell
  | [] => m
  | b :: r => memWrite (SMap.put 0 m a b) (a + 1) r

/-- Read `n` bytes from an address up; a byte never written reads 0. -/
def memRead (m : List Host.Cell) (a n : Nat) : List Byte := (List.range n).map (fun i => SMap.get 0 m (a + i))

/-- Set `n` bytes to zero. -/
def memZero (m : List Host.Cell) (a n : Nat) : List Host.Cell :=
  m.filter (fun e => !(decide (a ≤ e.1) && decide (e.1 < a + n)))

/-- Read stack memory. A byte past its end is one the manual does not give. -/
def State.stackRead (s : State) (a n : Nat) : List Byte :=
  (List.range n).map (fun i => if a + i < stackSize then SMap.get 0 s.stack (a + i) else Config.absentByte (a + i))

/-- Write stack memory; bytes past its end go nowhere. -/
def State.stackWrite (s : State) (a : Nat) (bs : List Byte) : State :=
  { s with stack := memWrite s.stack a (bs.take (stackSize - a)) }

/-- Write zeros to stack memory. -/
def State.stackZero (s : State) (a n : Nat) : State := { s with stack := memZero s.stack a n }

/-- Read a core's data SRAM. -/
def State.dataRead (s : State) (core a n : Nat) : List Byte := memRead s.dsram (dataSize * core + a) n

/-- Write a core's data SRAM; bytes past its end go nowhere. -/
def State.dataWrite (s : State) (core a : Nat) (bs : List Byte) : State :=
  { s with dsram := memWrite s.dsram (dataSize * core + a) (bs.take (dataSize - a)) }

/-- Read a core's tab SRAM. -/
def State.tabRead (s : State) (core a n : Nat) : List Byte := memRead s.tsram (tabSize * core + a) n

/-- Write a core's tab SRAM; bytes past its end go nowhere. -/
def State.tabWrite (s : State) (core a : Nat) (bs : List Byte) : State :=
  { s with tsram := memWrite s.tsram (tabSize * core + a) (bs.take (tabSize - a)) }

/-- A core's SRAMs lose their contents. -/
def State.clearData (s : State) (core : Nat) : State :=
  { s with dsram := memZero s.dsram (dataSize * core) dataSize }
def State.clearTab (s : State) (core : Nat) : State :=
  { s with tsram := memZero s.tsram (tabSize * core) tabSize }

/-! Typed parts of the state -/

def State.array (s : State) (k : Nat) : ArrayState := SMap.get {} s.arrays k
def State.setArray (s : State) (k : Nat) (a : ArrayState) : State := { s with arrays := SMap.put {} s.arrays k a }
def State.core (s : State) (k : Nat) : CoreState := SMap.get {} s.cores k
def State.setCore (s : State) (k : Nat) (c : CoreState) : State := { s with cores := SMap.put {} s.cores k c }
def State.router (s : State) (k : Nat) : RouterState := SMap.get {} s.fabric.routers k
def State.setRouter (s : State) (k : Nat) (r : RouterState) : State :=
  { s with fabric := { s.fabric with routers := SMap.put {} s.fabric.routers k r } }
def State.request (s : State) (k : Nat) : Request := SMap.get {} s.serving.requests k
def State.setRequest (s : State) (k : Nat) (r : Request) : State :=
  { s with serving := { s.serving with requests := SMap.put {} s.serving.requests k r } }
def State.ringState (s : State) (k : Nat) : RingState := SMap.get {} s.host.rings k
def State.setRingState (s : State) (k : Nat) (r : RingState) : State :=
  { s with host := { s.host with rings := SMap.put {} s.host.rings k r } }
def State.fnState (s : State) (k : Nat) : FnState := SMap.get {} s.host.fns k
def State.setFnState (s : State) (k : Nat) (f : FnState) : State :=
  { s with host := { s.host with fns := SMap.put {} s.host.fns k f } }
def State.portState (s : State) (k : Nat) : PortState := SMap.get {} s.host.ports k
def State.setPortState (s : State) (k : Nat) (p : PortState) : State :=
  { s with host := { s.host with ports := SMap.put {} s.host.ports k p } }
def State.zl (s : State) (k : Nat) : ZlState := SMap.get {} s.link.ports k
def State.setZl (s : State) (k : Nat) (z : ZlState) : State :=
  { s with link := { s.link with ports := SMap.put {} s.link.ports k z } }
def State.sensor (s : State) (k : Nat) : SensorState := SMap.get {} s.thermal.sensors k
def State.setSensor (s : State) (k : Nat) (x : SensorState) : State :=
  { s with thermal := { s.thermal with sensors := SMap.put {} s.thermal.sensors k x } }
def State.epochInfo (s : State) (k : Nat) : EpochInfo := SMap.get {} s.loader.epochs k
def State.setEpochInfo (s : State) (k : Nat) (e : EpochInfo) : State :=
  { s with loader := { s.loader with epochs := SMap.put {} s.loader.epochs k e } }
def State.load? (s : State) (p : Nat) : Option Load := SMap.find? s.loader.loads p
def State.setLoad (s : State) (p : Nat) (l : Option Load) : State :=
  { s with loader := { s.loader with loads :=
      match l with
      | some l => SMap.insert s.loader.loads p l
      | none => SMap.erase s.loader.loads p } }

/-- Apply an operation for every element of a list, in order. -/
def State.forEach {α : Type} (s : State) (l : List α) (f : State → α → State) : State := l.foldl f s

/-! Numbers of things (R13, R50) -/

/-- Physical row and column of a core. -/
def rowOf (core : Nat) : Nat := core / 110
def colOf (core : Nat) : Nat := core % 110
/-- The physical course of a core. -/
def courseOf (core : Nat) : Nat := 10 * (rowOf core / 10) + colOf core / 11
/-- The 110 physical cores of a course. -/
def coresOf (course : Nat) : List Nat :=
  (List.range 10).flatMap (fun r => (List.range 11).map (fun c =>
    110 * (10 * (course / 10) + r) + 11 * (course % 10) + c))
/-- Array key, tier key, cell key. -/
def arrayKey (core array : Nat) : Nat := 9 * core + array
def tierKey (core array tier : Nat) : Nat := 128 * arrayKey core array + tier
def cellKey (tk row col : Nat) : Nat := 8192 * tk + 32 * row + col

/-- Unit identifiers (Tables 0.5, 0.6). -/
def unitId (kind row col array tier sub : Nat) : W32 :=
  BitVec.ofNat 32 (kind * 2 ^ 28 + row * 2 ^ 21 + col * 2 ^ 14 + array * 2 ^ 10 + tier * 2 ^ 3 + sub)
def unitCore (core sub : Nat) : W32 := unitId 1 (rowOf core) (colOf core) 0 0 sub
def unitArray (core array sub : Nat) : W32 := unitId 2 (rowOf core) (colOf core) array 0 sub
def unitTier (core array tier : Nat) : W32 := unitId 3 (rowOf core) (colOf core) array tier 0
def unitCourse (course sub : Nat) : W32 := unitId 4 (10 * (course / 10)) (11 * (course % 10)) 0 0 sub
def unitStack (stack : Nat) : W32 := unitId 5 0 0 stack 0 0
def unitZl (port sub : Nat) : W32 := unitId 6 0 0 port 0 sub
def unitPcie (port : Nat) : W32 := unitId 7 0 0 port 0 0
def unitDie (sub : Nat) : W32 := unitId 8 0 0 0 0 sub
def unitSensor (n : Nat) : W32 := BitVec.ofNat 32 (9 * 2 ^ 28 + n * 8)
def unitLink (core dir : Nat) : W32 := unitId 10 (rowOf core) (colOf core) 0 0 dir

/-- Codes of completion (Table 0.7). -/
def codeOk : Nat := 0
def codeDegraded : Nat := 1
def codeCancelled : Nat := 2
def codeLate : Nat := 3
def codeNofit : Nat := 4
def codeInvalid : Nat := 5
def codeEpochRetired : Nat := 6
def codeAdapterMissing : Nat := 7
def codePrefixUnknown : Nat := 8
def codePages : Nat := 9
def codeRolledBack : Nat := 10
def codeContextReset : Nat := 11
def codePartitionReset : Nat := 12
def codeNotOwner : Nat := 13
def codeLoadIncomplete : Nat := 14
def codeTimeout : Nat := 15

/-- Local time as `HIF_TIME` shows it. -/
def State.now (s : State) : Nat := s.time % 2 ^ 64

end Sys2Proof.Machine
end

