-- ==== Sys2Proof/Machine/Operands.lean ====
section
/-! DEFINITION. Machine/Operands.lean: instruction fields, operand descriptors, the operand formats and the quantiser
(R94 to R109, R143, R149 to R153). -/
namespace Sys2Proof.Machine

/-! The instruction word (Table 4.3) -/

def wClass (w : W128) : Nat := bits w.toNat 0 4
def wOp (w : W128) : Nat := bits w.toNat 4 6
def wFence (w : W128) : Bool := bit w.toNat 10
def wAdp (w : W128) : Bool := bit w.toNat 11
def wIxa (w : W128) : Nat := bits w.toNat 12 4
def wIxb (w : W128) : Nat := bits w.toNat 16 4
def wIxd (w : W128) : Nat := bits w.toNat 20 4
def wA (w : W128) : Nat := bits w.toNat 24 12
def wB (w : W128) : Nat := bits w.toNat 36 12
def wD (w : W128) : Nat := bits w.toNat 48 12
def wDesc (w : W128) : Nat := bits w.toNat 60 8
def wDescb (w : W128) : Nat := bits w.toNat 68 8
def wArg0 (w : W128) : Nat := bits w.toNat 76 8
def wArg1 (w : W128) : Nat := bits w.toNat 84 12
def wImm (w : W128) : Nat := bits w.toNat 96 32

/-- Index register `n` of a core; IX0 reads 0 (R147). -/
def State.ix (s : State) (core n : Nat) : Nat := if n = 0 then 0 else SMap.get 0 (s.core core).ix n

/-- Set an index register; writes to IX0 are discarded. -/
def State.setIx (s : State) (core n v : Nat) : State :=
  if n = 0 then s
  else s.setCore core { s.core core with ix := SMap.put 0 (s.core core).ix n (v % 2 ^ 32) }

/-- Granule addresses of A, B and D (R149). -/
def State.granA (s : State) (core : Nat) (w : W128) : Nat := (wA w + s.ix core (wIxa w)) % 4096
def State.granB (s : State) (core : Nat) (w : W128) : Nat := (wB w + s.ix core (wIxb w)) % 4096
def State.granD (s : State) (core : Nat) (w : W128) : Nat := (wD w + s.ix core (wIxd w)) % 4096

/-! Descriptors (Table 4.6) -/

/-- An operand descriptor. -/
structure Operand where
  ts : W32 := 0x3F800000
  width : Nat := 0
  /-- FMT code -/
  fmt : Nat := 15
  group : Nat := 0
  trans : Bool := false
  exp : Nat := 0
  len : Nat
  stride : Nat := 0
  rows : Nat := 1
  flushThr : Nat := 255
  satThr : Nat := 255
deriving DecidableEq, Repr

/-- A core's operand descriptor, with the index register added to EXP. -/
def State.operand (s : State) (core d : Nat) : Operand :=
  let w := leNat (s.tabRead core (32768 - 32 * (d + 1)) 32)
  { ts := BitVec.ofNat 32 (bits w 0 32)
    width := bits w 32 4
    fmt := bits w 36 4
    group := bits w 40 2
    trans := bit w 42
    exp := (bits w 48 12 + s.ix core (bits w 60 4)) % 4096
    len := bits w 64 16 + 65536 * bits w 120 1
    stride := bits w 80 16
    rows := max 1 (min 32 (bits w 96 6))
    flushThr := bits w 104 8
    satThr := bits w 112 8 }

/-- A plain FP32 operand of a number of elements. -/
def plain (len rows : Nat) : Operand := { len := len, rows := rows }

/-- Bits that an element takes in memory (Table 3.1, Table 3.7). -/
def elemBits (o : Operand) : Nat :=
  if o.fmt ≤ 1 then (if o.width ≤ 4 then 4 else 8)
  else if o.fmt ≤ 4 then 4 else if o.fmt ≤ 12 then 8 else if o.fmt ≤ 14 then 16 else 32

/-- Bit offset of element (r, c) from the operand's start. -/
def elemOffset (o : Operand) (r c : Nat) : Nat :=
  let outer := if o.trans then c else r
  let inner := if o.trans then r else c
  let size := if o.trans then o.rows else o.len
  if o.stride = 0 then (outer * size + inner) * elemBits o else 256 * o.stride * outer + inner * elemBits o

/-- Granules that an operand spans. -/
def opGranules (o : Operand) : Nat :=
  if o.len = 0 then 0 else (elemOffset o (o.rows - 1) (o.len - 1) + elemBits o + 255) / 256

/-- Formats with block exponents. -/
def isBlock (o : Operand) : Bool := o.fmt ≤ 3 || (decide (5 ≤ o.fmt) && decide (o.fmt ≤ 9))
/-- Formats without block exponents that the DTU accumulates in INT32 (R126). -/
def isInt (o : Operand) : Bool := o.fmt == 4 || o.fmt == 12

/-- Elements of an exponent group (R98). -/
def groupSize (o : Operand) : Nat :=
  if o.fmt ≤ 1 then (match o.group with | 0 => 32 | 1 => max 1 o.len | 2 => 16 | _ => 8) else 32

/-- Groups in a row. -/
def groupsPerRow (o : Operand) : Nat := (o.len + groupSize o - 1) / groupSize o

/-! Data SRAM -/

/-- Address of a read: COFF moves reads in the tab's epoch constant window (R213). -/
def State.constAddr (s : State) (core a : Nat) : Nat :=
  let c := s.core core
  let (g0, n) := SMap.get (0, 0) s.loader.constWindow core
  let a := a % dataSize
  if g0 ≤ a / 32 ∧ a / 32 < g0 + n then
    match c.slots[c.cur]? with
    | some x =>
      match (List.range 4).find? (fun k => s.rd Reg.LDR_EPOCH_NUMBER (4 * c.part + k) == x.slotRec.epoch) with
      | some k => (a + 32 * SMap.get 0 s.loader.coff (4 * core + k)) % dataSize
      | none => a
    | none => a
  else a

/-- Read `n` bytes of data SRAM from a byte address, modulo its size (R149). -/
def State.sramRead (s : State) (core a n : Nat) : List Byte :=
  (List.range n).flatMap (fun i => s.dataRead core (s.constAddr core (a + i)) 1)

/-- First byte of the batch window (R141). -/
def batchWindow : Nat := 32 * 4032

/-- Write bytes to data SRAM; bytes of the batch window are not written (R141), and addresses wrap (R149). -/
def State.sramWrite (s : State) (core a : Nat) (bs : List Byte) : State :=
  let a := a % dataSize
  let s := if a < batchWindow then s.dataWrite core a (bs.take (batchWindow - a)) else s
  let rest := bs.drop (dataSize - a)
  if rest.isEmpty then s else s.dataWrite core 0 (rest.take batchWindow)

/-- Write bytes at a granule. -/
def State.granWrite (s : State) (core g : Nat) (bs : List Byte) : State := s.sramWrite core (32 * (g % 4096)) bs

/-! Elements -/

/-- The stored bits of element (r, c) of an operand at a granule. -/
def State.rawElem (s : State) (core g : Nat) (o : Operand) (r c : Nat) : Nat :=
  let off := elemOffset o r c
  let n := if elemBits o ≤ 8 then 1 else elemBits o / 8
  let v := leNat (s.sramRead core (32 * g + off / 8) n)
  bits v (off % 8) (elemBits o)

/-- Fraction bits of a narrow operand (Table 3.1). -/
def fracBits (o : Operand) : Nat := if o.fmt = 0 then o.width - 1 else o.width - 2

/-- The number an element's bits stand for, before its scales. -/
def elemValue (o : Operand) (raw : Nat) : Fp :=
  match o.fmt with
  | 0 => .fin false (bits raw 0 o.width) (-(fracBits o : Int))
  | 1 => Fp.ofInt (toSigned o.width raw) (-(fracBits o : Int))
  | 2 => Fp.decode 2 1 false raw
  | 3 => Fp.ofInt (toSigned 4 raw) (-2)
  | 4 => Fp.ofInt (toSigned 4 raw) 0
  | 5 => Fp.decode 3 2 false raw
  | 6 => Fp.decode 2 3 false raw
  | 7 | 10 => if raw % 128 = 127 then .nan else Fp.decode 4 3 false raw
  | 8 | 11 => Fp.decode 5 2 true raw
  | 9 => Fp.ofInt (toSigned 8 raw) (-6)
  | 12 => Fp.ofInt (toSigned 8 raw) 0
  | 13 => Fp.decode 8 7 true raw
  | 14 => Fp.decode 5 10 true raw
  | _ => Fp.decode 8 23 true raw

/-- Exponent code of the group of element (r, c); 127 (scale 1) for formats without block exponents. -/
def State.groupExp (s : State) (core : Nat) (o : Operand) (r c : Nat) : Nat :=
  if isBlock o then
    leNat (s.sramRead core (32 * o.exp + r * groupsPerRow o + c / groupSize o) 1)
  else 127

/-- An element with its group exponent, without the tensor scale. -/
def State.opElem (s : State) (core g : Nat) (o : Operand) (r c : Nat) : Fp :=
  e8m0 (elemValue o (s.rawElem core g o r c)) (s.groupExp core o r c)

/-- The tensor scale applies to the narrow formats, not to BF16, FP16 and FP32 (R96). -/
def scaled (o : Operand) : Bool := decide (o.fmt ≤ 12)

/-- An element's FP32 value. -/
def State.opValue (s : State) (core g : Nat) (o : Operand) (r c : Nat) : W32 :=
  let x := s.opElem core g o r c
  (if scaled o then Fp.mul (Fp.of32 o.ts) x else x).to32

/-- The rows of an operand as FP32 values. -/
def State.opRows (s : State) (core g : Nat) (o : Operand) (rows : Nat) : List (List W32) :=
  (List.range rows).map (fun r => (List.range o.len).map (fun c => s.opValue core g o r c))

/-- The elements of an operand as one list of FP32 values. -/
def State.opFlat (s : State) (core g : Nat) (o : Operand) : List W32 := (s.opRows core g o o.rows).flatten

/-! The quantiser (R101, R102) -/

/-- Exponent, elements and, per element, whether it was clipped and whether it was flushed. -/
structure Quantised where
  exp : Nat
  elems : List Int
  sat : List Bool
  flush : List Bool
deriving DecidableEq, Repr

/-- Magnitude and sign of an FP32 word that is finite, with subnormals as zero (R101). -/
def finiteOf (v : W32) : Option (Bool × Nat × Int) :=
  match Fp.of32 v with
  | .fin a m e => some (a, if bits v.toNat 23 8 = 0 then 0 else m, e)
  | _ => none

/-- Quantise one exponent group to integers with `f` fraction bits between `lo` and `hi` (R101). -/
def quantGroup (fmt : Nat) (ts : W32) (f : Int) (lo hi : Int) (vs : List W32) : Quantised :=
  let xs := vs.filterMap finiteOf
  let none' := vs.map (fun _ => false)
  if xs.length < vs.length then ⟨255, vs.map (fun _ => 0), none', none'⟩
  else match finiteOf ts with
  | some (tneg, tm, te) =>
    if tm = 0 then
      ⟨(Config.outOfFormat fmt ts).toNat % 256, vs.map (fun v => clampInt lo hi (Config.outOfFormat fmt v).toInt), none', none'⟩
    else
      match xs.foldl (fun (a : Option (Nat × Int)) (x : Bool × Nat × Int) =>
          if x.2.1 = 0 then a else
          match a with
          | none => some x.2
          | some y => if absBelow y.1 y.2 x.2.1 x.2.2 then some x.2 else some y) none with
      | none => ⟨0, vs.map (fun _ => 0), none', none'⟩
      | some (m, e) =>
        let x0 := logQuotient m e tm te
        let x1 := if hi < (roundQuotient m e tm te (f - x0) : Int) then x0 + 1 else x0
        let x := clampInt (-126) 127 x1
        let qs := xs.map (fun v =>
          let q : Int := roundQuotient v.2.1 v.2.2 tm te (f - x)
          if v.1 != tneg then -q else q)
        ⟨(x + 127).toNat, qs.map (clampInt lo hi), qs.map (fun q => clampInt lo hi q != q),
         (qs.zip xs).map (fun (q, v) => q == 0 && v.2.1 != 0)⟩
  | none => ⟨(Config.outOfFormat fmt ts).toNat % 256, vs.map (fun v => clampInt lo hi (Config.outOfFormat fmt v).toInt), none', none'⟩

/-- Element range of a narrow operand (Table 3.1). -/
def narrowLo (width : Nat) (signed : Bool) : Int := if signed then -(2 ^ (width - 1)) else 0
def narrowHi (width : Nat) (signed : Bool) : Int := if signed then 2 ^ (width - 1) - 1 else 2 ^ width - 1

/-- Exponent bits, fraction bits, largest finite word, exponent of the largest power of two, for a floating element. -/
def floatFormat (fmt : Nat) : Nat × Nat × Nat × Int :=
  match fmt with
  | 2 => (2, 1, 7, 2)
  | 5 => (3, 2, 31, 4)
  | 6 => (2, 3, 31, 2)
  | 7 | 10 => (4, 3, 0x7E, 8)
  | 8 | 11 => (5, 2, 0x7B, 15)
  | 13 => (8, 7, 0x7F7F, 127)
  | _ => (5, 10, 0x7BFF, 15)

/-- The word of a floating format for a value divided by `n·2^f`. A value past the largest finite one becomes an infinity
where the format has one, and is left open where it has none. -/
def packFloat (fmt : Nat) (v : W32) (n : Nat) (f : Int) : Nat :=
  let (eb, mb, top, _) := floatFormat fmt
  let sign := if bit v.toNat 31 then 2 ^ (eb + mb) else 0
  match Fp.of32 v with
  | .fin _ m e =>
    match packQuotient eb mb top m e n f with
    | some w => w + sign
    | none => if fmt = 7 ∨ fmt = 10 ∨ fmt ≤ 6 then (Config.outOfFormat fmt v).toNat % 2 ^ (eb + mb + 1) else top + 1 + sign
  | .inf _ => if fmt = 7 ∨ fmt = 10 ∨ fmt ≤ 6 then (Config.outOfFormat fmt v).toNat % 2 ^ (eb + mb + 1) else top + 1 + sign
  | .nan => if fmt = 7 ∨ fmt = 10 then 0x7F else if fmt ≤ 6 then (Config.outOfFormat fmt v).toNat % 2 ^ (eb + mb + 1) else top + 1 + 2 ^ (mb - 1)

/-- Quantise one group to floating elements under a block exponent: the exponent puts the group's largest value in the
format's top binade, and elements round to nearest even and stop at the largest finite one. -/
def quantFloat (fmt : Nat) (ts : W32) (vs : List W32) : Quantised :=
  let xs := vs.filterMap finiteOf
  let none' := vs.map (fun _ => false)
  let (eb, mb, top, emax) := floatFormat fmt
  if xs.length < vs.length then ⟨255, vs.map (fun _ => 0), none', none'⟩
  else match finiteOf ts with
  | some (tneg, tm, te) =>
    if tm = 0 then
      ⟨(Config.outOfFormat fmt ts).toNat % 256, vs.map (fun v => ((Config.outOfFormat fmt v).toNat % 2 ^ (eb + mb + 1) : Nat)), none', none'⟩
    else
      let logs := (xs.filter (fun v => v.2.1 != 0)).map (fun v => logQuotient v.2.1 v.2.2 tm te)
      match logs with
      | [] => ⟨0, vs.map (fun _ => 0), none', none'⟩
      | l :: r =>
        let x := clampInt (-126) 127 (r.foldl max l - emax)
        let ws := xs.map (fun v => (packQuotient eb mb top v.2.1 v.2.2 tm (te + x), v.1 != tneg, v.2.1))
        ⟨(x + 127).toNat,
         ws.map (fun w => ((w.1.getD top + (if w.2.1 then 2 ^ (eb + mb) else 0) : Nat) : Int)),
         ws.map (fun w => w.1.isNone), ws.map (fun w => w.1 == some 0 && w.2.2 != 0)⟩
  | none =>
    ⟨(Config.outOfFormat fmt ts).toNat % 256, vs.map (fun v => ((Config.outOfFormat fmt v).toNat % 2 ^ (eb + mb + 1) : Nat)), none', none'⟩

/-- Quantise one group of an operand with block exponents. -/
def quantise (o : Operand) (vs : List W32) : Quantised :=
  match o.fmt with
  | 0 => quantGroup 0 o.ts (fracBits o) (narrowLo o.width false) (narrowHi o.width false) vs
  | 1 => quantGroup 1 o.ts (fracBits o) (narrowLo o.width true) (narrowHi o.width true) vs
  | 3 => quantGroup 3 o.ts 2 (narrowLo 4 true) (narrowHi 4 true) vs
  | 9 => quantGroup 9 o.ts 6 (narrowLo 8 true) (narrowHi 8 true) vs
  | _ => quantFloat o.fmt o.ts vs

/-- The element word of a format without block exponents. -/
def convertElem (o : Operand) (v : W32) : Nat :=
  let n := elemBits o
  match o.fmt with
  | 4 | 12 =>
    match finiteOf v, finiteOf o.ts with
    | some (a, m, e), some (b, tm, te) =>
      if tm = 0 then (Config.outOfFormat o.fmt v).toNat % 2 ^ n
      else
        let q : Int := roundQuotient m e tm te 0
        ofSigned n (clampInt (narrowLo n true) (narrowHi n true) (if a != b then -q else q))
    | _, _ => (Config.outOfFormat o.fmt v).toNat % 2 ^ n
  | 10 | 11 =>
    match Fp.of32 o.ts with
    | .fin b tm te =>
      if tm = 0 then (Config.outOfFormat o.fmt v).toNat % 2 ^ n
      else packFloat o.fmt (BitVec.ofNat 32 (v.toNat ^^^ (if b then 2 ^ 31 else 0))) tm te
    | _ => (Config.outOfFormat o.fmt v).toNat % 2 ^ n
  | 13 | 14 => packFloat o.fmt v 1 0
  | _ => v.toNat

/-- Store an element's bits. -/
def State.setElem (s : State) (core g : Nat) (o : Operand) (r c raw : Nat) : State :=
  let off := elemOffset o r c
  let a := 32 * g + off / 8
  if elemBits o = 4 then
    s.sramWrite core a (leBytes 1 (setBits (leNat (s.dataRead core (a % dataSize) 1)) (off % 8) 4 raw))
  else s.sramWrite core a (leBytes (elemBits o / 8) raw)

/-- Split a list into runs of `n`. -/
def runsOf {α : Type} (n : Nat) (l : List α) : List (List α) :=
  (List.range ((l.length + n - 1) / n)).map (fun i => (l.drop (n * i)).take n)

/-- What a quantiser counts: non-finite groups, values clipped, values flushed. -/
structure QuantCount where
  nonfinite : Nat := 0
  sat : Nat := 0
  flush : Nat := 0
deriving DecidableEq, Repr

def boolCount (l : List Bool) : Nat := (l.filter id).length

/-- Write one row of FP32 values into an operand. -/
def State.writeRow (s : State) (core g : Nat) (o : Operand) (r : Nat) (vs : List W32) : State × QuantCount :=
  let vs := vs.take o.len
  if isBlock o then
    let gs := (runsOf (groupSize o) vs).map (quantise o)
    let s := (gs.flatMap (fun q => q.elems)).zipIdx.foldl
      (fun s (d, c) => s.setElem core g o r c (ofSigned (elemBits o) d)) s
    let s := s.sramWrite core (32 * o.exp + r * groupsPerRow o) (gs.map (fun q => BitVec.ofNat 8 q.exp))
    (s, ⟨(gs.filter (fun q => q.exp == 255)).length, (gs.map (fun q => boolCount q.sat)).sum, (gs.map (fun q => boolCount q.flush)).sum⟩)
  else
    (vs.zipIdx.foldl (fun s (v, c) => s.setElem core g o r c (convertElem o v)) s, {})

/-- Write rows of FP32 values to an operand at a granule through the output quantiser: the data, the exponents and the
course's counters (R101 to R103, R109). A narrow operand keeps its FP32 values as a replay source may need them (R113). -/
def State.writeOperand (s : State) (core g : Nat) (o : Operand) (rows : List (List W32)) : State :=
  let (s, n) := rows.zipIdx.foldl (fun (x : State × QuantCount) (vs, r) =>
    let (s, n) := x.1.writeRow core g o r vs
    (s, ⟨x.2.nonfinite + n.nonfinite, x.2.sat + n.sat, x.2.flush + n.flush⟩)) (s, {})
  let k := courseOf core
  let s := if n.nonfinite = 0 then s else s.bump Reg.CRS_PRC_NONFINITE_COUNT k n.nonfinite
  let s := if o.fmt ≤ 1 || n.flush == 0 then s else s.bump Reg.CRS_PRC_CO_FLUSH_COUNT k n.flush
  let s := if o.fmt ≤ 1 || n.sat == 0 then s else s.bump Reg.CRS_PRC_CO_SAT_COUNT k n.sat
  if o.fmt ≤ 1 then
    let c := s.core core
    s.setCore core { c with quantised := SMap.put [] c.quantised (g % 4096) rows.flatten }
  else s

/-- Read `n` FP32 words from a granule, and write them. -/
def State.readWords (s : State) (core g n : Nat) : List W32 :=
  (List.range n).map (fun i => BitVec.ofNat 32 (leNat (s.sramRead core (32 * g + 4 * i) 4)))
def State.writeWords (s : State) (core g : Nat) (ws : List W32) : State := s.granWrite core g (bytesOf ws)

end Sys2Proof.Machine
end

