-- ==== Sys2Proof/Machine/Flags.lean ====
section
/-! DEFINITION. Machine/Flags.lean: interrupts, doorbell bits, error reports to a requester, mailbox posts and fault
reports: what a command raises beside its own result. -/
namespace Sys2Proof.Machine

/-! Requesters and functions -/

/-- A function as `HIF_FSEL` encodes it. -/
def fnCode (f : PciFn) : Nat := 32 * f.port.val + f.idx.val
/-- A requester's number: a function's code, or 64 and up for the management cores (R9). -/
def reqCode : Requester → Nat
  | .fn f => fnCode f
  | .fw c => 64 + c.val
def isFirmware : Requester → Bool
  | .fn _ => false
  | .fw _ => true
/-- The PF whose write it is, by port. -/
def pfPort : Requester → Option Nat
  | .fn f => if f.idx.val = 0 then some f.port.val else none
  | .fw _ => none
/-- The port a requester comes through. -/
def reqPort : Requester → Option Nat
  | .fn f => some f.port.val
  | .fw _ => none

/-- The owner's PF (R270). -/
def State.ownerIs (s : State) (who : Requester) : Bool :=
  match pfPort who with
  | some p => s.rd Reg.HIF_OWN_STATUS_OWNER == p + 1
  | none => false

/-- Who may write RWO fields and stage RW2 fields (R270). -/
def State.mayRwo (s : State) (who : Requester) : Bool := isFirmware who || s.ownerIs who

/-- A function serves requests to its BARs: configured, and no FLR is running (R274, R275). -/
def State.fnServes (s : State) (code : Nat) : Bool :=
  (s.fnState code).memory && !(s.fnState code).flr

/-- Vectors of a function (R263). -/
def vectorsOf (code : Nat) : Nat := if code % 32 = 0 then 512 else 64

/-- Send an MSI-X message: none beyond the function's table, and none while its FLR runs (R275, R283). -/
def State.msix (s : State) (code vector : Nat) : State :=
  if vector < vectorsOf code && !(s.fnState code).flr then s.emit (.msix code vector) else s

/-- The record of a discarded write (R270): its BAR, offset and function, and the Unsupported Request. -/
def State.noteDiscard (s : State) (code bar offset : Nat) : State :=
  ((((s.wr Reg.HIF_NOW_LAST_OFFSET 0 (bits offset 2 24)).wr Reg.HIF_NOW_LAST_HI_OFFSET_HI 0 (bits offset 26 10)).wr
    Reg.HIF_NOW_LAST_FUNCTION 0 code).wr Reg.HIF_NOW_LAST_BAR 0 bar).emit (.unsupported code)

/-- A write that R270 discards. -/
def State.notOwner (s : State) (who : Requester) (bar offset : Nat) : State :=
  (s.bump Reg.HIF_NOW_CNT_NONOWNER).noteDiscard (reqCode who) bar offset

/-- Do what only the owner's PF and the management firmware may do; treat anyone else as R270 says. -/
def State.owned (s : State) (who : Requester) (offset : Nat) (f : State → State) : State :=
  if s.mayRwo who then f s else s.notOwner who 0 offset

/-! Doorbell bits and mailboxes (chapter 9) -/

/-- Raise the doorbell vector of a port's PF (R305). -/
def State.doorbellIrq (s : State) (port : Nat) : State :=
  if s.is Reg.MBX_IRQ_EN port then s.msix (32 * port) (s.rd Reg.MBX_IRQ_VECTOR port) else s

/-- Doorbell bits of a port, IN below OUT. -/
def State.doorbells (s : State) (port : Nat) : Nat :=
  s.rd Reg.MBX_DB_IN port + 65536 * s.rd Reg.MBX_DB_OUT port
def State.setDoorbells (s : State) (port v : Nat) : State :=
  (s.wr Reg.MBX_DB_IN port (v % 65536)).wr Reg.MBX_DB_OUT port (v / 65536)

/-- Set a doorbell bit of a port; it interrupts when it becomes 1 unmasked (R305). -/
def State.ring (s : State) (port i : Nat) : State :=
  let raise := !bit (s.doorbells port) i && !bit (s.rd Reg.MBX_DB_MASK_MASK port) i
  let s := s.setDoorbells port (setBit (s.doorbells port) i true)
  if raise then s.doorbellIrq port else s
def State.unring (s : State) (port i : Nat) : State := s.setDoorbells port (setBit (s.doorbells port) i false)

/-- Firmware doorbell bits: below 32 a message waits in mailbox i; 32 and up a mailbox sent by the firmware was taken or
timed out (Table 9.1). -/
def State.setFirmware (s : State) (i : Nat) (b : Bool) : State :=
  { s with mail := { s.mail with firmware := BitVec.ofNat 64 (setBit s.mail.firmware.toNat i b) } }

/-- Sides of mailbox m (Table 9.1): sent by a port's PF below 32. -/
def sentByHost (m : Nat) : Bool := decide (m < 32)
/-- The port at the host side of a mailbox. -/
def mailPort (m : Nat) : Nat := (m / 16) % 2

/-- Set or clear the receiver's doorbell bit. -/
def State.receiverBell (s : State) (m : Nat) (b : Bool) : State :=
  if sentByHost m then s.setFirmware m b
  else if b then s.ring (mailPort m) (m % 16) else s.unring (mailPort m) (m % 16)
/-- Set the sender's doorbell bit. -/
def State.senderBell (s : State) (m : Nat) : State :=
  if sentByHost m then s.ring (mailPort m) (16 + m % 16) else s.setFirmware m true

/-- Timeout of a mailbox in µs, as it acts (R302). -/
def State.mailTimeout (s : State) (m : Nat) : Nat := min (s.rd Reg.MBX_TMO_US m) 10000000

def State.setTimer (s : State) (m : Nat) (t : MailTimer) : State :=
  { s with mail := { s.mail with timers := SMap.put {} s.mail.timers m t } }

/-- Commit a word to an empty mailbox (R297). -/
def State.mailCommit (s : State) (m word : Nat) : State :=
  let s := ((((s.wr Reg.MBX_DATA_WORD m word).wr Reg.MBX_STATUS_FULL m 1).wr Reg.MBX_ACK_VALID m 0).wr
    Reg.MBX_STATUS_TMO m 0).wr Reg.MBX_STATUS_REJ m 0
  (s.setTimer m ⟨s.time, s.mailTimeout m, true⟩).receiverBell m true

/-- What distinguishes held-back events of one mailbox: link events by port, others by TYPE (R324, R364). -/
def eventKey (word : Nat) : Nat := if word >>> 56 = 0x10 then 0x1000 + word % 8 else word >>> 56

/-- The management firmware posts an event: at once on an empty mailbox; else it keeps the latest event of each kind and
sends it when the mailbox frees (R324, R364). -/
def State.post (s : State) (m type arg : Nat) : State :=
  let word := type * 2 ^ 56 + arg % 2 ^ 56
  if s.is Reg.MBX_STATUS_FULL m then
    let l := (SMap.get [] s.mail.backlog m).filter (fun w => eventKey w != eventKey word)
    { s with mail := { s.mail with backlog := SMap.put [] s.mail.backlog m (l ++ [word]) } }
  else s.mailCommit m word

/-- Post an event to both hosts on the mailboxes given. -/
def State.postBoth (s : State) (m0 m1 type arg : Nat) : State := (s.post m0 type arg).post m1 type arg

/-- The FAULT post on one port's mailbox: when it is empty and the log gained records since the last post (R404). -/
def State.postFault (s : State) (port : Nat) : State :=
  let m := if port = 0 then 41 else 57
  let wr := s.rd Reg.FLT_LOG_WR_INDEX
  if !s.is Reg.MBX_STATUS_FULL m && wr != SMap.get 0 s.fault.posted port then
    ({ s with fault := { s.fault with posted := SMap.put 0 s.fault.posted port wr } }).mailCommit m
      (0x13 * 2 ^ 56 + wr)
  else s

/-- An empty mailbox of the firmware takes the next held-back event, or a FAULT post (R324, R364, R404). -/
def State.mailFreed (s : State) (m : Nat) : State :=
  match SMap.get [] s.mail.backlog m with
  | w :: r => ({ s with mail := { s.mail with backlog := SMap.put [] s.mail.backlog m r } }).mailCommit m w
  | [] => if m = 41 then s.postFault 0 else if m = 57 then s.postFault 1 else s

/-! Fault reports (chapter 13) -/

/-- A report (R400), with what its record carries beside it. -/
structure Report where
  sender : W32
  unit : W32
  cls : Nat
  tag : W64 := 0
  confirmed : Bool := false
  quar : Bool := false
  trunc : Bool := false
  /-- AUX where it is not the sender -/
  aux : Option W32 := none
  /-- an AUDIT record with COMPLETED = 1 merges with nothing (R402) -/
  alone : Bool := false
deriving DecidableEq, Repr

/-- KIND of a unit ID, and the course of its ROW and COL (R11, R13). -/
def unitKind (u : W32) : Nat := bits u.toNat 28 4
def unitCourseOf (u : W32) : Nat := 10 * (bits u.toNat 21 7 / 10) + bits u.toNat 14 7 / 11

/-- A unit without ROW and COL (R402). -/
def noPlace (u : W32) : Bool := unitKind u == 0 || (decide (5 ≤ unitKind u) && decide (unitKind u ≤ 9))

/-- Where a report is aggregated: the course of its sender, or 100 for the die level (R402). -/
def aggregatorOf (r : Report) : Nat :=
  if noPlace r.unit || noPlace r.sender then 100 else unitCourseOf r.sender

/-- The merge window in ns (R402). -/
def State.aggWindow (s : State) : Nat :=
  1000 * min 100 (max 1 (s.rd Reg.FLT_AGG_CTRL_WINDOW_US))

/-- A chip reset has started, and firmware does not run again: reports count and form no record (R405). -/
def State.chipResetting (s : State) : Bool := s.recovery.held || (s.rd Reg.HIF_DEV_STATE_STATE == 0 && s.recovery.rungs.any (fun g => g.level == 3))

/-- A report's own record. -/
def recordOf (r : Report) (now agg : Nat) : FaultRecord :=
  { unit := r.unit, tag := r.tag, time := now, cls := r.cls, confirmed := r.confirmed, quar := r.quar,
    trunc := r.trunc, course := if agg = 100 then 255 else agg, count := 1, aux := r.aux.getD r.sender }

/-- A record may take a later report of this unit and class. -/
def sameFault (c : FaultRecord) (unit : W32) (cls : Nat) : Bool := c.unit == unit && c.cls == cls

/-- An AUDIT record with COMPLETED = 1, which merges with nothing. -/
def auditCompleted (c : FaultRecord) : Bool := c.cls == 5 && bit c.aux.toNat 31

/-- Merge a report into the first open record that fits (R402). -/
def mergeReport (r : Report) (now window : Nat) : List FaultRecord → Option (List FaultRecord)
  | [] => none
  | c :: l =>
    if sameFault c r.unit r.cls && !auditCompleted c && !r.alone && decide (now ≤ c.time + window) then
      some ({ c with count := min (c.count + 1) 65535, quar := c.quar || r.quar, trunc := c.trunc || r.trunc,
                      confirmed := c.confirmed || r.confirmed } :: l)
    else (mergeReport r now window l).map (c :: ·)

/-- The FABRIC record of a course aggregator takes one more report and the number of distinct units (R403). -/
def fabricReport (course now window n : Nat) (l : List FaultRecord) : List FaultRecord × Bool :=
  let u := unitCourse course 2
  match mergeReport ⟨unitCourse course 1, u, 14, 0, false, false, false, none, false⟩ now window l with
  | some l => (l.map (fun c => if sameFault c u 14 then { c with aux := BitVec.ofNat 32 n } else c), false)
  | none => (l ++ [{ unit := u, time := now, cls := 14, course := course, count := 1, aux := BitVec.ofNat 32 n }], true)

def State.setAgg (s : State) (a : Nat) (g : Aggregator) : State :=
  { s with fault := { s.fault with aggs := SMap.put {} s.fault.aggs a g } }

/-- Report a fault (R400 to R403, R405): it counts, and merges into an open record or opens one. -/
def State.report (s : State) (r : Report) : State :=
  let s := s.bump Reg.FLT_CNT_REPORT_COUNT r.cls
  if s.chipResetting then s else
  let a := aggregatorOf r
  let w := s.aggWindow
  let g := SMap.get {} s.fault.aggs a
  let g := if s.time ≤ g.start + w && g.units != [] then g else { g with start := s.time, units := [] }
  let units := if g.units.contains r.unit then g.units else g.units ++ [r.unit]
  let thr := s.rd Reg.FLT_AGG_CTRL_FABRIC_THR
  match mergeReport r s.time w g.records with
  | some l => s.setAgg a { g with records := l, units := units }
  | none =>
    if a ≠ 100 ∧ thr ≠ 0 ∧ thr ≤ units.idxOf r.unit then
      let (l, opened) := fabricReport a s.time w units.length g.records
      (if opened then s.bump Reg.FLT_CNT_RECORD_COUNT 14 else s).setAgg a { g with records := l, units := units }
    else
      (s.bump Reg.FLT_CNT_RECORD_COUNT r.cls).setAgg a
        { g with records := g.records ++ [recordOf r s.time a], units := units }

/-- A record takes its SEQ number and enters the first-failure capture (R405). -/
def State.takeSeq (s : State) (c : FaultRecord) : FaultRecord × State :=
  let c := { c with seq := s.fault.seqNext }
  let full := decide (16 ≤ s.rd Reg.FLT_STATUS_FFC_COUNT)
  let ffc := if full then s.fault.ffc else s.fault.ffc ++ [c]
  let s := { s with fault := { s.fault with seqNext := s.fault.seqNext + 1, ffcLast := some c, ffc := ffc } }
  (c, ((if full then s else s.bump Reg.FLT_STATUS_FFC_COUNT).wr Reg.FLT_STATUS_FFC_LAST 0 1))

/-- A record is dropped (R405). -/
def State.dropRecord (s : State) (c : FaultRecord) : State :=
  ((s.takeSeq c).2.bump Reg.FLT_CNT_LOST_COUNT c.cls).wr Reg.FLT_STATUS_OVERFLOW 0 1

/-- The 32 bytes of a record (Table 13.5). -/
def recordBytes (c : FaultRecord) : List Byte :=
  leBytes 4 c.unit.toNat ++ leBytes 4 c.seq ++ leBytes 8 c.tag.toNat ++ leBytes 8 c.time ++
  leBytes 1 (c.cls % 16 + 16 * c.dieMerged.toNat + 32 * c.confirmed.toNat + 64 * c.quar.toNat + 128 * c.trunc.toNat) ++
  leBytes 1 c.course ++ leBytes 2 c.count ++ leBytes 4 c.aux.toNat

/-- Stack address of the die log's record with a free-running index (R404). -/
def State.logAddress (s : State) (i : Nat) : Nat := s.rd Reg.FLT_LOG_BASE_FRAME * 65536 + 32 * (i % 4096)

/-- Records that the die log holds (R404). -/
def State.logHeld (s : State) : Nat :=
  (s.rd Reg.FLT_LOG_WR_INDEX + 2 ^ 32 - s.rd Reg.FLT_LOG_RD_INDEX) % 2 ^ 32

/-- Write a record to the die log, or drop it when the log is full; post FAULT (R404, R405). -/
def State.logRecord (s : State) (c : FaultRecord) : State :=
  if s.logHeld = 4096 then s.dropRecord c
  else
    let (c, s) := s.takeSeq c
    let s := s.stackWrite (s.logAddress (s.rd Reg.FLT_LOG_WR_INDEX)) (recordBytes c)
    let s := s.wr Reg.FLT_LOG_WR_INDEX 0 (s.rd Reg.FLT_LOG_WR_INDEX + 1)
    (s.postFault 0).postFault 1

/-! Tags (R43) -/

/-- A tag from its parts (Table 1.2). -/
def tagOf (part ctx epoch step cls layer flags : Nat) : W64 :=
  BitVec.ofNat 64 (part % 16 + (ctx % 65536) * 2 ^ 4 + (epoch % 256) * 2 ^ 20 + (step % 65536) * 2 ^ 28 +
    (cls % 4) * 2 ^ 44 + (layer % 4096) * 2 ^ 46 + (flags % 64) * 2 ^ 58)
def tagPart (t : W64) : Nat := bits t.toNat 0 4
def tagContext (t : W64) : Nat := bits t.toNat 4 16
def tagEpoch (t : W64) : Nat := bits t.toNat 20 8
def tagStep (t : W64) : Nat := bits t.toNat 28 16
def tagClass (t : W64) : Nat := bits t.toNat 44 2
def tagLayer (t : W64) : Nat := bits t.toNat 46 12
def tagFlags (t : W64) : Nat := bits t.toNat 58 6

end Sys2Proof.Machine
end

