-- ==== Sys2Proof/Machine/Rings.lean ====
section
/-! DEFINITION. Machine/Rings.lean: rings, DMA windows, writebacks and interrupts (R276 to R292). -/
namespace Sys2Proof.Machine

/-! Assignment -/

/-- A function exposes a partition (R267). -/
def State.exposes (s : State) (code part : Nat) : Bool :=
  if code % 32 = 0 then true else bit (s.rd Reg.HIF_FUNC_PART_PARTS code) part

def State.ringFn (s : State) (r : Nat) : Nat := s.rd Reg.RCB_ASSIGN_FUNCTION r
def State.ringPart (s : State) (r : Nat) : Nat := s.rd Reg.RCB_ASSIGN_PARTITION r
def State.ringKind (s : State) (r : Nat) : Nat := s.rd Reg.RCB_CFG_KIND r
/-- 0 DISABLED, 1 ACTIVE, 2 STOPPED, 3 ERROR. -/
def State.ringMode (s : State) (r : Nat) : Nat := s.rd Reg.RCB_STATUS_STATE r
def State.ringActive (s : State) (r : Nat) : Bool := s.ringMode r == 1

/-- Ring kinds (Table 8.5). -/
def kindSubmit : Nat := 1
def kindLoad : Nat := 2
def kindDma : Nat := 3
def kindToken : Nat := 4
def kindCompletion : Nat := 5
/-- The host produces its entries. -/
def hostProducer (kind : Nat) : Bool := decide (1 ≤ kind) && decide (kind ≤ 3)
/-- Entry size in bytes (Table 8.5). -/
def entrySize (kind : Nat) : Nat := if kind ≤ 2 then 64 else if kind = 4 then 8 else 32

/-- Whether a requester may write a ring's RW fields: its function, the owner's PF, the firmware. -/
def State.mayRing (s : State) (who : Requester) (r : Nat) : Bool :=
  s.mayRwo who || (s.is Reg.RCB_ASSIGN_VALID r && s.ringFn r == reqCode who)

/-! Windows (R288) -/

/-- One DMA window grants an access: function, range, permission. -/
def State.windowGrants (s : State) (part win code addr len : Nat) (write : Bool) : Bool :=
  let i := 8 * part + win
  let base := s.rd Reg.DMA_WIN_BASE_ADDR i / 4096 * 4096
  s.rd Reg.DMA_WIN_ATTR_FUNCTION i == code &&
  (if write then s.is Reg.DMA_WIN_ATTR_WR i else s.is Reg.DMA_WIN_ATTR_RD i) &&
  decide (base ≤ addr) && decide (addr + len ≤ base + 4096 * s.rd Reg.DMA_WIN_SIZE_PAGES i)

/-- The window test: an access lies wholly in one window of the partition through the function. -/
def State.windowOk (s : State) (part code addr len : Nat) (write : Bool) : Bool :=
  (List.range 8).any (fun w => s.windowGrants part w code addr len write)

/-- The data window of a partition: stack address and length in bytes (R288). -/
def State.dataWindow (s : State) (part : Nat) : Nat × Nat :=
  (65536 * s.rd Reg.DMA_DATA_BASE_FRAME part, 65536 * s.rd Reg.DMA_DATA_COUNT_FRAME part)

/-! Interrupts and writebacks -/

def State.ringVector (s : State) (r : Nat) : State :=
  if s.is Reg.RCB_INTR_INTR_EN r then s.msix (s.ringFn r) (s.rd Reg.RCB_INTR_VECTOR r) else s

/-- The conditions of R283: enough entries, or the timer since the first entry not yet signalled. -/
def State.coalesced (s : State) (r : Nat) : Bool :=
  let q := s.ringState r
  let t := s.rd Reg.RCB_INTR_COAL_T r
  decide (0 < q.unsignalled) &&
  (decide (s.rd Reg.RCB_INTR_COAL_CNT r ≤ q.unsignalled) ||
   (match q.firstTime with
    | some f => t != 0 && decide (f + t * 100000 ≤ s.time)
    | none => false))

/-- Send the coalesced interrupt of an armed ring if its conditions hold; it disarms the ring (R283). -/
def State.ringSignal (s : State) (r : Nat) : State :=
  if s.is Reg.RCB_INTR_INTR_EN r && s.is Reg.RCB_STATUS_ARMED r && s.coalesced r &&
      decide (s.rd Reg.RCB_INTR_VECTOR r < vectorsOf (s.ringFn r)) then
    let s := (s.ringVector r).wr Reg.RCB_STATUS_ARMED r 0
    s.setRingState r { s.ringState r with unsignalled := 0, firstTime := none }
  else s

/-- The device's index: HEAD of a host-producer ring, TAIL of a device-producer ring. -/
def State.ringIndex (s : State) (r : Nat) : Nat :=
  if hostProducer (s.ringKind r) then s.rd Reg.RCB_HEAD_INDEX r else s.rd Reg.RCB_TAIL_INDEX r

/-- The writeback word (R282). -/
def State.writebackWord (s : State) (r : Nat) : Nat :=
  s.ringIndex r + s.ringMode r * 2 ^ 32 + s.rd Reg.RCB_STATUS_ERR r * 2 ^ 36

/-- The writeback's window test. -/
def State.writebackOk (s : State) (r : Nat) : Bool :=
  s.windowOk (s.ringPart r) (s.ringFn r) (s.rd Reg.RCB_WB_ADDR r) 8 true

/-! Translation and page faults (R289, R290) -/

/-- What the translation cache of a function's port says of an access: it is granted, the cached translation lacks it, or there
is none. With ATS disabled every request goes out untranslated. -/
inductive Reach where
  | granted | lacking | unknown
deriving DecidableEq, Repr

def State.xlate (s : State) (code addr : Nat) (write : Bool) : Reach :=
  if !(s.fnState code).ats then .granted
  else match (s.portState (code / 32)).atc.find? (fun e => e.fn == code && e.page == addr / 4096) with
    | none => .unknown
    | some e => if (if write then e.writable else e.readable) then .granted else .lacking

/-- Page requests of a function that are outstanding, and how many it may have (R263). -/
def State.pageRequests (s : State) (code : Nat) : Nat :=
  (s.host.rings.filter (fun e => s.ringFn e.1 == code && (match e.2.wait with | some w => w.parked.isSome | none => false))).length +
  (s.host.rings.filter (fun e => s.ringFn e.1 == code && (match e.2.job with | some j => j.parked.isSome | none => false))).length
def pageCapacity (code : Nat) : Nat := if code % 32 = 0 then 512 else 64

/-- A function may send page requests. -/
def State.priUsable (s : State) (code : Nat) : Bool := (s.fnState code).pri && !(s.fnState code).priStopped

/-- A failed page fault is counted, and reported with class PAGE_FAULT against the port. -/
def State.faultFailed (s : State) (r : Nat) : State :=
  (s.bump Reg.DMA_CNT_PFAIL_COUNT).report { sender := unitPcie (s.ringFn r / 32), unit := unitPcie (s.ringFn r / 32), cls := 7, tag := tagOf (s.ringPart r) 0xFFFF 0 0 2 0xFFF 0 }

/-- Send a page request for a page of a ring's function, if its capacity allows. -/
def State.requestPage (s : State) (r page : Nat) : Option State :=
  if s.pageRequests (s.ringFn r) < pageCapacity (s.ringFn r) then
    some (((s.bump Reg.DMA_CNT_PRQ_COUNT).emit (.pageRequest (s.ringFn r) page)).wr Reg.RCB_STATUS_FAULT_WAIT r 1)
  else none

def State.setWait (s : State) (r : Nat) (w : Option PageWait) : State := s.setRingState r { s.ringState r with wait := w }

/-- Translate a page for a ring's own access. -/
def State.askPage (s : State) (r page : Nat) (write : Bool) : State :=
  (s.emit (.translationRequest (s.ringFn r) page)).setWait r (some ⟨page, write, none⟩)

/-- Park a ring's own access at a page request; a full capacity leaves it to be tried again. -/
def State.parkPage (s : State) (r page : Nat) (write : Bool) : State :=
  match s.requestPage r page with
  | some t => t.setWait r (some ⟨page, write, some s.time⟩)
  | none => s

/-- Write the writeback word: at once where its window grants it and its page is at hand; it waits for its page otherwise. A page
that cannot be had leaves it unwritten. -/
def State.writebackOut (s : State) (r : Nat) : State :=
  let a := s.rd Reg.RCB_WB_ADDR r
  if !s.writebackOk r then s
  else
    let due := fun (s : State) (b : Bool) => s.setRingState r { s.ringState r with wbDue := b }
    match s.xlate (s.ringFn r) a true with
    | .granted => (due s false).emit (.writeback r a (s.writebackWord r))
    | .unknown => if (s.ringState r).wait.isSome then due s true else (due s true).askPage r (a / 4096) true
    | .lacking =>
      if !s.priUsable (s.ringFn r) then due s false
      else if (s.ringState r).wait.isSome then due s true else (due s true).parkPage r (a / 4096) true

/-- A ring enters ERROR and raises its vector, armed or not (R281, R283). -/
def State.ringError (s : State) (r err : Nat) : State :=
  let s := ((s.wr Reg.RCB_STATUS_STATE r 3).wr Reg.RCB_STATUS_ERR r err).wr Reg.RCB_STATUS_FAULT_WAIT r 0
  ((s.setWait r none).writebackOut r).ringVector r

/-- A ring's own access fails for want of its page: ERROR, with ERR FAULT (Table 8.9). -/
def State.ringFault (s : State) (r : Nat) : State := (s.faultFailed r).ringError r 7

/-- The writeback after progress: outside every granting window it is not issued, and the ring enters ERROR WINDOW. -/
def State.writeback (s : State) (r : Nat) : State :=
  if !s.writebackOk r then s.ringError r 4
  else if s.xlate (s.ringFn r) (s.rd Reg.RCB_WB_ADDR r) true = .lacking ∧ !s.priUsable (s.ringFn r) then s.ringFault r
  else s.writebackOut r

/-- A ring's own access to a host address may go out now; else its page is translated or requested, or the ring fails. -/
def State.ringReach (s : State) (r addr : Nat) (write : Bool) : Bool × State :=
  if (s.ringState r).wait.isSome then (false, s)
  else match s.xlate (s.ringFn r) addr write with
    | .granted => (true, s)
    | .unknown => (false, s.askPage r (addr / 4096) write)
    | .lacking => (false, if s.priUsable (s.ringFn r) then s.parkPage r (addr / 4096) write else s.ringFault r)

/-! Entries -/

/-- Entries that the ring holds, and its size. -/
def State.ringUsed (s : State) (r : Nat) : Nat :=
  (s.rd Reg.RCB_TAIL_INDEX r + 2 ^ 32 - s.rd Reg.RCB_HEAD_INDEX r) % 2 ^ 32
def State.ringCap (s : State) (r : Nat) : Nat := 2 ^ s.rd Reg.RCB_CFG_SIZE_EXP r

/-- A device-producer ring can take `n` entries now (R234, R290). -/
def State.ringRoom (s : State) (r n : Nat) : Bool :=
  s.ringActive r && (s.ringState r).wait.isNone && decide (s.ringUsed r + n ≤ s.ringCap r)

/-- Host address of an entry (R278). -/
def State.entryAddress (s : State) (r i size : Nat) : Nat :=
  s.rd Reg.RCB_BASE_ADDR r + (i % s.ringCap r) * size

/-- Write one entry of a device-producer ring that has room: the entry, TAIL, the count; answers whether it was written. Outside
every granting window the ring enters ERROR WINDOW instead (R288); without its page it waits (R290). -/
def State.ringWrite (s : State) (r size value : Nat) : Bool × State :=
  let i := s.rd Reg.RCB_TAIL_INDEX r
  let a := s.entryAddress r i size
  if !s.windowOk (s.ringPart r) (s.ringFn r) a size true then (false, s.ringError r 4)
  else
    let (ok, s) := s.ringReach r a true
    if !ok then (false, s)
    else
      let s := ((s.emit (.ringEntry r i a size value)).wr Reg.RCB_TAIL_INDEX r (i + 1)).wr Reg.RCB_COUNT_ENTRIES r (s.rd Reg.RCB_COUNT_ENTRIES r + 1)
      let q := s.ringState r
      (true, s.setRingState r { q with unsignalled := q.unsignalled + 1, firstTime := some (q.firstTime.getD s.time) })

/-- Write entries in order while the ring takes them; answers those left. -/
def State.ringWriteList (s : State) (r size : Nat) : List Nat → List Nat × State
  | [] => ([], s)
  | v :: vs =>
    if !s.ringRoom r 1 then (v :: vs, s)
    else match s.ringWrite r size v with
      | (true, t) => State.ringWriteList t r size vs
      | (false, t) => (v :: vs, t)

/-- Write entries in order, then one writeback and the interrupt if due; answers those left. -/
def State.ringTry (s : State) (r size : Nat) (vs : List Nat) : List Nat × State :=
  let (left, t) := s.ringWriteList r size vs
  (left, if left.length < vs.length && t.ringActive r then (t.writeback r).ringSignal r else t)

/-- Give an entry to a device-producer ring: it goes out at once if nothing waits and there is room, else it is held. -/
def State.ringPush (s : State) (r size value : Nat) : State :=
  let (left, s) := if (s.ringState r).held.isEmpty then s.ringTry r size [value] else ([value], s)
  s.setRingState r { s.ringState r with held := (s.ringState r).held ++ left.map (fun v => (size, v)) }

/-- Write as many held entries as the ring now takes. -/
def State.ringFlush (s : State) (r : Nat) : State :=
  let size := entrySize (s.ringKind r)
  if (s.ringState r).held.isEmpty then s
  else
    let (left, s) := s.ringTry r size ((s.ringState r).held.map Prod.snd)
    s.setRingState r { s.ringState r with held := left.map (fun v => (size, v)) }

/-- A page that a ring waited for is at hand: its writeback and its held entries go out. -/
def State.ringRetry (s : State) (r : Nat) : State :=
  let s := if (s.ringState r).wbDue then s.writeback r else s
  if (s.ringState r).wait.isSome then s else s.ringFlush r

/-- A host-producer ring may consume its next entry (R280, R281, R288, R290): it is ACTIVE, holds an entry, no page
request of its own is outstanding, and it does not stand still (R231). -/
def State.ringReady (s : State) (r kind : Nat) : Bool :=
  s.ringActive r && s.ringKind r == kind && decide (0 < s.ringUsed r) && (s.ringState r).wait.isNone

/-- The fetch of the next entry passes the window test. -/
def State.fetchOk (s : State) (r : Nat) : Bool :=
  let size := entrySize (s.ringKind r)
  s.windowOk (s.ringPart r) (s.ringFn r) (s.entryAddress r (s.rd Reg.RCB_HEAD_INDEX r) size) size false

/-- Consume the next entry of a host-producer ring: HEAD, the count, the writeback (R282). -/
def State.consume (s : State) (r : Nat) : State :=
  ((s.wr Reg.RCB_HEAD_INDEX r (s.rd Reg.RCB_HEAD_INDEX r + 1)).wr Reg.RCB_COUNT_ENTRIES r (s.rd Reg.RCB_COUNT_ENTRIES r + 1)).writeback r

/-- Fetch the next entry of a host-producer ring; answers whether it has come. -/
def State.fetched (s : State) (r : Nat) : Bool × State :=
  if s.fetchOk r then s.ringReach r (s.entryAddress r (s.rd Reg.RCB_HEAD_INDEX r) (entrySize (s.ringKind r))) false
  else (false, s.ringError r 4)

/-- Fetch and consume the next entry of a host-producer ring, then act on it. -/
def State.fetch (s : State) (r kind : Nat) (act : State → State) : State :=
  if s.ringReady r kind then
    match s.fetched r with
    | (true, t) => act (t.consume r)
    | (false, t) => t
  else s

/-! Enabling and disabling (R279, R284) -/

/-- The port of a ring runs at 8 GT/s or above, ×4 or wider. -/
def State.linkFit (s : State) (port : Nat) : Bool :=
  s.is Reg.HIF_PORT_STATUS_DL_UP port && decide (3 ≤ s.rd Reg.HIF_PORT_STATUS_RATE port) &&
  decide (4 ≤ s.rd Reg.HIF_PORT_STATUS_WIDTH port)

/-- A paired ring is of the right kind and format, shares partition and function, and is ACTIVE. -/
def State.pairOk (s : State) (r q kind cfmt : Nat) : Bool :=
  s.is Reg.RCB_ASSIGN_VALID q && s.ringKind q == kind &&
  (kind != kindCompletion || s.rd Reg.RCB_CFG_CFMT q == cfmt) &&
  s.ringPart q == s.ringPart r && s.ringFn q == s.ringFn r && s.ringActive q

/-- The checks of R279 in order: 0, or the code of the first that fails. -/
def State.enableCheck (s : State) (r : Nat) : Nat :=
  let kind := s.ringKind r
  let n := s.rd Reg.RCB_CFG_SIZE_EXP r
  let base := s.rd Reg.RCB_BASE_ADDR r
  let cpl := s.rd Reg.RCB_PAIR_CPL r
  if !(s.is Reg.RCB_ASSIGN_VALID r && s.exposes (s.ringFn r) (s.ringPart r)) then 9
  else if !s.linkFit (s.ringFn r / 32) then 8
  else if !(decide (1 ≤ kind) && decide (kind ≤ 5)) || (kind == kindCompletion && s.rd Reg.RCB_CFG_CFMT r == 3) then 1
  else if n < 6 || 16 < n then 2
  else if base % 4096 != 0 || s.rd Reg.RCB_WB_ADDR r % 8 != 0 then 3
  else if !(s.windowOk (s.ringPart r) (s.ringFn r) base (s.ringCap r * entrySize kind) (!hostProducer kind) &&
      s.writebackOk r) then 4
  else if !(match kind with
      | 1 => s.pairOk r cpl 5 0 && s.pairOk r (s.rd Reg.RCB_PAIR_TOKEN r) 4 0
      | 2 => s.pairOk r cpl 5 1
      | 3 => s.pairOk r cpl 5 2
      | _ => true) then 5
  else 0

/-- A write of ENABLE = 1 (R279): it acts on a DISABLED ring only. -/
def State.enableRing (s : State) (r : Nat) : State :=
  if s.ringMode r ≠ 0 then s else
  match s.enableCheck r with
  | 0 =>
    let s := ((((((s.wr Reg.RCB_COUNT_ENTRIES r 0).wr Reg.RCB_HEAD_INDEX r 0).wr Reg.RCB_TAIL_INDEX r 0).wr Reg.RCB_STATUS_ERR r 0).wr
      Reg.RCB_STATUS_STATE r 1).wr Reg.RCB_CFG_ENABLE r 1)
    let s := s.setRingState r { s.ringState r with unsignalled := 0, firstTime := none, stalled := false, wait := none, wbDue := false }
    (s.writeback r).ringFlush r
  | e => s.wr Reg.RCB_STATUS_ERR r e

/-- A completion ring entry for a DMA descriptor (Table 8.8). -/
def dmaCompletion (cookie : W64) (op code bytesDone stop now : Nat) : Nat :=
  cookie.toNat + op * 2 ^ 64 + code * 2 ^ 72 + (bytesDone % 2 ^ 32) * 2 ^ 96 + (stop % 2 ^ 64) * 2 ^ 128 + now * 2 ^ 192

/-- `FAULT_WAIT` shows whether a page request for the ring is outstanding. -/
def State.showWait (s : State) (r : Nat) : State :=
  let q := s.ringState r
  let a := match q.wait with | some w => w.parked.isSome | none => false
  let b := match q.job with | some j => j.parked.isSome | none => false
  s.wr Reg.RCB_STATUS_FAULT_WAIT r (a || b).toNat

/-- End a DMA descriptor: its completion goes to the paired ring, and the ring is free for the next (R287, R292). -/
def State.dmaEnd (s : State) (r code : Nat) : State :=
  let q := s.ringState r
  match q.job with
  | none => s
  | some j =>
    let s := (s.setRingState r { q with job := none }).showWait r
    let stop := if code = codeOk then 0 else j.host + j.done
    s.ringPush (s.rd Reg.RCB_PAIR_CPL r) 32 (dmaCompletion j.cookie j.op code j.done stop s.now)

/-- End a descriptor with a code at its next 4 KiB boundary: at once when no piece is in progress. A piece is in
progress unless the transfer is parked or translates. -/
def State.dmaStop (s : State) (r code : Nat) : State :=
  let q := s.ringState r
  match q.job with
  | none => s
  | some j =>
    if j.parked.isSome || j.translating then s.dmaEnd r code
    else s.setRingState r { q with job := some { j with ending := some (j.ending.getD code) } }

/-- Forget a descriptor without a completion (R274). -/
def State.dmaForget (s : State) (r : Nat) : State :=
  (s.setRingState r { s.ringState r with job := none }).showWait r

/-- A write of ENABLE = 0 (R284). -/
def State.disableRing (s : State) (r : Nat) : State :=
  if s.ringMode r = 0 then s.wr Reg.RCB_CFG_ENABLE r 0
  else
    let s := (((s.wr Reg.RCB_STATUS_STATE r 0).wr Reg.RCB_CFG_ENABLE r 0).wr Reg.RCB_STATUS_ARMED r 0).wr
      Reg.RCB_STATUS_FAULT_WAIT r 0
    (s.setRingState r { s.ringState r with stalled := false, wait := none }).writebackOut r

/-- STOP (R284). -/
def State.stopRing (s : State) (r : Nat) : State :=
  if s.ringActive r && hostProducer (s.ringKind r) then
    ((s.wr Reg.RCB_STATUS_STATE r 2).dmaStop r codeCancelled).writeback r
  else s

/-- RESUME (R284). -/
def State.resumeRing (s : State) (r : Nat) : State :=
  if s.ringMode r = 2 then (s.wr Reg.RCB_STATUS_STATE r 1).writeback r else s

/-- All rings of a function code set, by number. -/
def State.ringsOf (s : State) (p : Nat → Bool) : List Nat :=
  (List.range 4096).filter (fun r => s.is Reg.RCB_ASSIGN_VALID r && p (s.ringFn r))

end Sys2Proof.Machine
end

