-- ==== Sys2Proof/Machine/ZlOps.lean ====
section
/-! DEFINITION. Machine/ZlOps.lean: output arbitration, and sending on the ZL ports and to a partition's chain (R174, R313 to
R316, R325). -/
namespace Sys2Proof.Machine

/-! Output arbitration (R174, R316) -/

/-- One flit slot of an output port: the class sent, of those that have a flit ready, and the window after it. CONTROL is
never counted in the window. -/
def pickClass (bulkMin maintMin : Nat) (w : Window) (ready : List Nat) : Option (Nat × Window) :=
  if ready.contains 0 then some (0, w)
  else
    let bm := min 16 bulkMin
    let mm := min bm maintMin
    let n := w.w + 1
    let owedM : Int := (mm : Int) - w.sentM
    let owedB : Int := (bm : Int) - w.sentB - w.sentM
    let left : Int := 32 - (n : Int)
    let c :=
      if 0 < owedM ∧ ready.contains 3 ∧ left < owedB + owedM then some 3
      else if 0 < owedB ∧ ready.contains 2 ∧ left < owedB then some 2
      else [1, 2, 3].find? (fun c => ready.contains c)
    c.map (fun c =>
      (c, if n = 32 then {}
          else { w with w := n, sentB := w.sentB + (if c = 2 then 1 else 0), sentM := w.sentM + (if c = 3 then 1 else 0) }))

/-! Sending -/

/-- State of a port (Table 10.5). -/
def State.zlMode (s : State) (p : Nat) : Nat := s.rd Reg.LNK_STATUS_STATE p
def State.zlUp (s : State) (p : Nat) : Bool := s.zlMode p == 3

/-- Fewest lanes in UP. -/
def State.minLanes (s : State) (p : Nat) : Nat :=
  match s.rd Reg.LNK_CTRL_MIN_LANES p with
  | 0 => 4 | 1 => 2 | n => n

/-- The next SEQ, the replay buffer and the TX count take a flit; the buffer keeps the last 3,072. -/
def State.zlStamp (s : State) (p ftype op : Nat) (tag : W64) (body : Nat) : State :=
  let z := s.zl p
  let f : SentFlit := ⟨z.txSeq, ftype, op, tag, body⟩
  (s.setZl p { z with txSeq := (z.txSeq + 1) % 4096, replay := ((f :: z.replay.reverse).take 3072).reverse }).bump Reg.LNK_CNT_TX_COUNT p

/-- Send a flit other than IDLE on a port. -/
def State.zlSend (s : State) (p ftype op : Nat) (tag : W64) (body : Nat) : State :=
  (s.zlStamp p ftype op tag body).emit (.zl p (s.zl p).txSeq ftype op tag body)

/-- FTYPE codes (Table 10.3), LINK opcodes (Table 10.4). -/
def ftMsg : Nat := 1
def ftHead : Nat := 2
def ftData : Nat := 3
def ftReq : Nat := 4
def ftHello : Nat := 5
def ftLink : Nat := 6
def linkReplayOp : Nat := 1
def linkDropOp : Nat := 2
def linkGoodbyeOp : Nat := 4
def linkHelloOp : Nat := 5

/-- Receive buffers of a port by class (R315). -/
def zlBuffers (c : Nat) : Nat := match c with | 0 => 64 | 1 => 2560 | 2 => 2560 | _ => 1024

/-- Send MSG flits that wait, as credits allow, in the order of R316. `n` bounds how many. -/
def State.zlDrain : Nat → State → Nat → State
  | 0, s, _ => s
  | n + 1, s, p =>
    let z := s.zl p
    let ready := [0, 1, 2, 3].filter (fun c => z.queue.any (fun q => q.1 == c) && decide (SMap.get 0 z.credits c < zlBuffers c))
    match pickClass (s.rd Reg.LNK_SHARE_BULK_MIN p) (s.rd Reg.LNK_SHARE_MAINT_MIN p) z.window ready with
    | none => s
    | some (c, w) =>
      match z.queue.find? (fun q => q.1 == c) with
      | none => s
      | some q =>
        let s := s.setZl p { z with queue := z.queue.erase q, window := w, credits := SMap.put 0 z.credits c (SMap.get 0 z.credits c + 1) }
        State.zlDrain n (s.zlSend p ftMsg 0 q.2.1 q.2.2) p

/-- Body of a MSG flit (Table 10.4). -/
def msgBody (rch off granule : Nat) : Nat := rch % 4096 + (off % 4096) * 2 ^ 12 + granule * 2 ^ 32

/-- Send a MSG flit on a port that is UP; at another port nothing leaves. -/
def State.zlMsg (s : State) (p rch off : Nat) (tag : W64) (granule : Nat) : State :=
  if !s.zlUp p then s
  else
    let z := s.zl p
    let s := s.setZl p { z with queue := z.queue ++ [(tagClass tag, tag, msgBody rch off granule)] }
    s.zlDrain (z.queue.length + 1) p

/-- Send a LINK flit. -/
def State.zlLink (s : State) (p op seq lane : Nat) : State := s.zlSend p ftLink op 0 (op + seq * 16 + lane * 2 ^ 16)

/-! Chains -/

/-- The partition that a port exports. -/
def State.exportOf (s : State) (p : Nat) : Option Nat :=
  if s.is Reg.LNK_EXP_EN p then some (s.rd Reg.LNK_EXP_PART p) else none

/-- The ports that export a partition. -/
def State.portsOf (s : State) (part : Nat) : List Nat := (List.range 8).filter (fun p => s.exportOf p == some part)

/-- The fixed ingress entries (R325): serving engine, loader, barrier root, management complex. -/
def chainServing : Nat := 0xFF0
def chainEpoch : Nat := 0xFF1
def chainBarrier : Nat := 0xFF2
def chainManagement : Nat := 0xFF3

/-- Send granules to a fixed entry of the other members of a partition's chain, as one message on every port that exports
the partition. -/
def State.chainSendAll (s : State) (part rch : Nat) (tag : W64) (gs : List Nat) : State :=
  s.forEach (s.portsOf part) (fun s p => s.forEach gs.zipIdx (fun s (g, i) =>
    s.zlMsg p rch i (if i + 1 = gs.length then BitVec.ofNat 64 (setBit tag.toNat 63 true) else tag) g))

/-- Send one granule of CLASS CONTROL (Tables 6.8, 7.8, 14.4). -/
def State.chainSend (s : State) (part rch value : Nat) : State :=
  s.chainSendAll part rch (BitVec.ofNat 64 (part % 16 + 0xFFF * 2 ^ 46)) [value]

end Sys2Proof.Machine
end

