-- ==== Sys2Proof/Machine/ServingOps.lean ====
section
/-! DEFINITION. Machine/ServingOps.lean: partitions and epochs, KV pages, and what happens to a request (chapter 7). -/
namespace Sys2Proof.Machine

/-! Partitions and courses -/

/-- The logical course that a physical course stands for (R190). -/
def State.logicalOf (s : State) (phys : Nat) : Option Nat :=
  (List.range 100).find? (fun l => s.rd Reg.NOC_COURSE_MAP_PHYS l == phys && !s.is Reg.NOC_COURSE_MAP_OUT l)

/-- The partition that holds a physical course, if any (R30). -/
def State.coursePart (s : State) (phys : Nat) : Option Nat :=
  match s.logicalOf phys with
  | some l => if s.is Reg.PRT_COURSE_ASSIGNED l then some (s.rd Reg.PRT_COURSE_PART l) else none
  | none => none

/-- The partition of a core. -/
def State.corePart (s : State) (core : Nat) : Option Nat := s.coursePart (courseOf core)

/-- Logical courses of a partition. -/
def State.coursesOf (s : State) (p : Nat) : List Nat :=
  (List.range 100).filter (fun l => s.is Reg.PRT_COURSE_ASSIGNED l && s.rd Reg.PRT_COURSE_PART l == p)

/-- Physical courses of a partition. -/
def State.physCoursesOf (s : State) (p : Nat) : List Nat :=
  ((s.coursesOf p).filter (fun l => !s.is Reg.NOC_COURSE_MAP_OUT l)).map (fun l => s.rd Reg.NOC_COURSE_MAP_PHYS l)

/-- The device serves: HIF_DEV_STATE is SERVING. -/
def State.serves (s : State) : Bool := s.rd Reg.HIF_DEV_STATE_STATE == 2

/-! Epochs (R213, R214) -/

/-- Key of an epoch slot. -/
def epochKey (p slot : Nat) : Nat := 4 * p + slot
/-- The slot of a partition's epoch, by number. -/
def State.epochSlot? (s : State) (p e : Nat) : Option Nat :=
  (List.range 4).find? (fun k => s.rd Reg.LDR_EPOCH_STATE (epochKey p k) != 0 && s.rd Reg.LDR_EPOCH_NUMBER (epochKey p k) == e)
/-- The first slot of a partition in an epoch state. -/
def State.slotIn? (s : State) (p st : Nat) : Option Nat :=
  (List.range 4).find? (fun k => s.rd Reg.LDR_EPOCH_STATE (epochKey p k) == st)
/-- The slot of the CURRENT epoch. -/
def State.currentSlot? (s : State) (p : Nat) : Option Nat := s.slotIn? p 3
/-- The number of the CURRENT epoch, 0 for none. -/
def State.currentEpoch (s : State) (p : Nat) : Nat :=
  match s.currentSlot? p with
  | some k => s.rd Reg.LDR_EPOCH_NUMBER (epochKey p k)
  | none => 0
/-- This device's member index in a partition's chain: of the CURRENT epoch, else of the partition's last load. -/
def State.memberIndex (s : State) (p : Nat) : Nat :=
  match s.currentSlot? p with
  | some k => (s.epochInfo (epochKey p k)).member
  | none => s.rd Reg.LDR_LOAD_MEMBER p
/-- The device admits the partition's requests (R37). -/
def State.admits (s : State) (p : Nat) : Bool := s.is Reg.LDR_PART_INFO_ADMITTING p

/-- An epoch message (Table 6.8). -/
def epochMessage (subop epoch prev code reason member : Nat) (txn : W64) (timeout : Nat) : Nat :=
  6 + subop * 2 ^ 8 + epoch * 2 ^ 16 + prev * 2 ^ 24 + code * 2 ^ 32 + reason * 2 ^ 40 + member * 2 ^ 48 +
  txn.toNat * 2 ^ 64 + timeout * 2 ^ 128
/-- A serving message (Table 7.8). -/
def servingMessage (kind count ctx epoch flags adapter : Nat) (pfx : W64) (tokens : Nat) : Nat :=
  kind + count * 2 ^ 8 + ctx * 2 ^ 16 + epoch * 2 ^ 32 + flags * 2 ^ 40 + adapter * 2 ^ 48 + pfx.toNat * 2 ^ 64 +
  tokens * 2 ^ 128

/-- Clear a tier's format: WIDTH 0, not VERIFIED, its signature invalid (R214, Table 11.4). -/
def State.emptyTier (s : State) (tk : Nat) : State :=
  let s := ((((((s.wr Reg.CRS_ARR_TFMT_WIDTH tk 0).wr Reg.CRS_ARR_TFMT_SIGNED tk 0).wr Reg.CRS_ARR_TFMT_GAIN tk 0).wr
    Reg.CRS_ARR_TFMT_PARTIAL_FMT tk 0).wr Reg.CRS_ARR_TFMT_VERIFIED tk 0).wr Reg.CRS_ARR_TFMT_PROGRAMMING tk 0)
  let jobs := SMap.get [] s.peg.jobs (tk / 128)
  let due := SMap.get [] s.peg.due (tk / 128)
  { s with peg := { s.peg with jobs := SMap.put [] s.peg.jobs (tk / 128) (jobs.filter (fun j => j.tier != tk % 128)), due := SMap.put [] s.peg.due (tk / 128) (due.filter (· != tk % 128)), named := SMap.put [] s.peg.named (tk / 128) ((SMap.get [] s.peg.named (tk / 128)).filter (· != tk % 128)), overdue := s.peg.overdue.filter (· != tk), residues := SMap.erase s.peg.residues tk }, loader := { s.loader with source := SMap.erase s.loader.source tk } }

/-- Free an epoch slot: its map entry clears, and tiers that no other epoch of the partition shares are emptied. -/
def State.freeEpoch (s : State) (p slot : Nat) : State :=
  let k := epochKey p slot
  let mine := (s.epochInfo k).tiers
  let others := ((List.range 4).filter (fun j => j != slot && s.rd Reg.LDR_EPOCH_STATE (epochKey p j) != 0)).flatMap
    (fun j => (s.epochInfo (epochKey p j)).tiers)
  let s := s.clearFields [Reg.LDR_EPOCH_NUMBER, Reg.LDR_EPOCH_STATE, Reg.LDR_EPOCH_HOLD, Reg.LDR_EPOCH_REFS] k
  let s := s.setEpochInfo k {}
  let keep := fun e : Nat × Nat => !((e.1 / 128) % 4 == slot && s.corePart (e.1 / 512) == some p)
  let keepC := fun e : Nat × Nat => !(e.1 % 4 == slot && s.corePart (e.1 / 4) == some p)
  let s := { s with loader := { s.loader with tierMap := s.loader.tierMap.filter keep, coff := s.loader.coff.filter keepC, consts := s.loader.consts.filter (fun e => e.1 != k) } }
  (mine.filter (fun t => !others.contains t)).foldl State.emptyTier s

/-- Retire a DRAINING epoch without references and holds (R214): RETIRE to every member, then FREE. -/
def State.retire (s : State) (p slot : Nat) : State :=
  let k := epochKey p slot
  if s.rd Reg.LDR_EPOCH_STATE k = 4 ∧ s.rd Reg.LDR_EPOCH_REFS k = 0 ∧ s.rd Reg.LDR_EPOCH_HOLD k = 0 ∧ s.admits p then
    let e := s.rd Reg.LDR_EPOCH_NUMBER k
    let s := if 1 < (s.epochInfo k).members then
        s.chainSend p chainEpoch (epochMessage 7 e 0 0 0 (s.memberIndex p) 0 0) else s
    s.freeEpoch p slot
  else s

/-- Add or drop a request's reference on an epoch (R215). -/
def State.epochRef (s : State) (p e : Nat) : State :=
  match s.epochSlot? p e with
  | some k => s.bump Reg.LDR_EPOCH_REFS (epochKey p k)
  | none => s
def State.epochUnref (s : State) (p e : Nat) : State :=
  match s.epochSlot? p e with
  | some k => (s.wr Reg.LDR_EPOCH_REFS (epochKey p k) (s.rd Reg.LDR_EPOCH_REFS (epochKey p k) - 1)).retire p k
  | none => s

/-! Adapters (R221, R223) -/

/-- Slot and version of a handle. -/
def adapterSlot (h : Nat) : Nat := h % 1024
def adapterVersion (h : Nat) : Nat := h / 1024

/-- A handle names a valid slot of the partition. -/
def State.adapterValid (s : State) (p h : Nat) : Bool :=
  let k := adapterSlot h
  s.is Reg.LDR_ADP_SLOT_VALID k && s.rd Reg.LDR_ADP_SLOT_VERSION k == adapterVersion h && s.rd Reg.LDR_ADP_SLOT_PART k == p

/-- Free a superseded slot without references (R223). -/
def State.adapterSettle (s : State) (k : Nat) : State :=
  if s.is Reg.LDR_ADP_SLOT_VALID k && s.is Reg.LDR_ADP_SLOT_SUPERSEDED k && s.rd Reg.LDR_ADP_SLOT_REFS k == 0 then
    let s := ((s.wr Reg.LDR_ADP_SLOT_VALID k 0).wr Reg.LDR_ADP_SLOT_RESIDENT k 0).wr Reg.LDR_ADP_SLOT_SUPERSEDED k 0
    { s with loader := { s.loader with adapters := SMap.insert s.loader.adapters k { used := true } } }
  else s
def State.adapterRef (s : State) (h : Nat) : State :=
  if h = 0xFFFF then s else s.bump Reg.LDR_ADP_SLOT_REFS (adapterSlot h)
def State.adapterUnref (s : State) (h : Nat) : State :=
  if h = 0xFFFF then s
  else (s.wr Reg.LDR_ADP_SLOT_REFS (adapterSlot h) (s.rd Reg.LDR_ADP_SLOT_REFS (adapterSlot h) - 1)).adapterSettle (adapterSlot h)

/-! KV pages (R244 to R247) -/

/-- Frames a page list owns. -/
def ownFrames (l : SMap PageEntry) : List Nat := (l.filter (fun e => !e.2.shared)).map (fun e => e.2.frame)

/-- Frames in use in a partition's pool. -/
def State.usedFrames (s : State) (p : Nat) : List Nat :=
  (s.serving.requests.filter (fun e => e.2.part == p)).flatMap (fun e => ownFrames e.2.pages) ++
  (s.serving.prefixes.filter (fun e => e.2.part == p)).flatMap (fun e => ownFrames e.2.pages)

/-- Frames not in use in the pool. -/
def State.freeFrames (s : State) (p : Nat) : List Nat :=
  let used := s.usedFrames p
  ((List.range (s.rd Reg.SRV_PART_POOL_COUNT_FRAMES p)).map (· + s.rd Reg.SRV_PART_POOL_BASE_FRAME p)).filter
    (fun f => !used.contains f)

/-- How many frames are free, and how many of them reserves hold. -/
def State.freeCount (s : State) (p : Nat) : Nat := s.rd Reg.SRV_PART_POOL_COUNT_FRAMES p - (s.usedFrames p).length
def State.reservedCount (s : State) (p : Nat) : Nat :=
  ((s.serving.requests.filter (fun e => e.2.part == p)).map (fun e => e.2.reserved)).sum

/-- Choose `n` frames from a list of free ones. Which free frame the allocator takes is open: a free value picks it. -/
def pickFrames : Nat → Nat → List Nat → List Nat
  | 0, _, _ => []
  | n + 1, k, l =>
    let f := l.getD ((Config.free32 k).toNat % l.length) 0
    f :: pickFrames n (k + 1) (l.filter (· != f))

/-- Pages per token block (2S) and tokens per page (T_p) of a partition (R245). -/
def State.pagesPerBlock (s : State) (p : Nat) : Nat := 2 * s.rd Reg.SRV_PART_KVGEO_STREAMS p
def State.tokensPerPage (s : State) (p : Nat) : Nat := 2 ^ s.rd Reg.SRV_PART_KVGEO_LOG2_TP p
/-- Pages needed for `n` tokens (R244). -/
def State.pagesForTokens (s : State) (p n : Nat) : Nat :=
  (n + s.tokensPerPage p - 1) / s.tokensPerPage p * s.pagesPerBlock p

/-- List indices of the pages that tokens from `a` up to before `b` fall in. -/
def State.pageIndices (s : State) (p a b : Nat) : List Nat :=
  if b ≤ a then [] else
  let first := a / s.tokensPerPage p
  let last := (b - 1) / s.tokensPerPage p
  (List.range ((last + 1 - first) * s.pagesPerBlock p)).map (· + first * s.pagesPerBlock p)

/-- Pages a step must obtain: those it has not, and those shared, which it copies first (R249). -/
def State.pagesWanted (s : State) (r : Request) (n : Nat) : List Nat :=
  (s.pageIndices r.part r.kvlen (r.kvlen + n)).filter (fun i =>
    match SMap.find? r.pages i with
    | some e => e.shared
    | none => true)

/-- Put frames under list indices, copying a shared frame's contents into its new frame. -/
def State.placePages (s : State) (idx : Nat) : List (Nat × Nat) → State
  | [] => s
  | (i, f) :: rest =>
    let r := s.request idx
    let s := match SMap.find? r.pages i with
      | some e => s.stackWrite (65536 * f) (s.stackRead (65536 * e.frame) 65536)
      | none => s
    State.placePages (s.setRequest idx { r with pages := SMap.insert r.pages i ⟨f, false⟩ }) idx rest

/-- Obtain the pages of a step of `n` tokens (R246); none when they are lacking. -/
def State.getPages (s : State) (idx n : Nat) : Option State :=
  let r := s.request idx
  let want := s.pagesWanted r n
  let free := s.freeCount r.part
  let others := s.reservedCount r.part - r.reserved
  if want.length + others ≤ free then
    let frames := pickFrames want.length s.fresh (s.freeFrames r.part)
    let s := { s with fresh := s.fresh + want.length }
    let s := s.setRequest idx { r with reserved := r.reserved - want.length }
    some (s.placePages idx (want.zip frames))
  else none

/-- Drop a request's own pages of token blocks beyond its KVLEN (R247); a reserve gets them back. -/
def State.trimPages (s : State) (idx : Nat) : State :=
  let r := s.request idx
  let keep := s.pagesForTokens r.part r.kvlen
  let kept := r.pages.filter (fun e => decide (e.1 < keep))
  let back := if r.reserve then (ownFrames r.pages).length - (ownFrames kept).length else 0
  s.setRequest idx { r with pages := kept, reserved := r.reserved + back }

/-- Set aside the reserve of a request that could not have it yet (R246). -/
def State.tryReserve (s : State) (idx : Nat) : State :=
  let r := s.request idx
  let n := s.pagesForTokens r.part (r.kvlen + r.promptLen + r.maxNew)
  if r.reserveWait && decide (n + s.reservedCount r.part ≤ s.freeCount r.part) then
    s.setRequest idx { r with reserved := n, reserveWait := false }
  else s

/-! Prefixes (R248 to R250) -/

/-- The live entry of a handle in a partition's prefix table. -/
def State.prefixEntry? (s : State) (p : Nat) (h : W64) : Option Nat :=
  (List.find? (fun e => e.2.part == p && e.2.handle == h && !e.2.dropped) s.serving.prefixes).map Prod.fst
def State.prefixEntry (s : State) (k : Nat) : Option PrefixEntry := SMap.find? s.serving.prefixes k
def State.setPrefix (s : State) (k : Nat) (e : Option PrefixEntry) : State :=
  { s with serving := { s.serving with prefixes := match e with | some e => SMap.insert s.serving.prefixes k e | none => SMap.erase s.serving.prefixes k } }

/-- A free prefix-table entry: a number below 16,384 that is not listed. -/
def State.freePrefix? (s : State) : Option Nat :=
  (List.range 16384).find? (fun k => (s.prefixEntry k).isNone)

/-- Drop one reference on a prefix entry; a dropped entry without references frees its frames and its reference on its
parent. `n` bounds the chain of parents. -/
def State.prefixUnref : Nat → State → Nat → State
  | 0, s, _ => s
  | n + 1, s, k =>
    match s.prefixEntry k with
    | none => s
    | some e =>
      if e.refs - 1 = 0 ∧ e.dropped then
        let s := s.setPrefix k none
        match e.parent with
        | some q => State.prefixUnref n s q
        | none => s
      else s.setPrefix k (some { e with refs := e.refs - 1 })

/-- PREFIX_DROP of an entry (R250). -/
def State.prefixDropAt (s : State) (k : Nat) : State :=
  match s.prefixEntry k with
  | none => s
  | some e =>
    if e.refs = 0 then
      let s := s.setPrefix k none
      match e.parent with
      | some q => State.prefixUnref 16384 s q
      | none => s
    else s.setPrefix k (some { e with dropped := true })

/-! Requests -/

/-- A state from QUEUED to PAUSED. -/
def liveState : ReqState → Bool
  | .queued | .prefill | .decode | .verify | .paused => true
  | _ => false
/-- A state with a step that can be in flight. -/
def runState : ReqState → Bool
  | .prefill | .decode | .verify => true
  | _ => false
/-- State codes of Table 7.2. -/
def reqCodeOf : ReqState → Nat
  | .free => 0 | .queued => 1 | .prefill => 2 | .decode => 3 | .verify => 4 | .paused => 5 | .cancelling => 6
  | .done => 7 | .faulted => 8
def causeCode : PauseCause → Nat
  | .none => 0 | .pages => 1 | .tier => 2 | .ring => 3

/-- The slice of a partition holds an index (R225). -/
def State.inSlice (s : State) (p i : Nat) : Bool :=
  decide (s.rd Reg.SRV_PART_SLICE_BASE p ≤ i) && decide (i < s.rd Reg.SRV_PART_SLICE_BASE p + s.rd Reg.SRV_PART_SLICE_COUNT p)

/-- The first FREE entry of a partition's slice. -/
def State.freeEntry? (s : State) (p : Nat) : Option Nat :=
  firstFrom (s.rd Reg.SRV_PART_SLICE_BASE p) (s.rd Reg.SRV_PART_SLICE_COUNT p) (fun i => (s.request i).state == .free)

/-- Indices of a partition's entries that are not FREE. -/
def State.entriesOf (s : State) (p : Nat) : List Nat :=
  (s.serving.requests.filter (fun e => e.2.state != .free && e.2.part == p)).map Prod.fst

/-- The rings of a request. -/
def State.tokenRing (s : State) (r : Request) : Nat := s.rd Reg.RCB_PAIR_TOKEN r.subring
def State.completionRing (s : State) (r : Request) : Nat := s.rd Reg.RCB_PAIR_CPL r.subring

/-- A tag names a context of a partition, and a step where one is given (low 16 bits). -/
def tagHits (part ctx : Nat) (step : Option Nat) (t : W64) : Bool :=
  tagPart t == part && tagContext t == ctx && (match step with | some n => tagStep t == n | none => true)

/-- A slot belongs to a context and, where one is given, to a step. -/
def slotHits (ctx : Nat) (step : Option Nat) (x : CoreSlot) : Bool :=
  x.slotRec.context == ctx && (match step with | some n => x.slotRec.step % 65536 == n | none => true)

/-- An instruction retires at a core (R165). -/
def State.retired (s : State) (core : Nat) : State :=
  (s.bump Reg.CRS_CORE_RETIRE_COUNT core).setCore core { s.core core with lastRetire := s.time }

/-- An instruction leaves a core's list of those in flight. -/
def State.landed (s : State) (core unit : Nat) : State :=
  let c := s.core core
  s.setCore core { c with inflight := c.inflight.filter (fun f => f.unit != unit) }

/-- Abort the tier MVM of an array: no further conversion, no result, no check; pooling registers discarded (R77, R81). -/
def State.abortMvm (s : State) (k : Nat) : State :=
  (s.setArray k { s.array k with mvm := none, pool := [] }).landed (k / 9) (k % 9)

/-- The pass of a core ends when CTRL.END was reached and nothing is in flight (Table 4.8). -/
def State.settlePass (s : State) (core : Nat) : State :=
  let c := s.core core
  if c.ending && c.inflight.isEmpty then s.setCore core { c with running := false, ending := false, body := none, slots := [], cur := 0 } else s

/-- A core's units drop the work of a context, or of one of its steps: tier MVMs, the DTU instruction, messages and
contributions received; a parked instruction of its slot completes without writing; the sequencer drops its slots (R155,
R161, R162, R181). -/
def State.dropCore (s : State) (core p ctx : Nat) (step : Option Nat) : State :=
  let c := s.core core
  let s := s.forEach ((List.range 9).map (fun a => 9 * core + a)) (fun s k =>
    match (s.array k).mvm with
    | some m => if tagHits p ctx step m.tag then s.abortMvm k else s
    | none => s)
  let s := match c.dtu with
    | some j => if tagHits p ctx step j.tag then (s.setCore core { s.core core with dtu := none }).landed core 9 else s
    | none => s
  let hit := fun x : CoreSlot => slotHits ctx step x && c.part == p
  let n := (c.slots.filter (fun x => hit x && !x.dropped)).length
  let here := match c.slots[c.cur]? with | some x => hit x | none => false
  let c := s.core core
  let s := s.setCore core { c with slots := c.slots.map (fun x => if hit x then { x with dropped := true } else x), packets := c.packets.filter (fun k => !tagHits p ctx step k.tag), reductions := c.reductions.filter (fun k => !tagHits p ctx step k.tag), sources := c.sources.filter (fun k => !tagHits p ctx step k.tag) }
  let s := if n = 0 then s else s.bump Reg.CRS_CORE_EVENTS_ABORTS core n
  let c := s.core core
  (if here && c.park.isSome then (s.setCore core { c with park := none, pc := c.pc + 1 }).retired core else s).settlePass core

/-- Every core that runs a pass of a partition drops a context's work; routers drop its barrier states (R162, R181). -/
def State.dropWork (s : State) (p ctx : Nat) (step : Option Nat) : State :=
  let s := s.forEach ((s.cores.filter (fun e => e.2.part == p)).map Prod.fst) (fun s k => s.dropCore k p ctx step)
  let gone := fun b : Barrier => b.part == p && b.context == ctx && (match step with | some n => b.step == n | none => true)
  let mine := fun f : Flit => tagHits p ctx step f.tag && tagClass f.tag == 0 && (let o := (f.payload.getD 0 0).toNat % 256; o == 1 || o == 2)
  { s with fabric := { s.fabric with releases := s.fabric.releases.filter (fun e => !gone e.1), routers := s.fabric.routers.map (fun e => (e.1, { e.2 with waiting := e.2.waiting.filter (fun q => !mine q.2) })), barriers := (s.fabric.barriers.map (fun e => (e.1, e.2.filter (fun b => !gone b)))).filter (fun e => !e.2.isEmpty) }, link := { s.link with chainBarriers := s.link.chainBarriers.filter (fun e => !gone e) } }

/-- A context leaves the pass of its partition. -/
def State.leavePass (s : State) (p ctx : Nat) : State :=
  let l := (SMap.get [] s.serving.passes p).filter (fun x => x.context != ctx)
  { s with serving := { s.serving with passes := SMap.put [] s.serving.passes p l } }

/-- The broadcast of a cancel, or with `replay` of a step abort, on the die and over the chain (R162, R251): opcode 0x04. -/
def State.broadcastCancel (s : State) (p ctx step : Nat) (replay : Bool) : State :=
  let tag := tagOf p ctx 0 step 0 0xFFF (if replay then 6 else 4)
  (s.emit (.control p 4 tag 0)).chainSendAll p chainServing tag [4]

/-- The entry's own pages return to the pool. -/
def State.freePages (s : State) (idx : Nat) : State :=
  s.setRequest idx { s.request idx with pages := [], reserved := 0, reserveWait := false }

/-- The companion context goes (R251, R253). -/
def State.dropCompanion (s : State) (idx : Nat) : State :=
  let c := (s.request idx).companion
  if c = 0xFFFF then s
  else
    let q := s.request c
    let s := s.epochUnref q.part q.epoch
    let s := (s.leavePass q.part c).dropWork q.part c none
    let s := s.setRequest c { version := q.version }
    s.setRequest idx { s.request idx with companion := 0xFFFF }

/-- An entry reaches DONE or FAULTED with a code: its frames are free at once, and its epoch reference drops (R215,
R235). -/
def State.finish (s : State) (idx : Nat) (st : ReqState) (code : Nat) : State :=
  let r := s.request idx
  let s := (s.leavePass r.part idx).dropWork r.part idx none
  let s := (s.dropCompanion idx).freePages idx
  let s := s.setRequest idx { s.request idx with state := st, cause := .none, code := code, inFlight := false, chainWait := none }
  s.epochUnref r.part r.epoch

/-- The entry returns to FREE: its references on adapter and prefix drop, RELEASE goes to the members (Table 7.3). -/
def State.release (s : State) (idx : Nat) (kept : W64) : State :=
  let r := s.request idx
  let s := if r.unbound then s else s.adapterUnref r.adapter
  let s := if r.pfxEntry = 0xFFFF ∨ r.unbound then s else State.prefixUnref 16384 s r.pfxEntry
  let chain := !r.member && match s.epochSlot? r.part r.epoch with
    | some k => decide (1 < (s.epochInfo (epochKey r.part k)).members)
    | none => false
  let s := if chain then s.chainSend r.part chainServing (servingMessage 4 0 idx 0 0 0 kept 0) else s
  s.setRequest idx { version := r.version }

/-- The entry is FAULTED with a code (Table 7.3). -/
def State.faultRequest (s : State) (idx code : Nat) : State :=
  if (s.request idx).state = .free then s else s.finish idx .faulted code

/-- PAUSED with a cause (Table 7.3); an entry into PAUSED for pages counts (R246). -/
def State.pause (s : State) (idx : Nat) (cause : PauseCause) : State :=
  let r := s.request idx
  let s := if cause = .pages then s.bump Reg.SRV_CNT_PAGEWAIT_COUNT r.part else s
  let s := s.leavePass r.part idx
  s.setRequest idx { r with state := .paused, cause := cause, inFlight := false, pausedAt := s.time, pagewait := r.pagewait || cause == .pages }

/-- Shortage of pages: PAUSED, or PAGES_EXHAUSTED at once when no wait is allowed or there is no pool (R246). -/
def State.shortOfPages (s : State) (idx : Nat) : State :=
  let p := (s.request idx).part
  if s.rd Reg.SRV_PART_WAIT_PAGEWAIT_MS p = 0 ∨ s.rd Reg.SRV_PART_POOL_COUNT_FRAMES p = 0 then
    let s := s.bump Reg.SRV_CNT_PAGEWAIT_COUNT p
    (s.setRequest idx { s.request idx with pagewait := true }).finish idx .done codePages
  else s.pause idx .pages

/-- The last rung, as `FLT_RST_STATUS` and `FLT_RST_TIME` show it. -/
def State.noteRung (s : State) (kind cause course part : Nat) : State :=
  let s := (((s.wr Reg.FLT_RST_STATUS_KIND 0 kind).wr Reg.FLT_RST_STATUS_CAUSE 0 cause).wr Reg.FLT_RST_STATUS_COURSE 0 course).wr Reg.FLT_RST_STATUS_PARTITION 0 part
  (s.wr Reg.FLT_RST_STATUS_OVERRUN 0 0).wr Reg.FLT_RST_TIME_TIME 0 s.time

/-- A rung is in progress: 0 context (65,536 · partition + context), 1 course, 2 partition, 3 chip. -/
def State.rungAt (s : State) (level target : Nat) : Bool := s.recovery.rungs.any (fun g => g.level == level && g.target == target)
def State.addRung (s : State) (level target bound : Nat) : State :=
  { s with recovery := { s.recovery with rungs := s.recovery.rungs ++ [⟨level, target, s.time, bound⟩] } }
def State.endRung (s : State) (level target : Nat) : State :=
  { s with recovery := { s.recovery with rungs := s.recovery.rungs.filter (fun g => !(g.level == level && g.target == target)) } }

/-- A chip reset, or a reset of the partition, is in progress: it absorbs lower rungs in its scope (R424). -/
def State.absorbed (s : State) (p : Nat) : Bool := s.recovery.held || s.rungAt 3 0 || s.rungAt 2 p

/-- The end of a drain (R251, R410): DONE with its code, FAULTED after a context reset, FREE without rings (R274). -/
def State.drained (s : State) (idx : Nat) : State :=
  let s := s.endRung 0 (65536 * (s.request idx).part + idx)
  let r := s.request idx
  if r.state ≠ .cancelling then s
  else if r.ringless then
    (s.finish idx .done r.cancelCode).release idx 0
  else s.finish idx (if r.cancelCode = codeContextReset then .faulted else .done) r.cancelCode

/-- A cancel takes effect (R251): CANCELLING, the broadcast, and an immediate drain for an entry without work in
flight. -/
def State.startCancel (s : State) (idx code : Nat) (ringless : Bool) : State :=
  let r := s.request idx
  if !liveState r.state then s
  else
    let s := s.setRequest idx { r with state := .cancelling, cause := .none, cancelCode := code, ringless := ringless }
    let s := s.broadcastCancel r.part idx r.step false
    let s := (s.leavePass r.part idx).dropWork r.part idx none
    let s := if r.companion = 0xFFFF then s
      else s.broadcastCancel (s.request r.companion).part r.companion (s.request r.companion).step false
    if r.state == .queued || r.state == .paused then s.drained idx else s

/-- A cancel that counts (SRV_CNT_CANCEL). -/
def State.cancelRequest (s : State) (idx code : Nat) (ringless : Bool) : State :=
  let r := s.request idx
  if liveState r.state && !r.member then (s.bump Reg.SRV_CNT_CANCEL_COUNT r.part).startCancel idx code ringless else s

/-- A context reset of a request (R410). -/
def State.resetContext (s : State) (idx : Nat) : State :=
  let r := s.request idx
  if r.member then
    let s := (s.leavePass r.part idx).dropWork r.part idx none
    (s.freePages idx).broadcastCancel r.part idx r.step false
  else s.startCancel idx codeContextReset false

/-- A context reset as a rung (R408, R410): it acts on a live entry; one that is already cancelled keeps its code (R424). -/
def State.contextReset (s : State) (idx cause : Nat) : State :=
  let r := s.request idx
  if s.absorbed r.part || !(liveState r.state || (r.member && r.state != .free)) then s
  else
    let s := ((s.noteRung 1 cause 0 r.part).bump Reg.FLT_RST_CNT_CTX_COUNT).resetContext idx
    if (s.request idx).state = .cancelling then s.addRung 0 (65536 * r.part + idx) 100000 else s

/-- The request whose draft-model context an entry is. -/
def State.ownersOf (s : State) (idx : Nat) : List Nat :=
  (s.serving.requests.filter (fun e => e.2.companion == idx && e.2.state != .free)).map Prod.fst

/-- The entry's step leaves execution and the request reruns (R162): frames beyond KVLEN are freed, and after RERUN_MAX
aborts in a row the context is reset (R409). -/
def State.abortRequest (s : State) (idx : Nat) : State :=
  let r := s.request idx
  if runState r.state && !r.isCompanion then
    let s := s.leavePass r.part idx
    let s := s.setRequest idx { r with state := .queued, inFlight := false, aborts := r.aborts + 1, step := r.step + 1, drafts := [], preempt := false, suspectStore := false, startLayer := if r.state = .prefill then r.mark else 0xFFF }
    let s := s.trimPages idx
    if max 1 (s.rd Reg.FLT_WD_CTRL_RERUN_MAX) ≤ r.aborts + 1 ∧ !r.member then
      s.contextReset idx 2
    else s
  else if r.isCompanion then
    let s := (s.leavePass r.part idx).setRequest idx { r with inFlight := false, step := r.step + 1 }
    if r.state = .decode then s.forEach (s.ownersOf idx) (fun s i => s.setRequest i { s.request i with inFlight := false }) else s
  else s

/-- A step abort (R162): the broadcast with CANCEL and REPLAY, the dropped slots, the request's return to QUEUED. -/
def State.stepAbortOf (s : State) (p ctx step : Nat) : State :=
  let s := (s.broadcastCancel p ctx step true).dropWork p ctx (some (step % 65536))
  let r := s.request ctx
  if r.part = p ∧ r.state ≠ .free ∧ r.step % 65536 = step % 65536 then s.abortRequest ctx else s

/-- TIER_NOT_READY for a context (R164): step abort and PAUSED with cause TIER; a draft context only stops. -/
def State.tierNotReady (s : State) (p ctx step : Nat) : State :=
  let s := s.stepAbortOf p ctx step
  let r := s.request ctx
  if r.part = p ∧ r.state = .queued then s.pause ctx .tier
  else if r.isCompanion then
    s.forEach (s.ownersOf ctx) (fun s i => s.setRequest i { s.request i with specOff := true, inFlight := false })
  else s

/-! Token and completion entries -/

/-- A mark (Table 7.5). -/
def markEntry (ctx pos version : Nat) (rewind : Bool) : Nat :=
  ctx + (pos % 65536) * 2 ^ 16 + (pos / 65536 % 32) * 2 ^ 32 + (version % 2048) * 2 ^ 37 + 2 ^ 48 + rewind.toNat * 2 ^ 53
/-- A token (Table 7.5). -/
def tokenEntry (token : W32) (logprob : W16) (last degraded draft stop : Bool) : Nat :=
  token.toNat + logprob.toNat * 2 ^ 32 + last.toNat * 2 ^ 49 + degraded.toNat * 2 ^ 50 + draft.toNat * 2 ^ 51 + stop.toNat * 2 ^ 52

/-- Write a request's held token entries if its ring has room for all of them (R234). -/
def State.flushTokens (s : State) (idx : Nat) : State :=
  let r := s.request idx
  if r.heldTokens.isEmpty then s
  else if s.ringRoom (s.tokenRing r) r.heldTokens.length && s.ringKind (s.tokenRing r) == kindToken then
    let (left, s) := s.ringTry (s.tokenRing r) 8 r.heldTokens
    s.setRequest idx { s.request idx with heldTokens := left }
  else s

/-- The first code that applies (R236). -/
def finalCode (r : Request) (late : Bool) : Nat :=
  if r.code ≠ codeOk then r.code
  else if r.degraded then codeDegraded
  else if late then codeLate
  else if r.rolledBack then codeRolledBack
  else codeOk

/-- A completion entry (Table 7.6). -/
def completionEntry (user : W64) (ctx code reason gen flags promptDone epoch adapter now : Nat) : Nat :=
  user.toNat + ctx * 2 ^ 64 + code * 2 ^ 80 + reason * 2 ^ 88 + (gen % 2 ^ 21) * 2 ^ 96 + flags * 2 ^ 117 +
  (promptDone % 2 ^ 21) * 2 ^ 128 + epoch * 2 ^ 149 + adapter * 2 ^ 160 + now * 2 ^ 192

/-- The flags of Table 7.6, from LATE up. -/
def completionFlags (r : Request) (late : Bool) : Nat :=
  late.toNat + 2 * r.rolledBack.toNat + 4 * r.degraded.toNat + 8 * r.nonfinite.toNat + 16 * r.prefixKept.toNat +
  32 * r.stopped.toNat + 64 * r.specUsed.toNat + 128 * r.rebound.toNat + 256 * r.pagewait.toNat

/-- The completion of a submission refused before admission (R230). -/
def State.refuse (s : State) (r : Nat) (user : W64) (code reason : Nat) : State :=
  let s := s.bump Reg.SRV_CNT_REFUSE_COUNT (s.ringPart r)
  s.ringPush (s.rd Reg.RCB_PAIR_CPL r) 32 (completionEntry user 0xFFFF code reason 0 0 0 0 0xFFFF s.now)

/-- Write the completion of a DONE or FAULTED entry when its tokens are out and its ring has room; the entry returns to
FREE (R235, Table 7.3). -/
def State.complete (s : State) (idx : Nat) : State :=
  let s := s.flushTokens idx
  let r := s.request idx
  let q := s.completionRing r
  if (r.state == .done || r.state == .faulted) && !r.member && r.heldTokens.isEmpty && (s.ringState q).held.isEmpty &&
      s.ringKind q == kindCompletion && s.ringRoom q 1 then
    let late := r.deadline != 0 && decide (r.deadline < s.now)
    let v := completionEntry r.userId idx (finalCode r late) 0 r.gen (completionFlags r late) r.prefillPos r.epoch r.adapter s.now
    let (left, s) := s.ringTry q 32 [v]
    if left.isEmpty then s.release idx (if r.prefixKept then r.seed else 0) else s
  else s

/-- Entries of requests whose token ring is this one take what room there is (R234), and PAUSED for the ring ends. -/
def State.ringFreed (s : State) (q : Nat) : State :=
  let s := s.ringFlush q
  s.forEach (s.serving.requests.filter (fun e => !e.2.member && e.2.state != .free && s.tokenRing e.2 == q)) (fun s e =>
    let s := s.flushTokens e.1
    let r := s.request e.1
    if r.state == .paused && r.cause == .ring && r.heldTokens.isEmpty then
      s.setRequest e.1 { r with state := .queued, cause := .none }
    else s)

end Sys2Proof.Machine
end

