-- ==== Sys2Proof/Machine/CoreOps.lean ====
section
/-! DEFINITION. Machine/CoreOps.lean: the sequencer: passes, slots, issue and retirement, the channels (R146 to R156, R162
to R165). -/
namespace Sys2Proof.Machine

/-! Slots -/

/-- A slot takes part at a core whose last layer mark is `layer` (R146, R163). -/
def slotLive (layer : Nat) (x : CoreSlot) : Bool :=
  !x.dropped && (x.slotRec.startLayer == 0xFFF || (layer != 0xFFF && decide (x.slotRec.startLayer ≤ layer)))

def State.layerOf (s : State) (core : Nat) : Nat := s.rd Reg.CRS_CORE_PASS_LAYER core

/-- The number of live slots goes to `CRS_CORE_PASS.NLIVE`. -/
def State.countLive (s : State) (core : Nat) : State :=
  s.wr Reg.CRS_CORE_PASS_NLIVE core ((s.core core).slots.filter (slotLive (s.layerOf core))).length

/-- The current slot. -/
def State.curSlot (s : State) (core : Nat) : Option CoreSlot := (s.core core).slots[(s.core core).cur]?

/-- The tag of the current slot's packets (R154). -/
def State.coreTag (s : State) (core : Nat) : W64 :=
  let c := s.core core
  match s.curSlot core with
  | some x => tagOf c.part x.slotRec.context x.slotRec.epoch x.slotRec.step x.slotRec.cls (s.layerOf core) x.suspect.toNat
  | none => tagOf c.part 0xFFFF 0 0 3 (s.layerOf core) 0

/-- Load IX1 to IX7 from a slot record (Table 4.2). -/
def State.loadIx (s : State) (core n : Nat) (r : SlotRecord) : State :=
  ((((((s.setIx core 1 n).setIx core 2 r.pos).setIx core 3 r.ntok).setIx core 4 r.kvlen).setIx core 5 r.adapter).setIx core 6 r.epoch).setIx core 7 r.step

/-- The 32 bytes of a slot record (Table 7.7). -/
def slotBytes (r : SlotRecord) : List Byte :=
  leBytes 2 r.context ++ leBytes 2 r.cls ++ leBytes 4 r.pos ++ leBytes 4 r.ntok ++ leBytes 4 r.kvlen ++ leBytes 4 r.adapter ++
  leBytes 4 r.epoch ++ leBytes 4 r.step ++ leBytes 2 r.startLayer ++ leBytes 2 0

/-! Core conditions -/

/-- A core is HALTED (R142, R165, R396). -/
def State.coreHalted (s : State) (core : Nat) : Bool := s.rd Reg.CRS_CORE_STATUS_STATE core == 3

/-- The core stands for no logical core: an unmapped spare, or a core whose spare stands for it (R189). -/
def State.coreSpare (s : State) (core : Nat) : Bool :=
  let site := 10 * rowOf core + colOf core / 11
  let l := s.rd Reg.NOC_SPARE_MAP_REPLACED site
  if colOf core % 11 = 10 then l == 15 else l == colOf core % 11

/-- Record the first fault of a core in `CRS_CORE_FAULT`. -/
def State.noteCoreFault (s : State) (core cls : Nat) : State :=
  if s.is Reg.CRS_CORE_FAULT_VALID core then s
  else
    (((s.wr Reg.CRS_CORE_FAULT_VALID core 1).wr Reg.CRS_CORE_FAULT_PC core (s.core core).pc).wr
      Reg.CRS_CORE_FAULT_CLASS core cls).wr Reg.CRS_CORE_FAULT_SLOT core (s.core core).cur

/-- Step-abort every slot of the pass at a core. -/
def State.abortSlots (s : State) (core : Nat) : State :=
  let c := s.core core
  s.forEach (c.slots.filter (fun x => !x.dropped)) (fun s x => s.stepAbortOf c.part x.slotRec.context x.slotRec.step)

/-- An uncorrectable error of tab SRAM: the core halts until its tab is reloaded, and the pass's slots are step-aborted
(R142). -/
def State.tabUncorrectable (s : State) (core cls : Nat) : State :=
  let s := (s.bump Reg.CRS_CORE_ECC_TS_UE core).noteCoreFault core cls
  let s := s.report { sender := unitCore core 6, unit := unitCore core 6, cls := 2, tag := s.coreTag core }
  let s := (s.wr Reg.CRS_CORE_STATUS_STATE core 3).setCore core { s.core core with reload := true }
  s.abortSlots core

/-! Passes -/

/-- A core begins a pass with its slots (R146, R156). -/
def State.beginPass (s : State) (p : Nat) (l : List SlotRecord) (job : Bool) (core : Nat) : State :=
  let s := l.zipIdx.foldl (fun s (r, n) => s.dataWrite core (batchWindow + 32 * n) (slotBytes r)) s
  let c := s.core core
  let s := s.setCore core { c with part := p, pc := 0, flags := [], slots := l.map (fun r => ({ slotRec := r } : CoreSlot)), cur := 0, body := none, running := true, ending := false, park := none, lastRetire := s.time, markAt := s.thermal.scaled, job := job, sources := [], quantised := [] }
  (s.wr Reg.CRS_CORE_PASS_LAYER core 0xFFF).countLive core

/-- A field test runs on a course (R399). -/
def State.fieldTesting (s : State) (course : Nat) : Bool := s.fault.fieldTest.any (fun t => t.course == course)

/-- Physical cores of a partition that hold a tab and can run it. -/
def State.tabCores (s : State) (p : Nat) : List Nat :=
  (((s.physCoursesOf p).filter (fun c => !s.fieldTesting c)).flatMap coresOf).filter (fun k => s.rd Reg.CRS_CORE_TAB_NINSTR k != 0 && !s.coreSpare k && !s.coreHalted k)

/-- What the pass log records of a slot (R392). -/
def State.passLogSlot (s : State) (r : SlotRecord) : PassLogSlot :=
  let q := s.request r.context
  ⟨r.context, q.version, r.step, q.kvlen, q.gen, q.prefillPos, q.lastToken.toNat⟩

/-- The pass enters the partition's pass log, newest first, which keeps 2,048 (R389, R392). -/
def State.logPass (s : State) (p : Nat) (l : List SlotRecord) : State :=
  let n := SMap.get 0 s.fault.passCount p
  let log := SMap.get [] s.fault.passLog p
  { s with fault := { s.fault with passCount := SMap.put 0 s.fault.passCount p (n + 1), passLog := SMap.put [] s.fault.passLog p ((⟨n, l.map s.passLogSlot⟩ :: log).take 2048) } }

/-- Start a pass of a partition at this device: slot records into every core's batch window, and the tabs run. -/
def State.startPass (s : State) (p : Nat) (l : List SlotRecord) : State :=
  let s := s.logPass p l
  let s := { s with serving := { s.serving with passes := SMap.put [] s.serving.passes p l }, cal := { s.cal with lastWork := s.time } }
  let s := s.forEach (s.physCoursesOf p) (fun s k => { s with thermal := { s.thermal with lastPass := SMap.put 0 s.thermal.lastPass k s.time, gated := s.thermal.gated.filter (· != k) } })
  s.forEach (s.tabCores p) (fun s k => s.beginPass p l false k)

/-- No core of a partition runs a pass. -/
def State.passIdle (s : State) (p : Nat) : Bool := s.cores.all (fun e => !(e.2.running && e.2.part == p))

/-! Issue (R148) -/

/-- Two runs of granules overlap. -/
def overlap (a b : Nat × Nat) : Bool := decide (a.1 < b.1 + b.2) && decide (b.1 < a.1 + a.2)

/-- Granules that an instruction reads and writes, as runs (first, count). -/
def State.spans (s : State) (core : Nat) (w : W128) : List (Nat × Nat) × List (Nat × Nat) :=
  let a := s.granA core w
  let b := s.granB core w
  let d := s.granD core w
  let oa := s.operand core (wDesc w)
  let ob := s.operand core (wDescb w)
  match wClass w with
  | 0 => ([(a, opGranules oa), (oa.exp, 8), (b, 1), (bits (wImm w) 0 12, 4)], if bit (wArg0 w) 4 then [] else [(d, max 4 (opGranules ob)), (ob.exp, 1)])
  | 1 => ([(a, opGranules oa), (b, opGranules ob)], [(d, 4 * bits (wArg1 w) 0 6 * oa.rows)])
  | 2 => ([(a, opGranules oa), (b, opGranules ob)], [(d, max (opGranules oa) (opGranules ob))])
  | 3 | 5 => ([(a, opGranules oa)], [])
  | 4 => ([], [(d, opGranules ob)])
  | 9 => (match wOp w with
    | 1 => ([(a, bits (wArg1 w) 0 12)], [])
    | 3 => ([(b, 4096)], [])
    | _ => ([], [(d, max 1 (bits (wArg1 w) 0 12))]))
  | _ => ([], [])

/-- The hazard test against every earlier instruction in flight, and FENCE. -/
def State.mayIssue (s : State) (core : Nat) (w : W128) : Bool :=
  let (rd, wr) := s.spans core w
  let fl := (s.core core).inflight
  (fl.isEmpty || !wFence w) &&
  fl.all (fun f => rd.all (fun x => f.writes.all (fun y => !overlap x y)) &&
    wr.all (fun x => f.reads.all (fun y => !overlap x y) && f.writes.all (fun y => !overlap x y)))

/-- Issue stands still: after a trip, or while VDD_CORE, VDD_ARR, VDDQ or VDDQL is out of its window (R371, R450). -/
def State.issueStopped (s : State) : Bool :=
  s.thermal.tripped || s.board.excursions.any (fun e => e.1 == 0 || e.1 == 1 || e.1 == 3 || e.1 == 4)

/-- The sequencer can issue: a pass runs, nothing is parked, the core is not halted, and issue does not stand still. -/
def State.sequencing (s : State) (core : Nat) : Bool :=
  let c := s.core core
  c.running && !c.ending && c.park.isNone && !s.coreHalted core && !s.issueStopped

/-- The instruction is skipped for the current slot: the slot is not live, or ADP is set and it has no adapter. -/
def State.skips (s : State) (core : Nat) (w : W128) : Bool :=
  (s.core core).body.isSome && (match s.curSlot core with
    | some x => !slotLive (s.layerOf core) x || (wAdp w && s.ix core 5 == 0xFFFFFFFF)
    | none => true)

/-- Move to the next instruction. -/
def State.advance (s : State) (core : Nat) : State := s.setCore core { s.core core with pc := (s.core core).pc + 1 }
/-- Move by a signed distance. -/
def State.branch (s : State) (core : Nat) (d : Int) : State :=
  s.setCore core { s.core core with pc := (((s.core core).pc : Int) + d).toNat % 2048 }

/-- A halted-by-step core: STEP1 lets each RESUME issue one instruction (Table of `CRS_CORE_CTRL`). -/
def State.stepHalt (s : State) (core : Nat) : State :=
  if s.is Reg.CRS_CORE_CTRL_STEP1 core then s.wr Reg.CRS_CORE_STATUS_STATE core 3 else s

/-- Issue an instruction of a class and operation: CLASS 11 to 15 is an uncorrectable error of tab SRAM (R150); a word of
another class or operation is not this command's, and nothing happens. `act` is the instruction's effect, none when its
unit is not free, with whether the instruction completes at once: one that does not moves the sequencer by itself. -/
def State.issue (s : State) (core : Nat) (w : W128) (cls op : Nat) (act : State → Option (State × Bool)) : State :=
  if !s.sequencing core then s
  else if 11 ≤ wClass w then s.tabUncorrectable core (wClass w)
  else if wClass w ≠ cls ∨ wOp w ≠ op then s
  else if s.skips core w then s.advance core
  else if !s.mayIssue core w then s
  else match act s with
    | none => s
    | some (s, retires) => (if retires then (s.advance core).retired core else s).stepHalt core

/-- The effect of an instruction that completes at once. -/
def done (f : State → State) (s : State) : Option (State × Bool) := some (f s, true)

/-! Channels (R169, R171) -/

/-- Streams of a core's partition come in two copies, which are compared before either is consumed (R387). -/
def State.redundant (s : State) (core : Nat) : Bool := s.is Reg.PRT_PCTRL_REDUNDANT (s.core core).part

/-- A channel table entry (R143): channel c's eight bytes lie 8 · (c + 1) below the descriptors. -/
def State.channel (s : State) (core c : Nat) : Nat :=
  let top := 32768 - 32 * s.rd Reg.CRS_CORE_TAB_NDESC core
  leNat (s.tabRead core (top - 8 * (c + 1)) 8)

/-- The route word of a flit on a channel (Table 5.3). -/
def routeWord (entry kind off : Nat) (max int : Bool) : Nat :=
  bits entry 0 28 + kind * 2 ^ 28 + bits entry 30 12 * 2 ^ 30 + (off % 4096) * 2 ^ 42 + 2 ^ 54 + max.toNat * 2 ^ 62 + int.toNat * 2 ^ 63

/-- A tag with a flag bit set. -/
def withFlag (t : W64) (b : Nat) : W64 := BitVec.ofNat 64 (setBit t.toNat (58 + b) true)
def flagSuspect : Nat := 0
def flagReplay : Nat := 1
def flagCancel : Nat := 2
def flagHarmonic : Nat := 3
def flagRedundant : Nat := 4
def flagLast : Nat := 5

/-- Send granules on a channel as one message, LAST on its last flit; one empty packet when there is none (R153). -/
def State.sendMessage (s : State) (core chan : Nat) (tag : W64) (gs : List (List W32)) : State :=
  let e := s.channel core chan
  let kind := if bits e 28 2 = 2 then 3 else 0
  if gs.isEmpty then s.emit (.flit core (routeWord e kind 0 false false) (withFlag tag flagLast) kind [])
  else gs.zipIdx.foldl (fun s (g, i) =>
    s.emit (.flit core (routeWord e kind i false false) (if i + 1 = gs.length then withFlag tag flagLast else tag) kind g)) s

/-- Contribute granules to a reduction: each flit is a whole contribution and carries LAST (R182). -/
def State.sendReduction (s : State) (core chan : Nat) (tag : W64) (max int : Bool) (gs : List (List W32)) : State :=
  let e := s.channel core chan
  let t := withFlag tag flagLast
  if gs.isEmpty then s.emit (.flit core (routeWord e 2 0 max int) t 2 [])
  else gs.zipIdx.foldl (fun s (g, i) => s.emit (.flit core (routeWord e 1 i max int) t 1 g)) s

/-- A CONTROL flit: opcode in payload byte 0, operand in the bytes after it (Table 5.6). -/
def State.sendControl (s : State) (core route : Nat) (tag : W64) (opcode operand : Nat) : State :=
  s.emit (.flit core route (BitVec.ofNat 64 (setBits tag.toNat 44 2 0)) 4 [BitVec.ofNat 32 (opcode + 256 * operand)])

/-- Route-word coordinates of the first core of a logical course. -/
def cornerOf (l : Nat) : Nat :=
  let x := 10 * (l % 10)
  let y := 10 * (l / 10)
  x + y * 2 ^ 7 + x * 2 ^ 14 + y * 2 ^ 21

/-- The granules of an operand as words. -/
def State.granWords (s : State) (core g n : Nat) : List (List W32) :=
  (List.range n).map (fun i => wordsOf (s.sramRead core (32 * (g + i)) 32))

end Sys2Proof.Machine
end

