-- ==== Sys2Proof/Machine/FaultOps.lean ====
section
/-! DEFINITION. Machine/FaultOps.lean: failure counts and quarantine (R396). -/
namespace Sys2Proof.Machine

/-- Passes of a core: the pass count of its partition (R389, R396). -/
def State.passesOf (s : State) (core : Nat) : Nat :=
  match s.corePart core with
  | some p => SMap.get 0 s.fault.passCount p
  | none => 0

/-- A quarantined unit waits for the confirmation of its replacement (R397). -/
def State.awaitConfirm (s : State) (unit : W32) (cls : Nat) : State :=
  { s with fault := { s.fault with quarantined := SMap.insert s.fault.quarantined unit.toNat cls } }

/-- The records and state of a quarantined array: it issues nothing further (R396). The Peg engine finds what an audit shows. -/
def State.quarantineArray (s : State) (core array cls : Nat) (tag : W64) (confirmed : Bool) : State :=
  let k := arrayKey core array
  let s := ((s.wr Reg.CRS_ARR_STATUS_STATE k 2).abortMvm k).bump Reg.FLT_QUAR_CNT_QUAR
  let s := if confirmed then s.bump Reg.FLT_QUAR_CNT_CONFIRMED else s.awaitConfirm (unitArray core array 0) cls
  s.report { sender := if cls = 5 || confirmed then unitCourse (courseOf core) 0 else unitArray core array 1, unit := unitArray core array 0, cls := cls, tag := tag, quar := true, confirmed := confirmed }

/-- A quarantined core is HALTED (R396); `sub` is 2 for its DTU and 5 for its data SRAM. -/
def State.quarantineCore (s : State) (core sub cls : Nat) (tag : W64) : State :=
  let s := (s.wr Reg.CRS_CORE_STATUS_STATE core 3).bump Reg.FLT_QUAR_CNT_QUAR
  let s := s.setCore core { s.core core with quarantined := true }
  let s := s.awaitConfirm (unitCore core sub) cls
  s.report { sender := unitCore core sub, unit := unitCore core sub, cls := cls, tag := tag, quar := true }

/-- Count a failure of a unit at a core; answers whether the count within the window has reached `limit` (R396). -/
def State.countFailure (s : State) (core : Nat) (unit : W32) (limit : Nat) : State × Bool :=
  let now := s.passesOf core
  let w := 1000 * max 1 (s.rd Reg.FLT_QUAR_CTRL_WINDOW_KP)
  let l := (SMap.get [] s.fault.failures unit.toNat).filter (fun p => decide (p ≤ now) && decide (now ≤ p + w)) ++ [now]
  ({ s with fault := { s.fault with failures := SMap.put [] s.fault.failures unit.toNat l } }, decide (limit ≤ l.length))

/-- The quarantine limit of `FLT_QUAR_CTRL.COUNT`; 0 acts as 1. -/
def State.quarLimit (s : State) : Nat := max 1 (s.rd Reg.FLT_QUAR_CTRL_COUNT)

/-- A check failure of an array counts, and quarantines it at the limit (R396). -/
def State.arrayFailure (s : State) (core array : Nat) (tag : W64) : State :=
  let (s, full) := s.countFailure core (unitArray core array 0) s.quarLimit
  if full then s.quarantineArray core array 3 tag false else s

/-- A DTU check failure of a core counts likewise. -/
def State.dtuFailure (s : State) (core : Nat) (tag : W64) : State :=
  let (s, full) := s.countFailure core (unitCore core 2) s.quarLimit
  if full then s.quarantineCore core 2 4 tag else s

end Sys2Proof.Machine
end

