-- ==== Sys2Proof/Machine/ArrayOps.lean ====
section
/-! DEFINITION. Machine/ArrayOps.lean: the tier MVM: rows and planes, converters, PPU, checks, the precision ladder and the
Harmonic lane (chapters 2 and 3). -/
namespace Sys2Proof.Machine

/-! Arrays and tiers -/

/-- The array that executes a tier MVM naming `array` (R89); none while the spare is not active. -/
def State.physArray (s : State) (core array : Nat) : Option Nat :=
  if s.rd Reg.CRS_ARR_SPARE_MAP_REPLACED core = array then
    if s.is Reg.CRS_ARR_SPARE_MAP_ACTIVE core then some 8 else none
  else some array

/-- The epoch slot of an epoch number at a core's partition. -/
def State.coreEpoch (s : State) (core e : Nat) : Option Nat := s.epochSlot? (s.core core).part e

/-- The tier field of a TMVM, translated through the epoch map (R213). -/
def State.physTier (s : State) (core e tier : Nat) : Nat :=
  match s.coreEpoch core e with
  | some k => SMap.get tier s.loader.tierMap ((4 * core + k) * 128 + tier)
  | none => tier

/-- A tier MVM on a tier can execute (R64, R396). -/
def State.tierReady (s : State) (core array tier : Nat) : Bool :=
  s.rd Reg.CRS_ARR_TFMT_WIDTH (tierKey core array tier) != 0 && s.is Reg.CRS_ARR_TFMT_VERIFIED (tierKey core array tier) &&
  s.rd Reg.CRS_ARR_STATUS_STATE (arrayKey core array) == 0

/-- Gain of a code. -/
def gainOf (code : Nat) : Nat := 2 ^ code

/-- The band T at a gain (R83). -/
def State.band (s : State) (k gain : Nat) : Nat :=
  if gain = 1 then s.rd Reg.CRS_ARR_CHK_TOL_TOL_G1 k else if gain = 2 then s.rd Reg.CRS_ARR_CHK_TOL_TOL_G2 k
  else if gain = 4 then s.rd Reg.CRS_ARR_CHK_TOL_TOL_G4 k else s.rd Reg.CRS_ARR_CHK_TOL_TOL_G8 k

/-- Stored level of a data cell. -/
def State.level (s : State) (tk row col : Nat) : Nat := SMap.get 0 s.cells (cellKey tk row col)

/-! Conversions (R68 to R72) -/

/-- Rows whose value has bit `b` set, lowest first. -/
def planeRows (a : Nat) (xs : List Int) (b : Nat) : List Nat :=
  (xs.zipIdx.filter (fun x => bit (ofSigned a x.1) b)).map Prod.snd

/-- The conversions of a tier MVM (R69). -/
def conversionsOf (a : Nat) (signed : Bool) (xs : List Int) : List Conversion :=
  ((List.range a).reverse).flatMap (fun b =>
    (runsOf 32 (planeRows a xs b)).map (fun rows =>
      ({ weight := if signed && b + 1 == a then -(2 ^ b) else 2 ^ b, rows := rows } : Conversion)))

/-- The lane pass's conversions: 16 planes (R119). -/
def laneConversions (lane : List (Nat × Int)) : List Conversion :=
  ((List.range 16).reverse).filterMap (fun b =>
    let rows := (lane.filter (fun x => bit (ofSigned 16 x.2) b)).map Prod.fst
    if rows.isEmpty then none
    else some { weight := if b = 15 then -(2 ^ 15) else 2 ^ b, rows := rows, lane := true })

/-- Column sum of a conversion as a fraction (numerator, denominator): a data column sums levels; check columns hold the
row sum over 32 and the row sum weighted by column over 528 (R82). -/
def State.columnSum (s : State) (tk : Nat) (rows : List Nat) (col : Nat) : Nat × Nat :=
  if col < 32 then ((rows.map (fun r => s.level tk r col)).sum, 1)
  else if col = 32 then ((rows.map (fun r => ((List.range 32).map (s.level tk r)).sum)).sum, 32)
  else ((rows.map (fun r => ((List.range 32).map (fun j => (j + 1) * s.level tk r j)).sum)).sum, 528)

/-- A converter's code for a column sum `n/d` at a gain, with an analog error in sixty-fourths of a code (R71). -/
def codeOf (n d gain : Nat) (err : Int) : Nat :=
  (clampInt 0 63 (roundDiv (64 * gain * n + 8 * d * err) (512 * d) true)).toNat

/-- The 34 codes of a conversion. -/
def State.codesOf (s : State) (tk gain : Nat) (rows : List Nat) : List Nat :=
  (List.range 34).map (fun j =>
    let (n, d) := s.columnSum tk rows j
    codeOf n d gain (Config.analogError (s.fresh + j)))

/-- The two deviations of R83. -/
def deviation0 (codes : List Nat) : Int :=
  ((codes.take 32).sum : Nat) - 32 * (codes.getD 32 0 : Nat)
def deviation1 (codes : List Nat) : Int :=
  (((codes.take 32).zipIdx.map (fun (c, j) => (j + 1) * c)).sum : Nat) - 528 * (codes.getD 33 0 : Nat)

/-- Both check conditions hold (R83). -/
def checkPasses (t n : Nat) (d0 d1 : Int) : Bool × Bool :=
  (decide (d0 ^ 2 ≤ (t ^ 2 * n : Nat)), decide (d1 ^ 2 ≤ (289 * t ^ 2 * n : Nat)))

/-! The ladder (R105 to R111) -/

/-- Threshold that the operation or the course gives (R108). -/
def State.flushThr (s : State) (course a own : Nat) : Nat :=
  if own ≠ 255 then own
  else s.rd (([Reg.CRS_PRC_FLUSH_THR_LO_THR_A1, Reg.CRS_PRC_FLUSH_THR_LO_THR_A2, Reg.CRS_PRC_FLUSH_THR_LO_THR_A3,
    Reg.CRS_PRC_FLUSH_THR_LO_THR_A4, Reg.CRS_PRC_FLUSH_THR_HI_THR_A5, Reg.CRS_PRC_FLUSH_THR_HI_THR_A6,
    Reg.CRS_PRC_FLUSH_THR_HI_THR_A7, Reg.CRS_PRC_FLUSH_THR_HI_THR_A8]).getD (a - 1) Reg.CRS_PRC_FLUSH_THR_LO_THR_A1) course
def State.satThr (s : State) (course own : Nat) : Nat := if own ≠ 255 then own else s.rd Reg.CRS_PRC_CTRL_SAT_THR course

/-- A count is above a threshold; one of 32 or more never trips. -/
def above (thr n : Nat) : Bool := decide (thr < 32) && decide (thr < n)

def liveExp (g : Group) : Bool := decide (1 ≤ g.exp.toNat) && decide (g.exp.toNat ≤ 254)

/-- Counts of the eight blocks of a row tile, each the sum over its groups, saturating at 32 (R104). -/
def blockCounts (f : Group → Nat) (gs : List Group) : List Nat :=
  (List.range 8).map (fun k => min 32 ((gs.filter (fun g => g.row / 32 == k)).map f).sum)

/-- Align the groups of a row tile at level 0 (R106): the common exponent, and the groups with elements replaced and
flush counts raised. -/
def alignGroups (gs : List Group) : Nat × List Group :=
  let e := ((gs.filter liveExp).map (fun g => g.exp.toNat)).foldl max 0
  (e, gs.map (fun g =>
    if liveExp g && decide (g.exp.toNat < e) then
      let ds := g.elems.map (fun d =>
        let q : Int := roundQuotient d.natAbs g.exp.toNat 1 e 0
        if d < 0 then -q else q)
      { g with elems := ds, flush := g.flush + ((ds.zip g.elems).filter (fun x => x.1 == 0 && x.2 != 0)).length }
    else g))

/-- The 256 input values that a set of groups gives, other rows zero. -/
def inputOf (gs : List Group) : List Int :=
  (List.range 256).map (fun r =>
    match gs.find? (fun g => decide (g.row ≤ r) && decide (r < g.row + g.elems.length)) with
    | some g => nth g.elems (r - g.row)
    | none => 0)

/-- The tier MVMs of a row tile: one at level 0, one per group that is not a zero group in split issue, one with no rows
when there is none (R106, R110). -/
def partsOf (level : Nat) (gs : List Group) : List MvmPart :=
  if level = 0 then
    let (e, al) := alignGroups gs
    [⟨e, inputOf (al.filter liveExp)⟩]
  else
    let l := (gs.filter liveExp).map (fun g => ({ exp := g.exp.toNat, input := inputOf [g] } : MvmPart))
    if l.isEmpty then [⟨0, inputOf []⟩] else l

/-- Start the tier MVM of one part: its conversions, cleared accumulators, and the dense count (R92). -/
def State.startPart (s : State) (k : Nat) (m : Mvm) (p : MvmPart) (rest : List MvmPart) : State :=
  let lane := if rest.isEmpty then laneConversions m.lane else []
  let todo := if m.nan then [] else conversionsOf m.width m.signed p.input
  let z := List.replicate 34 (0 : Int)
  let m := { m with part := p, parts := rest, todo := todo ++ lane, acc := z, pop := 0, laneAcc := z, lanePop := 0, checked := 0, d0 := 0, d1 := 0, laneChecked := 0, laneD0 := 0, laneD1 := 0 }
  (if m.nan then s else s.bump Reg.CRS_ARR_DENSE_COUNT k (8 * m.width)).setArray k { s.array k with mvm := some m }

/-- What an audit sample has taken is dropped: it is taken again from the next attempt or from the reissue (R389, Table 13.6). -/
def State.dropSample (s : State) (k : Nat) (m : Mvm) : State :=
  if !m.sampled then s
  else
    let key := 2048 * (k / 9) + m.pc
    { s with fault := { s.fault with samples := SMap.put {} s.fault.samples key { SMap.get {} s.fault.samples key with codes := [], rows := [], conversions := 0 } } }

/-- Issue an attempt: its parts in order. -/
def State.startAttempt (s : State) (k : Nat) (m : Mvm) : State :=
  let s := s.dropSample k m
  let m := { m with waiting := false, saturated := [], sums := [], reissue := false }
  match m.all with
  | [] => s.startPart k m ⟨0, inputOf []⟩ []
  | p :: rest => s.startPart k m p rest

/-- Ask the producers to emit the row tile again at a level, and wait (R112). -/
def State.requestReemit (s : State) (k : Nat) (m : Mvm) (level : Nat) : State :=
  (s.sendControl (k / 9) 0 (withFlag m.tag flagReplay) 5 level).setArray k { s.array k with mvm := some { m with waiting := true, level := level, todo := [], parts := [] } }

def State.replayMax (s : State) (course : Nat) : Nat := min 2 (s.rd Reg.CRS_PRC_CTRL_REPLAY_MAX course)

/-- Judge an assembled attempt on its flush counts and issue it, or go up the ladder (R107, R110, R111). -/
def State.judge (s : State) (k : Nat) (m : Mvm) (flush : List Nat) : State :=
  let c := courseOf (k / 9)
  let trip := !m.nan && flush.any (above (s.flushThr c m.width m.flushThr))
  let s := if trip then s.bump Reg.CRS_PRC_TRIP_FLUSH_COUNT c else s
  let last := decide (s.replayMax c ≤ m.replays)
  if !trip || (last && !s.is Reg.CRS_PRC_CTRL_HREC_EN c) then s.startAttempt k { m with flushTrip := trip }
  else if last then s.requestReemit k m 3
  else (s.bump Reg.CRS_PRC_REPLAY_COUNT c).requestReemit k { m with replays := m.replays + 1, tag := withFlag m.tag flagReplay } (min 2 (m.level + 1))

/-- Assemble the groups of a row tile at a level, and judge them. -/
def State.assemble (s : State) (k : Nat) (m : Mvm) (level : Nat) (gs : List Group) : State :=
  let al := if level = 0 then (alignGroups gs).2 else gs
  let nan := gs.any (fun g => g.exp.toNat == 255)
  s.judge k { m with level := level, nan := nan, all := partsOf level gs, carried := (blockCounts (fun g => g.sat) gs).foldl max 0 } (blockCounts (fun g => g.flush) al)

/-! Results (R78 to R81) -/

/-- Output columns of a tier (R65). -/
def outColumns (tfmtWidth : Nat) : Nat := if tfmtWidth ≤ 4 then 32 else 16

/-- Column results D of Table 2.1. -/
def columnResults (width : Nat) (signed : Bool) (acc : List Int) (x : Int) : List Int :=
  if width ≤ 4 then (List.range 32).map (fun j => nth acc j - (if signed then 8 * x else 0))
  else (List.range 16).map (fun j => 16 * nth acc (2 * j) + nth acc (2 * j + 1) - (if signed then 128 * x else 0))

/-- The justification factor's exponent (R66). -/
def justify (width : Nat) : Int := if width ≤ 4 then 4 - width else 8 - width

/-- Scale column results by a power of two and their E8M0 column scales (R100). -/
def scaleColumns (ds : List Int) (k : Int) (cols : List Byte) : List W32 :=
  ds.zipIdx.map (fun (d, j) => (e8m0 (Fp.ofInt d k) (cols.getD j 0).toNat).to32)

def addColumns (a b : List W32) : List W32 := if a.isEmpty then b else (a.zip b).map (fun (x, y) => fpAdd x y)

/-- Fraction bits of an activation width (Table 3.1). -/
def actFrac (a : Nat) (signed : Bool) : Int := if signed then (a : Int) - 2 else (a : Int) - 1

/-- The FP32 results of the part in progress, lane included (R100, R119). -/
def State.partResult (s : State) (core : Nat) (k : Nat) (m : Mvm) : List W32 :=
  let tk := 128 * k + m.tier
  let width := s.rd Reg.CRS_ARR_TFMT_WIDTH tk
  let signed := s.is Reg.CRS_ARR_TFMT_SIGNED tk
  let cols := s.sramRead core (32 * s.granB core m.word) (outColumns width)
  let base := scaleColumns (columnResults width signed m.acc m.pop) ((m.part.exp : Int) - 127 - actFrac m.width m.signed - justify width) cols
  if m.lane.isEmpty || !m.parts.isEmpty then base
  else addColumns base (scaleColumns (columnResults width signed m.laneAcc m.lanePop) ((m.laneExp : Int) - 127 - 14 - justify width) cols)

/-- Quiet NaN in every column (R103). -/
def nanColumns (n : Nat) : List W32 := List.replicate n 0x7FC00000

/-- Pack elements of a width in bits into bytes, low nibble first. -/
def packElems (n : Nat) (l : List Nat) : List Byte :=
  if n = 4 then (runsOf 2 l).map (fun p => BitVec.ofNat 8 (p.getD 0 0 % 16 + 16 * (p.getD 1 0 % 16)))
  else l.flatMap (fun v => leBytes (n / 8) v)

/-- The granules of one row converted to an operand's format: elements, then exponents in a granule of their own. -/
def packRow (o : Operand) (vs : List W32) : List (List W32) :=
  let pad := fun b : List Byte => wordsOf (b ++ List.replicate ((32 - b.length % 32) % 32) 0)
  if isBlock o then
    let gs := (runsOf (groupSize o) vs).map (quantise o)
    runsOf 8 (pad (packElems (elemBits o) ((gs.flatMap (fun q => q.elems)).map (ofSigned (elemBits o))))) ++
    runsOf 8 (pad (gs.map (fun q => BitVec.ofNat 8 q.exp)))
  else runsOf 8 (pad (packElems (elemBits o) (vs.map (convertElem o))))

/-- Send rows on the channel of a tier MVM: as contributions when the channel is a reduction. -/
def State.mvmSend (s : State) (core chan : Nat) (tag : W64) (int : Bool) (gs : List (List W32)) : State :=
  if bits (s.channel core chan) 28 2 = 1 then s.sendReduction core chan tag false int gs
  else s.sendMessage core chan tag gs

/-- Maximum or average of a pooling window (R81). -/
def poolCombine (avg : Bool) (rows : List (List W32)) : List W32 :=
  match rows with
  | [] => []
  | r :: rest =>
    if avg then
      let inv := ((packQuotient 8 23 0x7F7FFFFF 1 0 rows.length 0).getD 0)
      (rest.foldl addColumns r).map (fun v => fpMul v (BitVec.ofNat 32 inv))
    else rest.foldl (fun a b => (a.zip b).map (fun (x, y) => fpMax x y)) r

/-- The tag of a result: SUSPECT while the array's other results are suspect (R383). -/
def State.resultTag (s : State) (k : Nat) (m : Mvm) : W64 := if (s.array k).suspect then withFlag m.tag flagSuspect else m.tag

/-- A slot of a core carries SUSPECT data from here on. -/
def State.suspectSlot (s : State) (core slot : Nat) : State :=
  let c := s.core core
  s.setCore core { c with slots := c.slots.zipIdx.map (fun (x, i) => if i = slot then { x with suspect := true } else x) }

/-- Emit an FP32 result row: to SRAM or on the channel, in the output's format; a block sent keeps its replay source
(R78, R113). -/
def State.mvmOutput (s : State) (core k : Nat) (m : Mvm) (row : List W32) : State :=
  let o := s.operand core (wDescb m.word)
  let o := if o.len = 0 then plain row.length 1 else o
  if bit (wArg0 m.word) 4 then
    let chan := bits (wImm m.word) 16 12
    let s := s.mvmSend core chan (s.resultTag k m) false (packRow o row)
    if o.fmt ≤ 1 then
      let src : ReplaySource := { tag := m.tag, channel := chan, ts := o.ts, width := o.width, signed := o.fmt == 1, values := row }
      s.setCore core { s.core core with sources := (s.core core).sources ++ [src] }
    else s
  else s.writeOperand core (s.granD core m.word) o [row]

/-- FINAL: tensor scale, bias, activation, pooling, output (Table 2.5). -/
def State.finalOutput (s : State) (core k : Nat) (m : Mvm) (cols : List W32) : State :=
  let w := m.word
  let cols := cols.map (fun v => fpMul v m.ts)
  let bias := if bit (wImm w) 12 then s.readWords core (bits (wImm w) 0 12) cols.length else []
  let cols := if bias.isEmpty then cols else addColumns cols bias
  let cols := cols.map (activate (bits (wArg0 w) 5 3))
  let win := bits (wImm w) 13 3
  if win = 0 then s.mvmOutput core k m cols
  else
    let pool := (s.array k).pool ++ [cols]
    let last := bit m.tag.toNat 63
    if pool.length < win + 1 && !last then s.setArray k { s.array k with pool := pool }
    else
      let rest := if last then [] else pool.drop (bits (wArg1 w) 8 3 + 1)
      (s.setArray k { s.array k with pool := rest }).mvmOutput core k m (poolCombine (bit (wArg1 w) 11) pool)

/-- PARTIAL (R79): INT32 D unscaled, or FP32; a replayed row tile's partial is FP32 (Table 3.4). -/
def State.partialOutput (s : State) (core k : Nat) (m : Mvm) (ds : List Int) (cols : List W32) (int : Bool) : State :=
  let ws : List W32 := if int then ds.map (fun d => BitVec.ofInt 32 d) else cols
  if bit (wArg0 m.word) 4 then s.mvmSend core (bits (wImm m.word) 16 12) (s.resultTag k m) int (runsOf 8 ws)
  else s.writeWords core (s.granD core m.word) ws

/-- The quiet interval that the core's gap table guarantees after the MVM that retires on an array (R342, R344). -/
def State.noteQuiet (s : State) (core k : Nat) : State :=
  match (s.array k).mvm with
  | none => s
  | some m =>
    match (SMap.get [] s.peg.gaps core).find? (fun g => g.instr == m.pc && g.quiet != 0) with
    | some g => { s with peg := { s.peg with quiet := SMap.insert s.peg.quiet k (33 * s.time + 10 * g.quiet, g.passEnd) } }
    | none => s

/-- A tier MVM waits for a Peg or calibration unit: it counts, and the core's gap table is ignored until the next load (R346). -/
def State.intrude (s : State) (core k : Nat) : State :=
  if SMap.get 0 s.peg.busy k ≤ 33 * s.time then s
  else
    let s := s.bump Reg.CAL_PEG_CNT_INTRUDE_COUNT (courseOf core)
    { s with peg := { s.peg with gapsOff := if s.peg.gapsOff.contains core then s.peg.gapsOff else s.peg.gapsOff ++ [core], busy := SMap.erase s.peg.busy k } }

/-- A tier that a CHECK_ANALOG report accuses comes before every due tier; its pending retune goes to the head (R338). -/
def State.nameTier (s : State) (k tier : Nat) : State :=
  let jobs := SMap.get [] s.peg.jobs k
  let named := SMap.get [] s.peg.named k
  if jobs.any (fun j => j.tier == tier) then
    { s with peg := { s.peg with jobs := SMap.put [] s.peg.jobs k (jobs.filter (fun j => j.tier == tier) ++ jobs.filter (fun j => j.tier != tier)) } }
  else if named.contains tier then s
  else { s with peg := { s.peg with named := SMap.put [] s.peg.named k (named ++ [tier]), due := SMap.put [] s.peg.due k ((SMap.get [] s.peg.due k).filter (· != tier)) } }

/-- The array is free and the instruction retires. -/
def State.mvmDone (s : State) (core k : Nat) : State :=
  let s := s.noteQuiet core k
  (((s.setArray k { s.array k with mvm := none }).landed core (k % 9)).retired core).settlePass core

/-- Commit the result of a row tile. -/
def State.commitMvm (s : State) (core k : Nat) (m : Mvm) : State :=
  let tk := 128 * k + m.tier
  let width := s.rd Reg.CRS_ARR_TFMT_WIDTH tk
  let n := outColumns width
  let cols := if m.nan then nanColumns n else m.sums
  let s := if (s.array k).suspect then s.suspectSlot core m.slot else s
  let s := if bit (wArg1 m.word) 7 then
      let int := !s.is Reg.CRS_ARR_TFMT_PARTIAL_FMT tk && m.level == 0 && !m.nan
      s.partialOutput core k m (columnResults width (s.is Reg.CRS_ARR_TFMT_SIGNED tk) m.acc m.pop) cols int
    else s.finalOutput core k m cols
  s.mvmDone core k

/-- A degraded commit (R117): counted at every consumer, reported by the one that holds the lowest column tile; the request
is marked. -/
def State.degradedMvm (s : State) (core k : Nat) (m : Mvm) (lowest : Bool) : State :=
  let c := courseOf core
  let s := s.bump Reg.CRS_PRC_HOVF_COUNT c
  let s := if lowest then
      (s.bump Reg.CRS_PRC_DEGRADED_COUNT c).report { sender := unitCore core 4, unit := unitCore core 4, cls := 12, tag := m.tag }
    else s
  let r := s.request (tagContext m.tag)
  let s := if r.state = .free then s else s.setRequest (tagContext m.tag) { r with degraded := true }
  s.commitMvm core k m

/-- After the last part: the saturation trip, and the next rung or the commit (R107, R110, R111). -/
def State.finishMvm (s : State) (core k : Nat) (m : Mvm) (lowest : Bool) : State :=
  let c := courseOf core
  let trip := !m.nan && above (s.satThr c m.satThr) (m.carried + m.saturated.length)
  let s := if trip then s.bump Reg.CRS_PRC_TRIP_SAT_COUNT c else s
  if m.level = 3 then
    if trip || m.overflow then s.degradedMvm core k m lowest else s.commitMvm core k m
  else if !trip && !m.flushTrip then s.commitMvm core k m
  else if s.replayMax c ≤ m.replays then
    if s.is Reg.CRS_PRC_CTRL_HREC_EN c then s.requestReemit k m 3 else s.degradedMvm core k m lowest
  else
    let n := m.replays + 1
    let gain := if n = 1 then max 1 (m.gain / 2) else 1
    (s.bump Reg.CRS_PRC_REPLAY_COUNT c).startAttempt k { m with replays := n, gain := gain, tag := withFlag m.tag flagReplay }

/-! Check failures (R84, R85, R120, R382) -/

/-- The estimated column of a failure (R84). -/
def faultyColumn (c0 c1 : Bool) (d0 d1 : Int) : Nat :=
  if c0 && !c1 && d0 != 0 then
    let q := roundDiv (if d0 < 0 then -d1 else d1) d0.natAbs true - 1
    if 0 ≤ q ∧ q ≤ 31 then q.toNat else 255
  else 255

/-- Enter a capture into an array's buffer, and into the pattern library (R85, R398). -/
def State.capture (s : State) (k : Nat) (e : CaptureEntry) (input : List Int) (width : Nat) (signed : Bool) : State :=
  let a := s.array k
  let s := if a.captures.length < 16 then s.setArray k { a with captures := a.captures ++ [e] }
    else ((s.setArray k { a with captures := a.captures.take 15 ++ [e] }).bump Reg.CRS_ARR_CAP_STATUS_LOST k).wr Reg.CRS_ARR_CAP_STATUS_WRAP k 1
  let s := s.wr Reg.CRS_ARR_CAP_STATUS_COUNT k (s.array k).captures.length
  let f := s.fault
  if f.library.length < 4032 then
    ({ s with fault := { f with library := f.library ++ [(input, width, signed)] } }).wr Reg.FLT_FT_LIB_ENTRIES 0 (64 + f.library.length + 1)
  else { s with fault := { f with library := f.library.set f.libraryNext (input, width, signed), libraryNext := (f.libraryNext + 1) % 4032 } }

/-- Lane channels as a capture holds them (R120). -/
def laneBytes (lane : List (Nat × Int)) : List Byte :=
  (List.range 8).flatMap (fun c =>
    match lane[c]? with
    | some (row, v) => leBytes 2 (ofSigned 16 v) ++ leBytes 1 row ++ leBytes 1 1
    | none => leBytes 4 0)

/-- A failed check: counters, report, capture, quarantine count (R84, R85, R382). -/
def State.checkFailed (s : State) (core k : Nat) (m : Mvm) (lane : Bool) : State :=
  let t := if lane then s.band k 4 else s.band k m.gain
  let n := if lane then m.laneChecked else m.checked
  let d0 := if lane then m.laneD0 else m.d0
  let d1 := if lane then m.laneD1 else m.d1
  let (p0, p1) := checkPasses t n d0 d1
  let tk := 128 * k + m.tier
  let tfmt := s.rd Reg.CRS_ARR_TFMT_WIDTH tk + 16 * s.rd Reg.CRS_ARR_TFMT_SIGNED tk + 32 * s.rd Reg.CRS_ARR_TFMT_GAIN tk + 128 * s.rd Reg.CRS_ARR_TFMT_PARTIAL_FMT tk
  let input := if lane then laneBytes m.lane ++ List.replicate 224 0
    else m.part.input.map (fun v => BitVec.ofNat 8 (ofSigned 8 v))
  let e : CaptureEntry := { tag := m.tag, time := s.now, tier := m.tier, tfmt := tfmt, nchk := n, actw := if lane then 0 else m.width, acts := lane || m.signed, sumd0 := d0, sumd1 := d1, loc := faultyColumn (!p0) (!p1) d0 d1, c0 := !p0, c1 := !p1, sat := !m.saturated.isEmpty, input := input }
  let s := if !p0 then s.bump Reg.CRS_ARR_CHK_CNT_C0_FAIL k else s.bump Reg.CRS_ARR_CHK_CNT_C1_ONLY k
  let s := s.report { sender := unitArray core (k % 9) 1, unit := unitTier core (k % 9) m.tier, cls := 3, tag := m.tag }
  let s := (s.capture k e (if lane then [] else m.part.input) m.width m.signed).nameTier k m.tier
  s.arrayFailure core (k % 9) m.tag

/-- The slot of a tier MVM is step-aborted. -/
def State.abortTag (s : State) (core slot : Nat) : State :=
  match (s.core core).slots[slot]? with
  | some x => s.stepAbortOf (s.core core).part x.slotRec.context x.slotRec.step
  | none => s

/-- What follows a failed check (R382): a first failure reissues the part once; a second aborts the slot's step, or under
full redundancy leaves the result to the twin copy. An array quarantined by this failure reissues nothing. -/
def State.afterCheckFailure (s : State) (core k : Nat) (m : Mvm) : State :=
  match (s.array k).mvm with
  | none => s.abortTag core m.slot
  | some _ =>
    let s := s.setArray k { s.array k with suspect := true }
    let s := if m.sampled then (s.dropSample k m).bump Reg.FLT_AUDIT_ABANDON_COUNT else s
    if !m.reissue then s.startPart k { m with reissue := true, tag := withFlag m.tag flagReplay } m.part m.parts
    else if s.is Reg.PRT_PCTRL_REDUNDANT (s.core core).part then s.mvmDone core k
    else s.abortTag core m.slot

/-- The PPU's stages after the last conversion of a part (R78, R83). -/
def State.completePart (s : State) (core k : Nat) (m : Mvm) (lowest : Bool) : State :=
  let pass := fun (x : Bool × Bool) => x.1 && x.2
  let okBlock := pass (checkPasses (s.band k m.gain) m.checked m.d0 m.d1)
  let okLane := pass (checkPasses (s.band k 4) m.laneChecked m.laneD0 m.laneD1)
  if !okBlock then (s.checkFailed core k m false).afterCheckFailure core k m
  else if !okLane then (s.checkFailed core k m true).afterCheckFailure core k m
  else
    let s := if m.reissue then s.setArray k { s.array k with suspect := false } else s
    let m := { m with sums := addColumns m.sums (s.partResult core k m), reissue := false }
    match m.parts with
    | p :: rest => s.startPart k m p rest
    | [] => s.finishMvm core k m lowest

/-! The recovery pass (R122, R123) -/

/-- The exact value of an INT16 element as (negative, magnitude, exponent): d · 2^(E − 127 − 14). -/
def int16Value (e : Nat) (d : Int) : W32 := (Fp.ofInt d ((e : Int) - 141)).to32

/-- Requantise eight rows to width `a` without the chosen rows; a count-less `Quantised` of unit tensor scale. -/
def requantEight (a : Nat) (signed : Bool) (vals : List W32) (chosen : List Nat) (g : Nat) : Quantised :=
  quantGroup (if signed then 1 else 0) 0x3F800000 (actFrac a signed) (narrowLo a signed) (narrowHi a signed)
    ((List.range 8).map (fun i => if chosen.contains (8 * g + i) then 0 else vals.getD (8 * g + i) 0))

def requantAll (a : Nat) (signed : Bool) (vals : List W32) (chosen : List Nat) : List Quantised :=
  (List.range 32).map (requantEight a signed vals chosen)

/-- Flush counts of the eight blocks. -/
def requantFlush (qs : List Quantised) : List Nat :=
  (List.range 8).map (fun k => (((qs.drop (4 * k)).take 4).map (fun q => boolCount q.flush)).sum)

/-- Rows by falling magnitude, ties to the lower row. -/
def largestRow (vals : List W32) (chosen : List Nat) (rows : List Nat) : Option Nat :=
  rows.foldl (fun (a : Option Nat) r =>
    if chosen.contains r then a else
    match a with
    | none => some r
    | some q =>
      match finiteOf (vals.getD q 0), finiteOf (vals.getD r 0) with
      | some (_, m, e), some (_, n, f) => if absBelow m e n f then some r else a
      | _, _ => a) none

/-- Choose lane channels while a block trips, at most eight (R122). -/
def chooseLanes (a : Nat) (signed : Bool) (thr : Nat) (vals : List W32) : Nat → List Nat → List Nat
  | 0, chosen => chosen
  | n + 1, chosen =>
    if (requantFlush (requantAll a signed vals chosen)).any (above thr) then
      match largestRow vals chosen (List.range 256) with
      | some r => chooseLanes a signed thr vals n (chosen ++ [r])
      | none => chosen
    else chosen

end Sys2Proof.Machine
end

