-- ==== Sys2Proof/Machine/CrossOps.lean ====
section
/-! DEFINITION. Machine/CrossOps.lean: BAR0 offsets, stopped domains and accesses held in crossings (R308, Table 9.3). -/
namespace Sys2Proof.Machine

/-- Base of a block in BAR0 (Table 8.4). -/
def blockBase : Block → Nat
  | .hif => 0 | .mbx => 0x10000 | .rcb => 0x20000 | .dma => 0x60000 | .srv => 0x80000 | .ldr => 0xA0000
  | .noc => 0xC0000 | .lnk => 0xE0000 | .cal => 0x100000 | .mcv => 0x110000 | .trm => 0x120000 | .flt => 0x130000
  | .sec => 0x140000 | .clk => 0x150000 | .prt => 0x160000 | .crs => 0x1000000

/-- BAR0 offset of a register of a course window. -/
def crsOffset (course off : Nat) : Nat := 0x1000000 + 0x10000 * course + off
/-- BAR0 offset of a register of a ZL port. -/
def lnkOffset (port off : Nat) : Nat := 0xE0000 + 0x2000 * port + off

/-- A course is in Nap, commanded by itself or with the device (R377). -/
def State.courseNapped (s : State) (course : Nat) : Bool :=
  bit (s.rd Reg.TRM_NAP_MASK_COURSE (course / 32)) (course % 32) || decide (2 ≤ s.rd Reg.TRM_PSTATE_STATE)

/-- The FABRIC and MEM domains stop in Rest, and until it has been left. -/
def State.resting (s : State) : Bool := decide (4 ≤ s.rd Reg.TRM_PSTATE_STATE)

/-- The stopped domain behind a BAR0 offset, by its `CLK_STALL.DOMAIN` code. -/
def State.stoppedDomain (s : State) (offset : Nat) : Option Nat :=
  if 0x1000000 ≤ offset ∧ offset < 0x1640000 then
    let n := (offset - 0x1000000) / 0x10000
    if s.courseNapped n then some n else if s.resting then some 113 else none
  else if 0xE0000 ≤ offset ∧ offset < 0xF0000 then
    let p := (offset - 0xE0000) / 0x2000
    let o := (offset - 0xE0000) % 0x2000
    if 0x100 ≤ o ∧ o < 0x200 ∧ s.rd Reg.LNK_STATUS_STATE p = 0 then some (104 + p) else none
  else if 0xC0000 ≤ offset ∧ offset < 0xE0000 then (if s.resting then some 113 else none)
  else if 0x110000 ≤ offset ∧ offset < 0x120000 then
    if s.is Reg.CAL_MCV_EN_EN then none else some 112
  else none

/-- The crossing a requester's accesses pass: one per port, one per management core. -/
def laneOfReq : Requester → Nat
  | .fn f => f.port.val
  | .fw c => 2 + c.val

def State.heldAt (s : State) (lane : Nat) : List HeldAccess := SMap.get [] s.mail.accesses lane
def State.setHeld (s : State) (lane : Nat) (l : List HeldAccess) : State :=
  { s with mail := { s.mail with accesses := SMap.put [] s.mail.accesses lane l } }

/-- Hold an access. One at a stopped domain shows in `CLK_STALL`. -/
def State.hold (s : State) (h : HeldAccess) : State :=
  let s := s.setHeld (laneOfReq h.who) (s.heldAt (laneOfReq h.who) ++ [h])
  if h.domain = 255 then s else (s.bump Reg.CLK_STALL_TOTAL).wr Reg.CLK_STALL_DOMAIN 0 h.domain

/-- A posted write of the requester's port is held, so that no later request of it may pass (R308). -/
def State.blocked (s : State) (who : Requester) : Bool :=
  !isFirmware who && (s.heldAt (laneOfReq who)).any (fun h => h.value.isSome || (match h.window with | some (.write _) => true | _ => false))

/-- A virtual function. -/
def isVf : Requester → Bool
  | .fn f => f.idx.val != 0
  | .fw _ => false

/-- BAR0 offsets of which a VF sees nothing (Table 8.4, R266). -/
def vfHidden (a : Nat) : Bool :=
  (decide (0x38 ≤ a) && decide (a < 0x8000)) || (decide (0x10000 ≤ a) && decide (a < 0x20000)) ||
  (decide (0xC0000 ≤ a) && decide (a < 0x150000)) || decide (0x170000 ≤ a)

/-- A requester's accesses are served: a function is configured and no FLR of it runs (R274, R275); a management core is not in
reset. -/
def State.served (s : State) : Requester → Bool
  | .fn f => s.fnServes (fnCode f)
  | .fw _ => s.board.powered && !s.recovery.held

/-- An access to a course's window ungates its clock (R376). -/
def State.ungate (s : State) (offset : Nat) : State :=
  if 0x1000000 ≤ offset ∧ offset < 0x1640000 then
    { s with thermal := { s.thermal with gated := s.thermal.gated.filter (· != (offset - 0x1000000) / 0x10000) } }
  else s

/-- A BAR0 access: not served at a function that is not configured; nothing where a VF sees nothing; held at a stopped domain
or behind a held posted write; else done now. -/
def State.access (s : State) (who : Requester) (offset : Nat) (value : Option W32) (f : State → State) : State :=
  if !s.served who then (if value.isSome then s else s.emit (.readUnsupported (reqCode who)))
  else if isVf who && vfHidden offset then (if value.isSome then s else s.emit (.readData (reqCode who) 0))
  else match s.stoppedDomain offset with
  | some d => s.hold ⟨who, 0, offset, value, d, none⟩
  | none => if s.blocked who then s.hold ⟨who, 0, offset, value, 255, none⟩ else f (s.ungate offset)

/-- A BAR2 doorbell write. -/
def State.doorbellAccess (s : State) (fn : PciFn) (offset : Nat) (value : W32) (f : State → State) : State :=
  if !s.served (.fn fn) then s else if s.blocked (.fn fn) then s.hold ⟨.fn fn, 1, offset, some value, 255, none⟩ else f s

/-- A register that only the owner's PF and the management firmware may write, at a BAR0 offset (R270). -/
def State.ownedAccess (s : State) (who : Requester) (offset : Nat) (value : W32) (f : State → State) : State :=
  s.access who offset (some value) (fun s => s.owned who offset f)

/-- A write changed a field that survives as NV: it waits to be recorded (R440). -/
def State.noteNv (s : State) : State := { s with sec := { s.sec with dirty := some (s.sec.dirty.getD s.time) } }

/-- AUTOWAKE: work that arrives in device Nap starts Nap exit; during Nap entry, as soon as entry is complete (R377, R380). -/
def State.autowake (s : State) : State :=
  if !s.is Reg.TRM_PSTATE_CMD_AUTOWAKE then s
  else match s.rd Reg.TRM_PSTATE_STATE with
    | 1 => { s with thermal := { s.thermal with wake := true } }
    | 2 => s.wr Reg.TRM_PSTATE_STATE 0 3
    | _ => s

end Sys2Proof.Machine
end

