-- ==== Sys2Proof/Machine/Arrays.lean ====
section
/-! DEFINITION. Machine/Arrays.lean: the commands of a tier MVM and its precision ladder. -/
namespace Sys2Proof.Machine

/-! TIER_MVM -/

/-- Width and signedness of a tier MVM's input. Only the narrow formats of Table 3.1 have them; another format's elements
are taken as signed integers of their storage width. -/
def inputWidth (o : Operand) : Nat := if o.fmt ≤ 1 then max 1 (min 8 o.width) else min 8 (elemBits o)
def inputSigned (o : Operand) : Bool := o.fmt != 0

/-- The exponent groups of a tier MVM's input operand, with the counts its blocks carry (R95, R104). -/
def State.inputGroups (s : State) (core g : Nat) (o : Operand) (carried : List (Fin 33 × Fin 33)) : List Group :=
  let len := min 256 o.len
  let size := min 32 (groupSize o)
  (List.range ((len + size - 1) / size)).map (fun i =>
    let row := size * i
    let elems := (List.range (min size (len - row))).map (fun c =>
      let raw := s.rawElem core g o 0 (row + c)
      if inputSigned o then toSigned (inputWidth o) raw else ((bits raw 0 (inputWidth o) : Nat) : Int))
    let c := if row % 32 = 0 then carried.getD (row / 32) (0, 0) else (0, 0)
    { exp := BitVec.ofNat 8 (s.groupExp core o 0 row), row := row, elems := elems, sat := c.1.val, flush := c.2.val })

/-- The instruction is sampled for audit in this pass (R389). -/
def State.auditDue (s : State) (core : Nat) : Bool :=
  let c := s.core core
  let n := 2 ^ max 6 (min 10 (s.rd Reg.FLT_AUDIT_CTRL_PERIOD_LOG2))
  let p := SMap.get 0 s.fault.passCount c.part - 1
  let key := 2048 * core + c.pc
  let again := (SMap.get {} s.fault.samples key).resample
  let lowest := (c.slots.take c.cur).all (fun x => !slotLive (s.layerOf core) x)
  s.is Reg.FLT_AUDIT_CTRL_EN && (!s.redundant core || s.fault.absent.any (fun a => a / 100 == c.part)) && lowest && (again || p % n == c.pc % n)

/-- Open an audit sample of the MVM about to issue. -/
def State.openSample (s : State) (core k : Nat) (m : Mvm) (input : List Int) : State :=
  let c := s.core core
  let key := 2048 * core + c.pc
  let old := SMap.get {} s.fault.samples key
  let p := SMap.get 0 s.fault.passCount c.part - 1
  let x : AuditSample := { pass := p, lastPass := old.lastPass, tier := 128 * k + m.tier, gain := m.gain, waiting := true, input := input }
  { s with fault := { s.fault with samples := SMap.put {} s.fault.samples key x } }

/-- TIER_NOT_READY: the sequencer reports the tier and does not retry (R64, R164). -/
def State.tierMissing (s : State) (core : Nat) (x : CoreSlot) : State :=
  ((s.bump Reg.CRS_CORE_EVENTS_TNR core).advance core).tierNotReady (s.core core).part x.slotRec.context x.slotRec.step

/-- Begin a tier MVM on an array (R75, R111). -/
def State.beginMvm (s : State) (core k : Nat) (w : W128) (tier : Nat) (carried : List (Fin 33 × Fin 33)) : State :=
  let c := s.core core
  let o := s.operand core (wDesc w)
  let (rd, wr) := s.spans core w
  let tk := 128 * k + tier
  let m : Mvm := { word := w, slot := c.cur, tag := s.coreTag core, tier := tier, gain := gainOf (s.rd Reg.CRS_ARR_TFMT_GAIN tk), width := inputWidth o, signed := inputSigned o, flushThr := o.flushThr, satThr := o.satThr, ts := o.ts }
  let gs := s.inputGroups core (s.granA core w) o carried
  let sample := s.auditDue core
  let s := if sample then s.openSample core k m (inputOf (alignGroups gs).2) else s
  let m := { m with sampled := sample, pc := c.pc }
  let s := s.setCore core { c with pc := c.pc + 1, inflight := c.inflight ++ [⟨k % 9, c.pc, c.cur, rd, wr⟩] }
  let force := s.rd Reg.CRS_PRC_CTRL_FORCE (courseOf core)
  if o.len = 0 then s.startAttempt k { m with all := [⟨0, inputOf []⟩] }
  else if force = 0 then s.assemble k m 0 gs
  else s.requestReemit k m force

/-- TMVM: one tier MVM of one input vector (R75, R89, R64). -/
def execTierMvm (core : Core) (word : W128) (carried : List (Fin 33 × Fin 33)) (s : State) : Host.Outcome State Fault Refusal :=
  .next (s.issue core word 0 0 (fun s =>
    match s.curSlot core with
    | none => none
    | some x =>
      match s.physArray core (bits (wArg0 word) 0 4 % 8) with
      | none => some (s.tierMissing core x, false)
      | some a =>
        let tier := s.physTier core x.slotRec.epoch (bits (wArg1 word) 0 7)
        if (s.array (arrayKey core a)).mvm.isSome then none
        else if !s.tierReady core a tier then some (s.tierMissing core x, false)
        else some ((s.intrude core (arrayKey core a)).beginMvm core (arrayKey core a) word tier carried, false)))

/-! CONVERSION, TIER_MVM_COMPLETE, TMVM_ABORT -/

/-- Accumulate the codes of a conversion (R78, R83, R72). -/
def accumulate (m : Mvm) (c : Conversion) (codes : List Nat) : Mvm :=
  let gain := if c.lane then 4 else m.gain
  let add := fun acc : List Int => acc.zipIdx.map (fun (v, j) => v + c.weight * ((codes.getD j 0 * (8 / gain) : Nat) : Int))
  let n : Int := c.weight * (c.rows.length : Nat)
  let hot := (List.range 32).filter (fun j => codes.getD j 0 == 63)
  if c.lane then
    let m := { m with laneAcc := add m.laneAcc, lanePop := m.lanePop + n }
    if hot.isEmpty then { m with laneChecked := m.laneChecked + 1, laneD0 := m.laneD0 + deviation0 codes, laneD1 := m.laneD1 + deviation1 codes } else m
  else
    let m := { m with acc := add m.acc, pop := m.pop + n }
    if hot.isEmpty then { m with checked := m.checked + 1, d0 := m.d0 + deviation0 codes, d1 := m.d1 + deviation1 codes }
    else { m with saturated := (m.saturated ++ hot).eraseDups }

/-- An audit sample takes the codes of a conversion's data columns (R389). -/
def State.sampleCodes (s : State) (core : Nat) (m : Mvm) (c : Conversion) (codes : List Nat) : State :=
  if !m.sampled then s
  else
    let key := 2048 * core + m.pc
    let x := SMap.get {} s.fault.samples key
    { s with fault := { s.fault with samples := SMap.put {} s.fault.samples key { x with codes := x.codes ++ codes.take 32, rows := x.rows ++ [c.rows], gain := m.gain, conversions := x.conversions + 1 } } }

/-- One conversion of the tier MVM in progress: a group of one plane on one tier; its codes reach the PPU (R20, R71). -/
def execConversion (core : Core) (array : Fin 9) (s : State) : Host.Outcome State Fault Refusal :=
  let k := arrayKey core array
  .next (match (s.array k).mvm with
    | none => s
    | some m =>
      match m.todo with
      | [] => s
      | c :: rest =>
        let codes := s.codesOf (128 * k + m.tier) (if c.lane then 4 else m.gain) c.rows
        let hot := (codes.take 32).contains 63
        let s := { s with fresh := s.fresh + 34 }
        let s := s.bump Reg.CRS_ARR_CONV_COUNT k
        let s := if hot then s.bump Reg.CRS_ARR_SAT_CNT_COUNT k else s
        let s := if c.lane then s else s.sampleCodes core m c codes
        s.setArray k { s.array k with lastTier := some m.tier, mvm := some { accumulate m c codes with todo := rest } })

/-- After the last conversion the PPU finishes the tier MVM (R78). -/
def execTierMvmComplete (core : Core) (array : Fin 9) (lowest : Bool) (s : State) : Host.Outcome State Fault Refusal :=
  let k := arrayKey core array
  .next (match (s.array k).mvm with
    | none => s
    | some m => if m.waiting || !m.todo.isEmpty then s else s.completePart core k m lowest)

/-- An abort of the array's tier MVM: no result, no check, the array free (R77). -/
def execTmvmAbort (core : Core) (array : Fin 9) (s : State) : Host.Outcome State Fault Refusal :=
  let k := arrayKey core array
  .next (match (s.array k).mvm with
    | none => s
    | some _ => (s.abortMvm k).settlePass core)

/-! The ladder's commands -/

/-- Re-quantise the values of a replay source at a level: 16 or 8 values a group, or INT16 blocks (Table 3.4, R113). -/
def requantise (x : ReplaySource) (level : Nat) : List Quantised :=
  let size := if level = 1 then 16 else if level = 2 then 8 else 32
  (runsOf size x.values).map (fun vs =>
    if level = 3 then quantGroup 1 x.ts 14 (-32768) 32767 vs
    else quantGroup x.signed.toNat x.ts (actFrac x.width x.signed) (narrowLo x.width x.signed) (narrowHi x.width x.signed) vs)

/-- Granules of requantised groups: elements, then exponents. -/
def requantGranules (n : Nat) (qs : List Quantised) : List (List W32) :=
  let pad := fun b : List Byte => wordsOf (b ++ List.replicate ((32 - b.length % 32) % 32) 0)
  runsOf 8 (pad (packElems n ((qs.flatMap (fun q => q.elems)).map (ofSigned n)))) ++
  runsOf 8 (pad (qs.map (fun q => BitVec.ofNat 8 q.exp)))

/-- A producer answers a re-emission request for a row tile, each level once (R112, R113). -/
def State.reemitAt (s : State) (core : Nat) (tag : W64) (channel level : Nat) : State :=
  let c := s.core core
  let hit := fun x : ReplaySource => x.channel == channel && tagHits (tagPart tag) (tagContext tag) (some (tagStep tag)) x.tag && tagLayer x.tag == tagLayer tag && !x.answered.contains level
  match c.sources.find? hit with
  | none => s
  | some x =>
    let s := s.setCore core { c with sources := c.sources.map (fun y => if hit y then { y with answered := y.answered ++ [level] } else y) }
    let n := if level = 3 then 16 else if x.width ≤ 4 then 4 else 8
    let t := withFlag x.tag flagReplay
    s.sendMessage core channel (if level = 3 then withFlag t flagHarmonic else t) (requantGranules n (requantise x level))

/-- A REEMIT request reaches its producer. -/
def execReemit (core : Core) (tag : W64) (channel : Fin 4096) (level : Fin 4) (s : State) : Host.Outcome State Fault Refusal :=
  .next (s.reemitAt core tag channel level)

/-- Re-emitted blocks reach the consumer, which replays the row tile; blocks at a higher level than it asked for are adopted
and count as a replay; others are discarded (R111, R112, Table 3.6). -/
def execReplayBlocksArrive (core : Core) (array : Fin 9) (level : Fin 3) (groups : List Group) (s : State) : Host.Outcome State Fault Refusal :=
  let k := arrayKey core array
  .next (match (s.array k).mvm with
    | none => s
    | some m =>
      if !m.waiting || m.level = 3 || level.val < m.level then s
      else s.assemble k { m with replays := m.replays + (if m.level < level.val then 1 else 0) } level groups)

/-- The lane channels of chosen rows: row and 16-bit element under the largest of their exponents (R119). -/
def laneOf (blocks : List Group) (chosen : List Nat) : Nat × List (Nat × Int) :=
  let own := chosen.filterMap (fun r =>
    (blocks.find? (fun g => decide (g.row ≤ r) && decide (r < g.row + g.elems.length))).map (fun g => (r, g.exp.toNat, nth g.elems (r - g.row))))
  let e := (own.map (fun x => x.2.1)).foldl max 0
  (e, own.map (fun (r, ek, d) =>
    let q : Int := roundQuotient d.natAbs ek 1 e 0
    (r, if d < 0 then -q else q)))

/-- The recovery pass: lane channels chosen from the INT16 blocks, the rest requantised in eights, gain 1 (R122, R123). -/
def execRecoveryPass (core : Core) (array : Fin 9) (blocks : List Group) (s : State) : Host.Outcome State Fault Refusal :=
  let k := arrayKey core array
  .next (match (s.array k).mvm with
    | none => s
    | some m =>
      if !m.waiting || m.level ≠ 3 then s
      else
        let course := courseOf core
        let thr := s.flushThr course m.width m.flushThr
        let nan := blocks.any (fun g => g.exp.toNat == 255)
        let vals := (List.range 256).map (fun r =>
          match blocks.find? (fun g => decide (g.row ≤ r) && decide (r < g.row + g.elems.length)) with
          | some g => if g.exp.toNat = 0 then (0 : W32) else int16Value g.exp.toNat (nth g.elems (r - g.row))
          | none => 0)
        let chosen := chooseLanes m.width m.signed thr vals 8 []
        let qs := requantAll m.width m.signed vals chosen
        let tooHigh := (requantFlush qs).any (above thr)
        let clipped := ((List.range 8).map (fun b => (((qs.drop (4 * b)).take 4).map (fun q => boolCount q.sat)).sum)).foldl max 0
        let (le, lane) := laneOf blocks chosen
        let gs : List Group := qs.zipIdx.map (fun (q, i) => { exp := BitVec.ofNat 8 q.exp, row := 8 * i, elems := q.elems })
        (s.bump Reg.CRS_PRC_HREC_COUNT course).startAttempt k { m with nan := nan, gain := 1, lane := lane, laneExp := le, all := partsOf 3 gs, carried := clipped, overflow := tooHigh, flushTrip := false, tag := withFlag m.tag flagReplay })

/-- CAP_CLR: empties the selected array's capture buffer, LOST and WRAP (R85). -/
def State.clearCaptures (s : State) (k : Nat) : State :=
  (((s.setArray k { s.array k with captures := [] }).wr Reg.CRS_ARR_CAP_STATUS_COUNT k 0).wr Reg.CRS_ARR_CAP_STATUS_LOST k 0).wr
    Reg.CRS_ARR_CAP_STATUS_WRAP k 0

/-- The core and array that a requester's `CRS_ARR_SEL` of a course selects (R92). -/
def State.selCore (s : State) (who course : Nat) : Option Nat :=
  let i := 100 * who + course
  let r := s.rd Reg.CRS_ARR_SEL_CROW i
  let c := s.rd Reg.CRS_ARR_SEL_CCOL i
  if r < 10 ∧ c < 11 then some (110 * (10 * (course / 10) + r) + 11 * (course % 10) + c) else none
def State.selArray (s : State) (who course : Nat) : Option Nat :=
  match s.selCore who course with
  | some core =>
    let a := s.rd Reg.CRS_ARR_SEL_ARRAY (100 * who + course)
    if a < 9 then some (arrayKey core a) else none
  | none => none

/-- The action of a write of 1 to `CRS_ARR_CAP_CLR.CLEAR`. -/
def State.capClear (s : State) (who : Requester) (course : Nat) : State :=
  match s.selArray (reqCode who) course with
  | some k => s.clearCaptures k
  | none => s

/-- `CRS_ARR_CAP_CLR` (WO) is written by any requester that reaches the course window. -/
def execCapClear (who : Requester) (course : Course) (s : State) : Host.Outcome State Fault Refusal :=
  .next (s.access who (crsOffset course 0x4034) (some 1) (fun s => s.capClear who course))

end Sys2Proof.Machine
end

