-- ==== Sys2Proof/Machine/RegMap.lean ====
section
/-! DEFINITION. Machine/RegMap.lean: which register fields lie at a BAR0 offset, and which copy of each the address and the
requester's selectors choose (Table 8.4, R9). -/
namespace Sys2Proof.Machine

/-- A place in a block: offset of the register in its block's first copy, and the copy that the address gives. -/
structure RegPlace where
  block : Block
  off : Nat
  copy : Nat
deriving DecidableEq, Repr

/-- A copy of a register that lies `n` words after its first. -/
def placeOf (b : Block) (base words o : Nat) : RegPlace :=
  if base ≤ o ∧ o < base + 4 * words then ⟨b, base + o % 4, (o - base) / 4⟩ else ⟨b, o, 0⟩

/-- The register at a BAR0 offset (Table 8.4). -/
def regPlace (a : Nat) : Option RegPlace :=
  if a < 0x10000 then some (placeOf .hif 0x50 2 a)
  else if a < 0x20000 then
    let o := a - 0x10000
    some (if o < 0x800 then ⟨.mbx, o % 32, o / 32⟩ else ⟨.mbx, o, 0⟩)
  else if a < 0x60000 then some ⟨.rcb, (a - 0x20000) % 64, (a - 0x20000) / 64⟩
  else if a < 0x80000 then some ⟨.dma, a - 0x60000, 0⟩
  else if a < 0xA0000 then some ⟨.srv, a - 0x80000, 0⟩
  else if a < 0xC0000 then some ⟨.ldr, a - 0xA0000, 0⟩
  else if a < 0xE0000 then some ⟨.noc, a - 0xC0000, 0⟩
  else if a < 0xF0000 then some ⟨.lnk, (a - 0xE0000) % 0x2000, (a - 0xE0000) / 0x2000⟩
  else if a < 0x100000 then none
  else if a < 0x110000 then some ⟨.cal, a - 0x100000, 0⟩
  else if a < 0x120000 then some (placeOf .mcv 0x100 63 (a - 0x110000))
  else if a < 0x130000 then some (placeOf .trm 0x48 4 (a - 0x120000))
  else if a < 0x140000 then some ⟨.flt, a - 0x130000, 0⟩
  else if a < 0x150000 then
    let o := a - 0x140000
    some (if o < 0x60 then placeOf .sec 0x40 8 o else placeOf .sec 0x80 8 o)
  else if a < 0x160000 then some (placeOf .clk 0x4 4 (a - 0x150000))
  else if a < 0x170000 then some ⟨.prt, a - 0x160000, 0⟩
  else if 0x1000000 ≤ a ∧ a < 0x1640000 then some ⟨.crs, (a - 0x1000000) % 0x10000, (a - 0x1000000) / 0x10000⟩
  else none

/-- A field lies in the register of a place; a field of 64 bits also in the register after it, which is its high half. -/
def Field.lies (f : Field) (p : RegPlace) : Bool :=
  f.block == p.block && (f.offset == p.off || (f.width == 64 && f.offset + 4 == p.off))
def Field.high (f : Field) (p : RegPlace) : Bool := f.offset != p.off

/-- The fields of the register at a place. -/
def fieldsAt (p : RegPlace) : List Field := Reg.table.filter (fun f => f.lies p)

/-- An index below a bound. -/
def below (n i : Nat) : Option Nat := if i < n then some i else none

/-- The fields of the selector that chooses the copy of a field, with the requester's number from which its copies count. -/
def Field.selectors (f : Field) : List Field :=
  match f.scope, f.block with
  | .tier, _ => [Reg.CRS_ARR_SEL_CROW, Reg.CRS_ARR_SEL_CCOL, Reg.CRS_ARR_SEL_ARRAY, Reg.CRS_ARR_SEL_TIER]
  | .array, _ => [Reg.CRS_ARR_SEL_CROW, Reg.CRS_ARR_SEL_CCOL, Reg.CRS_ARR_SEL_ARRAY]
  | .core, _ => [Reg.CRS_ARR_SEL_CROW, Reg.CRS_ARR_SEL_CCOL]
  | .course, .cal => [Reg.CAL_PEG_SEL_COURSE]
  | .course, .noc => [Reg.NOC_MAP_SEL_PROW, Reg.NOC_MAP_SEL_PCOL]
  | .router, _ => [Reg.NOC_MAP_SEL_PROW, Reg.NOC_MAP_SEL_PCOL]
  | .spareSite, _ => [Reg.NOC_MAP_SEL_PROW, Reg.NOC_MAP_SEL_CRSCOL]
  | .logicalCourse, .noc => [Reg.NOC_MAP_SEL_LCRS]
  | .logicalCourse, _ => [Reg.PRT_CSEL_COURSE]
  | .part, .srv => [Reg.SRV_PSEL_PART]
  | .part, .ldr => [Reg.LDR_PSEL_PART]
  | .part, .prt => [Reg.PRT_PSEL_PART]
  | .part, _ => [Reg.DMA_WSEL_PART, Reg.DMA_WSEL_WIN]
  | .epochSlot, _ => [Reg.LDR_PSEL_PART, Reg.LDR_PSEL_ESLOT]
  | .adapterSlot, _ => [Reg.LDR_PSEL_ASLOT]
  | .request, _ => [Reg.SRV_RQ_SEL_INDEX]
  | .func, _ => [Reg.HIF_FSEL_FUNCTION]
  | .window, _ => [Reg.DMA_WSEL_PART, Reg.DMA_WSEL_WIN]
  | .sensor, _ => [Reg.TRM_SSEL_SENSOR]
  | .rail, _ => [Reg.TRM_RAIL_SEL_RAIL]
  | .cls, _ => [Reg.FLT_CSEL_CLASS]
  | .keySlot, _ => [Reg.SEC_KEY_SEL_SLOT]
  | .keyWord, _ => [Reg.SEC_KEY_SEL_SLOT]
  | _, _ => []

/-- Values of a selector's fields as a word, each at its place in the selector register: what a staged entry records of it
(Table 15.4). -/
def selectorWord (fs : List Field) (vs : List Nat) : Nat := ((fs.zip vs).map (fun x => x.2 * 2 ^ x.1.lsb)).sum

/-- The values of a selector's fields in a selector word. -/
def selectorValues (fs : List Field) (w : Nat) : List Nat := fs.map (fun f => bits w f.lsb f.width)

/-- The values of a requester's selector for a field, where `copy` is the copy that the address gives. -/
def State.selection (s : State) (who copy : Nat) (f : Field) : List Nat :=
  f.selectors.map (fun g => s.rd g (if g.scope == .reqCourse then 100 * who + copy else who))

/-- The copy of a field that the address and the selector's values choose; none where they select nothing. `port` is the
port of the requester. -/
def Field.copyOf (f : Field) (who port copy : Nat) (sel : List Nat) : Option Nat :=
  let a := sel.getD 0 0
  let b := sel.getD 1 0
  let core := if a < 10 ∧ b < 11 then some (110 * (10 * (copy / 10) + a) + 11 * (copy % 10) + b) else none
  match f.scope with
  | .die => some 0
  | .index => some copy
  | .ring => below 4096 copy
  | .mailbox => below 64 copy
  | .zlPort => below 8 copy
  | .req => some who
  | .reqCourse => (below 100 copy).map (fun c => 100 * who + c)
  | .tier => core.bind (fun k => (below 9 (sel.getD 2 0)).map (fun n => tierKey k n (sel.getD 3 0)))
  | .array => core.bind (fun k => (below 9 (sel.getD 2 0)).map (fun n => arrayKey k n))
  | .core => core
  | .course =>
    (match f.block with
     | .cal => below 100 a
     | .noc => if a < 100 ∧ b < 110 then some (courseOf (110 * a + b)) else none
     | _ => below 100 copy)
  | .router => if a < 100 ∧ b < 110 then some (110 * a + b) else none
  | .spareSite => if a < 100 ∧ b < 10 then some (10 * a + b) else none
  | .logicalCourse => below 100 a
  | .part => below 16 a
  | .epochSlot => some (4 * a + b)
  | .adapterSlot => below 1024 a
  | .request => below 65536 a
  | .port => if f.block = .hif then some copy else below 2 port
  | .func => if a % 32 < 17 then some a else none
  | .window => some (8 * a + b)
  | .sensor => below 144 a
  | .rail => below 9 a
  | .cls => below 16 a
  | .keySlot => below 16 a
  | .keyWord => (below 16 a).map (fun k => 8 * k + copy)

/-- The copy of a field that a requester addresses at a place. -/
def State.copyAt (s : State) (who : Requester) (p : RegPlace) (f : Field) : Option Nat :=
  f.copyOf (reqCode who) ((reqPort who).getD 2) p.copy (s.selection (reqCode who) p.copy f)

/-- The partition that a field's copy belongs to, where its selector chooses one. -/
def Field.partOf (f : Field) (i : Nat) : Option Nat :=
  match f.scope with
  | .part => some i
  | .epochSlot => some (i / 4)
  | .window => some (i / 8)
  | _ => none

end Sys2Proof.Machine
end

