-- ==== Sys2Proof/Machine/LinkOps.lean ====
section
/-! DEFINITION. Machine/LinkOps.lean: ZL ports: states, sending, hellos, loss of a partner, and whether a chain is whole
(R313 to R324). -/
namespace Sys2Proof.Machine

/-! States and events -/

/-- LINK_EVENT of a port, to both hosts (R324). -/
def State.linkEvent (s : State) (p : Nat) (changed : Bool) : State :=
  s.postBoth 40 56 0x10 (p + s.zlMode p * 2 ^ 4 + s.rd Reg.LNK_STATUS_LANES p * 2 ^ 7 + changed.toNat * 2 ^ 11 +
    (s.rd Reg.LNK_PARTNER_DSN_SERIAL p % 2 ^ 40) * 2 ^ 16)

/-- Enter a state: it counts, and an entry to UP or DOWN posts LINK_EVENT. -/
def State.setZlMode (s : State) (p mode : Nat) (changed : Bool) : State :=
  if s.zlMode p = mode then s
  else
    let s := (s.wr Reg.LNK_STATUS_STATE p mode).bump Reg.LNK_STATUS_EVENTS p
    let s := s.setZl p { s.zl p with since := s.time }
    if mode = 3 ∨ mode = 0 then s.linkEvent p changed else s

/-- The port stops: no lanes, its LINK domain stopped, nothing to replay; SEQ numbers start again at the next training. -/
def State.zlDown (s : State) (p why wait : Nat) : State :=
  let z := s.zl p
  let s := (s.wr Reg.LNK_STATUS_LAST_DOWN p why).wr Reg.LNK_STATUS_LANES p 0
  let s := s.setZl p { z with peerNonce := 0, nonce := 0, partner := none, map := none, txSeq := 0, rxSeq := 0, replay := [], asked := none, replaySeq := none, replays := 0, credits := [], queue := [], window := {}, retryAt := s.time + wait }
  s.setZlMode p 0 false

/-- A port reports LINK_DOWN (R318, R323). -/
def State.reportLinkDown (s : State) (p : Nat) : State :=
  s.report { sender := unitZl p 4, unit := unitZl p 4, cls := 9 }

/-! Chains (R323) -/

/-- A port is UP and its map is in force. -/
def State.zlMapped (s : State) (p : Nat) : Bool := s.zlUp p && (s.zl p).map.isSome

/-- Members of the image that a partition serves. -/
def State.chainMembers (s : State) (part : Nat) : Nat :=
  match s.currentSlot? part with
  | some k => max 1 (s.epochInfo (epochKey part k)).members
  | none => 1

/-- Every port that the partition's image uses is UP with a matching map; a chain of one device uses none. -/
def State.chainWhole (s : State) (part : Nat) : Bool :=
  decide (s.chainMembers part ≤ 1) || (!(s.portsOf part).isEmpty && (s.portsOf part).all (fun p => s.zlMapped p))

/-- Every step in flight of a partition is step-aborted (R162). -/
def State.abortPartition (s : State) (part : Nat) : State :=
  s.forEach ((s.entriesOf part).filter (fun i => (s.request i).inFlight || runState (s.request i).state)) (fun s i =>
    s.stepAbortOf part i (s.request i).step)

/-- Longest wait for a whole chain of a partition in ns: that of its first port that is not mapped. -/
def State.chainPatience (s : State) (part : Nat) : Nat :=
  match (s.portsOf part).find? (fun p => !s.zlMapped p) with
  | some p => s.rd Reg.LNK_PWAIT_MS p * 1000000
  | none => 0

/-- Requests of a partition that have waited for a whole chain for the longest wait fault with TIMEOUT. -/
def State.chainExpire (s : State) (part : Nat) : State :=
  let late := fun i => match (s.request i).chainWait with
    | some t => decide (t + s.chainPatience part ≤ s.time)
    | none => false
  s.forEach ((s.entriesOf part).filter (fun i => liveState (s.request i).state && late i)) (fun s i => s.faultRequest i codeTimeout)

/-- A partition's chain is not whole: its requests begin to wait, and fault at once where no wait is allowed. -/
def State.chainBroken (s : State) (part : Nat) : State :=
  let s := s.forEach ((s.entriesOf part).filter (fun i => liveState (s.request i).state && !(s.request i).member)) (fun s i =>
    s.setRequest i { s.request i with chainWait := some ((s.request i).chainWait.getD s.time) })
  if s.chainPatience part = 0 then s.chainExpire part else s

/-- The work of a port's partition stops with its link: steps are aborted, chain barriers abandoned, requests wait. -/
def State.severPort (s : State) (p : Nat) : State :=
  match s.exportOf p with
  | none => s
  | some part =>
    let s := s.abortPartition part
    let s := { s with link := { s.link with chainBarriers := s.link.chainBarriers.filter (fun b => b.part != part) } }
    if s.is Reg.LDR_PART_INFO_ADMITTING part && !s.chainWhole part then s.chainBroken part else s

/-- Partner loss (R321, R323): LINK_DOWN with `report`, the port is DOWN, its partition's work stops. -/
def State.loseLink (s : State) (p why wait : Nat) (report : Bool) : State :=
  let s := if report then s.reportLinkDown p else s
  let s := s.setZl p { s.zl p with lost := some (BitVec.ofNat 64 (s.rd Reg.LNK_PARTNER_DSN_SERIAL p)) }
  (s.zlDown p why wait).severPort p

/-- Retraining of a port (R318): its state is TRAINING again. -/
def State.retrainPort (s : State) (p : Nat) : State :=
  let s := (s.wr Reg.LNK_STATUS_FAILED p 0).setZl p { s.zl p with optical := s.is Reg.LNK_CTRL_MODE p, replays := 0, replaySeq := none }
  let s := s.setZlMode p 1 false
  match s.exportOf p with
  | some part => if s.is Reg.LDR_PART_INFO_ADMITTING part && !s.chainWhole part then s.chainBroken part else s
  | none => s

/-! Hellos (R319, R320) -/

/-- Open epoch transactions of a partition: epoch and TXN. -/
def State.openTxns (s : State) (part : Nat) : List (Nat × W64) :=
  (match SMap.find? s.loader.txns part with | some t => [(t.epoch, t.id)] | none => []) ++
  (match SMap.find? s.loader.memberTxn part with | some t => [t] | none => [])

/-- The FULL hello of a port, with a nonce of its own. -/
def State.helloBody (s : State) (p : Nat) (own : W64) : Hello :=
  let part := s.rd Reg.LNK_EXP_PART p
  { serial := Config.serialNumber, identity := Config.identityDigest,
    fwGen := BitVec.ofNat 32 (s.rd Reg.SEC_FW_STATUS_SVN), cfgGen := BitVec.ofNat 32 (s.rd Reg.SEC_GEN_GEN),
    port := Fin.ofNat 8 p, part := Fin.ofNat 16 part, chain := BitVec.ofNat 64 (s.rd Reg.LNK_EXP_CHAIN_ID p),
    member := BitVec.ofNat 8 (s.memberIndex part), admitting := s.is Reg.LDR_PART_INFO_ADMITTING part,
    txns := s.openTxns part, nonce := (s.zl p).peerNonce, own := own }

/-- The bytes of a FULL hello that its digest covers. -/
def helloBytes (h : Hello) : List Byte :=
  leBytes 8 h.serial.toNat ++ leBytes 32 h.identity.toNat ++ leBytes 4 h.fwGen.toNat ++ leBytes 4 h.cfgGen.toNat ++
  leBytes 1 h.port.val ++ leBytes 1 h.part.val ++ leBytes 8 h.chain.toNat ++ leBytes 1 h.member.toNat ++
  leBytes 1 h.admitting.toNat ++ (h.txns.flatMap (fun t => leBytes 1 t.1 ++ leBytes 8 t.2.toNat)) ++ leBytes 8 h.nonce.toNat ++
  leBytes 8 h.own.toNat

/-- The first 16 bytes of the digest of a FULL body, as a SHORT hello carries it. -/
def helloDigest (h : Hello) : W128 := BitVec.ofNat 128 (Config.shake256 (helloBytes h)).toNat

/-- Send a FULL hello with a fresh nonce. -/
def State.sendFullHello (s : State) (p : Nat) : State :=
  let (n, s) := s.draw
  let h := s.helloBody p (Config.fresh64 n)
  let s := s.setZl p { s.zl p with nonce := Config.fresh64 n, sent := some h, lastFull := s.time, lastShort := s.time }
  (s.zlStamp p ftHello 1 0x300000000000 (leNat (helloBytes h))).emit (.hello p true h)

/-- Send a SHORT hello. -/
def State.sendShortHello (s : State) (p : Nat) (h : Hello) : State :=
  ((s.setZl p { s.zl p with lastShort := s.time }).zlStamp p ftHello 0 0x300000000000 (helloDigest h).toNat).emit (.hello p false h)

/-- The partition map that a partner's hello gives (R320): the partner's partition and the local one. -/
def State.mapOf (s : State) (p : Nat) (h : Hello) : Option (Nat × Nat) :=
  match s.exportOf p with
  | some part =>
    if h.chain.toNat = s.rd Reg.LNK_EXP_CHAIN_ID p ∧ h.chain ≠ 0 ∧ h.member.toNat = s.rd Reg.LNK_EXP_PEER_MEMBER p
    then some (h.part.val, part) else none
  | none => none

/-- A flit other than MSG arrives in order: it takes the next SEQ, and counts. -/
def State.zlTake (s : State) (p : Nat) : State :=
  (s.setZl p { s.zl p with rxSeq := ((s.zl p).rxSeq + 1) % 4096, asked := none }).bump Reg.LNK_CNT_RX_COUNT p

/-! Lanes (R322) -/

/-- Lanes in use, as a mask, and whether a mask holds the fewest lanes of UP. -/
def State.zlLanes (s : State) (p : Nat) : Nat := s.rd Reg.LNK_STATUS_LANES p
def State.lanesEnough (s : State) (p mask : Nat) : Bool := decide (s.minLanes p ≤ popcount 4 mask)

/-- Resend the unacknowledged flits from a SEQ on (R314). -/
def State.zlResend (s : State) (p seq : Nat) : State :=
  (((s.zl p).replay.dropWhile (fun f => f.seq != seq))).foldl (fun s f => s.emit (.zl p f.seq f.ftype f.op f.tag f.body)) s

/-- A lane goes out of use: LANE is reported; below the fewest lanes the link is lost (R318, R322). -/
def State.dropLane (s : State) (p lane : Nat) : State :=
  let left := setBit (s.zlLanes p) lane false
  let s := s.wr Reg.LNK_STATUS_FAILED p (setBit (s.rd Reg.LNK_STATUS_FAILED p) lane true)
  let s := s.report { sender := unitZl p lane, unit := unitZl p lane, cls := 8 }
  if s.lanesEnough p left then s.wr Reg.LNK_STATUS_LANES p left else s.loseLink p 7 0 true

/-! Notices (R413) -/

/-- A RESET_NOTICE (Table 14.4). -/
def State.noticeWord (s : State) (part scope ctx cause rung : Nat) : Nat :=
  2 + scope * 2 ^ 8 + ctx * 2 ^ 16 + cause * 2 ^ 32 + rung * 2 ^ 40 + s.memberIndex part * 2 ^ 48 + Config.serialNumber.toNat * 2 ^ 64

/-- Send a notice on every port that exports a partition. -/
def State.sendNotice (s : State) (part scope ctx cause rung : Nat) : State :=
  s.chainSend part chainManagement (s.noticeWord part scope ctx cause rung)

/-- The notice that a port owes after a chip reset or a power-up. -/
def State.payNotice (s : State) (p : Nat) : State :=
  if !(s.zl p).notice then s
  else
    let s := s.setZl p { s.zl p with notice := false }
    match s.exportOf p with
    | some part => s.zlMsg p chainManagement 0 (BitVec.ofNat 64 (part + 0xFFF * 2 ^ 46 + 2 ^ 63)) (s.noticeWord part 0 0 (s.rd Reg.FLT_RST_STATUS_CAUSE) (s.rd Reg.FLT_RST_STATUS_KIND))
    | none => s

/-! A chain is whole again (R218, R323) -/

/-- Some partner of the partition came back as another device. -/
def State.partnerChanged (s : State) (part : Nat) : Bool :=
  (s.portsOf part).any (fun p => match (s.zl p).lost with
    | some x => x != 0 && x != BitVec.ofNat 64 (s.rd Reg.LNK_PARTNER_DSN_SERIAL p)
    | none => false)

/-- With the chain whole, waiting requests resume, or fault when a partner's KV is gone. -/
def State.chainSettle (s : State) (part : Nat) : State :=
  if !s.chainWhole part then s
  else
    let live := (s.entriesOf part).filter (fun i => liveState (s.request i).state && !(s.request i).member)
    let s := if s.partnerChanged part then s.forEach live (fun s i => s.faultRequest i codeContextReset)
      else s.forEach live (fun s i => s.setRequest i { s.request i with chainWait := none })
    s.forEach (s.portsOf part) (fun s p => s.setZl p { s.zl p with lost := none })

/-- COMMIT or ABORT again for every transaction that a member reports open and that is not open here (R218). -/
def State.settleTxns (s : State) (part : Nat) (l : List (Nat × W64)) : State :=
  if !s.is Reg.LDR_PART_INFO_ADMITTING part then s
  else s.forEach l (fun s t =>
    let mine := match SMap.find? s.loader.txns part with | some x => x.id == t.2 | none => false
    if mine then s
    else
      let live := match s.epochSlot? part t.1 with | some k => decide (3 ≤ s.rd Reg.LDR_EPOCH_STATE (epochKey part k)) | none => false
      s.chainSend part chainEpoch (epochMessage (if live then 5 else 6) t.1 0 0 0 (s.memberIndex part) t.2 0))

/-- A partner's FULL hello has verified: what it says is recorded, the map is built, the port is UP (R318 to R320, R324). -/
def State.acceptHello (s : State) (p : Nat) (h : Hello) : State :=
  let before := s.rd Reg.LNK_PARTNER_DSN_SERIAL p
  let changed := before != 0 && before != h.serial.toNat
  let s := s.setZl p { s.zl p with peerNonce := h.own, partner := some h, map := s.mapOf p h }
  let s := ((((((s.wr Reg.LNK_PARTNER_DSN_SERIAL p h.serial.toNat).wr Reg.LNK_PARTNER_INFO_PORT p h.port.val).wr Reg.LNK_PARTNER_INFO_ADMIT p h.admitting.toNat).wr Reg.LNK_PARTNER_INFO_PART p h.part.val).wr Reg.LNK_PARTNER_INFO_MEMBER p h.member.toNat).wr Reg.LNK_PARTNER_FW_GEN p h.fwGen.toNat)
  let s := (s.setZlMode p 3 changed).payNotice p
  match s.exportOf p with
  | some part => (s.settleTxns part h.txns).chainSettle part
  | none => s

end Sys2Proof.Machine
end

