-- ==== Sys2Proof/Machine/MessageOps.lean ====
section
/-! DEFINITION. Machine/MessageOps.lean: messages and reductions at their destination core, and what wakes a parked
instruction (R155, R156, R178, R185). -/
namespace Sys2Proof.Machine

/-- A message is whole: its LAST packet has come and every granule before it (R155). -/
def packetWhole (k : Packet) : Bool :=
  k.empty || (k.closed && decide (k.granules.length = ((k.granules.map Prod.fst).foldl max 0) + 1))

/-- A packet's tag matches the core's current slot and layer. -/
def State.tagMatches (s : State) (core : Nat) (t : W64) : Bool :=
  match s.curSlot core with
  | some x => tagPart t == (s.core core).part && tagContext t == x.slotRec.context && tagLayer t == s.layerOf core
  | none => false

/-- The current slot carries SUSPECT data from here on (Table 4.8). -/
def State.taint (s : State) (core : Nat) (b : Bool) : State :=
  if !b then s
  else
    let c := s.core core
    s.setCore core { c with slots := c.slots.zipIdx.map (fun (x, i) => if i = c.cur then { x with suspect := true } else x) }

/-- A whole message goes into D. -/
def State.takePacket (s : State) (core : Nat) (w : W128) (k : Packet) : State :=
  let c := s.core core
  let d := s.granD core w
  let s := s.setCore core { c with packets := c.packets.erase k }
  let s := k.granules.foldl (fun s (o, g) => s.writeWords core (d + o) g) s
  s.taint core k.suspect

/-- Receive a whole message into D, if one waits. -/
def State.tryRecv (s : State) (core : Nat) (w : W128) : Option State :=
  let c := s.core core
  let hit := fun k : Packet => k.channel == bits (wArg1 w) 0 12 && s.tagMatches core k.tag && packetWhole k
  if s.redundant core then none else (c.packets.find? hit).map (s.takePacket core w)

/-- Contributors of a RECVRED: IMM, or the index register IXB when that is 0 (Table 4.5). -/
def State.contributors (s : State) (core : Nat) (w : W128) : Nat :=
  let n := bits (wImm w) 0 8
  if n = 0 then s.ix core (wIxb w) else n

/-- Fold one contribution into another (R184). -/
def combineWords (max int : Bool) (a b : List W32) : List W32 :=
  (a.zip b).map (fun (x, y) => if max then fpMax x y else if int then x + y else fpAdd x y)

/-- Granules of a reduction's destination: those that DESCB describes, or those that have come when it is empty. -/
def State.redGranules (s : State) (core : Nat) (w : W128) (b : RedBuffer) : Nat :=
  let n := opGranules (s.operand core (wDescb w))
  if n = 0 then (b.granules.map (fun e => e.1 + 1)).foldl max 0 else n

/-- Every granule has its count of contributions (R185). -/
def redWhole (b : RedBuffer) (n count : Nat) : Bool :=
  (List.range n).all (fun o => (SMap.get ([], 0) b.granules o).2 + b.empties == count) &&
  (n != 0 || b.empties == count)

/-- The value of a granule: what was accumulated, with the zeros of empty contributions. -/
def redValue (b : RedBuffer) (o : Nat) : List W32 :=
  let z := List.replicate 8 (0 : W32)
  match SMap.find? b.granules o with
  | none => z
  | some (g, _) => if b.empties = 0 then g else combineWords b.max b.int g z

/-- The result of a reduction goes into D. -/
def State.takeReduction (s : State) (core : Nat) (w : W128) (b : RedBuffer) : State :=
  let c := s.core core
  let d := s.granD core w
  let n := s.redGranules core w b
  let s := s.setCore core { c with reductions := c.reductions.erase b, closedReds := c.closedReds ++ [(b.channel, b.tag)] }
  let s := (List.range n).foldl (fun s o => s.writeWords core (d + o) (redValue b o)) s
  s.taint core b.suspect

/-- Receive the result of a reduction into D, if it is complete. -/
def State.tryRecvRed (s : State) (core : Nat) (w : W128) : Option State :=
  let c := s.core core
  let count := s.contributors core w
  let hit := fun b : RedBuffer => b.channel == bits (wArg1 w) 0 12 && s.tagMatches core b.tag && redWhole b (s.redGranules core w b) count
  if s.redundant core then none else (c.reductions.find? hit).map (s.takeReduction core w)

/-- Take a value from a flag, if it has reached it (R156). -/
def State.tryWait (s : State) (core flag value : Nat) : Option State :=
  let c := s.core core
  let v := SMap.get 0 c.flags flag
  if value ≤ v then some (s.setCore core { c with flags := SMap.put 0 c.flags flag (v - value) }) else none

/-- A parked instruction completes. -/
def State.unpark (s : State) (core : Nat) : State :=
  let c := s.core core
  ((s.setCore core { c with park := none, pc := c.pc + 1 }).retired core).stepHalt core

/-- A parked instruction looks again at what it waits for. -/
def State.wake (s : State) (core : Nat) : State :=
  match (s.core core).park with
  | some (.recv w) => (match s.tryRecv core w with | some s => s.unpark core | none => s)
  | some (.recvred w _) => (match s.tryRecvRed core w with | some s => s.unpark core | none => s)
  | some (.wait f v) => (match s.tryWait core f v with | some s => s.unpark core | none => s)
  | _ => s

/-- Park an instruction. -/
def State.parkAt (s : State) (core : Nat) (p : Park) : State := s.setCore core { s.core core with park := some p }

/-- Complete at once or park. -/
def State.orPark (s : State) (core : Nat) (p : Park) (r : Option State) : Option (State × Bool) :=
  match r with
  | some t => some (t, true)
  | none => some (s.parkAt core p, false)

end Sys2Proof.Machine
end

