-- ==== Sys2Proof/Machine/FabricOps.lean ====
section
/-! DEFINITION. Machine/FabricOps.lean: routes, arbitration, combining and delivery on the two meshes (chapter 5). A router is
numbered by its core; 11,000 + c is the express router of physical course c. -/
namespace Sys2Proof.Machine

/-! Places -/

/-- The physical core that stands for logical coordinates (R189, R190). -/
def State.physOf (s : State) (x y : Nat) : Option Nat :=
  let l := 10 * (y / 10) + x / 10
  if s.is Reg.NOC_COURSE_MAP_OUT l then none
  else
    let c := s.rd Reg.NOC_COURSE_MAP_PHYS l
    let row := 10 * (c / 10) + y % 10
    let site := 10 * row + c % 10
    let col := if s.rd Reg.NOC_SPARE_MAP_REPLACED site = x % 10 then 10 else x % 10
    some (110 * row + 11 * (c % 10) + col)

/-- Number of an express router. -/
def expressRouter (course : Nat) : Nat := 11000 + course

/-- Unit of a router (Table 0.6). -/
def unitRouter (r : Nat) : W32 := if r < 11000 then unitCore r 7 else unitCourse (r - 11000) 2

/-- Codes of ports: 0 north, 1 east, 2 south, 3 west, 4 the core or a die block, 5 the attachment; an express router's
attachment to row r of its course is 10 + r. -/
def portCode : RouterPort → Nat
  | .north => 0 | .east => 1 | .south => 2 | .west => 3 | .core => 4 | .attach => 5

/-- The opposite direction. -/
def opposite (d : Nat) : Nat := (d + 2) % 4

/-- The neighbour in a direction: rows count northward and columns eastward, in a grid of the given columns and rows. -/
def neighbour (cols rows n d : Nat) : Option Nat :=
  match d with
  | 0 => if n / cols + 1 < rows then some (n + cols) else none
  | 1 => if n % cols + 1 < cols then some (n + 1) else none
  | 2 => if cols ≤ n then some (n - cols) else none
  | 3 => if 0 < n % cols then some (n - 1) else none
  | _ => none
def coreNeighbour (core d : Nat) : Option Nat := neighbour 110 100 core d
def courseNeighbour (c d : Nat) : Option Nat := neighbour 10 10 c d

/-- The router that sends into an input port of a router, with the sender's port. -/
def senderOf (r : Nat) (input : RouterPort) : Nat × Nat :=
  if r < 11000 then
    match input with
    | .attach => (expressRouter (courseOf r), 10 + rowOf r % 10)
    | .core => (r, 4)
    | p => ((coreNeighbour r (portCode p)).getD r, opposite (portCode p))
  else
    match input with
    | .attach | .core => (r, 5)
    | p => (expressRouter ((courseNeighbour (r - 11000) (portCode p)).getD (r - 11000)), opposite (portCode p))

/-- Unit of the link out of a router's port; the attachment and the express links carry SUB 4 (Table 0.6). -/
def linkUnit (r port : Nat) : W32 :=
  if r < 11000 then unitLink r (if port < 4 then port else 4)
  else
    let c := r - 11000
    unitLink (110 * (10 * (c / 10)) + 11 * (c % 10)) (if port < 4 then port else 4)

/-- Course of the express router of a die block (Table 5.2): 0 serving engine, 1 loader, 2 management complex, 8 to 15 the
ZL ports. -/
def blockCourse (n : Nat) : Nat :=
  match n with
  | 0 => 44 | 1 => 45 | 2 => 54 | 8 => 20 | 9 => 29 | 10 => 70 | 11 => 79 | 12 => 2 | 13 => 7 | 14 => 92 | 15 => 97
  | _ => 44

/-- Where a flit goes: a physical core, a die block, or the barrier root at a course's express router. -/
inductive Dest where
  | core (k : Nat)
  | block (n : Nat)
  | root (course : Nat)
deriving DecidableEq, Repr

/-- The course of a destination, and its row within the course where it has one. -/
def destCourse : Dest → Nat
  | .core k => courseOf k
  | .block n => blockCourse n
  | .root c => c

/-! Failures and routes (R172, R191) -/

/-- The course through whose express router a course reaches the express mesh: its own, or a neighbour's in its course row
when its own has failed (R191). -/
def State.gate (s : State) (c : Nat) : Nat :=
  if !s.is Reg.NOC_FAIL_EXPRESS c then c
  else if c % 10 < 9 ∧ !s.is Reg.NOC_FAIL_EXPRESS (c + 1) then c + 1
  else if 0 < c % 10 then c - 1 else c + 1

/-- A core-mesh hop is not to be taken: no neighbour there, its link failed, or its router failed. -/
def State.hopBlocked (s : State) (core d : Nat) : Bool :=
  match coreNeighbour core d with
  | none => true
  | some n => bit (s.rd Reg.NOC_FAIL_LINK core) d || s.is Reg.NOC_FAIL_ROUTER n

/-- An express hop is not to be taken. -/
def State.expressBlocked (s : State) (c d : Nat) : Bool :=
  match courseNeighbour c d with
  | none => true
  | some n => bit (SMap.get 0 s.fabric.expressLinks c) d || s.is Reg.NOC_FAIL_EXPRESS n

/-- Direction along x first, then y; none at the goal. -/
def xyDir (col row gcol grow : Nat) : Option Nat :=
  if col < gcol then some 1 else if gcol < col then some 3
  else if row < grow then some 0 else if grow < row then some 2 else none

/-- Directions to try after the wanted one: the perpendicular ones, the one that nears the goal first (R191). -/
def detours (want : Nat) (row grow : Nat) (edgeNorth edgeEast : Bool) : List Nat :=
  if want = 0 ∨ want = 2 then (if edgeEast then [3, 1] else [1, 3])
  else if row < grow then [0, 2] else if grow < row then [2, 0] else if edgeNorth then [2, 0] else [0, 2]

/-- Output port of a core-mesh router for a destination, given the input port; none where the flit is discarded. -/
def State.corePort (s : State) (core input : Nat) (d : Dest) : Option Nat :=
  let here := courseOf core
  let far := s.is Reg.NOC_CTRL_EXPRESS_EN
  let tc := destCourse d
  let row := rowOf core
  -- the place to reach on the core mesh, and whether the attachment is taken there
  let goal : Nat × Nat × Bool := match d with
    | .core k =>
      if far && s.gate here != s.gate tc then (11 * (s.gate here % 10) + 5, row, true) else (colOf k, rowOf k, false)
    | _ =>
      let c := if far then s.gate here else s.gate tc
      (11 * (c % 10) + 5, if row / 10 = c / 10 then row else 10 * (c / 10), true)
  let (gcol, grow, up) := goal
  match xyDir (colOf core) row gcol grow with
  | none =>
    if !up then some 4
    else if !s.is Reg.NOC_FAIL_ATTACH core then some 5
    else (detours 5 row row (row % 10 == 9) (colOf core % 11 == 10)).find? (fun x => x != input && !s.hopBlocked core x)
  | some w =>
    if w != input && !s.hopBlocked core w then some w
    else if !up && coreNeighbour core w == some (110 * grow + gcol) && s.is Reg.NOC_FAIL_ROUTER (110 * grow + gcol) then none
    else (detours w row grow (row % 10 == 9) (colOf core % 11 == 10)).find? (fun x => x != input && !s.hopBlocked core x)

/-- An attachment of an express router is usable. -/
def State.attachOk (s : State) (c r : Nat) : Bool :=
  let k := 110 * (10 * (c / 10) + r) + 11 * (c % 10) + 5
  !s.is Reg.NOC_FAIL_ATTACH k && !s.is Reg.NOC_FAIL_ROUTER k

/-- Output port of an express router. -/
def State.expressPort (s : State) (c input : Nat) (d : Dest) : Option Nat :=
  let g := s.gate (destCourse d)
  match xyDir (c % 10) (c / 10) (g % 10) (g / 10) with
  | none =>
    (match d with
    | .core k =>
      let r := rowOf k % 10
      (([r, r + 1, r - 1] ++ List.range 10).find? (fun x => decide (x < 10) && s.attachOk c x)).map (· + 10)
    | _ => some 4)
  | some w =>
    if w != input && !s.expressBlocked c w then some w
    else (detours w (c / 10) (g / 10) (c / 10 == 9) (c % 10 == 9)).find? (fun x => x != input && !s.expressBlocked c x)

/-- Output port of any router. -/
def State.outPort (s : State) (r input : Nat) (d : Dest) : Option Nat :=
  if r < 11000 then s.corePort r input d else s.expressPort (r - 11000) input d

/-! Flits -/

/-- Fields of a route word (Table 5.3). -/
def routeKind (f : Flit) : Nat := bits f.route.toNat 28 2
def routeRch (f : Flit) : Nat := bits f.route.toNat 30 12
def routeOff (f : Flit) : Nat := bits f.route.toNat 42 12
def routeCnt (f : Flit) : Nat := bits f.route.toNat 54 8
def routeMax (f : Flit) : Bool := bit f.route.toNat 62
def routeInt (f : Flit) : Bool := bit f.route.toNat 63
/-- Its rectangle: X0, Y0, X1, Y1. -/
def routeRect (f : Flit) : Nat × Nat × Nat × Nat :=
  (bits f.route.toNat 0 7, bits f.route.toNat 7 7, bits f.route.toNat 14 7, bits f.route.toNat 21 7)
/-- A flit with another rectangle. -/
def withRect (f : Flit) (r : Nat × Nat × Nat × Nat) : Flit :=
  { f with route := BitVec.ofNat 64 (setBits f.route.toNat 0 28 (r.1 + r.2.1 * 2 ^ 7 + r.2.2.1 * 2 ^ 14 + r.2.2.2 * 2 ^ 21)) }
/-- A CONTROL flit, its opcode (Table 5.6) and its operand. -/
def isControl (f : Flit) : Bool := tagClass f.tag == 0
def controlOp (f : Flit) : Nat := (f.payload.getD 0 0).toNat % 256
def controlArg (f : Flit) : Nat := (f.payload.getD 0 0).toNat / 256

/-- Logical coordinates of a rectangle, row by row. -/
def rectCoords (r : Nat × Nat × Nat × Nat) : List (Nat × Nat) :=
  (List.range (r.2.2.2 + 1 - r.2.1)).flatMap (fun j => (List.range (r.2.2.1 + 1 - r.1)).map (fun i => (r.1 + i, r.2.1 + j)))

/-- Add a point to rectangles built row by row: it lengthens the run of its row. -/
def addPoint (l : List (Nat × Nat × Nat × Nat)) (p : Nat × Nat) : List (Nat × Nat × Nat × Nat) :=
  match l with
  | (x0, y0, x1, y1) :: rest => if y0 = p.2 ∧ y1 = p.2 ∧ x1 + 1 = p.1 then (x0, y0, p.1, y1) :: rest else (p.1, p.2, p.1, p.2) :: l
  | [] => [(p.1, p.2, p.1, p.2)]

/-- Add a run to rectangles: it lengthens the rectangle that it continues. -/
def addRun (l : List (Nat × Nat × Nat × Nat)) (r : Nat × Nat × Nat × Nat) : List (Nat × Nat × Nat × Nat) :=
  match l.find? (fun q => q.1 == r.1 && q.2.2.1 == r.2.2.1 && q.2.2.2 + 1 == r.2.1) with
  | some q => l.map (fun x => if x = q then (q.1, q.2.1, q.2.2.1, r.2.2.2) else x)
  | none => l ++ [r]

/-- Rectangles that together hold exactly a list of points, given row by row. -/
def rectsOf (ps : List (Nat × Nat)) : List (Nat × Nat × Nat × Nat) := ((ps.foldl addPoint []).reverse).foldl addRun []

/-- Destinations of a flit with their logical coordinates. -/
def State.destsOf (s : State) (f : Flit) : List ((Nat × Nat) × Dest) :=
  let r := routeRect f
  if routeKind f = 3 then [((r.1, r.2.1), .block r.1)]
  else if isControl f && controlOp f == 1 then
    [((r.1, r.2.1), .root (s.gate (s.rd Reg.NOC_COURSE_MAP_PHYS (10 * (r.2.1 / 10) + r.1 / 10))))]
  else (rectCoords r).filterMap (fun p => (s.physOf p.1 p.2).map (fun k => (p, Dest.core k)))

/-- The copies that leave a router, one for each output port and rectangle (R172). -/
def State.copies (s : State) (r input : Nat) (f : Flit) : List (Nat × Flit) :=
  let l := (s.destsOf f).filterMap (fun x => (s.outPort r input x.2).map (fun o => (o, x.1)))
  let ports := (l.map Prod.fst).eraseDups
  if routeKind f = 3 || (isControl f && controlOp f == 1) then ports.map (fun o => (o, f))
  else ports.flatMap (fun o => (rectsOf ((l.filter (fun x => x.1 == o)).map Prod.snd)).map (fun q => (o, withRect f q)))

/-! Combining (R179, R183, R184, R186) -/

/-- Bits of a tag that a combination must match: PARTITION, CONTEXT, STEP, LAYER, REDUNDANT. -/
def combineKey (t : W64) : Nat × Nat × Nat × Nat × Bool := (tagPart t, tagContext t, tagStep t, tagLayer t, bit t.toNat 62)

/-- Reduction contributions. -/
def isReduction (f : Flit) : Bool := !isControl f && (routeKind f == 1 || routeKind f == 2)
/-- ARRIVE flits. -/
def isArrive (f : Flit) : Bool := isControl f && controlOp f == 1 && routeKind f == 0

/-- Two flits that a router may combine. -/
def combinable (a b : Flit) : Bool :=
  decide (routeCnt a + routeCnt b ≤ 255) && combineKey a.tag == combineKey b.tag && routeRch a == routeRch b &&
  routeRect a == routeRect b &&
  ((isArrive a && isArrive b) ||
   (isReduction a && isReduction b && routeKind a == routeKind b && (routeKind a == 2 || routeOff a == routeOff b) &&
    routeMax a == routeMax b && routeInt a == routeInt b))

/-- The combined flit: summed CNT, combined payload, SUSPECT and REPLAY of either. -/
def combineFlits (a b : Flit) : Flit :=
  let t := if bit b.tag.toNat 58 then withFlag a.tag flagSuspect else a.tag
  { route := BitVec.ofNat 64 (setBits a.route.toNat 54 8 (routeCnt a + routeCnt b)),
    tag := if bit b.tag.toNat 59 then withFlag t flagReplay else t,
    payload := if routeKind a = 1 ∧ !isControl a then combineWords (routeMax a) (routeInt a) a.payload b.payload else a.payload }

/-- Reduction fallback is in force for a partition at a router's course (R187). -/
def State.inFallback (s : State) (r part : Nat) : Bool :=
  s.fabric.fallback.contains (100 * part + (if r < 11000 then courseOf r else r - 11000))

/-- A router may combine a flit. -/
def State.mayCombine (s : State) (r : Nat) (f : Flit) : Bool :=
  s.is Reg.NOC_CTRL_COMBINE_EN &&
  (isArrive f || (isReduction f && !(s.router r).combineOff && !s.inFallback r (tagPart f.tag)))

/-- Partition of a router's course. -/
def State.routerPart (s : State) (r : Nat) : Option Nat := s.coursePart (if r < 11000 then courseOf r else r - 11000)

/-- The management firmware sets fallback when combining is disabled in more than 4 routers of a partition (R187). -/
def State.judgeFallback (s : State) (part : Nat) : State :=
  let n := (s.fabric.routers.filter (fun e => e.2.combineOff && s.routerPart e.1 == some part)).length
  if 4 < n then s.wr Reg.NOC_FALLBACK_PART 0 (setBit (s.rd Reg.NOC_FALLBACK_PART) part true) else s

/-- A combining mismatch of a router: it counts, and the third within 10^6 passes disables its combining (R186). -/
def State.adderMismatch (s : State) (r : Nat) (tag : W64) : State :=
  let s := s.bump Reg.NOC_COMBCHK_COUNT
  let s := s.report { sender := unitRouter r, unit := unitRouter r, cls := 4, tag := tag }
  let now := SMap.get 0 s.fault.passCount (tagPart tag)
  let q := s.router r
  let l := q.mismatches.filter (fun p => decide (p ≤ now) && decide (now ≤ p + 1000000)) ++ [now]
  let off := q.combineOff || decide (3 ≤ l.length)
  let s := s.setRouter r { q with mismatches := l, combineOff := off }
  match s.routerPart r with
  | some p => if off then s.judgeFallback p else s
  | none => s

/-- Put a flit at an output port, combined with a partner that waits there where the adders agree. -/
def State.enqueue (s : State) (r port : Nat) (f : Flit) (adderOk : Bool) : State :=
  let q := s.router r
  let hit := fun x : Nat × Flit => x.1 == port && combinable x.2 f && s.mayCombine r f
  match q.waiting.find? hit with
  | some x =>
    if adderOk ∨ isArrive f then
      s.setRouter r { q with waiting := q.waiting.map (fun y => if y = x then (port, combineFlits x.2 f) else y) }
    else (s.setRouter r { q with waiting := q.waiting ++ [(port, f)] }).adderMismatch r f.tag
  | none => s.setRouter r { q with waiting := q.waiting ++ [(port, f)] }

/-- One flit slot of an output port (R174). A window keeps the shares it began with. -/
def State.sendSlot (s : State) (r port : Nat) : State :=
  let q := s.router r
  let x : Window := SMap.get {} q.windows port
  let x := if x.w = 0 then { x with bulkMin := s.rd Reg.NOC_SHARE_BULK_MIN, maintMin := s.rd Reg.NOC_SHARE_MAINT_MIN } else x
  let ready := (q.waiting.filter (fun x => x.1 == port)).map (fun x => tagClass x.2.tag)
  match pickClass x.bulkMin x.maintMin x ready with
  | none => s
  | some (c, w) =>
    match q.waiting.find? (fun x => x.1 == port && tagClass x.2.tag == c) with
    | none => s
    | some x =>
      (s.setRouter r { q with waiting := q.waiting.erase x, windows := SMap.put {} q.windows port w }).emit (.hop r port x.2)

/-! Failures -/

/-- A failed link is marked, and routing avoids it from the next map on (R170, R191, R406). -/
def State.markLink (s : State) (r port : Nat) : State :=
  let s := s.wr Reg.NOC_MAP_GEN_PENDING 0 1
  if r < 11000 then
    if port < 4 then s.wr Reg.NOC_FAIL_LINK r (setBit (s.rd Reg.NOC_FAIL_LINK r) port true)
    else if port = 5 then s.wr Reg.NOC_FAIL_ATTACH r 1 else s
  else
    let c := r - 11000
    if port < 4 then
      { s with fabric := { s.fabric with expressLinks := SMap.put 0 s.fabric.expressLinks c (setBit (SMap.get 0 s.fabric.expressLinks c) port true) } }
    else if 10 ≤ port then s.wr Reg.NOC_FAIL_ATTACH (110 * (10 * (c / 10) + (port - 10)) + 11 * (c % 10) + 5) 1 else s

/-- A link has failed: REPLAY_LIMIT is reported, and the link is marked (R170). -/
def State.failLink (s : State) (r port : Nat) (reporter : Nat) : State :=
  (s.report { sender := unitRouter reporter, unit := linkUnit r port, cls := 13 }).markLink r port

/-- A parity error: the flit is discarded, PARITY accuses the link, and a retry is asked for or the link fails (R170). -/
def State.parityError (s : State) (r : Nat) (input : RouterPort) : State :=
  let (from_, port) := senderOf r input
  let s := s.report { sender := unitRouter r, unit := linkUnit from_ port, cls := 0 }
  let q := s.router r
  let n := SMap.get 0 q.retries (portCode input) + 1
  if max 1 (s.rd Reg.NOC_CTRL_RETRY_MAX) < n then
    (s.setRouter r { q with retries := SMap.put 0 q.retries (portCode input) 0 }).failLink from_ port r
  else (s.setRouter r { q with retries := SMap.put 0 q.retries (portCode input) n }).bump Reg.NOC_RETRY_COUNT

/-! Barriers (R178, R179, R181, R193, R327) -/

/-- Participants of a barrier at a root, by physical course. -/
def State.participants (s : State) (part course number : Nat) : Nat :=
  SMap.get 0 s.fabric.participants ((100 * part + (s.logicalOf course).getD course) * 4096 + number)

/-- RELEASE goes to every participant, one rectangle per course: of the root's own course for scope 0, else of every course
of the partition (R179). -/
def State.sendRelease (s : State) (course scope : Nat) (tag : W64) (number : Nat) : State :=
  let cs := if scope = 0 then [(s.logicalOf course).getD course] else s.coursesOf (tagPart tag)
  cs.foldl (fun s l =>
    let x := 10 * (l % 10)
    let y := 10 * (l / 10)
    let route := x + y * 2 ^ 7 + (x + 9) * 2 ^ 14 + (y + 9) * 2 ^ 21 + number * 2 ^ 30 + 2 ^ 54
    s.emit (.flit (expressRouter course) route (BitVec.ofNat 64 (setBits tag.toNat 44 2 0)) 4 [2])) s

/-- A die-wide release is in flight from now until its last participant has left the barrier (R193). -/
def State.noteRelease (s : State) (b : Barrier) : State :=
  { s with fabric := { s.fabric with releases := s.fabric.releases ++ [(b, s.time)] } }

/-- Barriers of the same key. -/
def sameBarrier (a b : Barrier) : Bool :=
  a.part == b.part && a.context == b.context && a.number == b.number && a.step == b.step

/-- A member has arrived at a chain-scope barrier of the admitting device: at the image's member count its own participants
are released, and RELEASE goes to the members (R327). -/
def State.chainArrive (s : State) (root : Nat) (b : Barrier) (tag : W64) : State :=
  let l := s.link.chainBarriers
  let n := ((l.find? (sameBarrier b)).map (fun x => x.count)).getD 0 + 1
  let rest := l.filter (fun x => !sameBarrier b x)
  if s.chainMembers b.part ≤ n then
    let s := { s with link := { s.link with chainBarriers := rest } }
    let s := if 1 < s.chainMembers b.part then s.chainSendAll b.part chainBarrier tag [2 + b.number * 256] else s
    (s.sendRelease root 2 tag b.number).noteRelease b
  else { s with link := { s.link with chainBarriers := rest ++ [{ b with count := n }] } }

/-- Arrivals reach their root: at the participant count it releases, or joins the chain's barrier (R179, R327). -/
def State.arriveAtRoot (s : State) (course : Nat) (tag : W64) (number count scope : Nat) : State :=
  let b : Barrier := ⟨tagPart tag, tagContext tag, number, tagStep tag, count⟩
  let l := SMap.get [] s.fabric.barriers course
  let n := ((l.find? (sameBarrier b)).map (fun x => x.count)).getD 0 + count
  let rest := l.filter (fun x => !sameBarrier b x)
  let put := fun (s : State) (l : List Barrier) => { s with fabric := { s.fabric with barriers := SMap.put [] s.fabric.barriers course l } }
  if s.participants b.part course number ≤ n then
    let s := put s rest
    if scope = 2 then
      if s.admits b.part then s.chainArrive course b tag
      else s.chainSendAll b.part chainBarrier tag [1 + number * 256]
    else
      let s := s.sendRelease course scope tag number
      if scope = 1 then s.noteRelease b else s
  else put s (rest ++ [{ b with count := n }])

/-- Cores of a partition still parked in a barrier of a context. -/
def State.stillParked (s : State) (b : Barrier) : Bool :=
  s.cores.any (fun e => e.2.part == b.part && e.2.park == some (.bar b.number) &&
    (match e.2.slots[e.2.cur]? with | some x => x.slotRec.context == b.context | none => false))

/-- A die-wide release whose last participant has left ends; `NOC_BAR_MAX` keeps the longest, in clocks of 2.2 GHz. -/
def State.settleReleases (s : State) : State :=
  let done := s.fabric.releases.filter (fun e => !s.stillParked e.1)
  let s := { s with fabric := { s.fabric with releases := s.fabric.releases.filter (fun e => s.stillParked e.1) } }
  done.foldl (fun s e => s.wr Reg.NOC_BAR_MAX_CLOCKS 0 (max (s.rd Reg.NOC_BAR_MAX_CLOCKS) (min 65535 ((s.time - e.2) * 11 / 5)))) s

/-- RELEASE reaches a participant: a BAR of that number, in a slot of that context, completes (R155, R179). -/
def State.releaseAt (s : State) (core : Nat) (tag : W64) (number : Nat) : State :=
  let c := s.core core
  let here := match s.curSlot core with
    | some x => x.slotRec.context == tagContext tag && x.slotRec.step % 65536 == tagStep tag
    | none => false
  if c.park == some (.bar number) && c.part == tagPart tag && here then (s.unpark core).settleReleases else s

/-! Delivery -/

/-- A packet's partition is that of the core's course; jobs on unassigned courses carry partition 0 (R34, R44). -/
def State.ownPacket (s : State) (core : Nat) (tag : W64) : Bool :=
  match s.corePart core with
  | some p => p == tagPart tag
  | none => tagPart tag == 0

/-- An epoch is live on this device for a tag: prepared, current or draining; a job's packets carry none (R39, R49). -/
def State.epochLive (s : State) (tag : W64) : Bool :=
  decide (0xFF00 ≤ tagContext tag) ||
  (match s.epochSlot? (tagPart tag) (tagEpoch tag) with
   | some k => decide (2 ≤ s.rd Reg.LDR_EPOCH_STATE (epochKey (tagPart tag) k))
   | none => false)

/-- The tag's context is being cancelled (R49). -/
def State.cancelling (s : State) (tag : W64) : Bool :=
  decide (tagContext tag < 0xFF00) && (s.request (tagContext tag)).state == .cancelling && (s.request (tagContext tag)).part == tagPart tag

/-- A flit is discarded under R34, R49 or R185, with a FABRIC report that accuses a router. -/
def State.dropFlit (s : State) (r : Nat) (tag : W64) : State :=
  (s.bump Reg.NOC_DROP_COUNT).report { sender := unitRouter r, unit := unitRouter r, cls := 14, tag := tag }

/-- Tags of one message. -/
def sameMessage (a b : W64) : Bool := a.toNat % 2 ^ 58 == b.toNat % 2 ^ 58 && bit a.toNat 62 == bit b.toNat 62

/-- A message flit is placed by its offset in the message it belongs to (R155, R169). -/
def State.placePacket (s : State) (core : Nat) (f : Flit) : State :=
  let c := s.core core
  let last := bit f.tag.toNat 63
  let sus := bit f.tag.toNat 58
  let add := fun k : Packet =>
    if f.payload.isEmpty then { k with closed := true, empty := true, suspect := k.suspect || sus, since := s.time }
    else { k with granules := SMap.insert k.granules (routeOff f) f.payload, closed := k.closed || last, suspect := k.suspect || sus, since := s.time }
  let hit := fun k : Packet => k.channel == routeRch f && sameMessage k.tag f.tag && !packetWhole k
  let l := match c.packets.find? hit with
    | some k => c.packets.map (fun x => if x = k then add k else x)
    | none => c.packets ++ [add { channel := routeRch f, tag := f.tag, granules := [] }]
  (s.setCore core { c with packets := l }).wake core

/-- A contribution is folded into its reduction's buffer (R184, R185). -/
def foldContribution (b : RedBuffer) (f : Flit) : RedBuffer :=
  let b := { b with suspect := b.suspect || bit f.tag.toNat 58 }
  if routeKind f = 2 then { b with empties := b.empties + routeCnt f }
  else match SMap.find? b.granules (routeOff f) with
    | none => { b with granules := SMap.insert b.granules (routeOff f) (f.payload, routeCnt f) }
    | some (g, n) => { b with granules := SMap.insert b.granules (routeOff f) (combineWords b.max b.int g f.payload, n + routeCnt f) }

/-- A reduction flit reaches its destination: late ones are discarded; a router that may not accumulate takes none; a
mismatch of the duplicated adder counts, and the flits are accumulated again in the next clock (R185 to R187). -/
def State.contributeAt (s : State) (core : Nat) (f : Flit) (adderOk : Bool) : State :=
  let c := s.core core
  let mine := fun t : W64 => combineKey t == combineKey f.tag
  if c.closedReds.any (fun x => x.1 == routeRch f && mine x.2) then s.dropFlit core f.tag
  else if (s.router core).combineOff || s.inFallback core (tagPart f.tag) then s
  else
    let s := if adderOk then s else s.adderMismatch core f.tag
    let c := s.core core
    let hit := fun b : RedBuffer => b.channel == routeRch f && mine b.tag && b.max == routeMax f && b.int == routeInt f
    let l := match c.reductions.find? hit with
      | some b => c.reductions.map (fun x => if x = b then { foldContribution b f with since := s.time } else x)
      | none => c.reductions ++ [{ foldContribution { channel := routeRch f, tag := f.tag, max := routeMax f, int := routeInt f } f with since := s.time }]
    (s.setCore core { c with reductions := l }).wake core

/-- FLAG_ADD reaches its core: the flag saturates at 65,535 (R156). -/
def State.flagAt (s : State) (core flag value : Nat) : State :=
  let c := s.core core
  let v := min 65535 (SMap.get 0 c.flags flag + value)
  (s.setCore core { c with flags := SMap.put 0 c.flags flag v }).wake core

/-- A packet reaches a consume point (R34, R39, R49): foreign packets and dead epochs are dropped with a report, packets of a
cancelled context without one. -/
def State.consumePoint (s : State) (core : Nat) (tag : W64) (f : State → State) : State :=
  if !s.ownPacket core tag then s.dropFlit core tag
  else if s.cancelling tag && !bit tag.toNat 60 then s.bump Reg.NOC_DROP_COUNT
  else if !s.epochLive tag && !bit tag.toNat 60 then s.dropFlit core tag
  else f s

/-- A CONTROL flit acts at a core (Table 5.6). -/
def State.controlAt (s : State) (core : Nat) (f : Flit) : State :=
  match controlOp f with
  | 2 => s.releaseAt core f.tag (routeRch f)
  | 3 => s.flagAt core (routeRch f % 64) (controlArg f % 65536)
  | 4 => if bit f.tag.toNat 60 then s.dropCore core (tagPart f.tag) (tagContext f.tag) (if bit f.tag.toNat 59 then some (tagStep f.tag) else none) else s
  | 5 => s.reemitAt core f.tag (routeRch f) (controlArg f % 4)
  | _ => s

/-- Delivery to the core of a router. -/
def State.deliver (s : State) (core : Nat) (f : Flit) (adderOk : Bool) : State :=
  s.consumePoint core f.tag (fun s =>
    if isControl f then s.controlAt core f
    else if isReduction f then s.contributeAt core f adderOk
    else s.placePacket core f)

/-- Delivery at an express router's die-block port: a barrier root, a ZL port, or a block that takes it. -/
def State.deliverExpress (s : State) (c : Nat) (f : Flit) : State :=
  if routeKind f = 3 then
    let n := (routeRect f).1
    if 8 ≤ n ∧ n < 16 then s.zlMsg (n - 8) (routeRch f) (routeOff f) f.tag (leNat (bytesOf f.payload))
    else s.emit (.hop (expressRouter c) 4 f)
  else if isArrive f then
    if s.cancelling f.tag then s.bump Reg.NOC_DROP_COUNT
    else s.arriveAtRoot c f.tag (routeRch f) (routeCnt f) (controlArg f % 4)
  else s

/-- A router takes a flit: copies go to their output ports, combined where they may be; with `credit` each of those ports
sends in this slot (R172 to R174, R183). A CANCEL flag outside CONTROL is malformed (R49). -/
def State.routeFlit (s : State) (r input : Nat) (f : Flit) (adderOk credit : Bool) : State :=
  if bit f.tag.toNat 60 && !isControl f then s.dropFlit r f.tag
  else
    let cs := s.copies r input f
    let s := cs.foldl (fun s (o, g) =>
      if o = 4 then (if r < 11000 then s.deliver r g adderOk else s.deliverExpress (r - 11000) g)
      else s.enqueue r o g adderOk) s
    if credit then ((cs.map Prod.fst).eraseDups.filter (· != 4)).foldl (fun s o => s.sendSlot r o) s else s

/-- One flit slot of every port of every router that holds flits: what a tick does. -/
def State.fabricTick (s : State) : State :=
  s.forEach (s.fabric.routers.flatMap (fun e => ((e.2.waiting.map Prod.fst).eraseDups).map (fun o => (e.1, o)))) (fun s x => s.sendSlot x.1 x.2)

end Sys2Proof.Machine
end

