-- ==== Sys2Proof/Machine/TabOps.lean ====
section
/-! DEFINITION. Machine/TabOps.lean: program copies and their installation, signatures, the weight source of a repair, spares
and course maps (R88, R143, R188 to R193, R213, R331, R422). -/
namespace Sys2Proof.Machine

/-- The logical coordinates that a physical core stands for (R189, R190). -/
def State.logicalCore (s : State) (core : Nat) : Option (Nat × Nat) :=
  match s.logicalOf (courseOf core) with
  | none => none
  | some l =>
    let rep := s.rd Reg.NOC_SPARE_MAP_REPLACED (10 * rowOf core + colOf core / 11)
    let c := colOf core % 11
    let x := if c = 10 then rep else if rep = c then 15 else c
    if x < 10 then some (10 * (l % 10) + x, 10 * (l / 10) + rowOf core % 10) else none

/-- Key of logical coordinates in the loader's maps. -/
def xyKey (x y : Nat) : Nat := 100 * y + x

/-! Tabs (R143, R187, R213) -/

/-- Write a tab into a core's tab SRAM. -/
def State.installTab (s : State) (core epoch : Nat) (t : TabRecord) : State :=
  let s := s.clearTab core
  let s := s.tabWrite core 0 (t.words.flatMap (fun w => leBytes 16 w.toNat))
  let s := t.descs.zipIdx.foldl (fun s (d, i) => s.tabWrite core (32768 - 32 * (i + 1)) (leBytes 32 d.toNat)) s
  let top := 32768 - 32 * t.descs.length
  let s := t.channels.zipIdx.foldl (fun s (c, i) => s.tabWrite core (top - 8 * (i + 1)) (leBytes 8 c.toNat)) s
  let s := ((s.wr Reg.CRS_CORE_TAB_NINSTR core t.words.length).wr Reg.CRS_CORE_TAB_NDESC core t.descs.length).wr Reg.CRS_CORE_TAB_EPOCH core epoch
  { s with loader := { s.loader with constWindow := SMap.insert s.loader.constWindow core t.window } }

/-- The epoch constant offset of an epoch slot at a core: the identity for slots of full images, else the bank of the slot
(R213). -/
def State.coffOf (s : State) (core slot : Nat) : Nat := SMap.get 0 s.loader.coff (4 * core + slot)

/-- Write a core's constants, each into the bank of its epoch. -/
def State.installConsts (s : State) (core x y : Nat) : State :=
  (s.loader.consts.filter (fun e => e.2.x == x && e.2.y == y)).foldl (fun s e =>
    s.dataWrite core (e.2.offset + 32 * s.coffOf core (e.1 % 4)) e.2.data) s

/-- The loader reloads a core from the program copies: its fallback tab where fallback is in force, else its tab, and its
constants (R187, R422). -/
def State.reloadCore (s : State) (core : Nat) : State :=
  match s.logicalCore core, s.corePart core with
  | some (x, y), some p =>
    let fb := s.fabric.fallback.contains (100 * p + courseOf core)
    let t := if fb then (SMap.find? s.loader.fallbacks (xyKey x y)) <|> (SMap.find? s.loader.tabs (xyKey x y)) else SMap.find? s.loader.tabs (xyKey x y)
    (match t with
     | some t => ((s.installTab core (if s.currentEpoch p = 0 then s.rd Reg.LDR_LOAD_EPOCH p else s.currentEpoch p) t).setCore core { s.core core with fallback := fb, reload := false }).installConsts core x y
     | none => s)
  | _, _ => s

/-- Physical cores for which program copies are held. -/
def State.programmedCores (s : State) : List Nat :=
  ((s.loader.tabs.map Prod.fst ++ s.loader.fallbacks.map Prod.fst ++ s.loader.consts.map (fun e => xyKey e.2.x e.2.y)).eraseDups).filterMap (fun k => s.physOf (k % 100) (k / 100))

/-- The loader reloads every core of a physical course. -/
def State.reloadCourse (s : State) (course : Nat) : State :=
  s.forEach (s.programmedCores.filter (fun k => courseOf k == course)) State.reloadCore

/-- The loader reloads every core. -/
def State.reloadAll (s : State) : State := s.forEach s.programmedCores State.reloadCore

/-! Signatures (R331, R332) -/

/-- Rows of probe conversion (k, g) (R330). -/
def probeRows (k g : Nat) : List Nat := [32 * g + k, 32 * g + k + 8, 32 * g + k + 16, 32 * g + k + 24]

/-- The signature word of probe conversion (k, g) from stored levels (Table 11.1). -/
def signatureWord (levels : List Nat) (k g : Nat) : Nat :=
  let row := fun r => (levels.drop (32 * r)).take 32
  let sums := (probeRows k g).map (fun r => (row r).sum)
  let weighted := (probeRows k g).map (fun r => ((row r).zipIdx.map (fun (v, j) => (j + 1) * v)).sum)
  let sumd := sums.sum
  let c0 := (roundDiv sumd 32 true).toNat
  let c1 := (roundDiv weighted.sum 528 true).toNat
  sumd % 2048 + (c0 % 64) * 2 ^ 11 + (c1 % 64) * 2 ^ 17 + 2 ^ 31

/-- Stack address of the signature of a tier of a logical array (R332). -/
def State.signatureAddress (s : State) (x y array tier : Nat) : Nat :=
  65536 * s.rd Reg.CAL_SIG_BASE_FRAME + (((100 * y + x) * 8 + array) * 127 + tier) * 256

/-- The logical array that a physical array stands for. -/
def State.logicalArray (s : State) (core array : Nat) : Nat := if array = 8 then s.rd Reg.CRS_ARR_SPARE_MAP_REPLACED core else array

/-- Stack address of the signature of a physical tier, where it stands for a logical one. -/
def State.signatureOf (s : State) (tk : Nat) : Option Nat :=
  let k := tk / 128
  match s.logicalCore (k / 9) with
  | some (x, y) =>
    let a := s.logicalArray (k / 9) (k % 9)
    if a < 8 ∧ tk % 128 < 127 then some (s.signatureAddress x y a (tk % 128)) else none
  | none => none

/-- The stored levels of a tier, row by row. -/
def State.levelsOf (s : State) (tk : Nat) : List Nat :=
  (List.range 8192).map (fun i => SMap.get 0 s.cells (8192 * tk + i))

/-- Write the full signature of a tier from its stored levels, and its residues (R331). -/
def State.sign (s : State) (tk : Nat) : State :=
  let l := s.levelsOf tk
  let ws := (List.range 64).map (fun i => signatureWord l (i / 8) (i % 8))
  let s := match s.signatureOf tk with
    | some a => s.stackWrite a (ws.flatMap (leBytes 4))
    | none => s
  { s with peg := { s.peg with residues := SMap.insert s.peg.residues tk (ws.map (fun w => w % 8)) } }

/-! Repairs (R88, R188) -/

/-- Wear of a tier: what `CRS_ARR_WEAR.MAX_CYCLES` shows is its largest whole number of cycles (R58). -/
def State.noteWear (s : State) (tk row : Nat) : State :=
  let n := (SMap.get 0 s.peg.wear tk + SMap.get 0 s.peg.rowWear (256 * tk + row)) / 1000
  let k := tk / 128
  s.wr Reg.CRS_ARR_WEAR_MAX_CYCLES k (min (2 ^ 17 - 1) (max (s.rd Reg.CRS_ARR_WEAR_MAX_CYCLES k) n))

/-- Ask the loader to program a tier from its weight source: its VERIFIED bit clears. A tier without one stays as it is. -/
def State.askProgram (s : State) (from_ tk : Nat) : State :=
  match SMap.find? s.loader.source from_ with
  | none => s
  | some (f, levels) =>
    let s := s.wr Reg.CRS_ARR_TFMT_VERIFIED tk 0
    let t : Tile := { tier := tk, shard := 0xFFFFFFFF, format := f, levels := levels }
    if s.loader.repairs.any (fun q => q.tier == tk) then s
    else { s with loader := { s.loader with source := SMap.insert s.loader.source tk (f, levels), repairs := s.loader.repairs ++ [t] } }

/-- A full reprogram of a tier (R336): VERIFIED clears, the loader programs it again, and CHECK_ANALOG is reported under the
course's Peg job. -/
def State.fullReprogram (s : State) (tk : Nat) : State :=
  let k := tk / 128
  let course := courseOf (k / 9)
  let s := (s.wr Reg.CRS_ARR_TFMT_VERIFIED tk 0).askProgram tk tk
  let s := s.bump Reg.CAL_PEG_CNT_REPROG_COUNT course
  let u := unitTier (k / 9) (k % 9) (tk % 128)
  s.report { sender := unitCourse course 0, unit := u, cls := 3, tag := tagOf ((s.coursePart course).getD 0) (0xFF00 + course) 0 0 3 0 0 }

/-- The tiers of an array that a weight source is known for move to another array, to be programmed there. -/
def State.moveTiers (s : State) (from_ dst : Nat) : State :=
  let ts := (List.range 127).filter (fun t => (SMap.find? s.loader.source (128 * from_ + t)).isSome)
  let s := s.forEach ts (fun s t => s.askProgram (128 * from_ + t) (128 * dst + t))
  let moved := fun tk : Nat => if tk / 128 = from_ then 128 * dst + tk % 128 else tk
  { s with loader := { s.loader with epochs := s.loader.epochs.map (fun e => (e.1, { e.2 with tiers := e.2.tiers.map moved })) } }

/-- A core's tiers, epoch maps and tab move to the core that now stands in its place. -/
def State.moveCore (s : State) (from_ dst : Nat) : State :=
  let s := s.forEach (List.range 8) (fun s a =>
    let src := (if s.rd Reg.CRS_ARR_SPARE_MAP_REPLACED from_ = a then 8 else a)
    s.moveTiers (arrayKey from_ src) (arrayKey dst a))
  let tm := (s.loader.tierMap.filter (fun e => e.1 / 512 == from_))
  let cf := (s.loader.coff.filter (fun e => e.1 / 4 == from_))
  let s := { s with loader := { s.loader with tierMap := tm.foldl (fun m (e : Nat × Nat) => SMap.insert m (512 * dst + e.1 % 512) e.2) s.loader.tierMap, coff := cf.foldl (fun m (e : Nat × Nat) => SMap.insert m (4 * dst + e.1 % 4) e.2) s.loader.coff } }
  s.reloadCore dst

/-- Every tier that a non-FREE epoch uses in an array is verified. -/
def State.arrayVerified (s : State) (k : Nat) : Bool :=
  (s.loader.epochs.flatMap (fun e => e.2.tiers)).all (fun t => t / 128 != k || s.is Reg.CRS_ARR_TFMT_VERIFIED t)

/-- Map the spare array of a core in place of a failed one (R88, R89). -/
def State.mapSpareArray (s : State) (core failed : Nat) : State :=
  if s.rd Reg.CRS_ARR_SPARE_MAP_REPLACED core ≠ 15 then s
  else
    let s := ((s.wr Reg.CRS_ARR_SPARE_MAP_REPLACED core failed).wr Reg.CRS_ARR_SPARE_MAP_ACTIVE core 0).wr Reg.CRS_ARR_STATUS_STATE (arrayKey core 8) 0
    let s := if failed = 0 then s.wr Reg.CRS_ARR_SPARE_MAP_SYS_MOVED core 1 else s
    s.moveTiers (arrayKey core failed) (arrayKey core 8)

/-- The spare of a core serves once its tiers are verified (R89). -/
def State.settleSpareArray (s : State) (core : Nat) : State :=
  if s.rd Reg.CRS_ARR_SPARE_MAP_REPLACED core < 8 ∧ !s.is Reg.CRS_ARR_SPARE_MAP_ACTIVE core ∧ s.arrayVerified (arrayKey core 8) then
    s.wr Reg.CRS_ARR_SPARE_MAP_ACTIVE core 1 else s

/-- The spare core of a row is active once its tiers are verified (R189). -/
def State.settleSpareCore (s : State) (core : Nat) : State :=
  let site := 10 * rowOf core + colOf core / 11
  if colOf core % 11 = 10 ∧ s.rd Reg.NOC_SPARE_MAP_REPLACED site < 10 ∧ (List.range 9).all (fun a => s.arrayVerified (arrayKey core a)) then
    s.wr Reg.NOC_SPARE_MAP_ACTIVE site 1 else s

/-! Maps (R189 to R193) -/

/-- A unit given up: its cores wait for the routers to take the map (R192). -/
def State.giveUp (s : State) (cores : List Nat) : State :=
  { s with fabric := { s.fabric with failedCores := s.fabric.failedCores ++ cores } }

/-- Requests of a partition in flight fault, unless full redundancy covers the course (R190). -/
def State.courseLost (s : State) (l : Nat) : State :=
  if !s.is Reg.PRT_COURSE_ASSIGNED l then s
  else
    let p := s.rd Reg.PRT_COURSE_PART l
    if s.is Reg.PRT_PCTRL_REDUNDANT p then s
    else s.forEach ((s.entriesOf p).filter (fun i => runState (s.request i).state)) (fun s i => s.faultRequest i codeContextReset)

/-- A change that the rules of R189 to R191 allow; one that they do not allow changes nothing. -/
def State.changeMap (s : State) : MapUpdate → State
  | .spare row cc col =>
    let site := 10 * row.val + cc.val
    if s.rd Reg.NOC_SPARE_MAP_REPLACED site ≠ 15 ∨ s.is Reg.NOC_SPARE_MAP_SPARE_FAILED site then s
    else
      let base := 110 * row.val + 11 * cc.val
      let s := (s.wr Reg.NOC_SPARE_MAP_REPLACED site col.val).wr Reg.NOC_SPARE_MAP_ACTIVE site 0
      (s.giveUp [base + col.val]).moveCore (base + col.val) (base + 10)
  | .spareFailed row cc =>
    let site := 10 * row.val + cc.val
    (s.wr Reg.NOC_SPARE_MAP_SPARE_FAILED site 1).giveUp [110 * row.val + 11 * cc.val + 10]
  | .course l p =>
    let old := s.rd Reg.NOC_COURSE_MAP_PHYS l.val
    if (s.coursePart p.val).isSome ∨ old = p.val then s
    else
      let other := s.logicalOf p.val
      let pairs := (coresOf old).zip (coresOf p.val)
      let s := (s.wr Reg.NOC_COURSE_MAP_PHYS l.val p.val).wr Reg.NOC_COURSE_MAP_OUT l.val 0
      let s := match other with
        | some q => (s.wr Reg.NOC_COURSE_MAP_PHYS q old).wr Reg.NOC_COURSE_MAP_OUT q 1
        | none => s
      (s.giveUp (coresOf old)).forEach pairs (fun s (a, b) => s.moveCore a b)
  | .courseOut l => (s.wr Reg.NOC_COURSE_MAP_OUT l.val 1).courseLost l.val
  | .failed r none => s.wr Reg.NOC_FAIL_ROUTER r.val 1
  | .failed r (some .attach) => s.wr Reg.NOC_FAIL_ATTACH r.val 1
  | .failed r (some .core) => s.wr Reg.NOC_FAIL_ROUTER r.val 1
  | .failed r (some d) => s.wr Reg.NOC_FAIL_LINK r.val (setBit (s.rd Reg.NOC_FAIL_LINK r.val) (portCode d) true)
  | .express c => s.wr Reg.NOC_FAIL_EXPRESS c.val 1

/-- A die-wide release in flight withholds a map update, for at most 300 ns (R193). -/
def State.mapsHeld (s : State) : Bool := s.fabric.releases.any (fun e => decide (s.time < e.2 + 300))

/-- The management firmware writes new maps and the update is broadcast: PENDING (R192). -/
def State.updateMap (s : State) (u : MapUpdate) : State :=
  if s.mapsHeld then { s with fabric := { s.fabric with heldMaps := s.fabric.heldMaps ++ [u] } }
  else (s.changeMap u).wr Reg.NOC_MAP_GEN_PENDING 0 1

/-- Withheld updates go out when nothing withholds them. -/
def State.mapTick (s : State) : State :=
  if s.mapsHeld then s
  else
    let l := s.fabric.heldMaps
    ({ s with fabric := { s.fabric with heldMaps := [] } }).forEach l State.updateMap

/-- Every router has taken the update: contexts with a slot on a given-up core are step-aborted, and it runs no more. -/
def State.mapApplied (s : State) : State :=
  if !s.is Reg.NOC_MAP_GEN_PENDING then s
  else
    let l := s.fabric.failedCores
    let s := (s.wr Reg.NOC_MAP_GEN_PENDING 0 0).wr Reg.NOC_MAP_GEN_GEN 0 (s.rd Reg.NOC_MAP_GEN_GEN + 1)
    let s := { s with fabric := { s.fabric with failedCores := [] } }
    s.forEach l (fun s k =>
      let s := s.abortSlots k
      s.setCore k { s.core k with running := false, ending := false, inflight := [], park := none, slots := [], body := none })

end Sys2Proof.Machine
end

