-- ==== Sys2Proof/Machine/LoaderOps.lean ====
section
/-! DEFINITION. Machine/LoaderOps.lean: load descriptors and their completions, loads, shards, the Relay, programming, and
epoch transactions (chapter 6). -/
namespace Sys2Proof.Machine

/-! Descriptors and completions (R204, R285) -/

def ldOp (d : BitVec 512) : Nat := bits d.toNat 0 8
def ldPart (d : BitVec 512) : Nat := bits d.toNat 8 4
def ldEpoch (d : BitVec 512) : Nat := bits d.toNat 16 8
def ldNoHold (d : BitVec 512) : Bool := bit d.toNat 24
def ldShadow (d : BitVec 512) : Bool := bit d.toNat 25
def ldResident (d : BitVec 512) : Bool := bit d.toNat 26
def ldArg (d : BitVec 512) : Nat := bits d.toNat 32 32
def ldCookie (d : BitVec 512) : W64 := BitVec.ofNat 64 (bits d.toNat 64 64)
def ldAddr (d : BitVec 512) : Nat := bits d.toNat 128 64
def ldLen (d : BitVec 512) : Nat := bits d.toNat 192 32
def ldPosition (d : BitVec 512) : Nat := bits d.toNat 224 8
def ldMember (d : BitVec 512) : Nat := bits d.toNat 232 8
def ldUp (d : BitVec 512) : Nat := bits d.toNat 240 4
def ldDn (d : BitVec 512) : Nat := bits d.toNat 244 4
def ldPlan (d : BitVec 512) : Nat := bits d.toNat 256 64
def ldPlanLen (d : BitVec 512) : Nat := bits d.toNat 320 16
def ldRank (d : BitVec 512) : Nat := bits d.toNat 336 16
def ldTimeout (d : BitVec 512) : Nat := bits d.toNat 352 32

/-- The reserved bits of Table 6.3 are 0. -/
def ldReserved (d : BitVec 512) : Bool :=
  bits d.toNat 12 4 == 0 && bits d.toNat 27 5 == 0 && bits d.toNat 248 8 == 0 && bits d.toNat 384 128 == 0

/-- A load completion (Table 8.6). -/
structure LoadDone where
  code : Nat := 0
  reason : Nat := 0
  detail : Nat := 0
  need : Bool := false
  shard : Nat := 0xFFFFFFFF
  adapter : Nat := 0xFFFF
  epoch : Nat := 0
  member : Nat := 0xFFFF
deriving DecidableEq, Repr

/-- The 32 bytes of a load completion. -/
def loadWord (cookie : W64) (op part now : Nat) (c : LoadDone) : Nat :=
  cookie.toNat + op * 2 ^ 64 + c.code * 2 ^ 72 + c.reason * 2 ^ 80 + c.detail * 2 ^ 88 + c.need.toNat * 2 ^ 92 +
  c.shard * 2 ^ 96 + c.adapter * 2 ^ 128 + c.epoch * 2 ^ 144 + part * 2 ^ 152 + c.member * 2 ^ 160 + now * 2 ^ 192

/-- Write a load completion for a descriptor of a ring; one whose ring a port reset has disabled is dropped (R274). -/
def State.loadComplete (s : State) (ring : Nat) (cookie : W64) (op part : Nat) (c : LoadDone) : State :=
  if s.ringKind ring ≠ kindLoad then s
  else s.ringPush (s.rd Reg.RCB_PAIR_CPL ring) 32 (loadWord cookie op part s.now c)

/-- The completion of the descriptor at hand. -/
def State.loadDone (s : State) (ring : Nat) (d : BitVec 512) (c : LoadDone) : State :=
  s.loadComplete ring (ldCookie d) (ldOp d) (ldPart d) c

/-- Consume the next entry of a LOAD ring: one with an OP or a partition that is not allowed, or with reserved bits set,
completes with INVALID_FIELD; one of another OP is not this command's. What `note` records is recorded of an entry refused for
its reserved bits on a partition that its function exposes (a BEGIN or COMMIT that did not complete OK, `LDR_LOAD_ERR`). -/
def State.loadEntryNoting (s : State) (ring op : Nat) (d : BitVec 512) (note act : State → State) : State :=
  if ldOp d = 0 ∨ 11 ≤ ldOp d then s.fetch ring kindLoad (fun s => s.loadDone ring d { code := codeInvalid })
  else if ldOp d ≠ op then s
  else s.fetch ring kindLoad (fun s =>
    if !s.exposes (s.ringFn ring) (ldPart d) then s.loadDone ring d { code := codeInvalid }
    else if !ldReserved d then (note s).loadDone ring d { code := codeInvalid }
    else act s)

/-- Consume the next entry of a LOAD ring whose refusal no other register records. -/
def State.loadEntry (s : State) (ring op : Nat) (d : BitVec 512) (act : State → State) : State :=
  s.loadEntryNoting ring op d (fun s => s) act

/-- Record the code of a BEGIN or COMMIT that did not complete OK (`LDR_LOAD_ERR`). -/
def State.loadError (s : State) (p : Nat) (c : LoadDone) (mask : Nat) : State :=
  (((s.wr Reg.LDR_LOAD_ERR_CODE p c.code).wr Reg.LDR_LOAD_ERR_REASON p c.reason).wr Reg.LDR_LOAD_ERR_NOFIT_MASK p mask).wr
    Reg.LDR_LOAD_ERR_DETAIL p c.detail

/-! Landing buffers (R199, R200) -/

/-- BAR4 size in force on both ports. -/
def State.bar4Size (s : State) : Nat := 268435456 * 2 ^ (min (s.portState 0).bar4 (s.portState 1).bar4)

/-- BAR4-window offset of the landing area. -/
def State.landBase (s : State) : Nat := s.rd Reg.LDR_LAND_BASE_OFFSET / 67108864 * 67108864

/-- Landing buffers that lie wholly within the BAR4 size in force. -/
def State.usableBuffers (s : State) : Nat :=
  min (s.rd Reg.LDR_LAND_SIZE_BUFFERS) ((s.bar4Size - s.landBase) / 67108864)

/-- Stack address of a BAR4 offset (R268). -/
def State.bar4Address (s : State) (off : Nat) : Nat := s.rd Reg.HIF_BAR4_BASE_BASE / 1073741824 * 1073741824 + off

/-- The landing buffer of a BAR4 offset. -/
def State.bufferOf (s : State) (off : Nat) : Nat := (off - s.landBase) / 67108864

/-- A run of bytes lies within one usable buffer. -/
def State.inBuffer (s : State) (addr len : Nat) : Bool :=
  decide (s.landBase ≤ addr) && decide (0 < len) && addr % 4096 == 0 &&
  decide ((addr - s.landBase) / 67108864 < s.usableBuffers) &&
  (addr - s.landBase) / 67108864 == (addr + len - 1 - s.landBase) / 67108864

/-! Loads (R207) -/

/-- Load state of a partition (Table 6.4). -/
def State.loadState (s : State) (p : Nat) : Nat := s.rd Reg.LDR_LOAD_STATE p

/-- The member that a Relay position holds, and whether it keeps that member's shards (R202). -/
def planMember (l : Load) (pos : Nat) : Nat := (l.plan.getD pos 0).toNat % 256
def planKeeps (l : Load) (pos : Nat) : Bool := bit (l.plan.getD pos 0).toNat 8

/-- A position keeps shards of a member (255: of every member). -/
def posKeeps (l : Load) (member pos : Nat) : Bool := planKeeps l pos && (member == 255 || planMember l pos == member)

/-- This device keeps a shard. -/
def State.keepsShard (s : State) (p : Nat) (l : Load) (e : ShardEntry) : Bool :=
  (e.member == 255 || e.member == s.rd Reg.LDR_LOAD_MEMBER p) && (l.plan.isEmpty || planKeeps l (s.rd Reg.LDR_LOAD_POSITION p))

/-- A later position of the Relay keeps it; CALSEQ shards go to every position (R203). -/
def State.forwardsShard (s : State) (p : Nat) (l : Load) (e : ShardEntry) : Bool :=
  decide (l.dnport < 8) &&
  ((List.range l.plan.length).any (fun i => decide (s.rd Reg.LDR_LOAD_POSITION p < i) && (e.kind == 4 || posKeeps l e.member i)))

def shardEntry? (l : Load) (index : Nat) : Option ShardEntry := (l.manifest.map (fun m => m.shards)).bind (fun es => es.find? (fun e => e.index == index))

/-- Entries that this device keeps. -/
def State.keptShards (s : State) (p : Nat) (l : Load) : List ShardEntry :=
  match l.manifest with
  | some m => m.shards.filter (fun e => s.keepsShard p l e)
  | none => []

def shardState (l : Load) (i : Nat) : ShardState := SMap.get {} l.shards i

/-- Change what the load of a partition holds of a shard; `LDR_LOAD_BAD` shows the lowest one corrupt or missing. -/
def State.setShard (s : State) (p i : Nat) (f : ShardState → ShardState) : State :=
  match s.load? p with
  | none => s
  | some l =>
    let l := { l with shards := SMap.put {} l.shards i (f (shardState l i)) }
    let bad := (List.find? (fun e => e.2.missing && !e.2.verified) l.shards).map Prod.fst
    (s.setLoad p (some l)).wr Reg.LDR_LOAD_BAD_SHARD p (bad.getD 0xFFFFFFFF)

/-- The load's programming stops: its staged tiers and its epoch slot are free (R207). -/
def State.dropLoad (s : State) (p : Nat) : State :=
  match s.load? p with
  | none => (s.wr Reg.LDR_LOAD_STATE p 0).wr Reg.LDR_LOAD_EPOCH p 0
  | some l =>
    let k := epochKey p l.slot
    let staged := decide (3 ≤ s.loadState p) && (s.rd Reg.LDR_EPOCH_STATE k == 1 || s.rd Reg.LDR_EPOCH_STATE k == 2)
    let mine := fun e : Nat × ArrayState => match e.2.prog with
      | some j => j.tile.shard != 0xFFFFFFFF && s.corePart (e.1 / 9) == some p
      | none => false
    let s := s.forEach (s.arrays.filter mine) (fun s e => (s.setArray e.1 { s.array e.1 with prog := none }).wr Reg.CRS_ARR_STATUS_PROG e.1 0)
    let s := if staged then s.freeEpoch p l.slot else s
    ((s.setLoad p none).wr Reg.LDR_LOAD_STATE p 0).wr Reg.LDR_LOAD_EPOCH p 0

/-- The completion of BEGIN, once. -/
def State.answerBegin (s : State) (p : Nat) (c : LoadDone) (mask : Nat) : State :=
  match s.load? p with
  | none => s
  | some l =>
    let s := if c.code = codeOk then s else s.loadError p c mask
    if l.answered then s
    else (s.setLoad p (some { l with answered := true })).loadComplete l.ring l.cookie 1 p { c with epoch := s.rd Reg.LDR_LOAD_EPOCH p }

/-- Open SHARD descriptors complete. -/
def State.closePosters (s : State) (p code : Nat) : State :=
  match s.load? p with
  | none => s
  | some l => s.forEach l.shards (fun s e =>
      (s.forEach e.2.posters (fun s q => s.loadComplete q.1 q.2 2 p { code := code, shard := e.1 })).setShard p e.1 (fun x => { x with posters := [] }))

/-- A load ends: open descriptors complete, what was staged is free, the state is IDLE. -/
def State.endLoad (s : State) (p : Nat) (c : LoadDone) (mask : Nat) : State :=
  ((s.closePosters p codeCancelled).answerBegin p c mask).dropLoad p

/-! The Relay (R199 to R203, R211, R328) -/

/-- Tag of a partition's load job: CLASS MAINT under a job ID of the loader. -/
def loadTag (p : Nat) : W64 := tagOf p (0xFF80 + p) 0 0 3 0xFFF 0

/-- Open a Relay stream downstream (Table 10.4). -/
def State.relayOpen (s : State) (port p sid member kind index len : Nat) (digest : BitVec 256) : State :=
  s.zlSend port ftHead sid (loadTag p) (sid + member * 4 + kind * 2 ^ 10 + index * 2 ^ 32 + len * 2 ^ 64 + digest.toNat * 2 ^ 96)

/-- Send bytes of a Relay stream, 40 to a flit. `n` bounds the flits. -/
def State.relaySend : Nat → State → Nat → Nat → Nat → Nat → List Byte → State
  | 0, s, _, _, _, _, _ => s
  | n + 1, s, port, p, sid, off, bs =>
    if bs.isEmpty then s
    else State.relaySend n (s.zlSend port ftData sid (loadTag p) (off / 4 % 2 ^ 24 + sid * 2 ^ 24 + leNat (bs.take 40) * 2 ^ 32)) port p sid (off + 40) (bs.drop 40)

/-- Forward a whole shard or manifest downstream from the head. -/
def State.relayWhole (s : State) (port p member kind index : Nat) (digest : BitVec 256) (bs : List Byte) : State :=
  if port < 8 && s.zlUp port then
    State.relaySend (bs.length / 40 + 1) (s.relayOpen port p 0 member kind index bs.length digest) port p 0 0 bs
  else s

/-- The next attempt for a shard that is corrupt or missing (R211). -/
def State.reRequest (s : State) (p i : Nat) : State :=
  match s.load? p with
  | none => s
  | some l =>
    let n := (shardState l i).attempts + 1
    if s.loadState p = 7 then s.setShard p i (fun x => { x with missing := true })
    else if 3 < n then
      let s := (s.setShard p i (fun x => { x with missing := true })).wr Reg.LDR_LOAD_STATE p 7
      s.answerBegin p { code := codeLoadIncomplete } 0
    else
      let member := ((shardEntry? l i).map (fun e => e.member)).getD 255
      let pos := s.rd Reg.LDR_LOAD_POSITION p
      let holder := (List.range pos).any (fun q => posKeeps l member q)
      let s := (s.setShard p i (fun x => { x with attempts := n, missing := true, since := s.time })).bump Reg.LDR_RELAY_REQ_COUNT
      if n = 1 && holder && decide (l.upport < 8) && s.zlUp l.upport then
        s.zlSend l.upport ftReq 0 (loadTag p) (pos + i * 2 ^ 32 + (0xFF80 + p) * 2 ^ 64)
      else s.loadComplete l.ring l.cookie 1 p { code := codeLoadIncomplete, need := true, shard := i, epoch := s.rd Reg.LDR_LOAD_EPOCH p }

/-! Epochs and transactions (R213 to R219) -/

def emSub (m : BitVec 256) : Nat := bits m.toNat 8 8
def emEpoch (m : BitVec 256) : Nat := bits m.toNat 16 8
def emPrev (m : BitVec 256) : Nat := bits m.toNat 24 8
def emCode (m : BitVec 256) : Nat := bits m.toNat 32 8
def emReason (m : BitVec 256) : Nat := bits m.toNat 40 8
def emMember (m : BitVec 256) : Nat := bits m.toNat 48 16
def emTxn (m : BitVec 256) : W64 := BitVec.ofNat 64 (bits m.toNat 64 64)
def emTimeout (m : BitVec 256) : Nat := bits m.toNat 128 32

/-- Send an epoch message (Table 6.8) over the chain, if it has other members. -/
def State.sendEpoch (s : State) (p members sub epoch prev code reason : Nat) (txn : W64) (timeout : Nat) : State :=
  if members ≤ 1 then s
  else s.chainSend p chainEpoch (epochMessage sub epoch prev code reason (s.rd Reg.LDR_LOAD_MEMBER p) txn timeout)

def State.txn? (s : State) (p : Nat) : Option Txn := SMap.find? s.loader.txns p
def State.setTxn (s : State) (p : Nat) (t : Option Txn) : State :=
  { s with loader := { s.loader with txns := match t with | some t => SMap.insert s.loader.txns p t | none => SMap.erase s.loader.txns p } }
def State.setMemberTxn (s : State) (p : Nat) (t : Option (Nat × W64)) : State :=
  { s with loader := { s.loader with memberTxn := match t with | some t => SMap.insert s.loader.memberTxn p t | none => SMap.erase s.loader.memberTxn p } }

/-- An epoch becomes CURRENT; the one before it drains, with a hold unless none is wanted (R214). -/
def State.makeCurrent (s : State) (p slot : Nat) (hold : Bool) : State :=
  let k := epochKey p slot
  let old := s.currentSlot? p
  let s := match old with
    | some o => (s.wr Reg.LDR_EPOCH_STATE (epochKey p o) 4).wr Reg.LDR_EPOCH_HOLD (epochKey p o) hold.toNat
    | none => s
  let s := (s.wr Reg.LDR_EPOCH_STATE k 3).wr Reg.LDR_EPOCH_HOLD k 0
  let i := s.epochInfo k
  let s := s.setEpochInfo k { i with currentAt := s.time, restore := false }
  let s := (s.wr Reg.SRV_PART_KVGEO_STREAMS p i.streams).wr Reg.SRV_PART_KVGEO_LOG2_TP p i.log2Tp
  let s := if i.restore then s.wr Reg.FLT_PROG_LOST_PART 0 (setBit (s.rd Reg.FLT_PROG_LOST_PART) p false) else s
  match old with
  | some o => s.retire p o
  | none => s

/-- The load of an epoch that is committed is over. -/
def State.closeLoad (s : State) (p : Nat) : State :=
  if s.loadState p = 6 then ((s.setLoad p none).wr Reg.LDR_LOAD_STATE p 0).wr Reg.LDR_LOAD_EPOCH p 0 else s

/-- A transaction ends with a completion for the descriptor that opened it. -/
def State.endTxn (s : State) (p : Nat) (t : Txn) (c : LoadDone) : State :=
  let s := (s.setTxn p none).setMemberTxn p none
  let s := if c.code = codeOk || t.rollback then s else s.loadError p c (if c.code = codeNofit then 2 ^ (c.reason - 1) else 0)
  s.loadComplete t.ring t.cookie (if t.rollback then 5 else 4) p { c with epoch := t.epoch }

/-- The staged epoch of an aborted transaction is free, and its load stops (R38, R207). -/
def State.freeStaged (s : State) (p epoch : Nat) : State :=
  match s.epochSlot? p epoch with
  | some k =>
    let st := s.rd Reg.LDR_EPOCH_STATE (epochKey p k)
    if st = 1 ∨ st = 2 then
      if (s.load? p).isSome ∧ s.rd Reg.LDR_LOAD_EPOCH p = epoch then s.endLoad p { code := codeCancelled } 0 else s.freeEpoch p k
    else s
  | none => s

/-- The admitting device aborts a transaction (R38, R216). -/
def State.abortTxn (s : State) (p : Nat) (t : Txn) (c : LoadDone) : State :=
  let s := s.sendEpoch p t.members 6 t.epoch 0 0 0 t.id 0
  let s := s.endTxn p t c
  if t.rollback then s else s.freeStaged p t.epoch

/-- PREPARED from every member: the epoch is CURRENT, which is the commit point, and COMMIT goes out (R39, R216). -/
def State.commitTxn (s : State) (p : Nat) (t : Txn) : State :=
  match s.epochSlot? p t.epoch with
  | none => s.abortTxn p t { code := codeCancelled }
  | some k =>
    let prev := s.currentEpoch p
    let s := (s.makeCurrent p k (!t.nohold)).closeLoad p
    let s := s.sendEpoch p t.members 5 t.epoch prev 0 0 t.id 0
    s.endTxn p t {}

/-- READY from a member; from every member, the calibration begins (R216). -/
def State.recordReady (s : State) (p member : Nat) : State :=
  match s.txn? p with
  | none => s
  | some t =>
    let l := (t.ready ++ [member]).eraseDups
    s.setTxn p (some { t with ready := l, calibrating := t.calibrating || decide (t.members ≤ l.length) })

/-- PREPARED from a member. -/
def State.recordPrepared (s : State) (p member : Nat) : State :=
  match s.txn? p with
  | none => s
  | some t =>
    let l := (t.prepared ++ [member]).eraseDups
    let t := { t with prepared := l }
    if t.members ≤ l.length then s.commitTxn p t else s.setTxn p (some t)

/-- REFUSED from a member. -/
def State.recordRefused (s : State) (p member code reason : Nat) : State :=
  match s.txn? p with
  | none => s
  | some t => s.abortTxn p t { code := code, reason := reason, member := member }

/-- A member's answer: recorded at the admitting device itself, else sent to it. -/
def State.answerReady (s : State) (p epoch : Nat) (txn : W64) : State :=
  if s.admits p then s.recordReady p (s.rd Reg.LDR_LOAD_MEMBER p) else s.sendEpoch p 2 2 epoch 0 0 0 txn 0
def State.answerPrepared (s : State) (p epoch : Nat) (txn : W64) : State :=
  if s.admits p then s.recordPrepared p (s.rd Reg.LDR_LOAD_MEMBER p) else s.sendEpoch p 2 3 epoch 0 0 0 txn 0
def State.answerRefused (s : State) (p epoch code reason : Nat) (txn : W64) : State :=
  if s.admits p then s.recordRefused p (s.rd Reg.LDR_LOAD_MEMBER p) code reason
  else (s.sendEpoch p 2 4 epoch 0 code reason txn 0).setMemberTxn p none

/-- A partition's program copies are lost (R423). -/
def State.progLost (s : State) (p : Nat) : Bool := bit (s.rd Reg.FLT_PROG_LOST_PART) p

/-- A member takes PREPARE: a load that is READY answers at once, one still under way when it is READY, an epoch that needs
no calibration answers READY and PREPARED (R216, R219, R423). -/
def State.memberPrepare (s : State) (p epoch : Nat) (txn : W64) : State :=
  let s := s.setMemberTxn p (some (epoch, txn))
  match s.epochSlot? p epoch with
  | none => s
  | some k =>
    let st := s.rd Reg.LDR_EPOCH_STATE (epochKey p k)
    if st = 1 then
      if s.loadState p = 4 then (s.wr Reg.LDR_LOAD_STATE p 5).answerReady p epoch txn else s
    else if st = 4 ∧ s.progLost p then s.answerRefused p epoch codeEpochRetired 0 txn
    else (s.answerReady p epoch txn).answerPrepared p epoch txn

/-! READY (R205, R207, R224) -/

/-- Every kept shard is verified and programmed: the load is READY, BEGIN completes, the shadow is complete or given up, and
a PREPARE that waits is answered. -/
def State.checkReady (s : State) (p : Nat) : State :=
  match s.load? p with
  | none => s
  | some l =>
    if (s.loadState p = 3 ∨ s.loadState p = 7) ∧ (s.keptShards p l).all (fun e => (shardState l e.index).verified && (shardState l e.index).programmed) then
      let s := (s.wr Reg.LDR_LOAD_STATE p 4).answerBegin p {} 0
      let s := s.wr Reg.LDR_SHADOW_EN 0 (setBit (s.rd Reg.LDR_SHADOW_EN) p l.shadow)
      let s := s.wr Reg.LDR_SHADOW_READY 0 (setBit (s.rd Reg.LDR_SHADOW_READY) p l.shadow)
      match SMap.find? s.loader.memberTxn p with
      | some t => s.memberPrepare p t.1 t.2
      | none => s
    else s

/-- A shard is verified and everything taken from it is programmed: it counts, its descriptor completes, its buffer is free
(R199, R201). -/
def State.shardProgrammed (s : State) (p i : Nat) : State :=
  match s.load? p with
  | none => s
  | some l =>
    let x := shardState l i
    if x.programmed then s
    else
      let s := (s.setShard p i (fun x => { x with programmed := true, posters := [], buffer := none })).bump Reg.LDR_LOAD_SHARDS_DONE p
      (s.forEach x.posters (fun s q => s.loadComplete q.1 q.2 2 p { shard := i })).checkReady p

/-! Programming (R60, R61, R210) -/

/-- Arrays programming at once. -/
def State.programming (s : State) : Nat := (s.arrays.filter (fun e => e.2.prog.isSome)).length

/-- The concurrency limit of a tile: of a load, or of a repair, which goes on at 20,000 when loads are paused. -/
def State.progLimit (s : State) (repair : Bool) : Nat :=
  let n := min 99 (s.rd Reg.LDR_CTRL_PROG_CONC)
  1000 * (if n = 0 ∧ repair then 20 else n)

/-- The next tile that waits for an array: a repair, else one of a load; with the state that has taken it from its queue. -/
def State.takeTile (s : State) (k : Nat) : Option (Tile × State) :=
  match s.loader.repairs.find? (fun t => t.tier / 128 == k) with
  | some t => some (t, { s with loader := { s.loader with repairs := s.loader.repairs.erase t } })
  | none =>
    match List.find? (fun e => e.2.tiles.any (fun t => t.tier / 128 == k)) s.loader.loads with
    | some (p, l) => (l.tiles.find? (fun t => t.tier / 128 == k)).map (fun t => (t, s.setLoad p (some { l with tiles := l.tiles.erase t })))
    | none => none

/-- Fields of a tier format word (R63). -/
def fmtWidth (f : W16) : Nat := bits f.toNat 0 4
def fmtOk (f : W16) : Bool := decide (1 ≤ fmtWidth f) && decide (fmtWidth f ≤ 8) && bits f.toNat 8 8 == 0

/-- Write a tier's format, with VERIFIED. -/
def State.writeFormat (s : State) (tk : Nat) (f : W16) : State :=
  ((((((s.wr Reg.CRS_ARR_TFMT_WIDTH tk (fmtWidth f)).wr Reg.CRS_ARR_TFMT_SIGNED tk (bits f.toNat 4 1)).wr Reg.CRS_ARR_TFMT_GAIN tk (bits f.toNat 5 2)).wr
    Reg.CRS_ARR_TFMT_PARTIAL_FMT tk (bits f.toNat 7 1)).wr Reg.CRS_ARR_TFMT_VERIFIED tk 1).wr Reg.CRS_ARR_TFMT_PROGRAMMING tk 0)

/-- An array starts programming a tile. -/
def State.startTile (s : State) (k : Nat) (t : Tile) : State :=
  let s := (s.wr Reg.CRS_ARR_TFMT_VERIFIED t.tier 0).wr Reg.CRS_ARR_TFMT_PROGRAMMING t.tier 1
  let s := (s.wr Reg.CRS_ARR_STATUS_PROG k 1).wr Reg.CRS_ARR_STATUS_PTIER k (t.tier % 128)
  s.setArray k { s.array k with prog := some { tile := t, purpose := if t.shard = 0xFFFFFFFF then 1 else 0 } }

/-- Store the levels of a row. -/
def State.storeRow (s : State) (tk row : Nat) (levels : List Nat) : State :=
  { s with cells := levels.zipIdx.foldl (fun m (v, j) => SMap.put 0 m (cellKey tk row j) v) s.cells }

/-- A tile's verify has passed: its format with VERIFIED, its signature, its wear; the shard or the replacement that it was
programmed for goes on (R82, R89, R210, R331). -/
def State.finishTile (s : State) (k : Nat) (t : Tile) : State :=
  let s := (s.setArray k { s.array k with prog := none }).wr Reg.CRS_ARR_STATUS_PROG k 0
  let s := (s.writeFormat t.tier t.format).sign t.tier
  let s := { s with loader := { s.loader with source := SMap.insert s.loader.source t.tier (t.format, t.levels) }, peg := { s.peg with wear := SMap.insert s.peg.wear t.tier (SMap.get 0 s.peg.wear t.tier + 1000), lastProbe := SMap.insert s.peg.lastProbe t.tier s.time } }
  let s := (List.range 256).foldl (fun s r => s.noteWear t.tier r) s
  let core := k / 9
  if t.shard = 0xFFFFFFFF then (s.settleSpareArray core).settleSpareCore core
  else
    match s.corePart core with
    | none => s
    | some p =>
      let waiting := (match s.load? p with | some l => l.tiles.any (fun q => q.shard == t.shard) | none => true) ||
        s.arrays.any (fun e => match e.2.prog with | some j => j.tile.shard == t.shard && s.corePart (e.1 / 9) == some p | none => false)
      if waiting then s else s.shardProgrammed p t.shard

/-- One program slot: a pulse and a verify read of the row at hand (R60). -/
def State.progSlot (s : State) (k : Nat) (j : ProgJob) (rowDone : Bool) : State :=
  let j := { j with slots := j.slots + 1 }
  if !rowDone then s.setArray k { s.array k with prog := some j }
  else
    let s := s.storeRow j.tile.tier j.row (((j.tile.levels.drop (32 * j.row)).take 32).map (fun v => v.toNat))
    if j.row + 1 < 256 then s.setArray k { s.array k with prog := some { j with row := j.row + 1 } }
    else s.finishTile k j.tile

/-! Shard contents (R197, R208, R209, R468) -/

/-- A tile record's address and format are in range (R65, R197). -/
def recordOk (r : TileRecord) : Bool :=
  let a := r.address.toNat
  bits a 28 4 == 3 && decide (bits a 21 7 ≤ 99) && decide (bits a 14 7 ≤ 99) && decide (bits a 10 4 ≤ 7) && decide (bits a 3 7 ≤ 126) &&
  bits a 0 3 == 0 && fmtOk r.format && r.levels.length == 8192

/-- Epochs that hold a tier: their keys. -/
def State.holders (s : State) (tk : Nat) : List Nat := (s.loader.epochs.filter (fun e => e.2.tiers.contains tk)).map Prod.fst

/-- The key of the base image's epoch, for an update image (R198). -/
def State.baseKey (s : State) (p : Nat) (m : Manifest) : Option Nat :=
  if !m.update then none
  else ((List.range 4).map (epochKey p)).find? (fun k => s.rd Reg.LDR_EPOCH_STATE k != 0 && (s.epochInfo k).digest == m.base)

/-- The physical tier that a record programs: the one its translation gives where that is free; for one that the base holds,
a free tier, the same in every array of the core, since a core's translation is one (R209, R213). None where it is not free. -/
def State.tierFor (s : State) (p own : Nat) (m : Manifest) (r : TileRecord) : Option (Nat × Nat × Nat) :=
  let a := r.address.toNat
  let x := bits a 14 7
  let y := bits a 21 7
  let course := 10 * (y / 10) + x / 10
  if !bit m.courses.toNat course then none
  else match s.physOf x y with
    | none => none
    | some core =>
      let arr := if s.rd Reg.CRS_ARR_SPARE_MAP_REPLACED core = bits a 10 4 then 8 else bits a 10 4
      let k := arrayKey core arr
      let t := bits a 3 7
      let cur := SMap.get t s.loader.tierMap ((4 * core + own % 4) * 128 + t)
      let others := fun tk => (s.holders tk).filter (fun h => h != own)
      if (others (128 * k + cur)).isEmpty then some (core, t, 128 * k + cur)
      else match s.baseKey p m with
        | none => none
        | some b =>
          let base := SMap.get t s.loader.tierMap ((4 * core + b % 4) * 128 + t)
          if cur = base && (s.holders (128 * k + cur)).contains b then
            ((List.range 127).find? (fun q => (List.range 9).all (fun n => (s.holders (128 * arrayKey core n + q)).isEmpty))).map
              (fun q => (core, t, 128 * k + q))
          else none

/-- Take a TIER shard's records: tiles to program and tiers held by the staged epoch; none when a tier is not free. -/
def State.takeRecords (s : State) (p i : Nat) (m : Manifest) : List TileRecord → Option State
  | [] => some s
  | r :: rest =>
    match s.load? p with
    | none => some s
    | some l =>
      match s.tierFor p (epochKey p l.slot) m r with
      | none => none
      | some (core, t, tk) =>
        let k := epochKey p l.slot
        let e := s.epochInfo k
        let mapKey := (4 * core + l.slot) * 128 + t
        let old := 128 * (tk / 128) + SMap.get t s.loader.tierMap mapKey
        let s := s.setEpochInfo k { e with tiers := e.tiers.filter (fun q => q != old) ++ [tk] }
        let s := if tk % 128 = t then { s with loader := { s.loader with tierMap := SMap.erase s.loader.tierMap mapKey } } else { s with loader := { s.loader with tierMap := SMap.insert s.loader.tierMap mapKey (tk % 128) } }
        let s := s.setLoad p (some { l with tiles := l.tiles ++ [{ tier := tk, shard := i, format := r.format, levels := r.levels }] })
        State.takeRecords s p i m rest

/-- Take a PROGRAM, FALLBACK or CONST shard's contents into the program copies, and into the cores (R187, R213, R325,
R342). -/
def State.takeProgram (s : State) (p kind slot : Nat) (c : ShardContents) : State :=
  let put := fun (m : SMap TabRecord) => c.tabs.foldl (fun m t => SMap.insert m (xyKey t.x t.y) t) m
  let s := { s with loader := { s.loader with tabs := if kind = 1 then put s.loader.tabs else s.loader.tabs, fallbacks := if kind = 2 then put s.loader.fallbacks else s.loader.fallbacks, consts := s.loader.consts ++ (if kind = 3 then c.consts.map (fun r => (epochKey p slot, r)) else []) } }
  let s := if kind = 1 then { s with link := { s.link with ingress := c.ingress.foldl (fun m e => SMap.insert m (4096 * e.1.val + e.2.1.val) e.2.2) s.link.ingress } } else s
  let s := if kind = 1 then c.gaps.foldl (fun s g =>
      match s.physOf g.1 g.2.1 with
      | some core => { s with peg := { s.peg with gaps := SMap.insert s.peg.gaps core ((g.2.2.take 64).map (fun e => ⟨e.1, e.2.1, e.2.2⟩)), gapsOff := s.peg.gapsOff.filter (· != core) } }
      | none => s) s else s
  let s := if kind = 1 then { s with fault := { s.fault with passCount := SMap.erase s.fault.passCount p, samples := s.fault.samples.filter (fun e => !(s.corePart (e.1 / 2048) == some p)) } } else s
  let cores := (c.tabs.map (fun t => (t.x, t.y)) ++ c.consts.map (fun r => (r.x, r.y))).eraseDups.filterMap (fun q => s.physOf q.1 q.2)
  if kind = 1 ∨ kind = 2 then s.forEach cores State.reloadCore
  else if kind = 3 then s.forEach cores (fun s k => match s.logicalCore k with | some (x, y) => s.installConsts k x y | none => s)
  else s

/-- The SHARD descriptors of a shard complete with a code; its landing buffer is free. -/
def State.answerPosters (s : State) (p i : Nat) (c : LoadDone) : State :=
  match s.load? p with
  | none => s
  | some l =>
    (s.forEach (shardState l i).posters (fun s q => s.loadComplete q.1 q.2 2 p { c with shard := i })).setShard p i (fun x => { x with posters := [], buffer := none })

/-- A kept shard's digest matches: its contents are taken, or end the load. -/
def State.takeShard (s : State) (p : Nat) (l : Load) (m : Manifest) (e : ShardEntry) (wellFormed : Bool) (c : ShardContents) : State :=
  let bad : LoadDone := { code := codeInvalid, detail := 3 }
  if !wellFormed || !c.tiles.all recordOk || (e.kind == 0 && e.len != 4160 * c.tiles.length) then
    (s.answerPosters p e.index bad).endLoad p bad 0
  else
    let s := s.setShard p e.index (fun x => { x with verified := true, missing := false })
    if e.kind = 0 then
      match s.takeRecords p e.index m c.tiles with
      | none => s.endLoad p { code := codeNofit, reason := 1 } 1
      | some s => if c.tiles.isEmpty then s.shardProgrammed p e.index else s
    else (s.takeProgram p e.kind l.slot c).shardProgrammed p e.index

end Sys2Proof.Machine
end

