-- ==== Sys2Proof/Machine/Loader.lean ====
section
/-! DEFINITION. Machine/Loader.lean: the commands of the loader: load descriptors, manifests and shards, the Relay, epochs and
adapters (chapter 6). -/
namespace Sys2Proof.Machine

/-! BEGIN (R200, R202, R204, R207) -/

/-- The fields of a BEGIN are in range. -/
def State.beginOk (s : State) (d : BitVec 512) : Bool :=
  let head := ldUp d == 15
  let port := fun p => decide (p < 8) || p == 15
  ldEpoch d != 0 && port (ldUp d) && port (ldDn d) && (!head || ldLen d != 0) && (ldLen d == 0 || s.inBuffer (ldAddr d) (ldLen d)) &&
  decide (ldPlanLen d ≤ 255)

/-- The plan: none where the read fails its window test or gives nothing, empty where there is no Relay. -/
def State.planOf (s : State) (ring : Nat) (d : BitVec 512) (plan : Option (List W32)) : Option (List W32) :=
  if ldPlanLen d = 0 then some []
  else if s.windowOk (ldPart d) (s.ringFn ring) (ldPlan d) (4 * ldPlanLen d) false then plan.map (fun l => l.take (ldPlanLen d))
  else none

/-- A load starts and waits for its manifest. -/
def State.startLoad (s : State) (ring : Nat) (d : BitVec 512) (plan : List W32) : State :=
  let p := ldPart d
  let ms := if ldTimeout d = 0 then max 1 (s.rd Reg.LDR_TIMEOUT_SHARD_MS) else ldTimeout d
  let s := s.setLoad p (some { ring := ring, cookie := ldCookie d, started := s.time, plan := plan, shadow := ldShadow d, upport := ldUp d, dnport := ldDn d, addr := ldAddr d, len := ldLen d, timeoutMs := ms })
  let s := ((s.wr Reg.LDR_LOAD_STATE p 1).wr Reg.LDR_LOAD_EPOCH p (ldEpoch d)).wr Reg.LDR_LOAD_POSITION p (ldPosition d)
  let s := ((s.wr Reg.LDR_LOAD_MEMBER p (ldMember d)).wr Reg.LDR_LOAD_SHARDS_EXPECTED p 0).wr Reg.LDR_LOAD_SHARDS_DONE p 0
  s.wr Reg.LDR_LOAD_BAD_SHARD p 0xFFFFFFFF

/-- A BEGIN descriptor. -/
def execBeginLoad (ring : Ring) (desc : BitVec 512) (plan : Option (List W32)) (s : State) : Host.Outcome State Fault Refusal :=
  .next (s.loadEntryNoting ring 1 desc (fun s => s.loadError (ldPart desc) { code := codeInvalid } 0) (fun s =>
    let p := ldPart desc
    let refuse := fun s : State => (s.loadError p { code := codeInvalid } 0).loadDone ring desc { code := codeInvalid, epoch := ldEpoch desc }
    if !s.beginOk desc || (s.load? p).isSome then refuse s
    else match s.planOf ring desc plan with
      | none => refuse s
      | some l => s.startLoad ring desc l))

/-! SHARD and END (R199, R206, R467) -/

/-- The head's bytes of a shard go downstream. -/
def State.forwardShard (s : State) (p : Nat) (l : Load) (e : ShardEntry) (addr len : Nat) : State :=
  if l.upport = 15 && s.forwardsShard p l e && s.zlUp l.dnport then
    (s.relayWhole l.dnport p e.member e.kind e.index e.digest (s.stackRead (s.bar4Address addr) len)).bump Reg.LDR_RELAY_FWD_COUNT
  else s

/-- A SHARD descriptor. -/
def execShardPosted (ring : Ring) (desc : BitVec 512) (s : State) : Host.Outcome State Fault Refusal :=
  .next (s.loadEntry ring 2 desc (fun s =>
    let p := ldPart desc
    let i := ldArg desc
    match s.load? p with
    | none => s.loadDone ring desc { code := codeInvalid, shard := i }
    | some l =>
      if !(s.loadState p == 3 || s.loadState p == 7) || !s.inBuffer (ldAddr desc) (ldLen desc) then s.loadDone ring desc { code := codeInvalid, shard := i }
      else match shardEntry? l i with
        | none => s.loadDone ring desc { code := codeInvalid, detail := 3, shard := i }
        | some e =>
          if s.keepsShard p l e then
            if (shardState l i).verified then s.loadDone ring desc { shard := i }
            else
              let s := s.setShard p i (fun x => { x with posters := x.posters ++ [(ring.val, ldCookie desc)], buffer := some (s.bufferOf (ldAddr desc)), attempts := if s.loadState p = 7 then 0 else x.attempts })
              s.forwardShard p l e (ldAddr desc) (ldLen desc)
          else if l.upport = 15 && s.forwardsShard p l e then
            (s.forwardShard p l e (ldAddr desc) (ldLen desc)).loadDone ring desc { shard := i }
          else s.loadDone ring desc { code := codeInvalid, detail := 3, shard := i }))

/-- The END marker (R328). -/
def State.sendEndMarker (s : State) (p dnport : Nat) : State :=
  if dnport < 8 && s.zlUp dnport then s.relayOpen dnport p 0 0 0 0xFFFFFFFE 0 0 else s

/-- The stream of a load has ended: its shard timeout runs (R206, R212). -/
def State.endSeen (s : State) (p : Nat) : State :=
  match s.load? p with
  | some l => (s.setLoad p (some { l with endSeen := true, endAt := s.time })).sendEndMarker p l.dnport
  | none => s

/-- An END descriptor. -/
def execEndStream (ring : Ring) (desc : BitVec 512) (s : State) : Host.Outcome State Fault Refusal :=
  .next (s.loadEntry ring 3 desc (fun s =>
    let p := ldPart desc
    let ok := match s.load? p with
      | some l => (s.loadState p == 3 || s.loadState p == 7) && l.upport == 15 && !l.endSeen && bits desc.toNat 12 52 == 0 && bits desc.toNat 128 384 == 0
      | none => false
    if ok then (s.endSeen p).loadDone ring desc {} else s.loadDone ring desc { code := codeInvalid }))

/-! COMMIT, ROLLBACK, RELEASE, ABORT (R214, R216, R219, R469) -/

/-- The prepare timeout of a descriptor in ms. -/
def State.prepareMs (s : State) (d : BitVec 512) : Nat :=
  if ldTimeout d = 0 then 10 * max 1 (s.rd Reg.LDR_TIMEOUT_PREP_10MS) else ldTimeout d

/-- Open a transaction: PREPARE with a fresh number to every member, this device included. -/
def State.openTxn (s : State) (ring : Nat) (d : BitVec 512) (slot : Nat) (rollback : Bool) : State :=
  let p := ldPart d
  let k := epochKey p slot
  let (n, s) := s.draw
  let id := Config.fresh64 n
  let e := s.rd Reg.LDR_EPOCH_NUMBER k
  let ms := s.prepareMs d
  let members := max 1 (s.epochInfo k).members
  let s := s.setTxn p (some { id := id, epoch := e, rollback := rollback, opened := s.time, timeoutMs := ms, nohold := ldNoHold d, ring := ring, cookie := ldCookie d, members := members })
  (s.sendEpoch p members 1 e 0 0 0 id ms).memberPrepare p e id

/-- A COMMIT descriptor. -/
def execCommit (ring : Ring) (desc : BitVec 512) (s : State) : Host.Outcome State Fault Refusal :=
  .next (s.loadEntryNoting ring 4 desc (fun s => s.loadError (ldPart desc) { code := codeInvalid } 0) (fun s =>
    let p := ldPart desc
    let refuse := fun (s : State) (c : Nat) => (s.loadError p { code := c } 0).loadDone ring desc { code := c }
    if !s.admits p || (s.txn? p).isSome then refuse s codeInvalid
    else
      let staged := if s.loadState p = 4 then (s.load? p).map (fun l => l.slot) else none
      match (s.slotIn? p 2) <|> staged with
      | some k => s.openTxn ring desc k false
      | none => refuse s codeLoadIncomplete))

/-- The most recently CURRENT epoch that is still DRAINING. -/
def State.lastDraining (s : State) (p : Nat) : Option Nat :=
  ((List.range 4).filter (fun k => s.rd Reg.LDR_EPOCH_STATE (epochKey p k) == 4)).foldl (fun best k =>
    match best with
    | none => some k
    | some b => if (s.epochInfo (epochKey p b)).currentAt < (s.epochInfo (epochKey p k)).currentAt then some k else some b) none

/-- A ROLLBACK descriptor. -/
def execRollback (ring : Ring) (desc : BitVec 512) (s : State) : Host.Outcome State Fault Refusal :=
  .next (s.loadEntry ring 5 desc (fun s =>
    let p := ldPart desc
    let s := match s.txn? p with
      | some t => s.abortTxn p t { code := codeCancelled }
      | none => s
    match s.lastDraining p with
    | none => s.loadDone ring desc { code := codeEpochRetired }
    | some k =>
      if s.progLost p then s.loadDone ring desc { code := codeEpochRetired }
      else if !s.admits p then s.loadDone ring desc { code := codeInvalid }
      else s.openTxn ring desc k true))

/-- A RELEASE descriptor. -/
def execRelease (ring : Ring) (desc : BitVec 512) (s : State) : Host.Outcome State Fault Refusal :=
  .next (s.loadEntry ring 6 desc (fun s =>
    let p := ldPart desc
    let e := ldEpoch desc
    if e = 0 then s.loadDone ring desc { code := codeInvalid }
    else match s.epochSlot? p e with
      | none => s.loadDone ring desc { code := codeEpochRetired, epoch := e }
      | some k => ((s.wr Reg.LDR_EPOCH_HOLD (epochKey p k) 0).retire p k).loadDone ring desc { epoch := e }))

/-- An ABORT of a running load: the transaction on its epoch is aborted with it (Table 6.4). -/
def State.abortLoad (s : State) (p : Nat) : State :=
  let e := s.rd Reg.LDR_LOAD_EPOCH p
  match s.txn? p, SMap.find? s.loader.memberTxn p with
  | some t, _ => (if t.epoch = e && !t.rollback then s.abortTxn p t { code := codeCancelled } else s).endLoad p { code := codeCancelled } 0
  | none, some t => (s.answerRefused p e codeCancelled 0 t.2).endLoad p { code := codeCancelled } 0
  | none, none => s.endLoad p { code := codeCancelled } 0

/-- An ABORT descriptor. -/
def execAbort (ring : Ring) (desc : BitVec 512) (s : State) : Host.Outcome State Fault Refusal :=
  .next (s.loadEntry ring 7 desc (fun s =>
    (if (s.load? (ldPart desc)).isSome then s.abortLoad (ldPart desc) else s).loadDone ring desc {}))

/-! Adapters (R221 to R223) -/

/-- Bytes of the adapters in the pool. -/
def State.poolUsed (s : State) : Nat :=
  ((s.loader.adapters.filter (fun e => s.is Reg.LDR_ADP_SLOT_VALID e.1)).map (fun e => e.2.bytes)).sum

/-- The streaming test: B_layer ≤ T_layer × BW_p, with GB/s as bytes per ns. -/
def State.streams (s : State) (p layerBytes : Nat) : Bool :=
  let ns := match s.currentSlot? p with | some k => (s.epochInfo (epochKey p k)).layerNs | none => 0
  let bw := s.rd Reg.LDR_ADP_BW_GBPS p
  if bw = 0 then decide (layerBytes * 100 ≤ ns * 9830 * (s.coursesOf p).length) else decide (layerBytes ≤ ns * bw)

/-- An adapter takes a free slot; its handle. -/
def State.placeAdapter (s : State) (p k : Nat) (d : BitVec 512) (blob : AdapterBlob) (resident : Bool) : State :=
  let used := ((SMap.find? s.loader.adapters k).map (fun a => a.used)).getD false
  let v := if used then (s.rd Reg.LDR_ADP_SLOT_VERSION k + 1) % 63 else s.rd Reg.LDR_ADP_SLOT_VERSION k
  let s := ((((s.wr Reg.LDR_ADP_SLOT_VERSION k v).wr Reg.LDR_ADP_SLOT_PART k p).wr Reg.LDR_ADP_SLOT_VALID k 1).wr Reg.LDR_ADP_SLOT_RESIDENT k resident.toNat).wr Reg.LDR_ADP_SLOT_REFS k 0
  let s := s.wr Reg.LDR_ADP_SLOT_SUPERSEDED k 0
  { s with loader := { s.loader with adapters := SMap.insert s.loader.adapters k { used := true, bytes := ldLen d, rank := ldRank d, layerBytes := blob.layerBytes } } }

/-- A slot takes no new bindings; it is free once nothing refers to it. -/
def State.supersede (s : State) (h : Nat) (next : Option Nat) : State :=
  let k := adapterSlot h
  let a := SMap.get {} s.loader.adapters k
  let s := { s with loader := { s.loader with adapters := SMap.insert s.loader.adapters k { a with next := next } } }
  (s.wr Reg.LDR_ADP_SLOT_SUPERSEDED k 1).adapterSettle k

/-- An ADAPTER_LOAD descriptor. -/
def execAdapterLoad (ring : Ring) (desc : BitVec 512) (blob : AdapterBlob) (s : State) : Host.Outcome State Fault Refusal :=
  .next (s.loadEntry ring 8 desc (fun s =>
    let p := ldPart desc
    let old := ldArg desc
    let nofit : LoadDone := { code := codeNofit, reason := 8 }
    if ldRank desc = 0 ∨ 256 < ldRank desc ∨ !s.inBuffer (ldAddr desc) (ldLen desc) then s.loadDone ring desc { code := codeInvalid }
    else if !blob.signed then s.loadDone ring desc { code := codeInvalid, detail := 1 }
    else if !blob.valid then s.loadDone ring desc { code := codeInvalid, detail := 3 }
    else if old ≠ 0xFFFFFFFF ∧ !(decide (old < 65536) && s.adapterValid p old && !s.is Reg.LDR_ADP_SLOT_SUPERSEDED (adapterSlot old)) then
      s.loadDone ring desc { code := codeAdapterMissing }
    else
      let fits := decide (s.poolUsed + ldLen desc ≤ 268435456 * s.rd Reg.LDR_ADP_POOL_SIZE_UNITS)
      let pin := ldResident desc && blob.cacheFits
      match (List.range 1024).find? (fun k => !s.is Reg.LDR_ADP_SLOT_VALID k) with
      | none => s.loadDone ring desc nofit
      | some k =>
        if !fits || !(s.streams p blob.layerBytes || pin) then s.loadDone ring desc nofit
        else
          let s := s.placeAdapter p k desc blob pin
          let h := k + 1024 * s.rd Reg.LDR_ADP_SLOT_VERSION k
          (if old = 0xFFFFFFFF then s else s.supersede old (some h)).loadDone ring desc { adapter := h }))

/-- An ADAPTER_FREE descriptor. -/
def execAdapterFree (ring : Ring) (desc : BitVec 512) (s : State) : Host.Outcome State Fault Refusal :=
  .next (s.loadEntry ring 9 desc (fun s =>
    let h := ldArg desc
    if h < 65536 ∧ s.adapterValid (ldPart desc) h then (s.supersede h none).loadDone ring desc {}
    else s.loadDone ring desc { code := codeAdapterMissing }))

/-! The weight shadow (R224) -/

/-- A SHADOW_REBUILD descriptor. -/
def execShadowRebuild (ring : Ring) (desc : BitVec 512) (s : State) : Host.Outcome State Fault Refusal :=
  .next (s.loadEntry ring 10 desc (fun s =>
    let p := ldPart desc
    if !bit (s.rd Reg.LDR_SHADOW_EN) p ∨ (SMap.find? s.loader.refills p).isSome then s.loadDone ring desc { code := codeInvalid }
    else if bit (s.rd Reg.LDR_SHADOW_READY) p then s.loadDone ring desc {}
    else { s with loader := { s.loader with refills := SMap.insert s.loader.refills p (ring.val, ldCookie desc) } }))

/-- The refill is complete. -/
def execShadowRebuildDone (part : Part) (s : State) : Host.Outcome State Fault Refusal :=
  .next (match SMap.find? s.loader.refills part with
    | none => s
    | some (r, c) =>
      let s := { s with loader := { s.loader with refills := SMap.erase s.loader.refills part } }
      (s.wr Reg.LDR_SHADOW_READY 0 (setBit (s.rd Reg.LDR_SHADOW_READY) part true)).loadComplete r c 10 part {})

/-! The manifest (R195, R196, R208, R209) -/

/-- `n` bytes of a manifest from an offset, as a number. -/
def manField (bs : List Byte) (off n : Nat) : Nat := leNat ((bs.drop off).take n)

/-- A shard entry (Table 6.2). -/
def manShard (bs : List Byte) (at_ : Nat) : ShardEntry :=
  { index := manField bs at_ 4, member := manField bs (at_ + 4) 1, kind := manField bs (at_ + 5) 1 % 16, len := manField bs (at_ + 8) 4, digest := BitVec.ofNat 256 (manField bs (at_ + 16) 32) }

/-- The manifest's fields, with the record of one member (Table 6.1). -/
def manifestOf (bs : List Byte) (member : Nat) : Manifest :=
  let members := manField bs 5 1
  let rc := 64 + 64 * member
  { keyslot := manField bs 4 1, members := members, redundant := bit (manField bs 6 1) 0, update := bit (manField bs 6 1) 1, model := BitVec.ofNat 64 (manField bs 8 8), base := BitVec.ofNat 256 (manField bs 16 32), courses := BitVec.ofNat 100 (manField bs rc 13), tabDigest := BitVec.ofNat 256 (manField bs (rc + 16) 32), kvPages := manField bs (rc + 48) 4, rings := manField bs (rc + 52) 2, layerNs := manField bs (rc + 56) 4, shards := (List.range (manField bs 48 4)).map (fun i => manShard bs (64 + 64 * members + 64 * i)), digest := Config.shake256 bs }

/-- The header and length checks of R195. -/
def headerOk (bs : List Byte) (len : Nat) (oneMember : Bool) : Bool :=
  let members := manField bs 5 1
  let shards := manField bs 48 4
  manField bs 0 4 == 1 && decide (1 ≤ members) && (!oneMember || members == 1) && decide (1 ≤ shards) && decide (shards ≤ 16777216) &&
  manField bs 52 4 == 1280 && bs.length == 64 + 64 * (members + shards) + 1280 && bs.length == len && decide (len ≤ 67108864)

/-- Length of a manifest as landed or as its RELAY_HEAD announced it. -/
def State.manifestLen (s : State) (p : Nat) (l : Load) : Nat :=
  if l.len ≠ 0 then l.len
  else ((List.find? (fun e => e.2.part == p && e.2.kind == RelayKind.manifest) s.loader.streams).map (fun e => e.2.len)).getD 0

/-- The shard entries are valid: indices ascend from 0 without gaps, KIND and LEN in range, members exist. -/
def entriesOk (m : Manifest) : Bool :=
  m.shards.zipIdx.all (fun (e, i) => e.index == i && decide (e.kind ≤ 4) && decide (1 ≤ e.len) && decide (e.len ≤ 67108864) && (e.member == 255 || decide (e.member < m.members)))

/-- The demoted epoch of a partition whose program copies are lost (R423). -/
def State.demoted (s : State) (p : Nat) : Option Nat := (s.lastDraining p).map (epochKey p)

/-- A restore image: an update of the demoted epoch with the member's PROGRAM, FALLBACK and CONST shards (R423). -/
def carriesCopies (m : Manifest) (member : Nat) : Bool :=
  [1, 2, 3].all (fun k => m.shards.any (fun e => e.kind == k && (e.member == 255 || e.member == member)))

/-- The format class of R208: 0, or the DETAIL of the failure. -/
def State.formatDetail (s : State) (p : Nat) (m : Manifest) (f : ImageFacts) : Nat :=
  let member := s.rd Reg.LDR_LOAD_MEMBER p
  if !entriesOk m || !f.tabsOk || m.members ≤ member then 3
  else
    let base := s.baseKey p m
    if s.progLost p && !(m.update && base == s.demoted p && base.isSome) then 5
    else if s.progLost p && !carriesCopies m member then 3
    else if !m.update then 0
    else match base with
      | none => 5
      | some k => if (s.epochInfo k).tabDigest = m.tabDigest then 0 else 4

/-- A ZL port serves the partition's chain (R326). -/
def State.portServes (s : State) (part port : Nat) : Bool := s.zlUp port && s.exportOf port == some part && (s.zl port).map.isSome

/-- The NOFIT conditions that hold at CHECK, as a mask (Table 6.5). -/
def State.nofitMask (s : State) (p : Nat) (l : Load) (m : Manifest) (f : ImageFacts) : Nat :=
  let cs := bitList 100 m.courses.toNat
  let tiers := cs.any (fun c => !(s.is Reg.PRT_COURSE_ASSIGNED c && s.rd Reg.PRT_COURSE_PART c == p) || s.is Reg.NOC_COURSE_MAP_OUT c)
  let kv := decide (s.rd Reg.SRV_PART_POOL_COUNT_FRAMES p < m.kvPages) || !f.kvIndexOk
  let other := (List.range 4).any (fun k => s.rd Reg.LDR_EPOCH_STATE (epochKey p k) != 0 && (s.epochInfo (epochKey p k)).tabDigest != m.tabDigest)
  let sram := !f.sramFits || !f.layerTimeOk || other
  let rings := decide (((List.range 4096).filter (fun r => s.is Reg.RCB_ASSIGN_VALID r && s.ringPart r == p)).length < m.rings)
  let ports := (f.ports.map (fun q => q.val) ++ [l.upport, l.dnport].filter (fun q => decide (q < 8))).any (fun q => !s.portServes p q)
  let red := (s.is Reg.PRT_PCTRL_REDUNDANT p && !m.redundant) || (m.redundant && !f.copiesApart)
  let full := !m.update && (List.range 4).any (fun k => s.rd Reg.LDR_EPOCH_STATE (epochKey p k) != 0)
  (tiers || full).toNat + 2 * kv.toNat + 4 * sram.toNat + 8 * rings.toNat + 16 * ports.toNat + 64 * red.toNat

/-- The lowest-numbered failing reason of a mask. -/
def lowestReason (mask : Nat) : Nat := ((List.range 8).find? (fun i => bit mask i)).map (· + 1) |>.getD 1

/-- Express hops between two logical courses. -/
def State.hops (s : State) (a b : Nat) : Nat :=
  let x := s.rd Reg.NOC_COURSE_MAP_PHYS a
  let y := s.rd Reg.NOC_COURSE_MAP_PHYS b
  (max (x % 10) (y % 10) - min (x % 10) (y % 10)) + (max (x / 10) (y / 10) - min (x / 10) (y / 10))

/-- The root course of a partition's die-scope barriers (R220). -/
def State.barRoot (s : State) (p : Nat) : Nat :=
  let cs := s.coursesOf p
  let far := fun c => (cs.map (s.hops c)).foldl max 0
  (cs.foldl (fun best c => match best with
    | none => some c
    | some b => if far c < far b then some c else some b) none).getD 0

/-- Constant banks of an update's epoch: at each core with a constant window, the first bank that no other epoch of the
partition uses (R213). -/
def State.pickBanks (s : State) (p slot : Nat) : State :=
  s.forEach (s.loader.constWindow.filter (fun e => s.corePart e.1 == some p && e.2.2 != 0)) (fun s e =>
    let used := ((List.range 4).filter (fun k => k != slot && s.rd Reg.LDR_EPOCH_STATE (epochKey p k) != 0)).map (fun k => s.coffOf e.1 k)
    let bank := ((List.range 5).find? (fun n => !used.contains (n * e.2.2))).getD 0
    { s with loader := { s.loader with coff := SMap.put 0 s.loader.coff (4 * e.1 + slot) (bank * e.2.2) } })

/-- The epoch map entry of an update begins as its base's (R213). -/
def State.copyBase (s : State) (p slot baseSlot : Nat) : State :=
  let rows := s.loader.tierMap.filter (fun e => (e.1 / 128) % 4 == baseSlot && s.corePart (e.1 / 512) == some p)
  let m := rows.foldl (fun m (e : Nat × Nat) => SMap.insert m ((4 * (e.1 / 512) + slot) * 128 + e.1 % 128) e.2) s.loader.tierMap
  ({ s with loader := { s.loader with tierMap := m } }).pickBanks p slot

/-- CHECK passed: the epoch slot is reserved and the stream opens (R37, R207, R213, R220). -/
def State.admitImage (s : State) (p slot : Nat) (l : Load) (m : Manifest) (f : ImageFacts) : State :=
  let k := epochKey p slot
  let member := s.rd Reg.LDR_LOAD_MEMBER p
  let base := s.baseKey p m
  let tiers := match base with | some b => (s.epochInfo b).tiers | none => []
  let s := ((s.wr Reg.LDR_EPOCH_NUMBER k (s.rd Reg.LDR_LOAD_EPOCH p)).wr Reg.LDR_EPOCH_STATE k 1).wr Reg.LDR_EPOCH_HOLD k 0
  let s := s.setEpochInfo k { digest := m.digest, tabDigest := m.tabDigest, members := m.members, courses := m.courses, tiers := tiers, maxContext := f.maxContext, vocabulary := f.vocabulary, streams := f.streams, log2Tp := f.log2Tp, layerNs := m.layerNs, member := member, restore := s.progLost p }
  let s := match base with | some b => s.copyBase p slot (b % 4) | none => s
  let s := (s.wr Reg.LDR_PART_INFO_ADMITTING p (decide (member = 0)).toNat).wr Reg.LDR_PART_INFO_BAR_ROOT p (s.barRoot p)
  let s := { s with fabric := { s.fabric with participants := f.barriers.foldl (fun m (b : Nat × Nat × Nat) => SMap.insert m ((100 * p + b.1) * 4096 + b.2.1) b.2.2) s.fabric.participants }, peg := { s.peg with gapsOff := s.peg.gapsOff.filter (fun c => s.corePart c != some p) } }
  let l := { l with manifest := some m, facts := some f, slot := slot }
  let s := (s.setLoad p (some l)).wr Reg.LDR_LOAD_STATE p 3
  ((s.wr Reg.LDR_LOAD_SHARDS_EXPECTED p ((s.keptShards p l).length + 1)).wr Reg.LDR_LOAD_SHARDS_DONE p 1).checkReady p

/-- CHECK (R208). -/
def State.checkImage (s : State) (p : Nat) (l : Load) (m : Manifest) (f : ImageFacts) : State :=
  let d := s.formatDetail p m f
  if d ≠ 0 then s.endLoad p { code := codeInvalid, detail := d } 0
  else if (s.epochSlot? p (s.rd Reg.LDR_LOAD_EPOCH p)).isSome then s.endLoad p { code := codeInvalid, detail := 6 } 0
  else match s.slotIn? p 0 with
    | none => s.endLoad p { code := codeNofit, reason := 1 } 1
    | some slot =>
      let mask := s.nofitMask p l m f
      if mask ≠ 0 then s.endLoad p { code := codeNofit, reason := lowestReason mask } mask
      else s.admitImage p slot l m f

/-- The manifest goes to every later position, from the head or from a position between. -/
def State.forwardManifest (s : State) (p : Nat) (l : Load) (bs : List Byte) : State :=
  s.relayWhole l.dnport p 255 0 0xFFFFFFFF (Config.shake256 bs) bs

/-- The manifest is complete. -/
def execManifestArrival (part : Part) (bytes : List Byte) (signed : Bool) (image : ImageFacts) (s : State) : Host.Outcome State Fault Refusal :=
  .next (
    let p := part.val
    match s.load? p with
    | none => s
    | some l =>
      if s.loadState p ≠ 1 then s
      else
        let bs := if l.len ≠ 0 then s.stackRead (s.bar4Address l.addr) l.len else bytes
        if !headerOk bs (s.manifestLen p l) l.plan.isEmpty then s.endLoad p { code := codeInvalid, detail := 3 } 0
        else
          let m := manifestOf bs (s.rd Reg.LDR_LOAD_MEMBER p)
          let key := decide (m.keyslot ≤ 15) && s.is Reg.SEC_KEY_INFO_VALID m.keyslot && bit (s.rd Reg.SEC_KEY_INFO_ROLES m.keyslot) 0
          let s := s.forwardManifest p l bs
          if !signed || !key then s.endLoad p { code := codeInvalid, detail := 1 } 0
          else (s.wr Reg.LDR_LOAD_STATE p 2).checkImage p l m image)

/-- No manifest within the shard timeout (R466). -/
def execManifestTimeout (part : Part) (s : State) : Host.Outcome State Fault Refusal :=
  .next (match s.load? part with
    | none => s
    | some l =>
      if s.loadState part = 1 ∧ l.started + l.timeoutMs * 1000000 ≤ s.time then
        if l.upport < 8 ∧ !s.zlUp l.upport then s.endLoad part { code := codeNofit, reason := 5 } 16
        else s.endLoad part { code := codeTimeout } 0
      else s)

/-! Shards (R211, R212, R468) -/

/-- A kept shard has arrived in full. -/
def execShardComplete (part : Part) (index : W32) (digestOk wellFormed : Bool) (contents : ShardContents) (s : State) : Host.Outcome State Fault Refusal :=
  .next (
    let p := part.val
    match s.load? p with
    | none => s
    | some l =>
      if !(s.loadState p == 3 || s.loadState p == 7) then s
      else match shardEntry? l index.toNat, l.manifest with
        | some e, some m =>
          if !s.keepsShard p l e || (shardState l e.index).verified then s
          else if digestOk then s.takeShard p l m e wellFormed contents
          else
            let s := (s.bump Reg.LDR_RELAY_BAD_COUNT).answerPosters p e.index { code := codeInvalid, detail := 2 }
            s.reRequest p e.index
        | _, _ => s)

/-- Program slots are stopped by an excursion of VPP_PRG, VDD_CORE, VDD_ARR, VDDQ or VDDQL (R450, R453). -/
def State.pumpsOff (s : State) : Bool := s.board.excursions.any (fun e => decide (e.1 < 5))

/-- Every usable landing buffer is held (R201, R212). -/
def State.buffersHeld (s : State) : Bool :=
  let held := s.loader.loads.flatMap (fun e => e.2.shards.filterMap (fun x => x.2.buffer))
  decide (0 < s.usableBuffers) && (List.range s.usableBuffers).all (fun b => held.contains b)

/-- The shard timeout does not run (R212). -/
def State.shardClockStopped (s : State) : Bool := s.rd Reg.LDR_CTRL_PROG_CONC == 0 || s.pumpsOff || s.buffersHeld

/-- One nanosecond in which the shard timeout does not run pushes every wait on by as much. -/
def State.loaderTick (s : State) : State :=
  if s.loader.loads.isEmpty || !s.shardClockStopped then s
  else { s with loader := { s.loader with loads := s.loader.loads.map (fun e => if e.2.endSeen then (e.1, { e.2 with endAt := e.2.endAt + 1, shards := e.2.shards.map (fun x => if x.2.since = 0 then x else (x.1, { x.2 with since := x.2.since + 1 })) }) else e) } }

/-- A kept shard has not come within the shard timeout: it is missing (R212). -/
def execShardTimeout (part : Part) (index : W32) (s : State) : Host.Outcome State Fault Refusal :=
  .next (
    let p := part.val
    match s.load? p with
    | none => s
    | some l =>
      match shardEntry? l index.toNat with
      | none => s
      | some e =>
        let x := shardState l e.index
        if s.loadState p = 3 ∧ l.endSeen ∧ s.keepsShard p l e ∧ !x.verified ∧ x.posters.isEmpty ∧ !s.shardClockStopped ∧ max l.endAt x.since + l.timeoutMs * 1000000 ≤ s.time then
          s.reRequest p e.index
        else s)

/-! The Relay (R203, R211, R328) -/

def State.stream? (s : State) (k : Nat) : Option RelayStream := SMap.find? s.loader.streams k
def State.setStream (s : State) (k : Nat) (x : Option RelayStream) : State :=
  { s with loader := { s.loader with streams := match x with | some x => SMap.insert s.loader.streams k x | none => SMap.erase s.loader.streams k } }

/-- A stream still open ends: its shard is missing. -/
def State.endStreamAt (s : State) (k : Nat) : State :=
  match s.stream? k with
  | none => s
  | some x =>
    let s := s.setStream k none
    match x.kind, s.load? x.part with
    | .shard, some l => if x.keep && s.loadState x.part == 3 && !(shardState l x.index).verified then s.reRequest x.part x.index else s
    | _, _ => s

/-- A RELAY_HEAD arrives. -/
def execRelayHead (port : ZlPort) (part : Part) (stream : Fin 4) (kind : RelayKind) (index : W32) (len : W32) (s : State) : Host.Outcome State Fault Refusal :=
  .next (
    let p := part.val
    let k := 4 * port.val + stream.val
    if !s.zlUp port then s
    else
      let s := (s.zlTake port).endStreamAt k
      match s.load? p with
      | none => s
      | some l =>
        if l.upport ≠ port.val then s
        else match kind with
          | .endMarker => if l.endSeen then s else s.endSeen p
          | .manifest => s.setStream k (some { part := p, kind := kind, index := index.toNat, len := len.toNat })
          | .shard =>
            match shardEntry? l index.toNat with
            | none => s
            | some e =>
              let fwd := s.forwardsShard p l e && s.zlUp l.dnport
              let s := if fwd then (s.relayOpen l.dnport p stream e.member e.kind e.index len.toNat e.digest).bump Reg.LDR_RELAY_FWD_COUNT else s
              s.setStream k (some { part := p, kind := kind, index := e.index, len := len.toNat, keep := s.keepsShard p l e, forward := fwd }))

/-- RELAY_DATA arrives: it goes on downstream at once; a stream that is full is closed. -/
def execRelayData (port : ZlPort) (stream : Fin 4) (data : List Byte) (s : State) : Host.Outcome State Fault Refusal :=
  .next (
    let k := 4 * port.val + stream.val
    if !s.zlUp port then s
    else
      let s := s.zlTake port
      match s.stream? k with
      | none => s
      | some x =>
        let bs := (data.take 40).take (x.len - x.received)
        let s := match s.load? x.part with
          | some l => if x.forward && s.zlUp l.dnport then State.relaySend 1 s l.dnport x.part stream x.received bs else s
          | none => s
        let n := x.received + bs.length
        s.setStream k (if x.len ≤ n && x.kind != .manifest then none else some { x with received := n }))

/-- A Relay request arrives: a keeper that has verified the shard resends it, another position passes the request on. -/
def execRelayReq (port : ZlPort) (part : Part) (index : W32) (position : Byte) (s : State) : Host.Outcome State Fault Refusal :=
  .next (
    let p := part.val
    if !s.zlUp port then s
    else
      let s := s.zlTake port
      match s.load? p with
      | none => s
      | some l =>
        match shardEntry? l index.toNat with
        | none => s
        | some e =>
          if s.keepsShard p l e && (shardState l e.index).verified then
            let bs := (List.range e.len).map (fun i => Config.shardByte e.digest i)
            (State.relaySend (e.len / 40 + 1) (s.relayOpen port p 1 e.member e.kind e.index e.len e.digest) port p 1 0 bs).bump Reg.LDR_RELAY_FWD_COUNT
          else if l.upport < 8 && s.zlUp l.upport then
            s.zlSend l.upport ftReq 0 (loadTag p) (position.toNat + e.index * 2 ^ 32 + (0xFF80 + p) * 2 ^ 64)
          else s)

/-! Epoch messages (R38, R214, R216, R218, R423) -/

/-- The transaction that a message names is the one open at this device. -/
def State.txnOpen (s : State) (p : Nat) (m : BitVec 256) : Bool :=
  match s.txn? p with
  | some t => t.id == emTxn m && t.epoch == emEpoch m
  | none => false
def State.memberTxnOpen (s : State) (p : Nat) (m : BitVec 256) : Bool := (SMap.find? s.loader.memberTxn p).map Prod.snd == some (emTxn m)

/-- PREPARE at a member. -/
def execEpochPrepare (part : Part) (msg : BitVec 256) (s : State) : Host.Outcome State Fault Refusal :=
  .next (if s.admits part then s else s.memberPrepare part (emEpoch msg) (emTxn msg))

/-- READY at the admitting device. -/
def execEpochReady (part : Part) (msg : BitVec 256) (s : State) : Host.Outcome State Fault Refusal :=
  .next (if s.txnOpen part msg then s.recordReady part (emMember msg) else s)

/-- The calibration of this member's layers is done (R124). -/
def execScaleCalibrationDone (part : Part) (overflow : Bool) (maxCh : Fin 16) (s : State) : Host.Outcome State Fault Refusal :=
  .next (
    let p := part.val
    let begun := match s.txn? p with | some t => t.calibrating | none => !s.admits p
    match SMap.find? s.loader.memberTxn p, s.load? p with
    | some t, some l =>
      if s.loadState p ≠ 5 ∨ !begun then s
      else
        let e := s.rd Reg.LDR_LOAD_EPOCH p
        let s := s.forEach (s.physCoursesOf p) (fun s c =>
          (((s.wr Reg.CRS_PRC_HCAL_MAX_CH c maxCh).wr Reg.CRS_PRC_HCAL_EPOCH c e).wr Reg.CRS_PRC_HCAL_DONE c 1).wr Reg.CRS_PRC_HCAL_OVF c overflow.toNat)
        if overflow then (s.answerRefused p e codeNofit 6 t.2).endLoad p { code := codeNofit, reason := 6 } 32
        else ((s.wr Reg.LDR_EPOCH_STATE (epochKey p l.slot) 2).wr Reg.LDR_LOAD_STATE p 6).answerPrepared p e t.2
    | _, _ => s)

/-- PREPARED at the admitting device. -/
def execEpochPrepared (part : Part) (msg : BitVec 256) (s : State) : Host.Outcome State Fault Refusal :=
  .next (if s.txnOpen part msg then s.recordPrepared part (emMember msg) else s)

/-- REFUSED at the admitting device. -/
def execEpochRefused (part : Part) (msg : BitVec 256) (s : State) : Host.Outcome State Fault Refusal :=
  .next (if s.txnOpen part msg then s.recordRefused part (emMember msg) (emCode msg) (emReason msg) else s)

/-- COMMIT at a member: its epoch is CURRENT; a member whose program copies are lost refuses (R423). -/
def execEpochCommit (part : Part) (msg : BitVec 256) (s : State) : Host.Outcome State Fault Refusal :=
  .next (
    let p := part.val
    if s.admits p || !s.memberTxnOpen p msg then s
    else match s.epochSlot? p (emEpoch msg) with
      | none => s
      | some k =>
        let st := s.rd Reg.LDR_EPOCH_STATE (epochKey p k)
        if s.progLost p && !(s.epochInfo (epochKey p k)).restore then s.answerRefused p (emEpoch msg) codeLoadIncomplete 0 (emTxn msg)
        else if st = 2 ∨ st = 4 then ((s.makeCurrent p k true).closeLoad p).setMemberTxn p none
        else s)

/-- ABORT at a member. -/
def execEpochAbort (part : Part) (msg : BitVec 256) (s : State) : Host.Outcome State Fault Refusal :=
  .next (
    if s.admits part || !s.memberTxnOpen part msg then s
    else (s.freeStaged part (emEpoch msg)).setMemberTxn part none)

/-- RETIRE at a member: the epoch's map entry clears and its own tiers are emptied. -/
def execEpochRetire (part : Part) (msg : BitVec 256) (s : State) : Host.Outcome State Fault Refusal :=
  .next (
    if s.admits part then s
    else match s.epochSlot? part (emEpoch msg) with
      | some k => if s.rd Reg.LDR_EPOCH_STATE (epochKey part k) = 4 then s.freeEpoch part k else s
      | none => s)

/-- The prepare timeout passes (R216). -/
def execPrepareTimeout (part : Part) (s : State) : Host.Outcome State Fault Refusal :=
  .next (match s.txn? part with
    | some t => if t.opened + t.timeoutMs * 1000000 ≤ s.time then s.abortTxn part t { code := codeTimeout } else s
    | none => s)

end Sys2Proof.Machine
end

