-- ==== Sys2Proof/Machine/Mailbox.lean ====
section
/-! DEFINITION. Machine/Mailbox.lean: mailboxes and doorbells (R296 to R306). -/
namespace Sys2Proof.Machine

/-- BAR0 offset of a register of mailbox m. -/
def mailOffset (m off : Nat) : Nat := 0x10000 + 32 * m + off

/-- A requester is the sender, the receiver of a mailbox (Table 9.1). -/
def isSender (who : Requester) (m : Nat) : Bool := if sentByHost m then pfPort who == some (mailPort m) else isFirmware who
def isReceiver (who : Requester) (m : Nat) : Bool := if sentByHost m then isFirmware who else pfPort who == some (mailPort m)

/-- A PF's write to a mailbox register of the other side (R299). A VF has no view of the block, and its write is ignored; so is a
management core's. -/
def State.foreignMail (s : State) (who : Requester) (offset : Nat) : State :=
  if (pfPort who).isSome then (s.bump Reg.MBX_CNT_FOREIGN).noteDiscard (reqCode who) 0 offset else s

/-- Key of a requester's latch or snapshot of the 64-bit register at a BAR0 offset (R9). -/
def latchKey (who : Requester) (offset : Nat) : Nat := 67108864 * reqCode who + offset
def State.setLatch (s : State) (who : Requester) (offset : Nat) (v : Option Nat) : State :=
  { s with latches := match v with
      | some x => SMap.insert s.latches (latchKey who offset) x
      | none => SMap.erase s.latches (latchKey who offset) }

/-- A write of the high half of a 64-bit register: both halves, with the low half pending or as it stands (R9), and the latch
released. -/
def State.joinHalves (s : State) (who : Requester) (offset current high : Nat) : Nat × State :=
  (high * 2 ^ 32 + (SMap.find? s.latches (latchKey who offset)).getD (current % 2 ^ 32), s.setLatch who offset none)

/-- The high half of `MBX_DATA` is written. -/
def State.mailWrite (s : State) (who : Requester) (m : Nat) (high : W32) : State :=
  if !isSender who m then s.foreignMail who (mailOffset m 4)
  else
    let (w, s) := s.joinHalves who (mailOffset m 0) (s.rd Reg.MBX_DATA_WORD m) high.toNat
    if !s.is Reg.MBX_STATUS_FULL m then s.mailCommit m w
    else match who with
      | .fn f => ((s.wr Reg.MBX_STATUS_REJ m 1).bump Reg.MBX_CNT_REJECT).emit (.unsupported (fnCode f))
      | .fw c => s.emit (.busError c.val)

/-- A commit (R297, R298). -/
def execMailboxCommit (who : Requester) (m : Mailbox) (high : W32) (s : State) : Host.Outcome State Fault Refusal :=
  .next (s.access who (mailOffset m 4) (some high) (fun s => s.mailWrite who m high))

/-- The receiver takes the message (R300). -/
def State.mailTake (s : State) (m code : Nat) : State :=
  if !s.is Reg.MBX_STATUS_FULL m then s
  else
    let s := ((s.wr Reg.MBX_STATUS_FULL m 0).wr Reg.MBX_ACK_CODE m code).wr Reg.MBX_ACK_VALID m 1
    let t := SMap.get {} s.mail.timers m
    let s := (s.setTimer m { t with running := false }).receiverBell m false
    let s := s.senderBell m
    if sentByHost m then s else s.mailFreed m

/-- A write of `MBX_ACK`. -/
def State.mailAck (s : State) (who : Requester) (m code : Nat) : State :=
  if isReceiver who m then s.mailTake m code else s.foreignMail who (mailOffset m 12)

def execMailboxAck (who : Requester) (m : Mailbox) (code : W16) (s : State) : Host.Outcome State Fault Refusal :=
  .next (s.access who (mailOffset m 12) (some (code.setWidth 32)) (fun s => s.mailAck who m code.toNat))

/-- A write of 1 to `MBX_WITHDRAW` (R303). -/
def State.mailWithdraw (s : State) (who : Requester) (m : Nat) : State :=
  if !isSender who m then s.foreignMail who (mailOffset m 20)
  else if !s.is Reg.MBX_STATUS_FULL m then s.wr Reg.MBX_STATUS_WD_FAIL m 1
  else
    let s := (s.wr Reg.MBX_STATUS_FULL m 0).wr Reg.MBX_STATUS_WD_FAIL m 0
    let t := SMap.get {} s.mail.timers m
    let s := (s.setTimer m { t with running := false }).receiverBell m false
    if sentByHost m then s else s.mailFreed m

def execMailboxWithdraw (who : Requester) (m : Mailbox) (s : State) : Host.Outcome State Fault Refusal :=
  .next (s.access who (mailOffset m 20) (some 1) (fun s => s.mailWithdraw who m))

/-- The sender's timeout expires with the message untaken (R302). -/
def execMailboxTimeout (m : Mailbox) (s : State) : Host.Outcome State Fault Refusal :=
  .next (
    let t := SMap.get {} s.mail.timers m
    if t.running && t.timeout != 0 && s.is Reg.MBX_STATUS_FULL m && decide (t.committed + 1000 * t.timeout ≤ s.time) then
      ((s.setTimer m { t with running := false }).wr Reg.MBX_STATUS_TMO m 1).senderBell m
    else s)

/-- The firmware answers ECHO: OK below bits [7:0] of the word (R297). -/
def execEcho (m : Mailbox) (s : State) : Host.Outcome State Fault Refusal :=
  .next (
    let w := s.rd Reg.MBX_DATA_WORD m
    if sentByHost m && w >>> 56 == 1 then s.mailTake m (codeOk + 256 * (w % 256)) else s)

/-- A W1C write of `MBX_DB` by a port's PF (R305). -/
def State.clearDoorbells (s : State) (port : Nat) (v : W32) : State :=
  s.setDoorbells port (s.doorbells port &&& (2 ^ 32 - 1 - v.toNat))

def execMbxDbClear (port : Fin 2) (bits : W32) (s : State) : Host.Outcome State Fault Refusal :=
  .next (s.access (.fn ⟨port, 0⟩) 0x10800 (some bits) (fun s => s.clearDoorbells port bits))

/-- A write of `MBX_DB_MASK`: a mask bit written to 0 while its doorbell bit is 1 interrupts (R305). -/
def State.writeMask (s : State) (port : Nat) (v : W32) : State :=
  let s := s.wr Reg.MBX_DB_MASK_MASK port v.toNat
  if s.doorbells port &&& (2 ^ 32 - 1 - v.toNat) = 0 then s else s.doorbellIrq port

def execMbxDbMaskWrite (port : Fin 2) (mask : W32) (s : State) : Host.Outcome State Fault Refusal :=
  .next (s.access (.fn ⟨port, 0⟩) 0x10804 (some mask) (fun s => s.writeMask port mask))

/-! Resets (R304) -/

/-- The fields of a mailbox that a reset of its sender's or receiver's port returns. -/
def mailFields : List Field :=
  [Reg.MBX_DATA_WORD, Reg.MBX_STATUS_FULL, Reg.MBX_STATUS_TMO, Reg.MBX_STATUS_WD_FAIL, Reg.MBX_STATUS_REJ, Reg.MBX_ACK_CODE, Reg.MBX_ACK_VALID, Reg.MBX_TMO_US]

/-- Port reset or FLR of a port's PF: its mailboxes, its doorbells, and the held-back events that can then be sent. -/
def State.mailPortReset (s : State) (port : Nat) : State :=
  let ms := (List.range 64).filter (fun m => mailPort m == port)
  let s := s.forEach ms (fun s m =>
    let full := s.is Reg.MBX_STATUS_FULL m
    let s := ((s.clearFields mailFields m).setTimer m {}).receiverBell m false
    if sentByHost m then s
    else if full then { s with mail := { s.mail with untaken := s.mail.untaken ++ [m] } } else s)
  let s := s.clearFields [Reg.MBX_DB_IN, Reg.MBX_DB_OUT, Reg.MBX_DB_MASK_MASK, Reg.MBX_IRQ_VECTOR, Reg.MBX_IRQ_EN] port
  s.forEach (ms.filter (fun m => !sentByHost m)) State.mailFreed

/-- A chip reset, an exit from Rest, a power-up: every mailbox is empty. -/
def State.mailReset (s : State) : State :=
  let s := s.forEach (List.range 64) (fun s m => s.clearFields mailFields m)
  let s := s.forEach [0, 1] (fun s p => s.clearFields [Reg.MBX_DB_IN, Reg.MBX_DB_OUT, Reg.MBX_DB_MASK_MASK, Reg.MBX_IRQ_VECTOR, Reg.MBX_IRQ_EN] p)
  let s := s.clearFields [Reg.MBX_CNT_REJECT, Reg.MBX_CNT_FOREIGN] 0
  { s with mail := { s.mail with timers := [], firmware := 0, untaken := [], backlog := [] } }

end Sys2Proof.Machine
end

