-- ==== Sys2Proof/Machine/HostOps.lean ====
section
/-! DEFINITION. Machine/HostOps.lean: DMA transfers, page faults, ownership, and the reset of a port or a function (R265 to
R292). -/
namespace Sys2Proof.Machine

/-! DMA (R286 to R292) -/

def dmaOp (d : BitVec 256) : Nat := bits d.toNat 0 8
def dmaBytes (d : BitVec 256) : Nat := bits d.toNat 32 32
def dmaHost (d : BitVec 256) : Nat := bits d.toNat 64 64
def dmaOffset (d : BitVec 256) : Nat := bits d.toNat 128 64
def dmaCookie (d : BitVec 256) : W64 := BitVec.ofNat 64 (bits d.toNat 192 64)

/-- Change the transfer of a ring. -/
def State.setJob (s : State) (r : Nat) (j : Option DmaJob) : State := (s.setRingState r { s.ringState r with job := j }).showWait r

/-- The checks of Table 8.7 on a descriptor that moves bytes. -/
def State.dmaFieldsOk (s : State) (r : Nat) (d : BitVec 256) : Bool :=
  let n := dmaBytes d
  bits d.toNat 8 24 == 0 && n % 4 == 0 && dmaHost d % 4 == 0 && dmaOffset d % 4 == 0 &&
  decide (dmaOffset d + n ≤ (s.dataWindow (s.ringPart r)).2) &&
  (match dmaOp d with
   | 1 => s.windowOk (s.ringPart r) (s.ringFn r) (dmaHost d) n false
   | 2 => s.windowOk (s.ringPart r) (s.ringFn r) (dmaHost d) n true
   | _ => dmaHost d == 0)

/-- Length of the next piece of a transfer: up to the next 4 KiB boundary. -/
def pieceLength (j : DmaJob) : Nat := min (4096 - (j.host + j.done) % 4096) (j.bytes - j.done)

/-- A page fault of a transfer: it parks at the boundary with a page request, or fails where none can be sent. A full capacity
leaves it translating again. -/
def State.dmaFault (s : State) (r : Nat) (j : DmaJob) : State :=
  let page := (j.host + j.done) / 4096
  if !s.priUsable (s.ringFn r) then ((s.setJob r (some j)).faultFailed r).dmaEnd r codeInvalid
  else match s.requestPage r page with
    | some t => t.setJob r (some { j with parked := some s.time, translating := false })
    | none => (s.setJob r (some { j with translating := true })).emit (.translationRequest (s.ringFn r) page)

/-- The next piece of a transfer begins: nothing is left, or its window test fails, or its page translates, or it goes on. -/
def State.dmaNext (s : State) (r : Nat) (j : DmaJob) : State :=
  let a := j.host + j.done
  let s := s.setJob r (some { j with translating := false, parked := none })
  if j.bytes ≤ j.done then s.dmaEnd r codeOk
  else if j.op = 3 then s
  else if !s.windowOk (s.ringPart r) (s.ringFn r) a (pieceLength j) (j.op == 2) then s.dmaEnd r codeInvalid
  else match s.xlate (s.ringFn r) a (j.op == 2) with
    | .granted => s
    | .unknown => (s.setJob r (some { j with translating := true, parked := none })).emit (.translationRequest (s.ringFn r) (a / 4096))
    | .lacking => s.dmaFault r j

/-- Consume the next descriptor of a DMA ring for a command of one OP, and begin it. Of an OP that Table 8.7 does not give the
descriptor ends with INVALID_FIELD. -/
def State.dmaStart (s : State) (r op : Nat) (d : BitVec 256) : State :=
  if (s.ringState r).job.isSome || !s.linkFit (s.ringFn r / 32) then s
  else if 1 ≤ dmaOp d ∧ dmaOp d ≤ 3 ∧ dmaOp d ≠ op then s
  else s.fetch r kindDma (fun s =>
    let j : DmaJob := { op := dmaOp d, bytes := dmaBytes d, host := dmaHost d, offset := dmaOffset d, cookie := dmaCookie d }
    if dmaOp d = 0 ∨ 4 ≤ dmaOp d then (s.setJob r (some j)).dmaEnd r codeInvalid
    else if dmaBytes d = 0 then (s.setJob r (some j)).dmaEnd r codeOk
    else if s.dmaFieldsOk r d then s.dmaNext r j
    else (s.setJob r (some j)).dmaEnd r codeInvalid)

/-- Move the bytes of a piece. -/
def State.movePiece (s : State) (r : Nat) (j : DmaJob) (hostData : List Byte) : State :=
  let n := pieceLength j
  let a := (s.dataWindow (s.ringPart r)).1 + j.offset + j.done
  match j.op with
  | 1 => s.stackWrite a ((hostData ++ List.replicate n 0).take n)
  | 2 => s.emit (.hostWrite (s.ringFn r) (j.host + j.done) (s.stackRead a n))
  | _ => s.stackZero a n

/-- A piece is done: the transfer ends at this boundary if it is to end here, without a completion where its ring is gone
(R274); else the next piece begins. -/
def State.pieceDone (s : State) (r : Nat) (j : DmaJob) (hostData : List Byte) : State :=
  let s := s.movePiece r j hostData
  let j := { j with done := j.done + pieceLength j }
  match j.ending with
  | some c => if c = 256 then s.dmaForget r else (s.setJob r (some j)).dmaEnd r (if j.bytes ≤ j.done then codeOk else c)
  | none => s.dmaNext r j

/-- An engine finishes the piece of a ring's transfer. -/
def State.dmaPiece (s : State) (r : Nat) (hostData : List Byte) : State :=
  match (s.ringState r).job with
  | none => s
  | some j =>
    if j.translating || j.parked.isSome || !(s.linkFit (s.ringFn r / 32) || j.ending.isSome) then s else s.pieceDone r j hostData

/-! Translations (R289, R290) -/

/-- The translation cache takes a translation; it holds 4,096, the latest first. -/
def State.cache (s : State) (code page : Nat) (readable writable : Bool) : State :=
  let p := s.portState (code / 32)
  let rest := p.atc.filter (fun e => !(e.fn == code && e.page == page))
  s.setPortState (code / 32) { p with atc := (⟨code, page, readable, writable⟩ :: rest).take 4096 }

/-- A cached translation is dropped. -/
def State.uncache (s : State) (code page : Nat) : State :=
  let p := s.portState (code / 32)
  s.setPortState (code / 32) { p with atc := p.atc.filter (fun e => !(e.fn == code && e.page == page)) }

/-- A translation arrives for what a ring waits for: its own access, else its transfer. -/
def State.translated (s : State) (r : Nat) (readable writable : Bool) : State :=
  let code := s.ringFn r
  match (s.ringState r).wait, (s.ringState r).job with
  | some w, _ =>
    if w.parked.isSome then s
    else
      let s := (s.cache code w.page readable writable).setWait r none
      if (if w.write then writable else readable) then s.ringRetry r
      else if s.priUsable code then s.parkPage r w.page w.write else s.ringFault r
  | none, some j =>
    if !j.translating then s
    else
      let s := s.cache code ((j.host + j.done) / 4096) readable writable
      if (if j.op = 2 then writable else readable) then s.dmaNext r { j with translating := false }
      else s.dmaFault r { j with translating := false }
  | none, none => s

/-- A page request's response (R290): Success translates again; the others end the access. -/
def State.pageResponse (s : State) (r : Nat) (c : PrsCode) : State :=
  let code := s.ringFn r
  let stop := fun (s : State) => if c = .responseFailure then s.setFnState code { s.fnState code with priStopped := true } else s
  match (s.ringState r).wait, (s.ringState r).job with
  | some w, _ =>
    if w.parked.isNone then s
    else if c = .success then
      ((((s.uncache code w.page).setWait r (some { w with parked := none })).showWait r).emit (.translationRequest code w.page))
    else (stop s).ringFault r
  | none, some j =>
    if j.parked.isNone then s
    else if c = .success then
      let page := (j.host + j.done) / 4096
      ((s.uncache code page).setJob r (some { j with parked := none, translating := true })).emit (.translationRequest code page)
    else ((stop s).faultFailed r).dmaEnd r codeInvalid
  | none, none => s

/-- Time allowed for a page request, in ns; 0 acts as 1 ms. -/
def State.pageTimeout (s : State) : Nat := 1000000 * max 1 (s.rd Reg.DMA_PRI_CTRL_TIMEOUT_MS)

/-- No response within the time: the access ends with TIMEOUT. -/
def State.pageExpired (s : State) (r : Nat) : State :=
  let late := fun (t : Option Nat) => match t with | some t => decide (t + s.pageTimeout ≤ s.time) | none => false
  match (s.ringState r).wait, (s.ringState r).job with
  | some w, _ => if late w.parked then s.ringFault r else s
  | none, some j => if late j.parked then (s.faultFailed r).dmaEnd r codeTimeout else s
  | none, none => s

/-- An ATS invalidation of a range of host pages (R289): transfers in it translate again from their boundary, its cached
translations are dropped, and it completes. -/
def State.atsInvalidate (s : State) (port page pages : Nat) : State :=
  let hit := fun (x : Nat) => decide (page ≤ x) && decide (x < page + pages)
  let p := s.portState port
  let s := s.setPortState port { p with atc := p.atc.filter (fun e => !hit e.page) }
  let s := s.forEach (s.host.rings.map Prod.fst) (fun s r =>
    match (s.ringState r).job with
    | some j =>
      let code := s.ringFn r
      if code / 32 = port ∧ (s.fnState code).ats ∧ j.op ≠ 3 ∧ hit ((j.host + j.done) / 4096) ∧ !j.translating ∧ j.parked.isNone ∧ j.ending.isNone then
        (s.setJob r (some { j with translating := true })).emit (.translationRequest code ((j.host + j.done) / 4096))
      else s
    | none => s)
  (s.bump Reg.DMA_CNT_ATSINV_COUNT).emit (.invalidationDone port)

/-! Ownership (R269 to R272) -/

def State.owner (s : State) : Nat := s.rd Reg.HIF_OWN_STATUS_OWNER

/-- A stage is discarded with an error code (R437, R442). -/
def State.discardStage (s : State) (err : Nat) : State :=
  if s.rd Reg.SEC_TP_STATUS_STATE = 0 then s
  else
    let s := ((s.wr Reg.SEC_TP_STATUS_STATE 0 0).wr Reg.SEC_TP_STATUS_ERR 0 err).wr Reg.SEC_TP_STATUS_ENTRIES 0 0
    { s with sec := { s.sec with entries := [], keys := [], rollback := false, record := [] } }

/-- Ownership is granted to a port with its nonce. -/
def State.grant (s : State) (port nonce : Nat) : State :=
  ((s.wr Reg.HIF_OWN_STATUS_OWNER 0 (port + 1)).wr Reg.HIF_OWN_NONCE_NONCE 0 nonce).wr Reg.HIF_OWN_STATUS_RECLAIMED 0 0

/-- `HIF_OWN_POLICY` bars a port from claiming. -/
def State.claimBarred (s : State) (port : Nat) : Bool :=
  let c := s.rd Reg.HIF_OWN_POLICY_CLAIM_PORTS
  (c == 1 && port == 1) || (c == 2 && port == 0)

/-- A claim (R269). -/
def State.claim (s : State) (who : Requester) (nonce : Nat) : State :=
  match pfPort who with
  | none => s
  | some p =>
    if nonce = 0 ∨ s.owner ≠ 0 ∨ s.is Reg.HIF_OWN_STATUS_OFFER then s
    else if s.claimBarred p then s.notOwner who 0 0x20
    else s.grant p nonce

/-- An offer ends (R271). -/
def State.endOffer (s : State) (abandoned : Bool) : State :=
  ((s.wr Reg.HIF_OWN_STATUS_OFFER 0 0).wr Reg.HIF_OWN_HANDOVER_OFFER 0 0).wr Reg.HIF_OWN_STATUS_ABANDONED 0 abandoned.toNat

/-- OFFER (R271): the owner's, to the other port; a pending one stands. -/
def State.offer (s : State) : State :=
  if s.owner = 0 ∨ s.is Reg.HIF_OWN_STATUS_OFFER then s
  else
    let s := ((s.wr Reg.HIF_OWN_STATUS_OFFER 0 1).wr Reg.HIF_OWN_HANDOVER_OFFER 0 1).wr Reg.HIF_OWN_STATUS_ABANDONED 0 0
    { s with host := { s.host with offerTime := s.time } }

/-- More than 100 ms have passed since the OFFER. -/
def State.offerExpired (s : State) : Bool := decide (s.host.offerTime + 100000000 < s.time)

/-- ACCEPT (R271). -/
def State.accept (s : State) (who : Requester) (nonce : Nat) : State :=
  let s := if s.is Reg.HIF_OWN_STATUS_OFFER && s.offerExpired then s.endOffer true else s
  match pfPort who with
  | none => s
  | some p =>
    if nonce = 0 then s
    else if !s.is Reg.HIF_OWN_STATUS_OFFER then s.notOwner who 0 0x30
    else if s.owner = p + 1 then s
    else ((s.endOffer false).grant p nonce).discardStage 9

/-! Reset of a port or a function (R274, R275) -/

/-- Fields of a ring control block that its port's reset returns. -/
def ringFields : List Field :=
  [Reg.RCB_CFG_KIND, Reg.RCB_CFG_CFMT, Reg.RCB_CFG_SIZE_EXP, Reg.RCB_CFG_ENABLE, Reg.RCB_PAIR_CPL, Reg.RCB_PAIR_TOKEN, Reg.RCB_INTR_VECTOR,
   Reg.RCB_INTR_INTR_EN, Reg.RCB_INTR_COAL_CNT, Reg.RCB_INTR_COAL_T, Reg.RCB_BASE_ADDR, Reg.RCB_WB_ADDR, Reg.RCB_HEAD_INDEX,
   Reg.RCB_TAIL_INDEX, Reg.RCB_STATUS_STATE, Reg.RCB_STATUS_ERR, Reg.RCB_STATUS_ARMED, Reg.RCB_STATUS_FAULT_WAIT, Reg.RCB_COUNT_ENTRIES]

/-- A ring number that is no ring: where completions of a load go whose ring is gone. -/
def noRing : Nat := 4096

/-- Loads, transactions and refills of a ring that is gone run on; their completions are dropped. -/
def State.orphanLoads (s : State) (gone : Nat → Bool) : State :=
  let swap := fun (r : Nat) => if gone r then noRing else r
  let l := s.loader
  { s with loader := { l with loads := l.loads.map (fun e => (e.1, { e.2 with ring := swap e.2.ring, shards := e.2.shards.map (fun x => (x.1, { x.2 with posters := x.2.posters.map (fun q => (swap q.1, q.2)) })) })), txns := l.txns.map (fun e => (e.1, { e.2 with ring := swap e.2.ring })), refills := l.refills.map (fun e => (e.1, (swap e.2.1, e.2.2))) } }

/-- Requests whose rings are gone are cancelled and write no entry; those that only waited to write one are released. -/
def State.dropRequests (s : State) (gone : Nat → Bool) : State :=
  s.forEach ((s.serving.requests.filter (fun e => !e.2.member && !e.2.isCompanion && e.2.state != .free && gone e.2.subring)).map Prod.fst) (fun s i =>
    let r := s.request i
    if r.state = .done ∨ r.state = .faulted then s.release i 0
    else if r.state = .cancelling then s.setRequest i { r with ringless := true, heldTokens := [] }
    else (s.setRequest i { r with heldTokens := [] }).cancelRequest i codeCancelled true)

/-- The rings of functions that are reset: requests first, then the control blocks, with transfers left to their boundary. -/
def State.resetRings (s : State) (p : Nat → Bool) : State :=
  let rs := s.ringsOf p
  let gone := fun (r : Nat) => rs.contains r
  let s := (s.dropRequests gone).orphanLoads gone
  s.forEach rs (fun s r =>
    let job := (s.ringState r).job
    let s := (s.clearFields ringFields r).setRingState r {}
    match job with
    | some j => if j.translating || j.parked.isSome then s else s.setRingState r { job := some { j with ending := some 256 } }
    | none => s)

/-- Functions return to their configuration reset state. -/
def State.resetFns (s : State) (codes : List Nat) (flr : Bool) : State :=
  s.forEach codes (fun s c =>
    let s := s.setFnState c { flr := flr }
    { s with host := { s.host with msix := s.host.msix.filter (fun e => e.1 / 8192 != c) } })

/-- Function codes of a port. -/
def portCodes (port : Nat) : List Nat := (List.range 17).map (· + 32 * port)

/-- Accesses of some requesters that are held in a crossing are dropped with them. -/
def State.dropHeld (s : State) (port : Nat) (p : Nat → Bool) : State :=
  s.setHeld port ((s.heldAt port).filter (fun h => !p (reqCode h.who)))

/-- The port's mailboxes, doorbells and clock hold, and the owner's pending offer (R271, R304). -/
def State.resetPortBlock (s : State) (port : Nat) : State :=
  let s := s.mailPortReset port
  let s := s.clearFields [Reg.CLK_KEEP_HOLD, Reg.CLK_KEEP_LAPSED] port
  let s := { s with mail := { s.mail with holdSince := SMap.erase s.mail.holdSince port } }
  if s.is Reg.HIF_OWN_STATUS_OFFER && s.owner == port + 1 then s.endOffer true else s

/-- A port reset (R274): 1 PERST#, 2 hot reset, 3 DL_Down. -/
def State.portReset (s : State) (port cause : Nat) : State :=
  let s := (s.resetRings (fun c => c / 32 == port)).resetFns (portCodes port) false
  let s := (s.dropHeld port (fun _ => true)).resetPortBlock port
  let s := s.setPortState port { downSince := some ((s.portState port).downSince.getD s.time) }
  let s := s.clearFields [Reg.HIF_PORT_STATUS_RATE, Reg.HIF_PORT_STATUS_WIDTH, Reg.HIF_PORT_STATUS_DL_UP, Reg.HIF_PORT_STATUS_DEGRADED, Reg.HIF_PORT_STATUS_IDE] port
  s.wr Reg.HIF_PORT_STATUS_LAST_RESET port cause

/-- A function level reset (R275): of a VF alone, of a PF with its VFs, the port's mailboxes and its pending offer. -/
def State.flr (s : State) (port idx : Nat) : State :=
  let codes := if idx = 0 then portCodes port else [32 * port + idx]
  let s := (s.resetRings (fun c => codes.contains c)).resetFns codes true
  let p := s.portState port
  let s := (s.setPortState port { p with atc := p.atc.filter (fun e => !codes.contains e.fn) }).dropHeld port (fun c => codes.contains c)
  if idx = 0 then (s.resetPortBlock port).wr Reg.HIF_PORT_STATUS_LAST_RESET port 4 else s

/-! BAR4 (R268) -/

/-- An access lies within the landing area. -/
def State.inLanding (s : State) (off len : Nat) : Bool :=
  decide (s.landBase ≤ off) && decide (off + len ≤ s.landBase + 67108864 * s.rd Reg.LDR_LAND_SIZE_BUFFERS)

/-- The stack that holds a stack address: each holds 72 GiB in turn. -/
def stackOf (a : Nat) : Nat := min 3 (a / 77309411328)

/-- An access through BAR4: bytes go to or come from the landing area; elsewhere a write is reported as R270 says, and a read
completes with Unsupported Request. -/
def State.bar4Do (s : State) (fn : PciFn) (off : Nat) (a : WindowAccess) : State :=
  match a with
  | .write data => if s.inLanding off data.length then s.stackWrite (s.bar4Address off) data else s.notOwner (.fn fn) 2 off
  | .read n => if s.inLanding off n then s.emit (.windowData (fnCode fn) (s.stackRead (s.bar4Address off) n)) else s.emit (.readUnsupported (fnCode fn))

/-- Only a PF has BAR4. Its stack's domain stops in Rest; it passes no held posted write of its port (Table 9.3). -/
def State.bar4 (s : State) (fn : PciFn) (off : Nat) (a : WindowAccess) : State :=
  if fn.idx.val ≠ 0 ∨ !s.served (.fn fn) then s
  else if s.resting ∧ s.inLanding off 1 then s.hold ⟨.fn fn, 2, off, none, 100 + stackOf (s.bar4Address off), some a⟩
  else if s.blocked (.fn fn) then s.hold ⟨.fn fn, 2, off, none, 255, some a⟩
  else s.bar4Do fn off a

/-! Doorbells (R280, R281, R283) -/

/-- A doorbell write of a ring that counts in `HIF_NOW_CNT.BADDB`, goes to R270, or acts. -/
def State.doorbell (s : State) (fn : PciFn) (r off : Nat) (act : State → State) : State :=
  let own := s.is Reg.RCB_ASSIGN_VALID r && s.ringFn r == fnCode fn
  if !s.is Reg.RCB_ASSIGN_VALID r then s.bump Reg.HIF_NOW_CNT_BADDB
  else if !own && fn.idx.val == 0 then s.notOwner (.fn fn) 1 off
  else if !own || !s.ringActive r then s.bump Reg.HIF_NOW_CNT_BADDB
  else act s

/-- A new TAIL of a host-producer ring, or HEAD of a device-producer ring. -/
def State.newIndex (s : State) (r v : Nat) : State :=
  let head := s.rd Reg.RCB_HEAD_INDEX r
  if hostProducer (s.ringKind r) then
    if s.ringCap r < (v + 2 ^ 32 - head) % 2 ^ 32 then s.ringError r 6
    else
      let s := s.wr Reg.RCB_TAIL_INDEX r v
      if s.ringKind r = kindSubmit then s.autowake else s
  else if s.ringUsed r < (v + 2 ^ 32 - head) % 2 ^ 32 then s.ringError r 6
  else (s.wr Reg.RCB_HEAD_INDEX r v).ringFreed r

/-- Arm a ring's interrupt: one whose conditions already hold is sent at once. -/
def State.arm (s : State) (r v : Nat) : State := if bit v 0 then (s.wr Reg.RCB_STATUS_ARMED r 1).ringSignal r else s

/-- A write of an RW field of a ring control block by a requester who may write it; a VF sees only its own rings (R266, R270). -/
def State.ringReg (s : State) (who : Requester) (r off : Nat) (f : State → State) : State :=
  if s.mayRing who r then f s else if isVf who then s else s.notOwner who 0 (0x20000 + 64 * r + off)

/-- A write of `RCB_CTRL`: STOP and RESUME together do nothing (R284). -/
def State.ringCtrl (s : State) (r v : Nat) : State :=
  if bit v 0 && bit v 1 then s else if bit v 0 then s.stopRing r else if bit v 1 then s.resumeRing r else s

/-- `RCB_CFG` as it stands, with ENABLE as given. -/
def State.cfgWord (s : State) (r enable : Nat) : W32 :=
  BitVec.ofNat 32 (s.ringKind r + 8 * s.rd Reg.RCB_CFG_CFMT r + 32 * s.rd Reg.RCB_CFG_SIZE_EXP r + 1024 * enable)

/-- ENABLE is written: a ring that becomes ACTIVE or DISABLED lets requests go on or wait (R234). -/
def State.ringSwitch (s : State) (r enable : Nat) : State :=
  if enable = 1 then
    let t := s.enableRing r
    if t.ringActive r && !hostProducer (t.ringKind r) then t.ringFreed r else t
  else s.disableRing r

end Sys2Proof.Machine
end

