-- ==== Sys2Proof/Machine/LossOps.lean ====
section
/-! DEFINITION. Machine/LossOps.lean: what each reset and power state loses (Table 14.8, R410 to R414, R420, R421). -/
namespace Sys2Proof.Machine

/-! Records that are dropped (R404, R405, R411, R414) -/

/-- The records of a course's aggregator and queue are dropped and counted. -/
def State.dropCourseRecords (s : State) (a : Nat) : State :=
  let l := (SMap.get {} s.fault.aggs a).records ++ SMap.get [] s.fault.queues a
  let s := l.foldl State.dropRecord s
  { s with fault := { s.fault with aggs := SMap.erase s.fault.aggs a, queues := SMap.erase s.fault.queues a } }

/-- Every record not yet in the die log is dropped and counted. -/
def State.dropAllRecords (s : State) : State :=
  let s := ((s.fault.aggs.map Prod.fst ++ s.fault.queues.map Prod.fst).eraseDups).foldl State.dropCourseRecords s
  let s := (s.fault.held.map Prod.snd).foldl State.dropRecord s
  { s with fault := { s.fault with held := [], dieStart := 0, dieUnits := [] } }

/-! Cores and arrays -/

/-- Cores lose their SRAMs and all they hold; a quarantined core stays HALTED (R420). -/
def State.wipeCores (s : State) (gone : Nat → Bool) : State :=
  let quar := (s.cores.filter (fun e => gone e.1 && e.2.quarantined)).map Prod.fst
  let keep := fun e : Nat × CoreState => if !gone e.1 then some e else if e.2.quarantined then some (e.1, { quarantined := true }) else none
  let s := { s with cores := s.cores.filterMap keep, dsram := s.dsram.filter (fun e => !gone (e.1 / dataSize)), tsram := s.tsram.filter (fun e => !gone (e.1 / tabSize)) }
  let s := { s with loader := { s.loader with constWindow := s.loader.constWindow.filter (fun e => !gone e.1) } }
  s.forEach quar (fun s k => s.wr Reg.CRS_CORE_STATUS_STATE k 3)

/-- Program slots pend for the tier that an array programs, and for tiers with marked rows (R341). -/
def State.showProgramming (s : State) (k : Nat) : State :=
  let s := match (s.array k).prog with
    | some j => ((s.wr Reg.CRS_ARR_STATUS_PROG k 1).wr Reg.CRS_ARR_STATUS_PTIER k (j.tile.tier % 128)).wr Reg.CRS_ARR_TFMT_PROGRAMMING j.tile.tier 1
    | none => s
  ((SMap.get [] s.peg.jobs k).filter (fun j => j.judged && !j.marked.isEmpty)).foldl (fun s j => s.wr Reg.CRS_ARR_TFMT_PROGRAMMING (128 * k + j.tier) 1) s

/-- Arrays lose what is in progress but their trims, and what they program goes on later; the quiet intervals end. -/
def State.wipeArrays (s : State) (gone : Nat → Bool) : State :=
  let ks := ((s.arrays.map Prod.fst).filter (fun k => gone (k / 9)))
  let s := s.forEach ks (fun s k => s.setArray k { trim := (s.array k).trim, prog := (s.array k).prog })
  let s := { s with peg := { s.peg with quiet := s.peg.quiet.filter (fun e => !gone (e.1 / 9)), busy := s.peg.busy.filter (fun e => !gone (e.1 / 9)) } }
  s.forEach ((ks ++ (s.peg.jobs.map Prod.fst).filter (fun k => gone (k / 9))).eraseDups) State.showProgramming

/-! Courses (R411) -/

/-- The field copies that belong to a course. -/
def courseScope (course : Nat) (f : Field) (i : Nat) : Bool :=
  match f.scope with
  | .tier => courseOf (i / 1152) == course
  | .array => courseOf (i / 9) == course
  | .core => courseOf i == course
  | .course => i == course
  | .reqCourse => i % 100 == course
  | _ => false

/-- The routers of a course drop the flits and barrier states of a partition. -/
def State.purgeRouters (s : State) (course p : Nat) : State :=
  let mine := fun r => if r < 11000 then courseOf r == course else r == 11000 + course
  let rs := (s.fabric.routers.filter (fun e => mine e.1)).map Prod.fst
  let s := s.forEach rs (fun s r => s.setRouter r { s.router r with waiting := (s.router r).waiting.filter (fun q => tagPart q.2.tag != p) })
  { s with fabric := { s.fabric with barriers := SMap.put [] s.fabric.barriers course ((SMap.get [] s.fabric.barriers course).filter (fun b => b.part != p)) } }

/-- A course reset loses its aggregator queue, its partition's state in its routers, and all that its cores and arrays hold but
weights, formats and maps. -/
def State.loseCourse (s : State) (course : Nat) : State :=
  let gone := fun k => courseOf k == course
  let s := s.dropCourseRecords course
  let s := match s.coursePart course with
    | some p => s.purgeRouters course p
    | none => s
  ((s.resetFields 2 (courseScope course)).wipeArrays gone).wipeCores gone

/-! Partitions (R412) -/

/-- The field copies that belong to a partition, its courses and its adapter slots. -/
def State.partScope (s : State) (p : Nat) (f : Field) (i : Nat) : Bool :=
  match f.scope with
  | .part => i == p
  | .epochSlot => i / 4 == p
  | .adapterSlot => s.rd Reg.LDR_ADP_SLOT_PART i == p
  | _ => (s.physCoursesOf p).any (fun c => courseScope c f i)

/-- Every request of a partition ends with PARTITION_RESET; member entries and companion contexts are discarded (R412, Table
7.3). -/
def State.endRequests (s : State) (p : Nat) : State :=
  s.forEach (s.entriesOf p) (fun s i =>
    let r := s.request i
    if r.member ∨ r.isCompanion then s.setRequest i { version := r.version }
    else s.setRequest i { r with state := .faulted, cause := .none, code := codePartitionReset, pages := [], reserved := 0, reserveWait := false, inFlight := false, companion := 0xFFFF, chainWait := none, pfxEntry := 0xFFFF, unbound := true, preempt := false, drafts := [] })

/-- The partition's scheduler, prefixes and pass log are empty. -/
def State.emptyScheduler (s : State) (p : Nat) : State :=
  let v := s.serving
  { s with serving := { v with prefixes := v.prefixes.filter (fun e => e.2.part != p), passes := SMap.erase v.passes p, waiting := SMap.erase v.waiting p }, fault := { s.fault with passLog := SMap.erase s.fault.passLog p, absent := s.fault.absent.filter (fun a => a / 100 != p) }, link := { s.link with chainBarriers := s.link.chainBarriers.filter (fun b => b.part != p) }, fabric := { s.fabric with releases := s.fabric.releases.filter (fun e => e.1.part != p) } }

/-- DMA transfers of a partition's rings end at their next boundary (R294). -/
def State.stopTransfers (s : State) (p : Nat) : State :=
  s.forEach ((s.host.rings.filter (fun e => e.2.job.isSome && s.ringPart e.1 == p)).map Prod.fst) (fun s r => s.dmaStop r codePartitionReset)

/-- A shadow refill of a partition ends CANCELLED, and READY stays 0 (R224). -/
def State.endRefill (s : State) (p : Nat) : State :=
  match SMap.find? s.loader.refills p with
  | some (ring, cookie) => ({ s with loader := { s.loader with refills := SMap.erase s.loader.refills p } }).loadComplete ring cookie 10 p { code := codeCancelled }
  | none => s

/-- DRAINING epochs without a hold retire. -/
def State.retireAll (s : State) (p : Nat) : State := s.forEach (List.range 4) (fun s k => s.retire p k)

/-! Chip reset, Rest, power-up (R414, R420) -/

/-- Repairs that were being programmed wait for their arrays again; what loads programmed is dropped. -/
def State.requeueTiles (s : State) : State :=
  let tiles := s.arrays.filterMap (fun e => e.2.prog.bind (fun j => if j.tile.shard = 0xFFFFFFFF then some j.tile else none))
  { s with loader := { s.loader with repairs := tiles ++ s.loader.repairs } }

/-- Loads and what they staged, transactions, streams and refills are lost; PREPARED epochs are kept with the transaction that
their member reports (R218, Table 14.9). -/
def State.loseLoads (s : State) : State :=
  let s := s.requeueTiles
  let staging := (s.loader.epochs.map Prod.fst).filter (fun k => s.rd Reg.LDR_EPOCH_STATE k == 1)
  let s := s.forEach staging (fun s k => s.freeEpoch (k / 4) (k % 4))
  let open_ := fun e : Nat × (Nat × W64) => match s.epochSlot? e.1 e.2.1 with
    | some k => decide (2 ≤ s.rd Reg.LDR_EPOCH_STATE (epochKey e.1 k))
    | none => false
  let l := s.loader
  { s with loader := { l with loads := [], txns := [], memberTxn := l.memberTxn.filter open_, streams := [], refills := [] } }

/-- Every array and core loses what is in progress, tabs and SRAMs; the Peg engines, the converter queue and the fabric what
they hold of work. -/
def State.loseWork (s : State) : State :=
  let ks := s.arrays.map Prod.fst
  let s := s.forEach ks (fun s k => s.setArray k { trim := (s.array k).trim })
  let s := s.wipeCores (fun _ => true)
  let g := s.peg
  let f := s.fabric
  let routers := (f.routers.map (fun e => (e.1, ({ mismatches := e.2.mismatches, combineOff := e.2.combineOff } : RouterState)))).filter (fun e => decide (e.2 ≠ ({} : RouterState)))
  { s with peg := { g with jobs := [], due := [], named := [], overdue := [], quiet := [], busy := [], holds := [] }, mcv := {}, fabric := { f with routers := routers, barriers := [], releases := [], selfTest := false, heldMaps := [], failedCores := [] }, link := { s.link with chainBarriers := [] } }

/-- The hosts' side is lost: rings, requests, mailboxes, crossings; with `links` the PCIe links stay as they are, else every port
is down. -/
def State.loseHosts (s : State) (links : Bool) : State :=
  let down : PortState := { downSince := some s.time }
  { s with host := if links then { fns := s.host.fns, ports := s.host.ports } else { ports := [(0, down), (1, down)] }, mail := {}, serving := {}, latches := [], snapshots := [], fault := { s.fault with passLog := [], samples := [], absent := [], posted := [] } }

/-- A ZL port sends GOODBYE and is DOWN, and owes its partner a RESET_NOTICE (R413, R414). -/
def State.dropZl (s : State) (p : Nat) : State :=
  let s := if s.zlUp p then s.zlLink p linkGoodbyeOp 0 0 else s
  ((s.wr Reg.LNK_STATUS_STATE p 0).wr Reg.LNK_STATUS_LANES p 0).setZl p { since := s.time, retryAt := s.time, notice := true }

/-- What a chip reset loses, with the fields weaker than CHIP (R414). -/
def State.loseChip (s : State) : State :=
  let s := (s.dropAllRecords).forEach (List.range 8) State.dropZl
  let s := ((s.loseLoads).loseWork).loseHosts false
  let s := s.resetFields 5 (fun _ _ => true)
  let s := s.wipeCores (fun _ => true)
  { s with sec := { s.sec with entries := [], keys := [], rollback := false, record := [], spdm := [], nonces := [] }, cal := { s.cal with staged := [], recal := [], aborting := false } }

/-- What Rest loses of the stacks: every byte, and what was kept there (R378, R423). -/
def State.loseStacks (s : State) : State :=
  let l := s.loader
  let s := { s with stack := [], loader := { l with tabs := [], fallbacks := [], consts := [], adapters := [] }, link := { s.link with ingress := [] }, peg := { s.peg with gaps := [], gapsOff := [] }, fault := { s.fault with passLog := [] } }
  let s := s.wr Reg.LDR_SHADOW_READY 0 0
  let ids := [Reg.LDR_ADP_SLOT_VERSION, Reg.LDR_ADP_SLOT_PART, Reg.LDR_ADP_SLOT_VALID, Reg.LDR_ADP_SLOT_RESIDENT, Reg.LDR_ADP_SLOT_SUPERSEDED, Reg.LDR_ADP_SLOT_REFS].map (fun f => f.id)
  { s with regs := s.regs.filter (fun e => !ids.contains (e.1 / 16777216)) }

/-- Program copies are lost: each CURRENT epoch drains with a hold, and its partition awaits its restore image (R423). -/
def State.loseCopies (s : State) : State :=
  s.forEach (List.range 16) (fun s p =>
    match s.currentSlot? p with
    | some k =>
      let e := epochKey p k
      ((s.wr Reg.LDR_EPOCH_STATE e 4).wr Reg.LDR_EPOCH_HOLD e 1).wr Reg.FLT_PROG_LOST_PART 0 (setBit (s.rd Reg.FLT_PROG_LOST_PART) p true)
    | none => s)

/-- VERIFIED clears in every tier (`CRS_ARR_TFMT`). -/
def State.unverify (s : State) : State :=
  { s with regs := s.regs.filter (fun e => e.1 / 16777216 != Reg.CRS_ARR_TFMT_VERIFIED.id) }

end Sys2Proof.Machine
end

