-- ==== Sys2Proof/Machine/PowerOps.lean ====
section
/-! DEFINITION. Machine/PowerOps.lean: sensors and levels, the issue clamp, the trip, deferred stops, the full verify sweep's start and
end, Nap and Rest (chapter 12, R309, R340). -/
namespace Sys2Proof.Machine

/-- PLDM events (R373, R415, R459): a trip, a wait for cooling, a request for a power cycle. -/
def pldmTrip : Nat := 1
def pldmCooling : Nat := 2
def pldmCycle : Nat := 3

/-- The device asks the tray controller for a power cycle (R415). -/
def State.askPowerCycle (s : State) : State :=
  ({ s with recovery := { s.recovery with powerCycle := true } }).emit (.pldm pldmCycle)

/-! Sensors (R359 to R361) -/

/-- The course nearest to a sensor: its own for 0–99; for a hotspot, stack or PHY sensor the course beside it (Tables 5.2,
12.1). -/
def courseOfSensor (n : Nat) : Nat :=
  if n < 100 then n
  else if n < 132 then
    let i := (n - 100) % 8 + 1
    (match (n - 100) / 8 with | 0 => i | 1 => 10 * i + 9 | 2 => 90 + i | _ => 10 * i)
  else if n < 136 then [4, 49, 94, 40].getD (n - 132) 0
  else [20, 29, 70, 79, 2, 7, 92, 97].getD (n - 136) 0

/-- Courses that share an edge with a course. -/
def adjacentCourses (c : Nat) : List Nat :=
  (if 10 ≤ c then [c - 10] else []) ++ (if c < 90 then [c + 10] else []) ++ (if c % 10 ≠ 0 then [c - 1] else []) ++
  (if c % 10 ≠ 9 then [c + 1] else [])

/-- The sensors beside a sensor. -/
def neighbours (n : Nat) : List Nat := if n < 100 then adjacentCourses n else [courseOfSensor n]

/-- A sensor takes part in decisions (R361). -/
def State.sensorUsed (s : State) (n : Nat) : Bool := (s.sensor n).seen && !s.is Reg.TRM_SENSOR_FAILED n

def maxInt : List Int → Option Int
  | [] => none
  | x :: l => some (l.foldl max x)

/-- The temperature that a sensor's place counts with: its reading, or the substitute of R361, in 1/16 °C. -/
def State.placeTemp (s : State) (n : Nat) : Option Int :=
  if s.is Reg.TRM_SENSOR_FAILED n then (maxInt (((neighbours n).filter s.sensorUsed).map (fun m => (s.sensor m).last))).map (· + 80)
  else if (s.sensor n).seen then some (s.sensor n).last else none

/-- Tmax and the sensor that holds it, the lowest on ties. -/
def State.hottest (s : State) : Option (Nat × Int) :=
  (List.range 144).foldl (fun (best : Option (Nat × Int)) n =>
    match s.placeTemp n, best with
    | some t, some b => if b.2 < t then some (n, t) else best
    | some t, none => some (n, t)
    | none, _ => best) none

/-- Sensors in use at or above 115 °C. -/
def State.hotSensors (s : State) : Nat := ((List.range 144).filter (fun n => s.sensorUsed n && decide (1840 ≤ (s.sensor n).last))).length

/-- RATE of a reading (R360). -/
def rateOf (t : Int) : Nat := if t < 1520 then 0 else if t ≤ 1600 then 1 else 2

/-! The issue clamp (R365 to R369) -/

/-- `TRM_CLAMP` follows f_T and f_P; after a trip f is 0 (R371). -/
def State.setClamp (s : State) : State :=
  s.wr Reg.TRM_CLAMP_F 0 (if s.thermal.tripped then 0 else min (s.rd Reg.TRM_CLAMP_F_T) (s.rd Reg.TRM_CLAMP_F_P))

/-- Target of f_T in 1/32,000,000 for a Tmax in 1/16 °C (R366). -/
def ftTarget (t : Int) : Nat :=
  if t ≤ 1600 then 32000000 else (max 4000000 (32000000 - 250000 * (t - 1600))).toNat

/-- f_T follows its target: down at once, up by at most 1/32 per ms. -/
def State.judgeFt (s : State) (t : Int) : State :=
  let h := s.thermal
  let target := ftTarget t
  let f := if target < h.ftFine then target else min target (h.ftFine + (s.time - h.ftTime))
  (({ s with thermal := { h with ftFine := f, ftTime := s.time } }).wr Reg.TRM_CLAMP_F_T 0 (f / 125000)).setClamp

/-- The effective power cap in 1/8 W (R367 to R369). -/
def State.powerCap (s : State) : Nat :=
  let tray := if s.is Reg.TRM_STATUS_ALERT then s.rd Reg.TRM_CAP_ALERT_W else s.rd Reg.TRM_CAP_TRAY_W
  8 * max 300 (min 750 (min tray (s.rd Reg.TRM_CAP_HOST_W)))

/-- f_P falls where the power exceeds the cap (R367). -/
def State.lowerFp (s : State) (p pu : Nat) : State :=
  let f := s.rd Reg.TRM_CLAMP_F_P
  let cap := s.powerCap
  if p ≤ cap then s
  else (s.wr Reg.TRM_CLAMP_F_P 0 (max 32 (f * (cap - pu) / (p - pu)))).wr Reg.TRM_STATUS_CAP_UNMET 0 (decide (f = 32)).toNat

/-- What follows f_P. -/
def State.showCapped (s : State) : State := (s.wr Reg.TRM_STATUS_CAPPED 0 (decide (s.rd Reg.TRM_CLAMP_F_P < 256)).toNat).setClamp

/-- One power interval (R367, R368). -/
def State.powerStep (s : State) (p pu : Nat) : State :=
  let l := (p :: s.thermal.powers).take 100
  let s := ({ s with thermal := { s.thermal with powers := l } }).wr Reg.TRM_POWER_P 0 (l.sum / l.length)
  let s := s.wr Reg.TRM_POWER_P_U 0 pu
  (if s.powerCap < p then s.lowerFp p pu
   else (s.wr Reg.TRM_CLAMP_F_P 0 (min 256 (s.rd Reg.TRM_CLAMP_F_P + 4))).wr Reg.TRM_STATUS_CAP_UNMET 0 0).showCapped

/-! Levels (R363, R364) -/

/-- The firmware posts THERMAL to the owner's port, to both without an owner. -/
def State.postThermal (s : State) (sensor : Nat) (t : Int) (level : Nat) (reached : Bool) : State :=
  let arg := sensor + ofSigned 16 t * 2 ^ 8 + level * 2 ^ 24 + reached.toNat * 2 ^ 26
  match s.rd Reg.HIF_OWN_STATUS_OWNER with
  | 1 => s.post 43 0x12 arg
  | 2 => s.post 59 0x12 arg
  | _ => s.postBoth 43 59 0x12 arg

/-- A level is reached above `hi` and cleared at or below `lo`. -/
def State.judgeLevel (s : State) (f : Field) (level : Nat) (hi lo : Int) (sensor : Nat) (t : Int) : State :=
  if !s.is f && decide (hi < t) then (s.wr f 0 1).postThermal sensor t level true
  else if s.is f && decide (t ≤ lo) then (s.wr f 0 0).postThermal sensor t level false
  else s

/-- Tmax, its peak, the levels and f_T follow a sample. -/
def State.judgeHeat (s : State) : State :=
  match s.hottest with
  | none => s
  | some (n, t) =>
    let s := (s.wr Reg.TRM_HOT_TEMP 0 (ofSigned 16 t)).wr Reg.TRM_HOT_SENSOR 0 n
    let higher := !s.thermal.peakSeen || decide (toSigned 16 (s.rd Reg.TRM_PEAK_TEMP) < t)
    let s := if higher then ((s.wr Reg.TRM_PEAK_TEMP 0 (ofSigned 16 t)).wr Reg.TRM_PEAK_SENSOR 0 n) else s
    let s := { s with thermal := { s.thermal with peakSeen := true } }
    ((s.judgeLevel Reg.TRM_STATUS_WARN 1 1520 1472 n t).judgeLevel Reg.TRM_STATUS_THROT 2 1600 1552 n t).judgeFt t

/-- HOT of a course follows its sensor (R337). -/
def State.judgeCourseHeat (s : State) (n : Nat) : State :=
  if 100 ≤ n then s
  else match s.placeTemp n with
    | some t =>
      if 1520 < t then s.wr Reg.CAL_PEG_STATUS_HOT n 1 else if t ≤ 1472 then s.wr Reg.CAL_PEG_STATUS_HOT n 0 else s
    | none => s

/-! The trip (R370 to R372) -/

/-- The device trips: issue stops for good, the record is written to the system tiers, THERM_TRIP# is asserted. -/
def State.trip (s : State) (cause sensor : Nat) : State :=
  if s.thermal.tripped then s
  else
    let h := s.thermal
    let r : TripRecord := { seq := h.tripNext, cause := cause, sensor := sensor, temp := (s.sensor sensor).last, time := s.now, power := s.rd Reg.TRM_POWER_P, clamp := s.rd Reg.TRM_CLAMP_F, devState := s.rd Reg.HIF_DEV_STATE_STATE, hot := s.hotSensors, gen := s.rd Reg.SEC_GEN_GEN % 65536, uptime := (s.time - h.powerUp) / 1000000000 }
    let s := { s with thermal := { h with tripped := true, trips := (r :: h.trips).take 8, tripNext := h.tripNext + 1 } }
    (((s.wr Reg.TRM_TRIP_STATUS_UNACK 0 (min 8 (s.rd Reg.TRM_TRIP_STATUS_UNACK + 1))).wr Reg.TRM_TRIP_STATUS_WRITTEN 0 1).setClamp).emit (.pldm pldmTrip)

/-- A trip record is not acknowledged. -/
def State.tripPending (s : State) : Bool := s.rd Reg.TRM_TRIP_STATUS_UNACK != 0

/-! Device states (R340, R373, R379) -/

/-- The full verify sweep starts, from its beginning: the device is LIMITED. -/
def State.startSweep (s : State) : State :=
  let s := ((s.wr Reg.HIF_DEV_STATE_STATE 0 1).wr Reg.HIF_DEV_STATE_VERIFY 0 1).wr Reg.HIF_DEV_STATE_TRIP_REC 0 s.tripPending.toNat
  { s with peg := { s.peg with sweeping := true, treated := [] }, thermal := { s.thermal with cooling := false } }

/-- With the sweep complete and no unacknowledged trip record, LIMITED ends (R373, R379). -/
def State.leaveLimited (s : State) : State :=
  if s.rd Reg.HIF_DEV_STATE_STATE = 1 ∧ !s.is Reg.HIF_DEV_STATE_VERIFY ∧ !s.tripPending then
    (s.wr Reg.HIF_DEV_STATE_STATE 0 2).wr Reg.HIF_DEV_STATE_TRIP_REC 0 0
  else s

/-- BOOT ends once every sensor in use reads below 80 °C, where a trip record asks for that (R373). -/
def State.coolEnough (s : State) : Bool := (List.range 144).all (fun n => !s.sensorUsed n || decide ((s.sensor n).last < 1280))
def State.settleCooling (s : State) : State := if s.thermal.cooling && s.coolEnough then s.startSweep else s

/-! Nap, Rest and deferred stops (R309, R377, R378) -/

/-- A port holds the clocks (R309). -/
def State.clockHeld (s : State) : Bool := s.is Reg.CLK_KEEP_HOLD 0 || s.is Reg.CLK_KEEP_HOLD 1
/-- A rung is in progress. -/
def State.rungBusy (s : State) : Bool := s.recovery.held || !s.recovery.rungs.isEmpty

/-- Deferred stops: 0–99 the Nap of a course, 101 device Nap, 102 Rest, 112 the metrology converter. -/
def stopNap : Nat := 101
def stopRest : Nat := 102
def stopMcv : Nat := 112
def State.setDeferred (s : State) (l : List Nat) : State := { s with mail := { s.mail with deferred := l } }
def State.deferStop (s : State) (d : Nat) : State := s.setDeferred ((s.mail.deferred ++ [d]).eraseDups)
def State.undeferStop (s : State) (d : Nat) : State := s.setDeferred (s.mail.deferred.filter (· != d))

/-- The bit of `TRM_NAP_MASK` of a course. -/
def State.setNapBit (s : State) (course : Nat) (b : Bool) : State :=
  s.wr Reg.TRM_NAP_MASK_COURSE (course / 32) (setBit (s.rd Reg.TRM_NAP_MASK_COURSE (course / 32)) (course % 32) b)

/-- A course enters Nap: only one that is not assigned (R377). -/
def State.napCourse (s : State) (course : Nat) : State := if (s.coursePart course).isNone then s.setNapBit course true else s

/-- Device Nap entry starts. -/
def State.startNap (s : State) : State :=
  let d := s.rd Reg.HIF_DEV_STATE_STATE
  if s.rd Reg.TRM_NAP_SAVE_FRAME = 0 ∨ s.rd Reg.TRM_PSTATE_STATE ≠ 0 ∨ d = 0 ∨ d = 4 then s else s.wr Reg.TRM_PSTATE_STATE 0 1

/-- SERVING ends for Rest: no submissions are consumed. -/
def State.startDrain (s : State) : State :=
  if s.rd Reg.HIF_DEV_STATE_STATE = 2 then s.wr Reg.HIF_DEV_STATE_STATE 0 3 else s

/-- A stop may be taken now: none but the converter's during a rung, and of stops only DRAINING during a hold. -/
def State.stopAllowed (s : State) (d : Nat) : Bool :=
  if d = stopMcv then !s.clockHeld else if d = stopRest then !s.rungBusy else !s.clockHeld && !s.rungBusy

/-- A commanded stop is taken. -/
def State.takeStop (s : State) (d : Nat) : State :=
  if d = stopMcv then s.wr Reg.CAL_MCV_EN_EN 0 0
  else if d = stopRest then s.startDrain
  else if d = stopNap then s.startNap
  else s.napCourse d

/-- A commanded stop is taken or deferred. -/
def State.stop (s : State) (d : Nat) : State := if s.stopAllowed d then s.takeStop d else s.deferStop d

/-- Deferred stops proceed when nothing defers them any more. -/
def State.releaseStops (s : State) : State :=
  let go := s.mail.deferred.filter s.stopAllowed
  if go.isEmpty then s else go.foldl (fun s d => (s.undeferStop d).takeStop d) s

/-- Device Nap is left: after more than an hour every tier is verified again (R377, R340). -/
def State.leaveNap (s : State) : State :=
  let long := match s.thermal.napSince with
    | some t => decide (t + 3600000000000 < s.time)
    | none => false
  let s := ({ s with thermal := { s.thermal with napSince := none, wake := false } }).wr Reg.TRM_PSTATE_STATE 0 0
  let s := s.reloadAll
  if long then (s.unverify).startSweep else s

/-- The device enters RESTING: GOODBYE on every port, the stacks and the course islands off (R378, R449). -/
def State.enterRest (s : State) : State :=
  let s := s.forEach (List.range 8) (fun s p => if s.zlMode p = 0 then s else ((if s.zlUp p then s.zlLink p linkGoodbyeOp 0 0 else s).zlDown p 5 0).severPort p)
  let s := (s.wr Reg.HIF_DEV_STATE_STATE 0 4).wr Reg.TRM_PSTATE_STATE 0 4
  let s := ((s.loseStacks).wipeArrays (fun _ => true)).wipeCores (fun _ => true)
  { s with board := { s.board with stkEn := false, stkRise := none } }

/-- What `HIF_PORT_STATUS` shows of a link, which Rest does not take down. -/
def portStatus : List Field :=
  [Reg.HIF_PORT_STATUS_RATE, Reg.HIF_PORT_STATUS_WIDTH, Reg.HIF_PORT_STATUS_DL_UP, Reg.HIF_PORT_STATUS_DEGRADED, Reg.HIF_PORT_STATUS_IDE,
   Reg.HIF_PORT_STATUS_LAST_RESET]

/-- Exit from Rest starts: STK_EN rises, and what Rest has lost returns to its Reset values (R378, R420, R423, R449). -/
def State.exitRest (s : State) : State :=
  let link := portStatus.flatMap (fun f => [(f, 0, s.rd f 0), (f, 1, s.rd f 1)])
  let s := ((s.dropAllRecords).loseLoads).loseCopies
  let s := ((s.loseWork).loseHosts true).resetFields 6 (fun _ _ => true)
  let s := link.foldl (fun (s : State) (x : Field × Nat × Nat) => s.wr x.1 x.2.1 x.2.2) ((s.wipeCores (fun _ => true)).unverify)
  let s := (s.wr Reg.HIF_DEV_STATE_STATE 0 4).wr Reg.TRM_PSTATE_STATE 0 5
  { s with board := { s.board with stkEn := true, stkRise := some s.time }, fault := { s.fault with ffc := [], ffcLast := none }, sec := { s.sec with entries := [], keys := [], rollback := false, record := [] } }

end Sys2Proof.Machine
end

