-- ==== Sys2Proof/Machine/ResetOps.lean ====
section
/-! DEFINITION. Machine/ResetOps.lean: the rungs of the reset ladder (R408 to R416, R424, R425). -/
namespace Sys2Proof.Machine

/-! Course reset (R411) -/

/-- A course takes a course reset: it is in service, and no reset in progress covers it (R409, R424). -/
def State.mayResetCourse (s : State) (course : Nat) : Bool :=
  decide (course < 100) && (s.logicalOf course).isSome && !s.recovery.courses.contains course && !s.recovery.held && !s.rungAt 3 0 &&
  (match s.coursePart course with | some p => !s.rungAt 2 p | none => true)

/-- Every context with a slot in a course is step-aborted. -/
def State.abortCourse (s : State) (course : Nat) : State :=
  s.forEach ((s.cores.filter (fun e => courseOf e.1 == course && e.2.running)).map Prod.fst) State.abortSlots

/-- The course's part of a reset: what it holds is lost, and it waits for its tabs. -/
def State.resetCourse (s : State) (course : Nat) : State :=
  let s := (s.abortCourse course).loseCourse course
  { s with recovery := { s.recovery with courses := s.recovery.courses ++ [course] } }

/-- Context rungs with a slot in a course, and its own rung, are absorbed. -/
def State.startCourseReset (s : State) (course cause : Nat) : State :=
  if !s.mayResetCourse course then s
  else
    let s := ((s.noteRung 2 cause course 0).bump Reg.FLT_RST_CNT_COURSE_COUNT).addRung 1 course 5000000
    let recent := (SMap.get [] s.recovery.courseTimes course).filter (fun t => decide (s.time ≤ t + 10000000000)) ++ [s.time]
    ({ s with recovery := { s.recovery with courseTimes := SMap.put [] s.recovery.courseTimes course recent } }).resetCourse course

/-- Courses of a partition that are still in reset. -/
def State.coursesLeft (s : State) (p : Nat) : Bool := s.recovery.courses.any (fun c => s.coursePart c == some p)

/-! Partition reset (R412) -/

/-- A partition reset is complete: RESET_NOTICE goes out, its rings are consumed again, deferred stops proceed. -/
def State.endPartitionReset (s : State) (p : Nat) : State :=
  let s := (s.endRung 2 p).sendNotice p 0 0 (s.rd Reg.FLT_RST_STATUS_CAUSE) 3
  (s.wr Reg.FLT_HB_STATUS_PART_LATE 0 (setBit (s.rd Reg.FLT_HB_STATUS_PART_LATE) p false)).releaseStops

/-- Lower rungs of a partition are absorbed by its reset (R424). -/
def State.absorbLower (s : State) (p : Nat) : State :=
  let mine := fun g : Rung => (g.level == 0 && g.target / 65536 == p) || (g.level == 1 && s.coursePart g.target == some p)
  { s with recovery := { s.recovery with rungs := s.recovery.rungs.filter (fun g => !mine g) } }

/-- A partition reset: everything of the partition ends; its courses come back one by one. -/
def State.startPartitionReset (s : State) (p cause : Nat) : State :=
  if s.absorbed p then s
  else
    let s := (((s.noteRung 3 cause 0 p).bump Reg.FLT_RST_CNT_PART_COUNT).absorbLower p).addRung 2 p 1200000000
    let s := (s.emit (.control p 4 (tagOf p 0xFFFF 0 0 0 0xFFF 4) 0)).stopTransfers p
    let s := (if (s.load? p).isSome then s.abortLoad p else s).endRefill p
    let s := (s.endRequests p).emptyScheduler p
    let courses := s.physCoursesOf p
    let s := s.forEach (courses.filter (fun c => !s.recovery.courses.contains c)) State.resetCourse
    let s := (s.resetFields 3 (s.partScope p)).retireAll p
    if courses.isEmpty then s.endPartitionReset p else s

/-! Course reset complete (R409, R411) -/

/-- A course is back: its tabs and constants are reloaded, what it programmed shows again, its heartbeat and Peg work resume. A
third reset within 10 s takes its logical course out of service. -/
def State.courseBack (s : State) (course : Nat) : State :=
  let p := s.coursePart course
  let s := { s with recovery := { s.recovery with courses := s.recovery.courses.filter (· != course) }, fault := { s.fault with absent := s.fault.absent.filter (fun a => a % 100 != course) } }
  let s := (s.reloadCourse course).forEach ((s.arrays.map Prod.fst).filter (fun k => courseOf (k / 9) == course)) State.showProgramming
  let s := s.endRung 1 course
  let recent := (SMap.get [] s.recovery.courseTimes course).filter (fun t => decide (s.time ≤ t + 10000000000))
  let s := match s.logicalOf course with
    | some l => if 3 ≤ recent.length ∧ l < 100 then s.updateMap (.courseOut (Fin.ofNat 100 l)) else s
    | none => s
  match p with
  | some p => if s.rungAt 2 p && !s.coursesLeft p then s.endPartitionReset p else s.releaseStops
  | none => s.releaseStops

/-! Chip reset (R414, R424, R425) -/

/-- The firmware image that the boot ROM starts: the ACTIVE one if it is valid, else the other; none if neither is (R425). -/
def State.bootImage (s : State) : Option Nat :=
  let ok := fun i => if i = 0 then s.sec.imageA.valid && decide (s.rd Reg.SEC_FW_STATUS_MIN_SVN ≤ s.sec.imageA.svn) && !s.is Reg.SEC_FW_STATUS_FAIL_A
    else s.sec.imageB.valid && decide (s.rd Reg.SEC_FW_STATUS_MIN_SVN ≤ s.sec.imageB.svn) && !s.is Reg.SEC_FW_STATUS_FAIL_B
  let a := s.rd Reg.SEC_FW_STATUS_ACTIVE
  if ok a then some a else if ok (1 - a) then some (1 - a) else none

/-- Boot: the ROM starts a firmware image, which reloads tabs and starts the full verify sweep, unless the device must cool
first (R373); without a valid image the device stays in BOOT and asks for a power cycle. -/
def State.boot (s : State) : State :=
  let s := s.wr Reg.HIF_DEV_STATE_STATE 0 0
  match s.bootImage with
  | none => s.askPowerCycle
  | some i =>
    let svn := if i = 0 then s.sec.imageA.svn else s.sec.imageB.svn
    let s := ((s.wr Reg.SEC_FW_STATUS_RUNNING 0 i).wr Reg.SEC_FW_STATUS_SVN 0 svn).reloadAll
    if s.thermal.cooling then s.emit (.pldm pldmCooling) else s.startSweep

/-- A chip reset starts: it is latched, everything stops, and what does not survive is lost; a device that rests loses what Rest
loses. -/
def State.chipDown (s : State) (cause : Nat) : State :=
  let rested := s.resting
  let s := if rested then (s.loseCopies).unverify else s
  let s := s.loseChip
  let s := if rested then { s with board := { s.board with stkEn := true, stkRise := none } } else s
  let s := ((s.noteRung 4 cause 0 0).bump Reg.FLT_RST_CNT_CHIP_COUNT).wr Reg.TRM_PSTATE_STATE 0 0
  let s := (s.wr Reg.FLT_HB_STATUS_PART_LATE 0 0).wr Reg.FLT_HB_STATUS_FW_LATE 0 0
  { s with recovery := { s.recovery with rungs := [⟨3, 0, s.time, 6000000000⟩], courses := [], courseTimes := [], cause := cause }, thermal := { s.thermal with gated := [], lastPass := [], napSince := none, wake := false, peakSeen := false }, peg := { s.peg with sweeping := false, treated := [] } }

/-- A chip reset (R414); during the hold of another it changes nothing more. After a trip the trip proceeds (Table 14.9). -/
def State.chipReset (s : State) (cause : Nat) : State :=
  if s.recovery.held ∨ s.thermal.tripped ∨ !s.board.powered then s else (s.chipDown cause).boot

/-- DEV_RESET# low or REFCLK_SYS lost: the chip goes into reset and is held there. -/
def State.holdChip (s : State) (cause : Nat) : State :=
  let s := if s.recovery.held ∨ s.thermal.tripped then s else s.chipDown cause
  { s with recovery := { s.recovery with held := true } }

/-- The chip leaves reset once nothing holds it there. -/
def State.freeChip (s : State) : State :=
  if !s.recovery.held then s
  else
    let s := { s with recovery := { s.recovery with held := false } }
    if s.thermal.tripped ∨ !s.board.powered then s else s.boot

/-- The sweep is complete: a chip reset's rung is complete with it. -/
def State.endChipRung (s : State) : State := (s.endRung 3 0).releaseStops

/-! Escalation (R409) -/

/-- The rung that has not completed within its bound is taken over by the next. -/
def State.overrun (s : State) (level target : Nat) : State :=
  match s.recovery.rungs.find? (fun g => g.level == level && g.target == target) with
  | none => s
  | some g =>
    if s.time < g.start + g.bound then s
    else
      let s := s.endRung level target
      let s := match level with
        | 0 =>
          let p := target / 65536
          let ctx := target % 65536
          let held := (s.cores.filter (fun (e : Nat × CoreState) => e.2.part == p && e.2.slots.any (fun x => x.slotRec.context == ctx))).map (fun (e : Nat × CoreState) => courseOf e.1)
          s.forEach (if held.isEmpty then s.physCoursesOf p else held.eraseDups) (fun s c => s.startCourseReset c 8)
        | 1 => (match s.coursePart target with
          | some p => s.startPartitionReset p 8
          | none => s.chipReset 8)
        | 2 => s.chipReset 8
        | _ => s.askPowerCycle
      s.wr Reg.FLT_RST_STATUS_OVERRUN 0 1

end Sys2Proof.Machine
end

