-- ==== Sys2Proof/Machine/SecOps.lean ====
section
/-! DEFINITION. Machine/SecOps.lean: configuration generations, the stage of protected changes, its checks and its commit (R432 to
R442). -/
namespace Sys2Proof.Machine

/-! The configuration (R439, R440) -/

/-- A field of the configuration: NV and written by host or firmware, of the calibration set, or of a key slot. -/
def isConfig (f : Field) : Bool :=
  f.survives == .nv && f.id != Reg.CAL_SET_GEN.id &&
  (f.access == .rwo || f.access == .rw2 || f.block == .cal || (f.block == .sec && decide (0x74 ≤ f.offset) && decide (f.offset < 0xA0)))

def keyIsConfig (k : Nat) : Bool := match fieldOfKey k with | some f => isConfig f | none => false

/-- The value that `PRT_COURSE` shows for a logical course, and its store. -/
def State.courseWord (s : State) (l : Nat) : Nat := s.rd Reg.PRT_COURSE_PART l + 16 * s.rd Reg.PRT_COURSE_ASSIGNED l
def State.setCourseWord (s : State) (l v : Nat) : State := (s.wr Reg.PRT_COURSE_PART l (bits v 0 4)).wr Reg.PRT_COURSE_ASSIGNED l (bits v 4 1)

/-- Store a value under a store key. -/
def State.putKey (s : State) (k v : Nat) : State :=
  match fieldOfKey k with
  | some f => s.wr f (k % 16777216) v
  | none => s

/-- The configuration as it is committed: with the changes that still wait for a boundary of their courses. -/
def State.committed (s : State) : State :=
  let s := s.cal.boundary.foldl (fun (s : State) (e : Nat × Nat) => s.putKey e.1 e.2) s
  let s := s.sec.handover.foldl (fun (s : State) (e : Nat × Nat) => s.setCourseWord e.1 e.2) s
  s.sec.redundancy.foldl (fun (s : State) (e : Nat × Nat) => s.wr Reg.PRT_PCTRL_REDUNDANT e.1 e.2) s

/-- Trims, sensor offsets and rms of E with a staged set (R351); a staged set holds offsets in place of temperatures. -/
def setTrims (m : SMap Int) (x : CalReadings) : SMap Int := x.trims.foldl (fun m (e : Nat × Int) => SMap.put 0 m e.1 e.2) m
def setOffsets (m : SMap Int) (x : CalReadings) : SMap Int := x.temps.zipIdx.foldl (fun m (e : Int × Nat) => SMap.put 0 m e.2 e.1) m
def setRms (m : SMap Nat) (x : CalReadings) : SMap Nat := x.bands.foldl (fun m (e : Nat × BitVec 32 × Nat) => SMap.put 0 m e.1 e.2.2) m

/-- What a copy of the record holds now. -/
def State.snapshot (s : State) (gen : Nat) : ConfigCopy :=
  let trims := (s.arrays.filter (fun e => e.2.trim != 0)).map (fun e => (e.1, e.2.trim))
  let l := s.cal.pending
  { gen := gen, fields := s.committed.regs.filter (fun e => keyIsConfig e.1), trims := l.foldl setTrims trims, offsets := l.foldl setOffsets s.cal.offsets, rms := l.foldl setRms s.peg.rms }

/-- A new generation is written into the copy that is not current, and made current (R439). -/
def State.recordGeneration (s : State) (two : Bool) : State :=
  let c := { s.snapshot (s.rd Reg.SEC_GEN_GEN + 1) with two := two }
  let old := s.sec.current
  let s := { s with sec := { s.sec with current := c, other := some old, dirty := none } }
  let s := (s.wr Reg.SEC_GEN_GEN 0 c.gen).wr Reg.SEC_GEN_STATUS_COPY 0 (1 - s.rd Reg.SEC_GEN_STATUS_COPY)
  (s.wr Reg.SEC_GEN_STATUS_PREV_VALID 0 old.valid.toNat).wr Reg.SEC_GEN_STATUS_TWO_PARTY 0 two.toNat

/-- The digest of a copy. -/
def copyDigest (c : ConfigCopy) : BitVec 256 := Config.recordDigest c.gen c.fields

/-- Every configuration field as a copy holds it. -/
def State.loadFields (s : State) (c : ConfigCopy) : State :=
  let s := { s with regs := s.regs.filter (fun e => !keyIsConfig e.1) }
  c.fields.foldl (fun (s : State) (e : Nat × Nat) => s.putKey e.1 e.2) s

/-! Keys (R428) -/

/-- A slot holds a key with a role. -/
def State.keyHas (s : State) (role slot : Nat) : Bool := s.is Reg.SEC_KEY_INFO_VALID slot && bit (s.rd Reg.SEC_KEY_INFO_ROLES slot) role

/-- The digest of a slot's key. -/
def State.keyDigest (s : State) (slot : Nat) : BitVec 256 :=
  BitVec.ofNat 256 (((List.range 8).map (fun n => s.rd Reg.SEC_KEY_DIGEST_DIGEST (8 * slot + n) * 2 ^ (32 * n))).sum)
def State.setKeyDigest (s : State) (slot : Nat) (d : BitVec 256) : State :=
  s.forEach (List.range 8) (fun s n => s.wr Reg.SEC_KEY_DIGEST_DIGEST (8 * slot + n) (bits d.toNat (32 * n) 32))

/-- Some slot has the APPROVER role: the device is provisioned (R435). -/
def State.provisioned (s : State) : Bool := (List.range 16).any (s.keyHas 2)
def State.showProvisioned (s : State) : State := s.wr Reg.SEC_STATE_PROV 0 s.provisioned.toNat

/-- A signature verifies under a valid slot with the APPROVER role. -/
def State.approverKey (s : State) (signer : Option (BitVec 256)) : Bool :=
  match signer with
  | some d => (List.range 16).any (fun k => s.keyHas 2 k && s.keyDigest k == d)
  | none => false

/-- A staged key change takes effect. -/
def State.applyKey (s : State) (k : StagedKey) : State :=
  let s := (s.wr Reg.SEC_KEY_INFO_ROLES k.slot (if k.op = 0 then k.roles else 0)).wr Reg.SEC_KEY_INFO_VALID k.slot (1 - k.op)
  s.setKeyDigest k.slot (if k.op = 0 then k.digest else 0)

/-! Staging (R433, R441) -/

/-- A staged write that is discarded because the stage is sealed or holds a rollback (R434, R441). -/
def State.stageClosed (s : State) : Bool := decide (2 ≤ s.rd Reg.SEC_TP_STATUS_STATE) || s.sec.rollback
def State.stageLate (s : State) : State := s.wr Reg.SEC_TP_STATUS_LATE 0 1

/-- A new stage starts from EMPTY. -/
def State.openStage (s : State) : State :=
  if s.rd Reg.SEC_TP_STATUS_STATE ≠ 0 then s
  else ((s.wr Reg.SEC_TP_STATUS_STATE 0 1).wr Reg.SEC_TP_STATUS_OVER 0 0).wr Reg.SEC_TP_STATUS_LATE 0 0

/-- The RW2 fields of the register at a place, that are staged as field entries. -/
def stagedFields (p : RegPlace) : List Field := (fieldsAt p).filter (fun f => f.access == .rw2 && !(f.block == .sec && f.offset == 0xA0))

/-- Stage a field entry: it replaces the one of the same offset and selector. -/
def State.stageEntry (s : State) (e : StagedEntry) : State :=
  let s := s.openStage
  let same := fun q : StagedEntry => q.offset == e.offset && q.selector == e.selector
  let l := s.sec.entries
  if l.any same then { s with sec := { s.sec with entries := l.map (fun q => if same q then e else q) } }
  else if 1024 ≤ l.length then s.wr Reg.SEC_TP_STATUS_OVER 0 1
  else ({ s with sec := { s.sec with entries := l ++ [e] } }).wr Reg.SEC_TP_STATUS_ENTRIES 0 (l.length + 1)

/-- A write of a register with RW2 fields, by a requester that may stage: none where its selector selects nothing, and none of a PF's
`HIF_FUNC_PART` (R267). -/
def State.stageWrite (s : State) (who : Requester) (offset : Nat) (value : W32) : State :=
  match regPlace offset with
  | none => s
  | some p =>
    match stagedFields p with
    | [] => s
    | f :: _ =>
      if s.stageClosed then s.stageLate
      else match s.copyAt who p f with
        | none => s
        | some i => if f.id = Reg.HIF_FUNC_PART_PARTS.id ∧ i % 32 = 0 then s else s.stageEntry { offset := offset, selector := selectorWord f.selectors (s.selection (reqCode who) p.copy f), value := value }

/-- Stage a key change; 1,793 bytes of an install are read at the write (R433). -/
def State.stageKey (s : State) (value : Nat) (readable : Bool) : State :=
  let slot := bits value 0 4
  let roles := bits value 4 4
  let op := bits value 8 1
  if s.stageClosed then s.stageLate
  else if op = 0 ∧ roles = 0 then s
  else
    let s := s.openStage
    let off := s.rd Reg.SEC_KEY_ADDR_OFFSET
    let whole := s.inLanding off 1793 && readable
    let key : StagedKey := if op = 0 then { slot := slot, roles := roles, op := 0, digest := if whole then Config.shake256 (s.stackRead (s.bar4Address off) 1793) else 0, whole := whole } else { slot := slot, roles := roles, op := 1, digest := s.keyDigest slot, whole := true }
    let l := s.sec.keys
    if l.any (fun k => k.slot == slot) then { s with sec := { s.sec with keys := l.map (fun k => if k.slot = slot then key else k) } }
    else if 4 ≤ l.length then s.wr Reg.SEC_TP_STATUS_OVER 0 1
    else { s with sec := { s.sec with keys := l ++ [key] } }

/-! The stage record (Table 15.4) -/

/-- An ASCII label of 16 bytes. -/
def labelBytes (t : String) : List Byte := (List.range 16).map (fun i => BitVec.ofNat 8 ((t.toList[i]?).elim 0 Char.toNat))

/-- Entries in ascending order of offset and then of selector. -/
def entryBefore (a b : StagedEntry) : Bool := decide (a.offset < b.offset) || (a.offset == b.offset && decide (a.selector ≤ b.selector))
def insertEntry (e : StagedEntry) : List StagedEntry → List StagedEntry
  | [] => [e]
  | q :: l => if entryBefore e q then e :: q :: l else q :: insertEntry e l
def sortEntries (l : List StagedEntry) : List StagedEntry := l.foldr insertEntry []
def insertKey (k : StagedKey) : List StagedKey → List StagedKey
  | [] => [k]
  | q :: l => if k.slot ≤ q.slot then k :: q :: l else q :: insertKey k l
def sortKeys (l : List StagedKey) : List StagedKey := l.foldr insertKey []

def entryBytes (e : StagedEntry) : List Byte := leBytes 4 e.offset ++ leBytes 4 e.selector ++ leBytes 4 e.value.toNat
def keyBytes (k : StagedKey) : List Byte := leBytes 1 k.slot ++ leBytes 1 k.roles ++ leBytes 1 k.op ++ leBytes 5 0 ++ leBytes 32 k.digest.toNat

/-- The stage record with a nonce. -/
def State.stageRecord (s : State) (nonce : W64) : List Byte :=
  let c := s.sec
  labelBytes "KWJ-TV9-STAGE" ++ leBytes 8 Config.serialNumber.toNat ++ leBytes 4 (s.rd Reg.SEC_GEN_GEN) ++
  leBytes 4 (if c.rollback then 0xFFFFFFFF else c.entries.length) ++ leBytes 8 nonce.toNat ++
  (if c.rollback then leBytes 32 c.previous.toNat else (sortEntries c.entries).flatMap entryBytes) ++ (sortKeys c.keys).flatMap keyBytes

/-- SEAL: the stage is frozen under a fresh nonce, and its digest is shown (R434). -/
def State.sealStage (s : State) : State :=
  if s.rd Reg.SEC_TP_STATUS_STATE ≠ 1 then s
  else
    let (n, s) := s.draw
    let nonce := Config.fresh64 n
    let bytes := s.stageRecord nonce
    let digest := Config.shake256 bytes
    let s := { s with sec := { s.sec with record := bytes, sealedGen := s.rd Reg.SEC_GEN_GEN, sealedAt := s.time } }
    let s := (s.wr Reg.SEC_TP_STATUS_STATE 0 2).wr Reg.SEC_TP_NONCE_NONCE 0 nonce.toNat
    s.forEach (List.range 8) (fun s n => s.wr Reg.SEC_TP_DIGEST_DIGEST n (bits digest.toNat (32 * n) 32))

/-- The digest that `SEC_TP_DIGEST` shows. -/
def State.stageDigest (s : State) : BitVec 256 :=
  BitVec.ofNat 256 (((List.range 8).map (fun n => s.rd Reg.SEC_TP_DIGEST_DIGEST n * 2 ^ (32 * n))).sum)

/-- ROLLBACK (R441). -/
def State.stageRollback (s : State) : State :=
  if s.rd Reg.SEC_TP_STATUS_STATE ≠ 0 then s
  else match s.sec.other with
    | some c =>
      if c.valid then
        let s := s.openStage
        { s with sec := { s.sec with rollback := true, previous := copyDigest c } }
      else s.wr Reg.SEC_TP_STATUS_ERR 0 5
    | none => s.wr Reg.SEC_TP_STATUS_ERR 0 5

/-! The checks (R436) -/

/-- Write one staged value into the fields of its register, in the copy that its selector names; of a 64-bit field one half. -/
def State.applyEntry (s : State) (e : StagedEntry) : State :=
  match regPlace e.offset with
  | none => s
  | some p =>
    (stagedFields p).foldl (fun s f =>
      match f.copyOf 0 2 p.copy (selectorValues f.selectors e.selector) with
      | none => s
      | some i =>
        if f.width = 64 then s.wr f i (setBits (s.rd f i) (if f.high p then 32 else 0) 32 e.value.toNat)
        else s.wr f i (bits e.value.toNat f.lsb f.width)) s

/-- The configuration as the stage would leave it. -/
def State.projected (s : State) : State :=
  let t := s.committed
  if s.sec.rollback then (match s.sec.other with | some c => t.loadFields c | none => t)
  else (s.sec.entries.foldl State.applyEntry t).forEach s.sec.keys State.applyKey

/-- A partition holds an epoch that is not FREE. -/
def State.holdsEpoch (s : State) (p : Nat) : Bool := (List.range 4).any (fun k => s.rd Reg.LDR_EPOCH_STATE (epochKey p k) != 0)

/-- A stage asks for full redundancy of a partition. -/
def State.asksRedundant (s t : State) (p : Nat) : Bool :=
  if s.sec.rollback then t.is Reg.PRT_PCTRL_REDUNDANT p && !s.is Reg.PRT_PCTRL_REDUNDANT p
  else s.sec.entries.any (fun e => e.offset == 0x16000C && e.selector == p && bit e.value.toNat 0)

/-- Step 1: ranges. `t` is the projected configuration. -/
def State.rangesOk (s t : State) : Bool :=
  (List.range 16).all (fun p =>
    (t.rd Reg.SRV_PART_SLICE_COUNT p == 0 || decide (t.rd Reg.SRV_PART_SLICE_BASE p + t.rd Reg.SRV_PART_SLICE_COUNT p ≤ 0xFF00)) &&
    (List.range 8).all (fun w => t.rd Reg.DMA_WIN_SIZE_PAGES (8 * p + w) == 0 || t.exposes (t.rd Reg.DMA_WIN_ATTR_FUNCTION (8 * p + w)) p) &&
    !(s.asksRedundant t p && s.holdsEpoch p)) &&
  (List.range 4096).all (fun r => !t.is Reg.RCB_ASSIGN_VALID r || t.exposes (t.ringFn r) (t.ringPart r)) &&
  s.sec.keys.all (fun k => k.op == 1 || k.whole)

/-- A region of stack memory in frames, or of the request table: its name, start and length. -/
structure Region where
  name : Nat
  start : Nat
  count : Nat
deriving DecidableEq, Repr

/-- The regions of stack memory in frames of 64 KiB: 0 landing area, 1 adapter pool, 2 signature store, 3 fault region, 4 Nap save
area, 16 and up KV page pools, 32 and up data windows. -/
def State.regions (t : State) : List Region :=
  let fixed : List Region := [⟨0, t.bar4Address t.landBase / 65536, 1024 * t.rd Reg.LDR_LAND_SIZE_BUFFERS⟩, ⟨1, t.rd Reg.LDR_ADP_POOL_BASE / 268435456 * 4096, 4096 * t.rd Reg.LDR_ADP_POOL_SIZE_UNITS⟩, ⟨2, t.rd Reg.CAL_SIG_BASE_FRAME, 39688⟩, ⟨3, t.rd Reg.FLT_LOG_BASE_FRAME, 531⟩, ⟨4, t.rd Reg.TRM_NAP_SAVE_FRAME, if t.rd Reg.TRM_NAP_SAVE_FRAME = 0 then 0 else 20000⟩]
  let pools : List Region := (List.range 16).map (fun p => ⟨16 + p, t.rd Reg.SRV_PART_POOL_BASE_FRAME p, t.rd Reg.SRV_PART_POOL_COUNT_FRAMES p⟩)
  let windows : List Region := (List.range 16).map (fun p => ⟨32 + p, t.rd Reg.DMA_DATA_BASE_FRAME p, t.rd Reg.DMA_DATA_COUNT_FRAME p⟩)
  fixed ++ pools ++ windows

/-- The slices of the request table. -/
def State.slices (t : State) : List Region := (List.range 16).map (fun p => ⟨p, t.rd Reg.SRV_PART_SLICE_BASE p, t.rd Reg.SRV_PART_SLICE_COUNT p⟩)

def Region.meets (a b : Region) : Bool := decide (a.start < b.start + b.count) && decide (b.start < a.start + a.count) && a.count != 0 && b.count != 0

/-- A region that the change places or moves lies on another. -/
def newOverlap (old new : List Region) : Bool :=
  new.any (fun a => !old.contains a && new.any (fun b => b.name != a.name && a.meets b))

/-- Step 3: every ring whose assignment changes is DISABLED. -/
def State.ringsOk (s t : State) : Bool :=
  (List.range 4096).all (fun r =>
    (t.rd Reg.RCB_ASSIGN_VALID r == s.rd Reg.RCB_ASSIGN_VALID r && t.ringFn r == s.ringFn r && t.ringPart r == s.ringPart r) || s.ringMode r == 0)

/-- Step 4: key slot 0 is untouched, and FIRMWARE is given to no other. -/
def State.keysOk (s : State) : Bool := s.sec.keys.all (fun k => k.slot != 0 && !(k.op == 0 && bit k.roles 3))

/-- A rollback's previous copy is valid and the one that the stage record names (R441). -/
def State.previousOk (s : State) : Bool :=
  !s.sec.rollback || (match s.sec.other with | some c => c.valid && copyDigest c == s.sec.previous | none => false)

/-- The error of a stage at its checks, 0 if it passes. -/
def State.stageError (s : State) : Nat :=
  let t := s.projected
  if !s.previousOk then 5
  else if !s.rangesOk t then 5
  else if newOverlap s.regions t.regions || newOverlap s.slices t.slices then 4
  else if !s.ringsOk t then 6
  else if !s.keysOk then 11
  else 0

/-! The commit (R32, R437, R441) -/

/-- A course holds a live context of a partition: an entry not FREE is bound to an epoch whose members include it, or a job runs
there. -/
def State.liveContext (s : State) (p l phys : Nat) : Bool :=
  (s.entriesOf p).any (fun i => match s.epochSlot? p (s.request i).epoch with
    | some k => bit (s.epochInfo (epochKey p k)).courses.toNat l
    | none => false) ||
  s.cores.any (fun e => e.2.running && e.2.job && e.2.part == p && courseOf e.1 == phys)

/-- No core of a course runs a pass: the course is at a boundary (R29). -/
def State.atBoundary (s : State) (phys : Nat) : Bool := s.cores.all (fun e => !(e.2.running && courseOf e.1 == phys))

/-- A waiting assignment of a logical course takes effect, if its course is at a boundary and holds no live context (R32). -/
def State.handCourse (s : State) (l : Nat) : State :=
  match s.sec.handover.find? (fun e => e.1 == l) with
  | none => s
  | some e =>
    let phys := s.rd Reg.NOC_COURSE_MAP_PHYS l
    let free := !s.is Reg.PRT_COURSE_ASSIGNED l || !s.liveContext (s.rd Reg.PRT_COURSE_PART l) l phys
    if s.atBoundary phys && free then
      let s := { s with sec := { s.sec with handover := s.sec.handover.filter (fun q => q.1 != l) } }
      s.setCourseWord l e.2
    else s

/-- Waiting redundancy settings of a partition take effect while it runs no pass. -/
def State.handRedundancy (s : State) (p : Nat) : State :=
  match s.sec.redundancy.find? (fun e => e.1 == p) with
  | none => s
  | some e =>
    if s.passIdle p then
      let s := { s with sec := { s.sec with redundancy := s.sec.redundancy.filter (fun q => q.1 != p) } }
      s.wr Reg.PRT_PCTRL_REDUNDANT p e.2
    else s

/-- What is at a boundary now takes what waits for it. -/
def State.handIdle (s : State) : State := (s.forEach (s.sec.handover.map Prod.fst) State.handCourse).forEach (s.sec.redundancy.map Prod.fst) State.handRedundancy

/-- Fields that take effect only at a boundary: those of a course, and the partition's courses and redundancy. -/
def deferredField (f : Field) : Bool := f.block == .crs || f.id == Reg.PRT_COURSE_PART.id || f.id == Reg.PRT_COURSE_ASSIGNED.id || f.id == Reg.PRT_PCTRL_REDUNDANT.id
def deferredKey (k : Nat) : Bool := match fieldOfKey k with | some f => isConfig f && deferredField f | none => false
def courseKey (k : Nat) : Bool := match fieldOfKey k with | some f => isConfig f && f.block == .crs | none => false

/-- The value under a store key in a state. -/
def State.getKey (s : State) (k : Nat) : Nat := match fieldOfKey k with | some f => s.rd f (k % 16777216) | none => 0

/-- The projected configuration is adopted: at once but for what waits for a boundary. -/
def State.adopt (s t : State) : State :=
  let keys := (((s.regs ++ t.regs).filter (fun e => courseKey e.1)).map Prod.fst).eraseDups
  let boundary := (keys.filter (fun k => s.getKey k != t.getKey k)).foldl (fun (m : SMap Nat) k => SMap.insert m k (t.getKey k)) (s.cal.boundary.filter (fun e => !courseKey e.1))
  let handover := ((List.range 100).filter (fun l => t.courseWord l != s.courseWord l)).map (fun l => (l, t.courseWord l))
  let redundancy := ((List.range 16).filter (fun p => t.rd Reg.PRT_PCTRL_REDUNDANT p != s.rd Reg.PRT_PCTRL_REDUNDANT p)).map (fun p => (p, t.rd Reg.PRT_PCTRL_REDUNDANT p))
  let regs := (s.regs.filter (fun e => deferredKey e.1)).foldl (fun (m : SMap Nat) (e : Nat × Nat) => SMap.insert m e.1 e.2) (t.regs.filter (fun e => !deferredKey e.1))
  ({ s with regs := regs, cal := { s.cal with boundary := boundary }, sec := { s.sec with handover := handover, redundancy := redundancy } }).showProvisioned

/-- A calibration set is staged for courses; the generation to be recorded holds it (R351). -/
def State.stageSet (s : State) (sets : List CalReadings) (courses : List Nat) : State :=
  let w := (s.cal.waiting ++ courses).eraseDups
  ({ s with cal := { s.cal with pending := s.cal.pending ++ sets, waiting := w, gen := s.rd Reg.SEC_GEN_GEN + 1 } }).wr Reg.CAL_SET_PENDING 0 w.length

/-- The check band word of an array (R83). -/
def State.bandWord (s : State) (k : Nat) : Nat :=
  s.rd Reg.CRS_ARR_CHK_TOL_TOL_G1 k + 2 ^ 8 * s.rd Reg.CRS_ARR_CHK_TOL_TOL_G2 k + 2 ^ 16 * s.rd Reg.CRS_ARR_CHK_TOL_TOL_G4 k + 2 ^ 24 * s.rd Reg.CRS_ARR_CHK_TOL_TOL_G8 k

/-- A restored calibration set: every array's trims, bands and rms and the sensor offsets as the copy holds them. -/
def State.restoreSet (s t : State) (c : ConfigCopy) : State :=
  let ks := (s.arrays.map Prod.fst ++ c.trims.map Prod.fst).eraseDups
  let rs := (s.peg.rms.map Prod.fst ++ c.rms.map Prod.fst).eraseDups
  let m : CalReadings := { trims := ks.map (fun k => (k, SMap.get 0 c.trims k)), bands := rs.map (fun k => (k, BitVec.ofNat 32 (t.bandWord k), SMap.get 0 c.rms k)), temps := (List.range 144).map (fun n => SMap.get 0 c.offsets n) }
  s.stageSet [m] (List.range 100)

/-- COMMIT is posted to both hosts: the current generation and the error (R437). -/
def State.postCommit (s : State) (err : Nat) : State := s.postBoth 42 58 0x14 (s.rd Reg.SEC_GEN_GEN + err * 2 ^ 32)

/-- A stage is refused. -/
def State.refuseStage (s : State) (err : Nat) : State := (s.discardStage err).postCommit err

/-- An approved stage is checked and committed (R436, R437, R441). -/
def State.commitStage (s : State) : State :=
  let err := s.stageError
  if err ≠ 0 then s.refuseStage err
  else
    let t := s.projected
    let back := if s.sec.rollback then s.sec.other else none
    let s := s.adopt t
    let s := match back with
      | some c => s.restoreSet t c
      | none => s
    ((((s.recordGeneration true).discardStage 0).postCommit 0)).handIdle

/-! Boundaries (R29, R351) -/

/-- A course takes a staged set: trims, bands and rms of its arrays, offsets of the sensors nearest to it. -/
def State.takeSet (s : State) (course : Nat) (m : CalReadings) : State :=
  let mine := fun k : Nat => courseOf (k / 9) == course
  let s := s.forEach (m.trims.filter (fun e => mine e.1)) (fun s e => s.setArray e.1 { s.array e.1 with trim := e.2 })
  let s := s.forEach (m.bands.filter (fun e => mine e.1)) (fun s e =>
    let v := e.2.1.toNat
    let s := (((s.wr Reg.CRS_ARR_CHK_TOL_TOL_G1 e.1 (bits v 0 8)).wr Reg.CRS_ARR_CHK_TOL_TOL_G2 e.1 (bits v 8 8)).wr Reg.CRS_ARR_CHK_TOL_TOL_G4 e.1 (bits v 16 8)).wr Reg.CRS_ARR_CHK_TOL_TOL_G8 e.1 (bits v 24 8)
    { s with peg := { s.peg with rms := SMap.put 0 s.peg.rms e.1 e.2.2 } })
  s.forEach (m.temps.zipIdx.filter (fun e => courseOfSensor e.2 == course)) (fun s e => { s with cal := { s.cal with offsets := SMap.put 0 s.cal.offsets e.2 e.1 } })

/-- The course that a copy of a course field lies in. -/
def courseOfKey (k : Nat) : Option Nat :=
  match fieldOfKey k with
  | some f => (List.range 100).find? (fun c => courseScope c f (k % 16777216))
  | none => none

/-- A course at a boundary takes the staged sets and the fields written for it. -/
def State.takeConfig (s : State) (course : Nat) : State :=
  let s := if s.cal.waiting.contains course then s.forEach s.cal.pending (fun s m => s.takeSet course m) else s
  let mine := s.cal.boundary.filter (fun e => courseOfKey e.1 == some course)
  let s := mine.foldl (fun (s : State) (e : Nat × Nat) => s.putKey e.1 e.2) s
  let left := s.cal.waiting.filter (· != course)
  let done := left.isEmpty && !s.cal.waiting.isEmpty
  let s := { s with cal := { s.cal with boundary := s.cal.boundary.filter (fun e => courseOfKey e.1 != some course), waiting := left, pending := if left.isEmpty then [] else s.cal.pending } }
  let s := s.wr Reg.CAL_SET_PENDING 0 left.length
  if done then s.wr Reg.CAL_SET_GEN 0 s.cal.gen else s

end Sys2Proof.Machine
end

