-- ==== Sys2Proof/Machine/Cal.lean ====
section
/-! DEFINITION. Machine/Cal.lean: the calibration chain and the metrology converter (R348 to R358). -/
namespace Sys2Proof.Machine

/-! The sequence (R349, R350, R353) -/

/-- Bits of a `CAL_CMD` write. -/
def calWord (start abort temp arrays : Bool) : W32 :=
  BitVec.ofNat 32 (start.toNat + 2 * abort.toNat + 4 * temp.toNat + 8 * arrays.toNat)

/-- START: ignored while a sequence runs. -/
def State.calStart (s : State) (temp arrays : Bool) : State :=
  let s := (s.wr Reg.CAL_CMD_TEMP 0 temp.toNat).wr Reg.CAL_CMD_ARRAYS 0 arrays.toNat
  if s.rd Reg.CAL_STATUS_STATE = 1 then s
  else
    let s := ((s.wr Reg.CAL_STATUS_STATE 0 1).wr Reg.CAL_STATUS_ERR 0 0).wr Reg.CAL_STATUS_STEP 0 1
    { s with cal := { s.cal with staged := [], aborting := false } }

def execCalStart (who : Requester) (temp arrays : Bool) (s : State) : Host.Outcome State Fault Refusal :=
  .next (s.ownedAccess who 0x100040 (calWord true false temp arrays) (fun s => s.calStart temp arrays))

/-- ABORT ends a running sequence at the next step boundary. -/
def State.calAbort (s : State) : State := if s.rd Reg.CAL_STATUS_STATE = 1 then { s with cal := { s.cal with aborting := true } } else s

def execCalAbort (who : Requester) (s : State) : Host.Outcome State Fault Refusal :=
  .next (s.ownedAccess who 0x100040 (calWord false true (s.is Reg.CAL_CMD_TEMP) (s.is Reg.CAL_CMD_ARRAYS)) State.calAbort)

/-- The sequence ends with a failure code; the set in force and TRACE are unchanged. -/
def State.calFail (s : State) (err : Nat) : State :=
  let s := (s.wr Reg.CAL_STATUS_STATE 0 3).wr Reg.CAL_STATUS_ERR 0 err
  { s with cal := { s.cal with staged := [], aborting := false } }

/-- The reference is accepted (R349): 0, or the failure code of step 3. -/
def State.referenceError (s : State) (m : CalReadings) : Nat :=
  let uv := s.rd Reg.CAL_REF_UV_UV
  if uv = 0 ∨ s.rd Reg.CAL_REF_PPM_PPM = 0 then 1
  else if uv < 2450000 ∨ 2550000 < uv ∨ m.overRange then 2
  else if m.predictedUv < 200 * ((m.refUv : Int) - m.predictedUv).natAbs then 3
  else 0

/-- A declared junction temperature, in 1/16 °C. -/
def State.tref (s : State) : Int := toSigned 16 (s.rd Reg.CAL_TREF_TEMP)

/-- Temperature tracing runs: asked for, TREF declared, and no serving work for 10 minutes. -/
def State.tracesTemp (s : State) : Bool :=
  s.is Reg.CAL_CMD_TEMP && s.is Reg.CAL_TREF_VALID && decide (s.cal.lastWork + 600000000000 ≤ s.time)

/-- The failure code of temperature tracing, 0 for none. -/
def State.tempError (s : State) (m : CalReadings) : Nat :=
  if s.tref < 160 ∨ 720 < s.tref then 5
  else match maxInt m.temps, maxInt (m.temps.map (fun t => -t)) with
    | some hi, some lo => if 32 < hi + lo then 6 else 0
    | _, _ => 6

/-- The failure code of the step in progress, 0 for none (Table 11.6). -/
def State.stepError (s : State) (m : CalReadings) : Nat :=
  let mcv := m.mcvOk && s.is Reg.CAL_MCV_EN_EN && (SMap.find? s.board.excursions 8).isNone
  match s.rd Reg.CAL_STATUS_STEP with
  | 7 => 0
  | 8 => if !s.tracesTemp then 0 else if !mcv then 8 else s.tempError m
  | 9 => 0
  | 3 => if !mcv then 8 else s.referenceError m
  | 6 => if !mcv then 8 else if m.probeNa.length == 100 && m.probeNa.all (fun x => decide (((x : Int) - 1800).natAbs ≤ 36)) then 0 else 4
  | _ => if mcv then 0 else 8

/-- What a step's readings give to the set: the bandgaps of step 4, trims of steps 5 and 7, bands of step 7, offsets of step 8. -/
def State.stepResult (s : State) (m : CalReadings) : CalReadings :=
  match s.rd Reg.CAL_STATUS_STEP with
  | 4 => { bandgap0 := m.bandgap0, bandgap1 := m.bandgap1 }
  | 5 => { trims := m.trims }
  | 7 => if s.is Reg.CAL_CMD_ARRAYS then { trims := m.trims, bands := m.bands } else {}
  | 8 => if s.tracesTemp then { temps := m.temps.map (fun t => s.tref - t) } else {}
  | _ => {}

/-- Courses are calibrated at their temperature of now (R352). -/
def State.noteCalibrated (s : State) (courses : List Nat) : State :=
  s.forEach courses (fun s c =>
    let t := (s.placeTemp c).getD 0
    { s with cal := { s.cal with temps := SMap.insert s.cal.temps c t, times := SMap.insert s.cal.times c s.time, recal := s.cal.recal.filter (· != c) } })

/-- Step 9: the set is staged for every course in a generation of its own, and the device is TRACED (R348, R351). -/
def State.calDone (s : State) : State :=
  let sets := s.cal.staged
  let gaps := sets.find? (fun m => m.bandgap0 != 0 || m.bandgap1 != 0)
  let s := match gaps with
    | some m => (s.wr Reg.CAL_BG0_UV 0 m.bandgap0.toNat).wr Reg.CAL_BG1_UV 0 m.bandgap1.toNat
    | none => s
  let s := if sets.any (fun m => !m.temps.isEmpty) then s.wr Reg.CAL_STATUS_TEMP_TRACE 0 1 else s
  let s := ((s.wr Reg.CAL_STATUS_TRACE 0 1).wr Reg.CAL_STATUS_STATE 0 2).wr Reg.CAL_LAST_TIME 0 s.time
  let s := (s.stageSet (sets.filter (fun m => m ≠ ({} : CalReadings))) (List.range 100)).recordGeneration false
  ({ s with cal := { s.cal with staged := [] } }).noteCalibrated (List.range 100)

/-- A step of the running sequence completes. -/
def State.calNext (s : State) (m : CalReadings) : State :=
  let s := if s.rd Reg.CAL_STATUS_STEP = 1 then s.wr Reg.CAL_MCV_EN_EN 0 1 else s
  let err := s.stepError m
  if err ≠ 0 then s.calFail err
  else if s.cal.aborting then s.calFail 7
  else if s.rd Reg.CAL_STATUS_STEP = 9 then s.calDone
  else
    let s := { s with cal := { s.cal with staged := s.cal.staged ++ [s.stepResult m] } }
    s.wr Reg.CAL_STATUS_STEP 0 (s.rd Reg.CAL_STATUS_STEP + 1)

/-- Links 3 to 5 of one course whose recalibration is requested: its own set, with TRACE and the bandgaps kept (R352). -/
def State.recalibrate (s : State) (course : Nat) (m : CalReadings) : State :=
  let mine := fun k : Nat => courseOf (k / 9) == course
  let x : CalReadings := { trims := m.trims.filter (fun e => mine e.1), bands := m.bands.filter (fun e => mine e.1) }
  ((s.stageSet [x] [course]).recordGeneration false).noteCalibrated [course]

/-- A calibration step's measurements: of the running sequence, else of the first course to be calibrated again. -/
def execCalStep (m : CalReadings) (s : State) : Host.Outcome State Fault Refusal :=
  .next (
    if s.rd Reg.CAL_STATUS_STATE = 1 then s.calNext m
    else match s.cal.recal with
      | c :: _ => s.recalibrate c m
      | [] => s)

/-- A course has moved in temperature, or its calibration is old (R352). -/
def State.recalDue (s : State) (course : Nat) : Bool :=
  let delta := s.rd Reg.CAL_TRACK_DELTA_C
  let hours := s.rd Reg.CAL_TRACK_HOURS
  let moved := match s.placeTemp course, SMap.find? s.cal.temps course with
    | some t, some u => decide (16 * delta < (t - u).natAbs)
    | _, _ => false
  (delta != 0 && moved) || (hours != 0 && decide (SMap.get 0 s.cal.times course + 3600000000000 * hours ≤ s.time))

def execRecalibrationTrigger (course : Course) (s : State) : Host.Outcome State Fault Refusal :=
  .next (
    if s.cal.recal.contains course.val ∨ !s.recalDue course then s
    else { s with cal := { s.cal with recal := s.cal.recal ++ [course.val] } })

/-! The metrology converter (R354 to R358) -/

/-- The next scan entry from `n` up, cyclically, that takes results; none where no entry does. -/
def State.scanNext (s : State) (n : Nat) : Option Nat :=
  let len := s.rd Reg.MCV_CTRL_SCAN_LEN
  ((List.range len).map (fun i => (n + i) % len)).find? (fun e => s.rd Reg.MCV_SCAN_REPEAT e != 0)

/-- Filter order and OSR code of an entry. -/
def State.scanOrder (s : State) (e : Nat) : Nat := 3 + min 2 (s.rd Reg.MCV_SCAN_ORDER e)
def State.scanOsr (s : State) (e : Nat) : Nat := min 6 (s.rd Reg.MCV_SCAN_OSR e)

/-- The selector of an entry, for the channels that have one. -/
def State.scanSel (s : State) (e : Nat) : Nat :=
  let ch := s.rd Reg.MCV_SCAN_CH e
  if ch = 3 ∨ ch = 15 then s.rd Reg.MCV_SCAN_SEL e else 0

/-- The converter takes the setting of an entry: a change makes the filter settle (R356). -/
def State.visit (s : State) (e : Nat) : State :=
  let notch := s.is Reg.MCV_CTRL_NOTCH_EN
  let new := (s.rd Reg.MCV_SCAN_CH e, s.scanSel e, s.scanOrder e, s.scanOsr e, notch)
  let order := s.scanOrder e + notch.toNat
  let settle := match s.mcv.setting with
    | none => order + 1
    | some old => if old.1 ≠ new.1 ∨ old.2.1 ≠ new.2.1 then order + 1 else if old ≠ new then order else s.mcv.settle
  { s with mcv := { s.mcv with entry := e, settle := settle, setting := some new } }

/-- The converter runs. -/
def State.converts (s : State) : Bool := s.board.powered && s.is Reg.CAL_MCV_EN_EN && s.is Reg.MCV_CTRL_RUN && s.rd Reg.MCV_CTRL_SCAN_LEN != 0

/-- A result enters the queue, or is dropped when the queue is full (R358). -/
def State.queueResult (s : State) (w : W32) : State :=
  if s.mcv.queue.length < 256 then
    ({ s with mcv := { s.mcv with queue := s.mcv.queue ++ [w] } }).wr Reg.MCV_QSTAT_COUNT 0 (s.mcv.queue.length + 1)
  else s.bump Reg.MCV_DROP_COUNT

/-- The voltage of a rail in 0.1 mV from its result (Table 11.7). -/
def railMillivolts (rail : Nat) (value : Int) : Nat :=
  let fs : Int := if rail = 2 ∨ rail = 7 ∨ rail = 8 then 30000 else 15000
  (max 0 (roundDiv (value * fs) 8388608 true)).toNat

/-- A result of the entry being converted. -/
def State.takeResult (s : State) (e : Nat) (value : Int) (overload : Bool) : State :=
  let v := clampInt (-8388607) 8388607 value
  let tooHigh := overload || decide (v ≠ value) || (SMap.find? s.board.excursions 8).isSome
  let word := fun stale : Bool => BitVec.ofNat 32 (ofSigned 24 v + e * 2 ^ 24 + tooHigh.toNat * 2 ^ 30 + stale.toNat * 2 ^ 31)
  if 0 < s.mcv.settle then
    let s := { s with mcv := { s.mcv with settle := s.mcv.settle - 1 } }
    if s.is Reg.MCV_CTRL_KEEP_SETTLE then s.queueResult (word true) else s
  else
    let ch := s.rd Reg.MCV_SCAN_CH e
    let s := s.queueResult (word false)
    let s := if 4 ≤ ch ∧ ch ≤ 12 then s.wr Reg.TRM_RAIL_MV (ch - 4) (railMillivolts (ch - 4) v) else s
    let n := s.mcv.taken + 1
    if s.rd Reg.MCV_SCAN_REPEAT e ≤ n then { s with mcv := { s.mcv with taken := 0, entry := e + 1 } }
    else { s with mcv := { s.mcv with taken := n } }

/-- The converter produces a result. -/
def execMcvResult (value : Int) (overload : Bool) (s : State) : Host.Outcome State Fault Refusal :=
  .next (
    if !s.converts then s
    else match s.scanNext s.mcv.entry with
      | none => s
      | some e =>
        let s := if e = s.mcv.entry then s else { s with mcv := { s.mcv with taken := 0 } }
        (s.visit e).takeResult e value overload)

/-- A read of `MCV_RESULT` removes the oldest entry; of an empty queue it returns TAG 0x3F. -/
def State.readResult (s : State) (who : Requester) : State :=
  match s.mcv.queue with
  | w :: rest => (({ s with mcv := { s.mcv with queue := rest } }).wr Reg.MCV_QSTAT_COUNT 0 rest.length).emit (.readData (reqCode who) w.toNat)
  | [] => s.emit (.readData (reqCode who) 0x3F000000)

def execMcvResultRead (who : Requester) (s : State) : Host.Outcome State Fault Refusal :=
  .next (s.access who 0x110010 none (fun s => s.readResult who))

/-- A read of `MCV_DROP` clears it. -/
def State.readDrop (s : State) (who : Requester) : State :=
  (s.wr Reg.MCV_DROP_COUNT 0 0).emit (.readData (reqCode who) (s.rd Reg.MCV_DROP_COUNT))

def execMcvDropRead (who : Requester) (s : State) : Host.Outcome State Fault Refusal :=
  .next (s.access who 0x110018 none (fun s => s.readDrop who))

end Sys2Proof.Machine
end

