-- ==== Sys2Proof/Machine/PegOps.lean ====
section
/-! DEFINITION. Machine/PegOps.lean: work units of the Peg engines, cell readings in levels, and judging tiers (R330 to R347). -/
namespace Sys2Proof.Machine

/-! Intervals (R337, R339) -/

/-- The probing interval of a course in ns. -/
def State.pegInterval (s : State) (course : Nat) : Nat :=
  1000000000 * max 1 (if s.is Reg.CAL_PEG_STATUS_HOT course then min 120 (s.rd Reg.CAL_PEG_INTERVAL_HOT_S) else min 600 (s.rd Reg.CAL_PEG_INTERVAL_NORMAL_S))

/-- The Peg engine sweeps a tier: of an array in service, verified, or the array's last, which holds ECC-coded data. -/
def State.swept (s : State) (tk : Nat) : Bool :=
  s.rd Reg.CRS_ARR_STATUS_STATE (tk / 128) == 0 &&
  (tk % 128 == 127 || (s.rd Reg.CRS_ARR_TFMT_WIDTH tk != 0 && s.is Reg.CRS_ARR_TFMT_VERIFIED tk))

/-- A tier's last probe is older than `n` intervals. -/
def State.probeOlder (s : State) (tk n : Nat) : Bool :=
  decide (SMap.get 0 s.peg.lastProbe tk + n * s.pegInterval (courseOf (tk / 1152)) < s.time)

/-- The queue of due tiers with one more in its place by age, oldest first. -/
def State.queueByAge (s : State) (k tier : Nat) : List Nat → List Nat
  | [] => [tier]
  | t :: l =>
    if SMap.get 0 s.peg.lastProbe (128 * k + t) ≤ SMap.get 0 s.peg.lastProbe (128 * k + tier) then t :: s.queueByAge k tier l
    else tier :: t :: l

/-! Units and holds (R61, R343 to R347) -/

/-- No core of a course runs a pass. -/
def State.courseIdle (s : State) (course : Nat) : Bool := s.cores.all (fun e => !(e.2.running && courseOf e.1 == course))

/-- The latency-class rule applies to a course (R344). -/
def State.latencyRule (s : State) (course : Nat) : Bool :=
  match s.coursePart course with
  | none => false
  | some p => (s.entriesOf p).any (fun i => !(s.request i).bulk && ((s.request i).state == .decode || (s.request i).state == .verify))

/-- The quiet interval that remains on an array, in thirty-thirds of a ns; with `ends`, only one that spans the pass's end. -/
def State.quietLeft (s : State) (k : Nat) (ends : Bool) : Nat :=
  match SMap.find? s.peg.quiet k with
  | some (e, passEnd) => if s.is Reg.CAL_PEG_CTRL_GAPS_EN && !s.peg.gapsOff.contains (k / 9) && (passEnd || !ends) then e - 33 * s.time else 0
  | none => 0

/-- A partition has passes to start, which work on an idle course would hold. -/
def State.wantsPass (s : State) (p : Nat) : Bool :=
  !(SMap.get [] s.serving.waiting p).isEmpty || (s.entriesOf p).any (fun i => runState (s.request i).state)

/-- Holds of a course in the last 1 s. -/
def State.recentHolds (s : State) (course : Nat) : List (Nat × Nat) :=
  (SMap.get [] s.peg.holds course).filter (fun h => decide (s.time < h.1 + h.2 + 1000000000))

/-- Hold the course's next pass for `ns` from now, within one hold's bound and the budget of 1 s (R345). -/
def State.holdFor (s : State) (course ns : Nat) : Option State :=
  let l := s.recentHolds course
  let open_ := match l.getLast? with
    | some h => if s.time ≤ h.1 + h.2 then some h else none
    | none => none
  let l' := match open_ with
    | some h => l.dropLast ++ [(h.1, max h.2 (s.time + ns - h.1))]
    | none => l ++ [(s.time, ns)]
  let total := (l'.map Prod.snd).sum
  let last := match l'.getLast? with | some h => h.2 | none => 0
  if last ≤ 1000 * min 40 (s.rd Reg.CAL_PEG_CTRL_HOLD_US) ∧ total ≤ 1000000 * min 20 (s.rd Reg.CAL_PEG_CTRL_HOLD_PM) then
    some { s with peg := { s.peg with holds := SMap.put [] s.peg.holds course l' } }
  else none

/-- The Peg engine of a course runs. -/
def State.pegRuns (s : State) (course : Nat) : Bool :=
  s.board.powered && !s.thermal.tripped && !s.recovery.held && !s.recovery.courses.contains course && !s.courseNapped course && !s.peg.sweeping

/-- An array is taken by a unit of a length in thirty-thirds of a ns. -/
def State.takeArray (s : State) (k dur : Nat) : State :=
  { s with peg := { s.peg with busy := SMap.insert s.peg.busy k (33 * s.time + dur) } }

/-- Start a unit on an array, if the rules let it start now. -/
def State.startUnit (s : State) (k dur : Nat) (boundary : Bool) : Option State :=
  let course := courseOf (k / 9)
  let idle := s.courseIdle course
  if !s.pegRuns course || s.issueStopped || (boundary && s.pumpsOff) || (s.array k).mvm.isSome || decide (33 * s.time < SMap.get 0 s.peg.busy k) then none
  else if dur ≤ s.quietLeft k boundary && (!boundary || idle) then some (s.takeArray k dur)
  else if !idle || s.latencyRule course then none
  else match s.coursePart course with
    | none => some (s.takeArray k dur)
    | some p => if s.wantsPass p then (s.holdFor course ((dur + 32) / 33)).map (fun s => s.takeArray k dur) else some (s.takeArray k dur)

/-- A unit that does not start: one that the remaining quiet interval is too short for counts as deferred (Table 11.4). -/
def State.deferUnit (s : State) (k dur : Nat) (boundary : Bool) : State :=
  let left := s.quietLeft k boundary
  if left ≠ 0 ∧ left < dur then s.bump Reg.CAL_PEG_CNT_DEFER_COUNT (courseOf (k / 9)) else s

/-- Do a unit's work, or defer it. -/
def State.unit (s : State) (k dur : Nat) (boundary : Bool) (work : State → State) : State :=
  match s.startUnit k dur boundary with
  | some s => work s
  | none => s.deferUnit k dur boundary

/-- Lengths of the units in thirty-thirds of a ns: 260 core clocks, 125 ns, 250 ns (Table 11.3). -/
def probeUnit : Nat := 2600
def readUnit : Nat := 4125
def slotUnit : Nat := 8250

/-! Signatures (R331) -/

/-- The signature words of a tier, as they stand in stack memory; none where it stands for no logical tier. -/
def State.signatureWords (s : State) (tk : Nat) : List Nat :=
  match s.signatureOf tk with
  | some a => (wordsOf (s.stackRead a 256)).map (fun w => w.toNat)
  | none => []

/-- A probe conversion's codes depart from its signature word (R333). -/
def State.suspectCodes (s : State) (k word : Nat) (codes : List Nat) : Bool :=
  let e : Int := ((codes.take 32).sum : Nat) - (bits word 0 11 : Nat)
  let ta := max (max 1 (s.rd Reg.CAL_PEG_THR_PROBE_TOL)) (4 * SMap.get 0 s.peg.rms k)
  let tol := max 1 (s.rd Reg.CAL_PEG_THR_CHK_TOL)
  let off := fun (c x : Nat) => (((c : Int) - (x : Int)).natAbs)
  bit word 31 && (decide (ta < e.natAbs) || decide (tol < off (codes.getD 32 0) (bits word 11 6)) || decide (tol < off (codes.getD 33 0) (bits word 17 6)))

/-- The suspect groups of a tier. -/
def State.suspectGroups (s : State) (k tier : Nat) (codes : List (List Nat)) : List (Nat × Nat) :=
  (((s.signatureWords (128 * k + tier)).zipIdx.filter (fun (w, i) => s.suspectCodes k w (codes.getD i []))).map (fun (_, i) => (i / 8, i % 8)))

/-! Readings in levels (R334) -/

/-- The readings of the reference column, level 0 to 15, from the rows 16m + 8. -/
def refReadings (rows : Nat → List Int) : List Int := (List.range 16).map (fun m => nth (rows (16 * m + 8)) 34)

/-- A reading in sixty-fourths of a level, by linear interpolation between the reference readings. -/
def level64 (refs : List Int) (v : Int) : Int :=
  match (List.range 15).find? (fun m => decide (nth refs m ≤ v) && decide (v ≤ nth refs (m + 1)) && decide (nth refs m < nth refs (m + 1))) with
  | some m => 64 * (m : Int) + roundDiv (64 * (v - nth refs m)) (nth refs (m + 1) - nth refs m).toNat true
  | none => Config.outsideLevel v

/-- The nearest level, 0 to 15. -/
def nearestLevel (v : Int) : Nat := (clampInt 0 15 ((v + 32) / 64)).toNat

/-- Targets of a row's 35 cells in 1/2,112 level, from the levels of its data cells (R74, R82). -/
def cellTargets (row : Nat) (levels : List Nat) : List Int :=
  let weighted := (levels.zipIdx.map (fun (v, j) => (j + 1) * v)).sum
  levels.map (fun v => ((2112 * v : Nat) : Int)) ++ [((66 * levels.sum : Nat) : Int), ((4 * weighted : Nat) : Int), ((2112 * (row / 16) : Nat) : Int)]

/-- Distances of a row's cells from their targets in 1/2,112 level; the readings are in sixty-fourths. -/
def cellErrors (row : Nat) (levels : List Nat) (vs : List Int) : List Nat :=
  (cellTargets row levels).zipIdx.map (fun (t, j) => (33 * nth vs j - t).natAbs)

/-- Cells more than `n` sixty-fourths of a level from their targets. -/
def cellsBeyond (n : Nat) (errors : List Nat) : Nat := (errors.filter (fun e => decide (33 * n < e))).length

/-- Retunes count on a row: at most 1/1,000 cycle for each cell a slot pulses (R58). -/
def State.wearRow (s : State) (tk row : Nat) : State :=
  ({ s with peg := { s.peg with rowWear := SMap.insert s.peg.rowWear (256 * tk + row) (SMap.get 0 s.peg.rowWear (256 * tk + row) + 1) } }).noteWear tk row

/-! Retune jobs (R334 to R336, R341) -/

def State.pegJobs (s : State) (k : Nat) : List RetuneJob := SMap.get [] s.peg.jobs k
def State.setJobs (s : State) (k : Nat) (l : List RetuneJob) : State := { s with peg := { s.peg with jobs := SMap.put [] s.peg.jobs k l } }
def State.putJob (s : State) (k : Nat) (j : RetuneJob) : State := s.setJobs k ((s.pegJobs k).map (fun x => if x.tier = j.tier then j else x))

/-- A tier's job ends: no program slots pend for it. -/
def State.dropJob (s : State) (k tier : Nat) : State :=
  let s := (s.setJobs k ((s.pegJobs k).filter (fun j => j.tier != tier))).wr Reg.CRS_ARR_TFMT_PROGRAMMING (128 * k + tier) 0
  if (s.array k).prog.isSome ∨ (s.pegJobs k).any (fun j => j.judged) then s else s.wr Reg.CRS_ARR_STATUS_PROG k 0

/-- A tier goes to full reprogram; its job ends. -/
def State.giveUpTier (s : State) (k tier : Nat) : State := (s.dropJob k tier).fullReprogram (128 * k + tier)

/-- Rows that a job must read: the reference rows and those of its groups. -/
def jobRows (j : RetuneJob) : List Nat := ((List.range 16).map (fun m => 16 * m + 8) ++ j.groups.flatMap (fun (g : Nat × Nat) => probeRows g.1 g.2)).eraseDups

/-- Readings are complete: levels are assigned, and rows marked, or the tier is sent to full reprogram (R58, R334). -/
def State.judgeTier (s : State) (k : Nat) (j : RetuneJob) : State :=
  let tk := 128 * k + j.tier
  let refs := refReadings (fun r => SMap.get [] j.reads r)
  let read := fun r => (SMap.get [] j.reads r).map (level64 refs)
  let levels := fun r => ((read r).take 32).map nearestLevel
  let rows := j.groups.flatMap (fun (g : Nat × Nat) => probeRows g.1 g.2)
  let errors := fun r => cellErrors r (levels r) (read r)
  let words := s.signatureWords tk
  let wrong := decide (j.tier ≠ 127) && j.groups.any (fun (g : Nat × Nat) => ((probeRows g.1 g.2).flatMap levels).sum != bits (words.getD (8 * g.1 + g.2) 0) 0 11)
  if wrong || rows.any (fun r => decide (0 < cellsBeyond 96 (errors r))) then s.giveUpTier k j.tier
  else
    let s := s.forEach rows (fun s r => s.storeRow tk r (levels r))
    let marked := rows.filter (fun r => decide (0 < cellsBeyond (max 16 (s.rd Reg.CAL_PEG_THR_RETUNE)) (errors r)))
    if marked.isEmpty then s.dropJob k j.tier
    else (s.putJob k { j with judged := true, marked := marked, reads := marked.foldl (fun m r => SMap.insert m r (read r)) [] }).showProgramming k

/-- The levels of a tier's row, as they are stored. -/
def State.rowLevels (s : State) (tk row : Nat) : List Nat := (List.range 32).map (fun c => s.level tk row c)

/-- One program slot on a marked row, with its cells after it in sixty-fourths of a level (R335). -/
def State.retuneRow (s : State) (k : Nat) (j : RetuneJob) (row : Nat) (cells : List Int) : State :=
  let tk := 128 * k + j.tier
  let levels := s.rowLevels tk row
  let before := cellsBeyond 16 (cellErrors row levels (SMap.get [] j.reads row))
  let after := cellsBeyond 16 (cellErrors row levels cells)
  let s := if j.slots = 0 then s.bump Reg.CAL_PEG_CNT_CELLS_COUNT (courseOf (k / 9)) before else s
  let s := s.wearRow tk row
  if after = 0 then
    (match j.marked.erase row with
    | [] => s.dropJob k j.tier
    | rest => s.putJob k { j with marked := rest, slots := 0 })
  else if 5 ≤ j.slots then s.giveUpTier k j.tier
  else s.putJob k { j with slots := j.slots + 1, reads := SMap.insert j.reads row cells }

/-! The full verify sweep (R340) -/

/-- Every tier with WIDTH ≠ 0. -/
def State.formatted (s : State) : List Nat :=
  (s.regs.filter (fun e => e.1 / 16777216 == Reg.CRS_ARR_TFMT_WIDTH.id)).map (fun e => e.1 % 16777216)

/-- A residue of a probe group differs. -/
def State.residueWrong (s : State) (tk : Nat) (levels : Nat → List Nat) : Bool :=
  match SMap.find? s.peg.residues tk with
  | none => false
  | some l => (List.range 64).any (fun i => ((probeRows (i / 8) (i % 8)).flatMap levels).sum % 8 != l.getD i 0)

/-- One tier is treated. -/
def State.treatTier (s : State) (x : TierReading) : State :=
  let k := arrayKey x.core.val x.array.val
  let tk := 128 * k + x.tier.val
  if s.rd Reg.CRS_ARR_TFMT_WIDTH tk = 0 ∨ s.peg.treated.contains tk then s
  else
    let s := { s with peg := { s.peg with treated := s.peg.treated ++ [tk] } }
    let row := fun r => x.rows.getD r []
    let refs := refReadings row
    let read := fun r => (row r).map (level64 refs)
    let levels := fun r => ((read r).take 32).map nearestLevel
    let errors := fun r => cellErrors r (levels r) (read r)
    let rows := List.range 256
    let pulsed := rows.filter (fun r => decide (0 < cellsBeyond 16 (errors r)))
    if s.residueWrong tk levels || rows.any (fun r => decide (0 < cellsBeyond 96 (errors r))) then s.giveUpTier k x.tier.val
    else
      let s := s.bump Reg.CAL_PEG_CNT_CELLS_COUNT (courseOf x.core.val) ((pulsed.map (fun r => cellsBeyond 16 (errors r))).sum)
      let s := s.forEach pulsed (fun s r => s.wearRow tk r)
      if !pulsed.isEmpty && !x.retuned then s.giveUpTier k x.tier.val
      else
        let s := ((s.forEach rows (fun s r => s.storeRow tk r (levels r))).dropJob k x.tier.val).sign tk
        let s := s.wr Reg.CRS_ARR_TFMT_VERIFIED tk 1
        { s with peg := { s.peg with lastProbe := SMap.insert s.peg.lastProbe tk s.time, overdue := s.peg.overdue.filter (· != tk) } }

end Sys2Proof.Machine
end

