-- ==== Sys2Proof/Machine/IntegrityOps.lean ====
section
/-! DEFINITION. Machine/IntegrityOps.lean: stack errors by region, redundant streams, audits, rollback, field tests and the die-log
writer (chapter 13). -/
namespace Sys2Proof.Machine

/-! Stack errors (R386, Table 13.2) -/

/-- The KV frame of a stack address, with the partition whose pool holds it. -/
def State.poolOf? (s : State) (frame : Nat) : Option Nat :=
  (List.range 16).find? (fun p => decide (s.rd Reg.SRV_PART_POOL_BASE_FRAME p ≤ frame) && decide (frame < s.rd Reg.SRV_PART_POOL_BASE_FRAME p + s.rd Reg.SRV_PART_POOL_COUNT_FRAMES p))

/-- A context has lost KV that it reads: a request faults, a member's entry is reset, a companion goes. -/
def State.kvLost (s : State) (idx : Nat) : State :=
  let r := s.request idx
  if r.isCompanion then s.forEach (s.ownersOf idx) State.dropCompanion
  else if r.member then s.resetContext idx
  else if liveState r.state then s.faultRequest idx codeContextReset
  else s

/-- An uncorrectable error in a KV frame: a prefix that owns it is dropped, and every context that uses it has lost it. -/
def State.frameLost (s : State) (frame : Nat) : State :=
  let uses := fun l : SMap PageEntry => l.any (fun e => e.2.frame == frame)
  let owners := (s.serving.prefixes.filter (fun (e : Nat × PrefixEntry) => !e.2.dropped && (ownFrames e.2.pages).contains frame)).map Prod.fst
  let users := (s.serving.requests.filter (fun (e : Nat × Request) => e.2.state != .free && uses e.2.pages)).map Prod.fst
  (s.forEach owners State.prefixDropAt).forEach users State.kvLost

/-- The shards of a landing buffer fail their digests and are requested again (R211). -/
def State.bufferLost (s : State) (buffer : Nat) : State :=
  s.forEach s.loader.loads (fun s e =>
    let hit := e.2.shards.filter (fun x => x.2.buffer == some buffer && !x.2.verified)
    s.forEach hit (fun s x => ((s.bump Reg.LDR_RELAY_BAD_COUNT).answerPosters e.1 x.1 { code := codeInvalid, detail := 2 }).reRequest e.1 x.1))

/-- An adapter slot is lost: it is SUPERSEDED, and requests bound to it fault. -/
def State.adapterLost (s : State) (slot : Nat) : State :=
  if !s.is Reg.LDR_ADP_SLOT_VALID slot then s
  else
    let s := s.wr Reg.LDR_ADP_SLOT_SUPERSEDED slot 1
    let bound := (s.serving.requests.filter (fun (e : Nat × Request) => liveState e.2.state && !e.2.member && !e.2.isCompanion && e.2.adapter != 0xFFFF && adapterSlot e.2.adapter == slot)).map Prod.fst
    s.forEach bound (fun s i => s.faultRequest i codeAdapterMissing)

/-- An entry of the fault region is lost and counted: a record of the die log, a pass of a log, or a captured pattern. Which pass an
address holds is open: a free value picks it. What a lost record reads as is free. -/
def State.logEntryLost (s : State) (off : Nat) : State :=
  let s := s.bump Reg.FLT_CNT_LOST_COUNT 2
  if off < 2 * 65536 then
    let bytes := (List.range 8).flatMap (fun i => leBytes 4 (Config.free32 (s.fresh + i)).toNat)
    ({ s with fresh := s.fresh + 8 }).stackWrite (s.rd Reg.FLT_LOG_BASE_FRAME * 65536 + off / 32 * 32) bytes
  else if off < 514 * 65536 then
    let (n, s) := s.draw
    let v := (Config.free32 n).toNat
    let log := SMap.get [] s.fault.passLog (v % 16)
    { s with fault := { s.fault with passLog := SMap.put [] s.fault.passLog (v % 16) (log.eraseIdx (v / 16 % max 1 log.length)) } }
  else
    let i := (off - 514 * 65536) / 272
    let f := s.fault
    if i < 64 ∨ f.library.length ≤ i - 64 then s
    else ({ s with fault := { f with library := f.library.eraseIdx (i - 64), libraryNext := 0 } }).wr Reg.FLT_FT_LIB_ENTRIES 0 (64 + f.library.length - 1)

/-- VALID of a signature word clears. -/
def State.wordLost (s : State) (a : Nat) : State :=
  let w := 4 * (a / 4)
  s.stackWrite w (leBytes 4 (setBit (leNat (s.stackRead w 4)) 31 false))

/-- What an uncorrectable error at a stack address does. Regions whose place the manual does not give, and those whose reader
meets the error (the data windows), act through the commands that read them. -/
def State.stackLost (s : State) (a : Nat) : State :=
  let frame := a / 65536
  let sig := s.rd Reg.CAL_SIG_BASE_FRAME
  let log := s.rd Reg.FLT_LOG_BASE_FRAME
  let pool := s.rd Reg.LDR_ADP_POOL_BASE
  let land := s.bar4Address s.landBase
  if (s.poolOf? frame).isSome then s.frameLost frame
  else if log ≤ frame ∧ frame < log + 531 then s.logEntryLost (a - 65536 * log)
  else if 65536 * sig ≤ a ∧ a < 65536 * sig + 80000 * 127 * 256 then s.wordLost a
  else if land ≤ a ∧ a < land + 67108864 * s.usableBuffers then s.bufferLost ((a - land) / 67108864)
  else if pool ≤ a ∧ a < pool + 268435456 * s.rd Reg.LDR_ADP_POOL_SIZE_UNITS then
    let (n, s) := s.draw
    s.adapterLost ((Config.free32 n).toNat % 1024)
  else s

/-- What the stack code finds at an address: a report that accuses the stack, and an uncorrectable error's effect. -/
def State.stackError (s : State) (a : Nat) (o : EccOutcome) : State :=
  let u := unitStack (stackOf a)
  match o with
  | .clean => s
  | .corrected => s.report { sender := u, unit := u, cls := 1 }
  | .uncorrectable => (s.report { sender := u, unit := u, cls := 2 }).stackLost a

/-! Redundant streams (R387, R388, R418) -/

/-- A packet or contribution is of the step of the core's current slot. -/
def State.stepMatches (s : State) (core : Nat) (t : W64) : Bool :=
  s.tagMatches core t && (match s.curSlot core with | some x => tagStep t == x.slotRec.step % 65536 | none => false)

/-- One copy of a stream that a parked RECV or RECVRED waits for, whole: what taking it does, when it came, and how many granules
it has. -/
def State.streamCopy (s : State) (core chan : Nat) (twin : Bool) : Option (State × Nat × Nat × W128) :=
  let c := s.core core
  let mine := fun (ch : Nat) (t : W64) => ch == chan && s.stepMatches core t && bit t.toNat 62 == twin
  match c.park with
  | some (.recv w) =>
    if bits (wArg1 w) 0 12 ≠ chan then none
    else (c.packets.find? (fun k => mine k.channel k.tag && packetWhole k)).map (fun k =>
      let n := opGranules (s.operand core (wDescb w))
      (s.takePacket core w k, k.since, if n = 0 then k.granules.length else n, w))
  | some (.recvred w _) =>
    if bits (wArg1 w) 0 12 ≠ chan then none
    else
      let whole := fun b : RedBuffer => redWhole b (s.redGranules core w b) (s.contributors core w)
      (c.reductions.find? (fun b => mine b.channel b.tag && whole b)).map (fun b => (s.takeReduction core w b, b.since, s.redGranules core w b, w))
  | _ => none

/-- Every copy of a stream's step leaves the receive buffer. -/
def State.clearCopies (s : State) (core chan : Nat) : State :=
  let c := s.core core
  let mine := fun (ch : Nat) (t : W64) => ch == chan && s.stepMatches core t
  s.setCore core { c with packets := c.packets.filter (fun k => !mine k.channel k.tag), reductions := c.reductions.filter (fun b => !mine b.channel b.tag) }

/-- A copy is consumed: the parked instruction completes with it, and the other copy is discarded. -/
def State.consumeCopy (taken : State) (core chan : Nat) : State := (taken.clearCopies core chan).unpark core

/-- Elements received into D, as FP32 values: by the receiving instruction's descriptor, or as words where it has none. -/
def State.received (taken : State) (core n : Nat) (w : W128) : List W32 :=
  let o := taken.operand core (wDescb w)
  if o.len = 0 then taken.readWords core (taken.granD core w) (8 * n) else taken.opFlat core (taken.granD core w) o

/-- Two elements differ by no more than the band: equal words always agree, and otherwise a NaN or an infinity agrees with nothing. -/
def agrees (band a b : W32) : Bool :=
  a == b ||
  (match Fp.add (Fp.of32 a) (Fp.of32 b).neg, Fp.of32 band with
   | .fin _ m e, .fin neg n f => !absBelow n f m e && (!neg || m == 0)
   | _, _ => false)

/-- The band of a stream: the first word of the granule after the receive buffer. -/
def State.bandOf (taken : State) (core n : Nat) (w : W128) : W32 := (taken.readWords core (taken.granD core w + n) 1).getD 0 0

/-- The copies disagree: neither is consumed, the slot is step-aborted, and the primary copy's producer is accused. -/
def State.disagree (s : State) (core chan : Nat) (producer twin : W32) (analog : Bool) : State :=
  let tag := s.coreTag core
  let s := s.clearCopies core chan
  let s := s.report { sender := unitCore core 1, unit := producer, cls := if analog then 3 else 4, tag := tag, aux := some twin }
  s.abortTag core (s.core core).cur

/-- Both copies of a stream have come: they are compared before either is consumed. -/
def State.compareCopies (s : State) (core chan : Nat) (producer twin : W32) (analog : Bool) : State :=
  match s.streamCopy core chan false, s.streamCopy core chan true with
  | some (p, _, n, w), some (q, _, _, _) =>
    let a := p.received core n w
    let b := q.received core n w
    if a.length = b.length ∧ (a.zip b).all (fun (x : W32 × W32) => agrees (s.bandOf core n w) x.1 x.2) then p.consumeCopy core chan
    else s.disagree core chan producer twin analog
  | _, _ => s

/-- The wait for a twin copy in ns (R418). -/
def State.twinWait (s : State) : Nat := 1000 * min 16 (max 1 (s.rd Reg.FLT_WD_CTRL_TWIN_US))

/-- One copy has come and the other is late: WATCHDOG is reported, the copy that came is consumed, and the late copy's course is
absent for the partition. A copy from an absent course is not waited for. -/
def State.twinLate (s : State) (core chan late : Nat) (taken : State) (since : Nat) : State :=
  let p := (s.core core).part
  let key := 100 * p + courseOf late
  if s.fault.absent.contains key then taken.consumeCopy core chan
  else if s.time < since + s.twinWait then s
  else
    let tag := s.coreTag core
    let s := (taken.consumeCopy core chan).report { sender := unitCore core 1, unit := unitCore late 0, cls := 6, tag := tag }
    { s with fault := { s.fault with absent := s.fault.absent ++ [key] } }

def State.twinExpiry (s : State) (core chan late : Nat) : State :=
  match s.streamCopy core chan false, s.streamCopy core chan true with
  | some (t, since, _, _), none => s.twinLate core chan late t since
  | none, some (t, since, _, _) => s.twinLate core chan late t since
  | _, _ => s

/-! Audits (R389 to R393) -/

def State.auditSample (s : State) (core instr : Nat) : AuditSample := SMap.get {} s.fault.samples (2048 * core + instr)
def State.setSample (s : State) (core instr : Nat) (x : AuditSample) : State :=
  { s with fault := { s.fault with samples := SMap.put {} s.fault.samples (2048 * core + instr) x } }

/-- The pass that a core's partition runs, or ran last. -/
def State.passNow (s : State) (core : Nat) : Nat := s.passesOf core - 1

/-- The sampled MVM still runs. -/
def State.sampling (s : State) (core instr : Nat) : Bool :=
  (List.range 9).any (fun a => match (s.array (arrayKey core a)).mvm with | some m => m.sampled && m.pc == instr | none => false)

/-- A stored level in a tier's weight source. -/
def sourceLevel (levels : List (BitVec 4)) (row col : Nat) : Nat := ((levels[32 * row + col]?).getD 0).toNat

/-- Codes expected of a sample's 32 data columns, conversion by conversion (R71, R390): from the weight shadow if the partition
keeps one; otherwise the Peg engine has read the levels, and they come with the command. -/
def State.expectedCodes (s : State) (core : Nat) (x : AuditSample) (read : List Nat) : List Nat :=
  let shadow := match s.corePart core with | some p => bit (s.rd Reg.LDR_SHADOW_READY) p | none => false
  match shadow, SMap.find? s.loader.source x.tier with
  | true, some (_, levels) => x.rows.flatMap (fun rows => (List.range 32).map (fun j => codeOf ((rows.map (fun r => sourceLevel levels r j)).sum) 1 x.gain 0))
  | _, _ => read

/-- Sum over the conversions of a column's deviations. -/
def columnDeviation (codes expected : List Nat) (n j : Nat) : Int :=
  ((List.range n).map (fun i => (((codes.getD (32 * i + j) 0 : Nat) : Int) - ((expected.getD (32 * i + j) 0 : Nat) : Int)))).sum

/-- No column deviates by more than (T/32)·√n. -/
def auditPasses (band n : Nat) (codes expected : List Nat) : Bool :=
  (List.range 32).all (fun j => decide ((32 * columnDeviation codes expected n j) ^ 2 ≤ ((band ^ 2 * n : Nat) : Int)))

/-- Prefixes of a partition entered in the window are dropped. -/
def State.dropCreated (s : State) (p window : Nat) : State :=
  let l := (s.serving.prefixes.filter (fun (e : Nat × PrefixEntry) => e.2.part == p && !e.2.dropped && decide (window < e.2.created))).map Prod.fst
  s.forEach l State.prefixDropAt

/-- Oldest pass of a partition's log; none in an empty one. -/
def State.oldestPass (s : State) (p : Nat) : Option Nat := ((SMap.get [] s.fault.passLog p).getLast?).map (fun r => r.number)

/-- A window reaches beyond the pass log. -/
def State.beyondLog (s : State) (p window : Nat) : Bool := match s.oldestPass p with | some n => decide (window < n) | none => false

/-- Contexts of a window, each entry once: context and VERSION. -/
def State.windowContexts (s : State) (p window : Nat) : List (Nat × Nat) :=
  (((SMap.get [] s.fault.passLog p).filter (fun r => decide (window ≤ r.number))).flatMap (fun r => r.slots.map (fun x => (x.context, x.version)))).eraseDups

/-- An audit fails (R393): the tier is accused, the array quarantined, the current pass step-aborted and the window's contexts
named to the admitting device. -/
def State.auditFail (s : State) (core k tier : Nat) (lastPass : Nat) : State :=
  let p := (s.corePart core).getD 0
  let course := courseOf core
  let unit := unitTier core (k % 9) tier
  let window := lastPass + 1
  let tag := tagOf p (0xFF00 + course) 0 0 3 0 0
  let s := (s.bump Reg.FLT_AUDIT_FAIL_COUNT).report { sender := unitCourse course 0, unit := unit, cls := 5, tag := tag, trunc := s.beyondLog p window }
  let s := if s.rd Reg.CRS_ARR_STATUS_STATE k = 2 then s else s.quarantineArray core (k % 9) 5 tag false
  let s := s.forEach (SMap.get [] s.serving.passes p) (fun s x => s.stepAbortOf p x.context x.step)
  let s := s.forEach (s.windowContexts p window) (fun s x => s.emit (.auditName p x.1 x.2 window unit))
  s.dropCreated p window

/-- A sample is judged: a passing audit becomes the tier's last one, of the pass given. -/
def State.judgeSample (s : State) (core instr k tier n gain pass : Nat) (codes expected : List Nat) : State :=
  let x := s.auditSample core instr
  let ok := auditPasses (s.band k gain) n codes expected
  let s := (s.bump Reg.FLT_AUDIT_SAMPLE_COUNT).setSample core instr { x with waiting := false, resample := false, lastPass := if ok then pass else x.lastPass }
  if ok then s else s.auditFail core k tier x.lastPass

/-- A sample is compared within 64 passes, once its MVM is complete. -/
def State.compareSample (s : State) (core instr : Nat) (read : List Nat) : State :=
  let x := s.auditSample core instr
  if !x.waiting ∨ s.sampling core instr ∨ x.pass + 64 < s.passNow core then s
  else s.judgeSample core instr (x.tier / 128) (x.tier % 128) x.conversions x.gain x.pass x.codes (s.expectedCodes core x read)

/-- The array and tier that a TMVM of the core's tab names now, in the CURRENT epoch. -/
def State.instrTier (s : State) (core instr : Nat) : Option (Nat × Nat) :=
  let w : W128 := BitVec.ofNat 128 (leNat (s.tabRead core (16 * instr) 16))
  if instr < s.rd Reg.CRS_CORE_TAB_NINSTR core ∧ wClass w = 0 ∧ wOp w = 0 then
    (s.physArray core (bits (wArg0 w) 0 4 % 8)).map (fun a =>
      let p := (s.corePart core).getD 0
      let t := bits (wArg1 w) 0 7
      (arrayKey core a, match s.currentSlot? p with | some k => SMap.get t s.loader.tierMap ((4 * core + k) * 128 + t) | none => t))
  else none

/-- A stand-alone audit replays an input on the tier, as a MAINT tier MVM of 4N + 24 core clocks (R75, R391). -/
def State.standAlone (s : State) (core instr : Nat) (codes expected : List Nat) : State :=
  let x := s.auditSample core instr
  let n := codes.length / 32
  let place := if x.conversions = 0 then s.instrTier core instr else some (x.tier / 128, x.tier % 128)
  match place with
  | none => s
  | some (k, t) =>
    if !s.tierReady core (k % 9) t then s
    else s.unit k (10 * (4 * n + 24)) false (fun s => s.judgeSample core instr k t n (gainOf (s.rd Reg.CRS_ARR_TFMT_GAIN (128 * k + t))) (s.passNow core) codes expected)

/-! Rollback (R393) -/

/-- The pass-log record of a context's first step at or after a pass, oldest first. -/
def State.checkpoint (s : State) (p ctx version window : Nat) : Option PassLogSlot :=
  let l := ((SMap.get [] s.fault.passLog p).filter (fun r => decide (window ≤ r.number))).reverse
  (l.flatMap (fun r => r.slots)).find? (fun x => x.context == ctx && x.version == version)

/-- An AUDIT record of a context whose completion is already written, or which a reset has ended. -/
def State.auditRecord (s : State) (p ctx version window step : Nat) (unit : W32) : State :=
  s.report { sender := unitDie 1, unit := unit, cls := 5, tag := tagOf p ctx 0 step 0 0xFFF 0, trunc := s.beyondLog p window, alone := true, aux := some (BitVec.ofNat 32 (2 ^ 31 + version % 2048)) }

/-- Tokens of a request at or past a position are on its ring already; the last one committed is at KVLEN. -/
def tokensWritten (r : Request) (pos : Nat) : Bool :=
  let held := (r.heldTokens.filter (fun e => !bit e 48)).length
  decide (held < r.gen) && decide (pos + held ≤ r.kvlen)

/-- The request goes back to a checkpoint: KV, tokens, GEN and PREFILL_POS. -/
def State.rewind (s : State) (idx : Nat) (ck : PassLogSlot) : State :=
  let r := s.request idx
  let done := r.state == .done
  let s := if done then s.epochRef r.part r.epoch else s
  let s := if r.inFlight then s.stepAbortOf r.part idx r.step else s
  let s := s.dropCompanion idx
  let r := s.request idx
  let marks := if tokensWritten r ck.kvlen then [markEntry idx ck.kvlen r.version true] else []
  let s := s.setRequest idx { r with kvlen := ck.kvlen, gen := ck.gen, prefillPos := ck.prefillPos, lastToken := BitVec.ofNat 32 ck.token, rolledBack := true, state := .queued, cause := .none, code := codeOk, heldTokens := marks, stopped := false, prefixKept := false, startLayer := 0xFFF, mark := 0xFFF, drafts := [], specOff := r.specOff || decide (r.draftMax ≠ 0), inFlight := false }
  ((s.trimPages idx).flushTokens idx).bump Reg.FLT_AUDIT_RB_COUNT

/-- One named request is rolled back (R393, Table 13.6). -/
def State.rollBack (s : State) (p idx version window : Nat) (unit : W32) : State :=
  let r := s.request idx
  let s := s.dropCreated p window
  match s.checkpoint p idx version window with
  | none => s.auditRecord p idx version window 0 unit
  | some ck =>
    if r.state = .free ∨ r.version ≠ version ∨ r.part ≠ p ∨ r.member then s.auditRecord p idx version window ck.step unit
    else if r.state = .cancelling then s.setRequest idx { r with rolledBack := true }
    else if r.state = .faulted then s
    else if r.rolledBack ∧ r.kvlen ≤ ck.kvlen ∧ r.gen ≤ ck.gen ∧ r.prefillPos ≤ ck.prefillPos then s
    else
      let pfx := if r.pfxEntry = 0xFFFF then 0 else ((s.prefixEntry r.pfxEntry).map (fun e => e.length)).getD 0
      if ck.kvlen < pfx ∨ (ck.prefillPos < r.promptLen ∧ r.prefillPos = r.promptLen) then
        (if r.state = .done then s.setRequest idx { r with state := .faulted, code := codeContextReset } else s.faultRequest idx codeContextReset)
      else s.rewind idx ck

/-! Confirmation (R397) -/

/-- The replacement of a quarantined array, or of a core, serves with verified tiers. -/
def State.replaced (s : State) (core : Nat) (array : Option Nat) : Bool :=
  let site := 10 * rowOf core + colOf core / 11
  let byCore := s.rd Reg.NOC_SPARE_MAP_REPLACED site == colOf core % 11 && s.is Reg.NOC_SPARE_MAP_ACTIVE site
  match array with
  | some a => (s.rd Reg.CRS_ARR_SPARE_MAP_REPLACED core == a && s.is Reg.CRS_ARR_SPARE_MAP_ACTIVE core) || byCore || (s.coursePart (courseOf core)).isNone
  | none => byCore || (s.coursePart (courseOf core)).isNone

/-- The units that a core's quarantine accuses: its DTU or its data SRAM. -/
def State.quarantinedUnit (s : State) (core : Nat) (array : Option Nat) : Option (W32 × Nat) :=
  let l : List W32 := match array with | some a => [unitArray core a 0] | none => [unitCore core 2, unitCore core 5]
  l.findSome? (fun u => (SMap.find? s.fault.quarantined u.toNat).map (fun c => (u, c)))

/-- A replay on the replacement confirms the quarantine, or the unit one level up is accused. -/
def State.confirm (s : State) (core : Nat) (array : Option Nat) (passed : Bool) : State :=
  match s.quarantinedUnit core array with
  | none => s
  | some (u, cls) =>
    if !s.replaced core array then s
    else
      let peg := unitCourse (courseOf core) 0
      let s := { s with fault := { s.fault with quarantined := SMap.erase s.fault.quarantined u.toNat } }
      if passed then (s.bump Reg.FLT_QUAR_CNT_CONFIRMED).report { sender := peg, unit := u, cls := cls, confirmed := true, alone := true }
      else
        let up := if array.isSome then unitCore core 0 else unitCourse (courseOf core) 3
        (s.bump Reg.FLT_QUAR_CNT_ESCALATED).report { sender := peg, unit := up, cls := cls }

/-! Field tests (R399) -/

/-- Arrays of a course whose STATE is `a` take STATE `b`. -/
def State.arrayStates (s : State) (course a b : Nat) : State :=
  s.forEach (((coresOf course).flatMap (fun c => (List.range 9).map (fun n => arrayKey c n))).filter (fun k => s.rd Reg.CRS_ARR_STATUS_STATE k == a)) (fun s k => s.wr Reg.CRS_ARR_STATUS_STATE k b)

/-- Why a field test of a course is refused: 0 not, 1 in use without full redundancy or with a copy out of service, 2 out of
service. -/
def State.testRefusal (s : State) (course : Nat) : Nat :=
  if 100 ≤ course ∨ (s.logicalOf course).isNone ∨ s.recovery.courses.contains course then 2
  else if s.is Reg.NOC_COURSE_MAP_OUT ((s.logicalOf course).getD 0) then 2
  else match s.coursePart course with
    | none => 0
    | some p =>
      if s.is Reg.PRT_PCTRL_REDUNDANT p && !s.fault.absent.any (fun a => a / 100 == p) && (s.coursesOf p).all (fun c => !s.is Reg.NOC_COURSE_MAP_OUT c) && (s.physCoursesOf p).all (fun c => !s.recovery.courses.contains c) then 0 else 1

/-- The course leaves service: its twin serves alone. -/
def State.startFieldTest (s : State) (course : Nat) : State :=
  let s := ((s.wr Reg.FLT_FT_STATUS_STATE 0 1).wr Reg.FLT_FT_STATUS_REFUSE 0 0).wr Reg.FLT_FT_STATUS_FAILS 0 0
  let s := match s.coursePart course with
    | some p => { s with fault := { s.fault with absent := s.fault.absent ++ [100 * p + course] } }
    | none => s
  let s := s.forEach ((s.cores.filter (fun (e : Nat × CoreState) => courseOf e.1 == course)).map Prod.fst) (fun s c =>
    let s := s.forEach ((List.range 9).map (fun a => arrayKey c a)) State.abortMvm
    s.setCore c { s.core c with running := false, ending := false, inflight := [], park := none, slots := [], body := none, cur := 0, dtu := none })
  ({ s with fault := { s.fault with fieldTest := some { course := course } } }).arrayStates course 0 3

/-- The stresses are removed, and the course returns to its previous use. -/
def State.endFieldTest (s : State) : State :=
  match s.fault.fieldTest with
  | none => s
  | some t => ({ s with fault := { s.fault with fieldTest := none, absent := s.fault.absent.filter (fun a => a % 100 != t.course) } }).arrayStates t.course 3 0

/-- A write of `FLT_FT_CMD`: its settings, START and ABORT. -/
def State.fieldTestWrite (s : State) (v : Nat) : State :=
  let s := ((s.wr Reg.FLT_FT_CMD_COURSE 0 (bits v 0 7)).wr Reg.FLT_FT_CMD_VOLT 0 (bits v 9 1)).wr Reg.FLT_FT_CMD_CLK 0 (bits v 10 1)
  let s := (s.wr Reg.FLT_FT_CMD_HEAT 0 (bits v 11 1)).wr Reg.FLT_FT_CMD_PASSES 0 (bits v 12 4)
  let s := if bit v 8 then { s with fault := { s.fault with fieldTest := s.fault.fieldTest.map (fun t => { t with aborting := true }) } } else s
  if !bit v 7 ∨ s.fault.fieldTest.isSome then s
  else match s.testRefusal (bits v 0 7) with
    | 0 => s.startFieldTest (bits v 0 7)
    | n => (s.wr Reg.FLT_FT_STATUS_STATE 0 0).wr Reg.FLT_FT_STATUS_REFUSE 0 n

/-- The library passes have ended, or the test was aborted: each failing array is quarantined at once, confirmed. -/
def State.fieldTestDone (s : State) (failures : List (Nat × Nat)) : State :=
  match s.fault.fieldTest with
  | none => s
  | some t =>
    let l := failures.filter (fun (f : Nat × Nat) => courseOf f.1 == t.course)
    let s := s.forEach l.eraseDups (fun s (f : Nat × Nat) => if s.rd Reg.CRS_ARR_STATUS_STATE (arrayKey f.1 f.2) = 3 then s.quarantineArray f.1 f.2 3 0 true else s)
    let s := (s.wr Reg.FLT_FT_STATUS_STATE 0 (if !l.isEmpty then 3 else if t.aborting then 0 else 2)).wr Reg.FLT_FT_STATUS_FAILS 0 (min 65535 l.length)
    s.endFieldTest

/-! The course queues and the die-log writer (R402 to R405) -/

/-- The die level's FABRIC record takes the number of distinct units. -/
def fabricCount (n : Nat) (l : List (Nat × FaultRecord)) : List (Nat × FaultRecord) :=
  l.map (fun (e : Nat × FaultRecord) => if e.2.unit = 0 ∧ e.2.cls = 14 ∧ e.2.course = 255 then (e.1, { e.2 with aux := BitVec.ofNat 32 n }) else e)

/-- Two records that the writer merges: of one unit and class, from different courses or the die level, within a window. -/
def mergesAtDie (window : Nat) (a b : FaultRecord) : Bool :=
  sameFault a b.unit b.cls && !auditCompleted a && !auditCompleted b && (a.course != b.course || a.dieMerged) && decide (a.time ≤ b.time + window) && decide (b.time ≤ a.time + window)

/-- The merged record keeps the TIME, TAG and AUX of the earliest. -/
def mergeRecords (a b : FaultRecord) : FaultRecord :=
  let e := if a.time ≤ b.time then a else b
  { e with count := min 65535 (a.count + b.count), dieMerged := true, course := 255, quar := a.quar || b.quar, trunc := a.trunc || b.trunc, confirmed := a.confirmed || b.confirmed }

/-- Merge a record into the first held one that fits. -/
def mergeHeld (window : Nat) (c : FaultRecord) : List (Nat × FaultRecord) → Option (List (Nat × FaultRecord))
  | [] => none
  | e :: l => if mergesAtDie window e.2 c then some ((e.1, mergeRecords e.2 c) :: l) else (mergeHeld window c l).map (e :: ·)

/-- The writer takes a record: it merges it, absorbs it under the die-level FABRIC rule, or holds it for one window. -/
def State.holdRecord (s : State) (c : FaultRecord) : State :=
  let w := s.aggWindow
  let f := s.fault
  let fresh := f.dieUnits.isEmpty || decide (f.dieStart + w < s.time)
  let units := if fresh then [] else f.dieUnits
  let units := if units.contains (c.unit, c.course) then units else units ++ [(c.unit, c.course)]
  let s := { s with fault := { f with dieStart := if fresh then s.time else f.dieStart, dieUnits := units } }
  let distinct := (units.map Prod.fst).eraseDups
  let thr := s.rd Reg.FLT_AGG_CTRL_FABRIC_THR
  match mergeHeld w c s.fault.held with
  | some l => { s with fault := { s.fault with held := l } }
  | none =>
    if thr ≠ 0 ∧ thr ≤ distinct.idxOf c.unit ∧ 2 ≤ (units.map Prod.snd).eraseDups.length then
      if s.fault.held.any (fun (e : Nat × FaultRecord) => e.2.unit == 0 && e.2.cls == 14 && decide (s.time ≤ e.2.time + w)) then
        { s with fault := { s.fault with held := fabricCount distinct.length s.fault.held } }
      else
        let r : FaultRecord := { unit := 0, time := s.time, cls := 14, course := 255, count := 1, aux := BitVec.ofNat 32 distinct.length }
        ({ s with fault := { s.fault with held := s.fault.held ++ [(s.time, r)] } }).bump Reg.FLT_CNT_RECORD_COUNT 14
    else { s with fault := { s.fault with held := s.fault.held ++ [(s.time, c)] } }

/-- An aggregator's records whose window has passed go to the course queue, which holds 64, or from the die level to the writer. -/
def State.closeWindow (s : State) (a : Nat) : State :=
  let g := SMap.get {} s.fault.aggs a
  let w := s.aggWindow
  let due := g.records.filter (fun c => decide (c.time + w ≤ s.time))
  let s := s.setAgg a { g with records := g.records.filter (fun c => !decide (c.time + w ≤ s.time)) }
  s.forEach due (fun s c =>
    if a = 100 then s.holdRecord c
    else
      let q := SMap.get [] s.fault.queues a
      if 64 ≤ q.length then s.dropRecord c
      else { s with fault := { s.fault with queues := SMap.put [] s.fault.queues a (q ++ [c]) } })

/-- The course queue whose oldest record is the earliest. -/
def earliestQueue (l : SMap (List FaultRecord)) : Option (Nat × FaultRecord) :=
  l.foldl (fun (best : Option (Nat × FaultRecord)) (e : Nat × List FaultRecord) =>
    match best, e.2.head? with
    | none, some c => some (e.1, c)
    | some b, some c => if c.time < b.2.time then some (e.1, c) else some b
    | b, none => b) none

/-- The writer accepts one record from the course queues. -/
def State.acceptRecord (s : State) : State :=
  match earliestQueue s.fault.queues with
  | none => s
  | some (a, c) => ({ s with fault := { s.fault with queues := SMap.put [] s.fault.queues a ((SMap.get [] s.fault.queues a).drop 1) } }).holdRecord c

/-- One record every 5 ns: what a tick does. -/
def State.writerTick (s : State) : State := if s.time % 5 = 0 then s.acceptRecord else s

/-- The oldest held record whose further window has passed is written; a die-level FABRIC record starts a self-test (R409). -/
def State.writeHeld (s : State) : State :=
  match s.fault.held.find? (fun (e : Nat × FaultRecord) => decide (e.1 + s.aggWindow ≤ s.time)) with
  | none => s
  | some e =>
    let s := ({ s with fault := { s.fault with held := s.fault.held.erase e } }).logRecord e.2
    if e.2.cls = 14 ∧ e.2.unit = 0 then { s with fabric := { s.fabric with selfTest := true } } else s

end Sys2Proof.Machine
end

