-- ==== Sys2Proof/Machine/Board.lean ====
section
/-! DEFINITION. Machine/Board.lean: power-up, rails, clock inputs and the sideband (chapter 16, R373, R415, R439). -/
namespace Sys2Proof.Machine

/-! Power (R420, R439, R451, R452) -/

/-- The store key is of a field that power loss returns: any but NV (Table 0.4). -/
def lostAtPower (k : Nat) : Bool := match fieldOfKey k with | some f => f.survives != Survives.nv | none => false

/-- Of what stands beside the registers, only what Table 14.8 keeps stays. Local time starts again at 0. -/
def State.keepWithoutPower (s : State) : State :=
  let zl : SMap ZlState := (List.range 8).map (fun p => (p, { notice := true }))
  let down : PortState := { downSince := some 0 }
  let s := { s with time := 0, host := { ports := [(0, down), (1, down)] }, link := { ports := zl }, recovery := {}, thermal := { trips := s.thermal.trips, tripNext := s.thermal.tripNext } }
  let s := { s with fault := { library := s.fault.library, libraryNext := s.fault.libraryNext, quarantined := s.fault.quarantined }, peg := { residues := s.peg.residues, rms := s.peg.rms, wear := s.peg.wear, rowWear := s.peg.rowWear } }
  let s := { s with cal := { offsets := s.cal.offsets, temps := s.cal.temps, gen := s.cal.gen }, arrays := (s.arrays.filter (fun (e : Nat × ArrayState) => e.2.trim != 0)).map (fun (e : Nat × ArrayState) => (e.1, ({ trim := e.2.trim } : ArrayState))) }
  { s with sec := { imageA := s.sec.imageA, imageB := s.sec.imageB, trial := s.sec.trial, current := s.sec.current, other := s.sec.other }, board := { powered := false } }

/-- Power is lost: every field but NV returns, and only what Table 14.8 keeps stays. -/
def State.powerLoss (s : State) : State :=
  let s := (((s.endFieldTest).loseLoads).loseCopies).loseWork
  let s := ((s.loseStacks).loseHosts false).wipeCores (fun _ => true)
  State.keepWithoutPower { s with regs := s.regs.filter (fun e => !lostAtPower e.1) }

/-- VDD_AON falls below 1.62 V: the device is held in power-on reset. -/
def execAonPowerOnReset (s : State) : Host.Outcome State Fault Refusal := .next s.powerLoss

/-- The configuration of a copy is in force, with its trims and offsets. -/
def State.loadCopy (s : State) (c : ConfigCopy) : State :=
  let s := s.loadFields c
  let ks := (s.arrays.map Prod.fst ++ c.trims.map Prod.fst).eraseDups
  let s := s.forEach ks (fun s k => s.setArray k { s.array k with trim := SMap.get 0 c.trims k })
  let s := { s with cal := { s.cal with offsets := c.offsets }, peg := { s.peg with rms := c.rms } }
  (s.wr Reg.CAL_SET_GEN 0 (if s.cal.gen = 0 then s.rd Reg.CAL_SET_GEN else s.cal.gen)).showProvisioned

/-- The device takes the valid copy with the higher number; none is valid: no configuration (R439). -/
def State.takeCopy (s : State) (currentOk otherOk : Bool) : Option State :=
  let c := { s.sec.current with valid := currentOk }
  let o := s.sec.other.map (fun (c : ConfigCopy) => { c with valid := c.valid && otherOk })
  match currentOk, o with
  | true, _ => some ((({ s with sec := { s.sec with current := c, other := o } }).loadCopy c).wr Reg.SEC_GEN_STATUS_PREV_VALID 0 (o.elim 0 (fun (c : ConfigCopy) => c.valid.toNat)))
  | false, some x =>
    if x.valid then
      let s := ({ s with sec := { s.sec with current := x, other := some c } }).loadCopy x
      let s := (s.wr Reg.SEC_GEN_GEN 0 x.gen).wr Reg.SEC_GEN_STATUS_COPY 0 (1 - s.rd Reg.SEC_GEN_STATUS_COPY)
      some ((s.wr Reg.SEC_GEN_STATUS_PREV_VALID 0 0).wr Reg.SEC_GEN_STATUS_TWO_PARTY 0 x.two.toNat)
    else none
  | false, none => none

/-- Power-up: what the boot finds in the system tiers decides the images and the configuration; with an unacknowledged trip
record the device first cools (R373, R415, R425, R439, R452, R459). -/
def State.powerUp (s : State) (f : BootFacts) : State :=
  let s := s.powerLoss
  let s := { s with board := { powered := true, straps := f.straps } }
  let s := ((s.wr Reg.TRM_CLKIN_XTAL_OK 0 1).wr Reg.TRM_CLKIN_REFSYS_OK 0 1).wr Reg.TRM_CLKIN_PCIE_OK 0 3
  let s := (s.noteRung 5 11 0 0).bump Reg.FLT_RST_CNT_PWR_COUNT
  let s := { s with sec := { s.sec with imageA := { s.sec.imageA with valid := f.imageA }, imageB := { s.sec.imageB with valid := f.imageB } } }
  let a := s.rd Reg.SEC_GEN_STATUS_COPY = 0
  match s.takeCopy (if a then f.copyA else f.copyB) (if a then f.copyB else f.copyA) with
  | none => s.askPowerCycle
  | some s => ({ s with thermal := { s.thermal with cooling := s.tripPending } }).boot

def execPowerUp (facts : BootFacts) (s : State) : Host.Outcome State Fault Refusal := .next (s.powerUp facts)

/-! Rails (R449, R450) -/

/-- A rail's monitor is armed: the rail is required. VDD_AON has none; the stacks' rails are required while STK_EN is high and they
are up. -/
def State.railArmed (s : State) (rail : Nat) : Bool :=
  s.board.powered && rail != 7 && decide (rail < 9) && (!(rail == 3 || rail == 4) || (s.board.stkEn && s.board.stkRise.isNone))

/-- Every step in flight is step-aborted (R162). -/
def State.abortAll (s : State) : State := s.forEach (List.range 16) State.abortPartition

/-- What a rail's excursion does (R450). -/
def State.railAction (s : State) (rail : Nat) : State :=
  match rail with
  | 0 | 1 | 3 | 4 => s.abortAll
  | 5 => s.forEach (List.range 8) (fun s p => if s.zlUp p then s.loseLink p 4 0 true else if s.zlMode p = 0 then s else s.zlDown p 2 0)
  | 6 => (s.portReset 0 3).portReset 1 3
  | 8 => if s.rd Reg.CAL_STATUS_STATE = 1 then s.calFail 8 else s
  | _ => s

/-- A rail leaves its window: it is reported against the Capo and counted, and the rail's action is taken. -/
def State.railExcursion (s : State) (rail : Nat) (tooHigh : Bool) : State :=
  if !s.railArmed rail then s
  else
    let s := (s.bump (if tooHigh then Reg.TRM_RAIL_CNT_OV else Reg.TRM_RAIL_CNT_UV) rail).wr (if tooHigh then Reg.TRM_RAIL_OV else Reg.TRM_RAIL_UV) rail 1
    let s := s.report { sender := unitDie 5, unit := unitDie 5, cls := 11 }
    let s := { s with board := { s.board with excursions := SMap.insert s.board.excursions rail s.time } }
    s.railAction rail

def execRailExcursion (rail : Rail) (tooHigh : Bool) (s : State) : Host.Outcome State Fault Refusal := .next (s.railExcursion rail tooHigh)

/-- The rail has stayed in its window for 100 µs: issue or programming resumes. -/
def execRailRecovery (rail : Rail) (s : State) : Host.Outcome State Fault Refusal :=
  .next (
    match SMap.find? s.board.excursions rail with
    | none => s
    | some t =>
      if t + 100000 ≤ s.time then
        let s := { s with board := { s.board with excursions := SMap.erase s.board.excursions rail } }
        (s.wr Reg.TRM_RAIL_UV rail 0).wr Reg.TRM_RAIL_OV rail 0
      else s)

/-- An excursion has lasted more than 10 ms: the device asks for a power cycle. -/
def execRailExcursionTimeout (rail : Rail) (s : State) : Host.Outcome State Fault Refusal :=
  .next (
    match SMap.find? s.board.excursions rail with
    | some t => if t + 10000000 < s.time then s.askPowerCycle else s
    | none => s)

/-- The stacks' rails are not in tolerance 20 ms after STK_EN rose: SUPPLY is reported, and the device stays in RESTING. -/
def execStackRailTimeout (s : State) : Host.Outcome State Fault Refusal :=
  .next (
    match s.board.stkRise with
    | some t =>
      if s.rd Reg.TRM_PSTATE_STATE = 5 ∧ t + 20000000 ≤ s.time then
        let s := (s.wr Reg.TRM_PSTATE_STATE 0 4).report { sender := unitDie 5, unit := unitDie 5, cls := 11 }
        { s with board := { s.board with stkEn := false, stkRise := none } }
      else s
    | none => s)

/-! Clock inputs (R455) -/

/-- The AON domain runs on its internal oscillator: SUPPLY is reported against clock generation. -/
def execCrystalLoss (s : State) : Host.Outcome State Fault Refusal :=
  .next (
    if !s.board.powered then s
    else ((s.wr Reg.TRM_CLKIN_XTAL_OK 0 0).wr Reg.TRM_CLKIN_FALLBACK 0 1).report { sender := unitDie 6, unit := unitDie 6, cls := 11 })

/-- The AON domain runs from the crystal again. -/
def execCrystalReturn (s : State) : Host.Outcome State Fault Refusal :=
  .next (if s.board.powered then s.wr Reg.TRM_CLKIN_XTAL_OK 0 1 else s)

/-- REFCLK_SYS is lost: the device holds itself in chip reset. The manual names no CAUSE for it. -/
def execRefclkSysLoss (s : State) : Host.Outcome State Fault Refusal :=
  .next (
    if !s.board.powered ∨ s.recovery.refLost then s
    else
      let (n, s) := (s.wr Reg.TRM_CLKIN_REFSYS_OK 0 0).draw
      { s with recovery := { s.recovery with refLost := true } }.holdChip ((Config.free32 n).toNat % 16))

/-- REFCLK_SYS has been stable for 1 ms: the chip reset completes, unless DEV_RESET# holds it. -/
def execRefclkSysRestore (s : State) : Host.Outcome State Fault Refusal :=
  .next (
    if !s.recovery.refLost then s
    else
      let s := { s with recovery := { s.recovery with refLost := false } }.wr Reg.TRM_CLKIN_REFSYS_OK 0 1
      if s.recovery.devLow then s else s.freeChip)

/-- A port's REFCLK is lost: the port loses its link, a port reset. -/
def execPcieRefclkLoss (port : Fin 2) (s : State) : Host.Outcome State Fault Refusal :=
  .next (
    if !s.board.powered then s
    else (s.wr Reg.TRM_CLKIN_PCIE_OK 0 (setBit (s.rd Reg.TRM_CLKIN_PCIE_OK) port false)).portReset port 3)

/-! The sideband (R459) -/

/-- The static address. -/
def State.staticAddress (s : State) : BitVec 7 := BitVec.ofNat 7 (0x20 + s.board.straps.toNat)

/-- ENTDAA gives an address; SETAASA takes the static one. The SMBus fallback ends. -/
def execDynamicAddressAssignment (assigned : Option (BitVec 7)) (s : State) : Host.Outcome State Fault Refusal :=
  .next (
    if s.board.powered then { s with board := { s.board with dynamic := some (assigned.getD s.staticAddress) } } else s)

end Sys2Proof.Machine
end

