-- ==== Sys2Proof/Machine/Clock.lean ====
section
/-! DEFINITION. Machine/Clock.lean: holds of commanded stops (R309). -/
namespace Sys2Proof.Machine

/-- A write of `CLK_KEEP.HOLD`: a hold that stands keeps its time; one that ends lets deferred stops proceed. -/
def State.clockHold (s : State) (port : Nat) (hold : Bool) : State :=
  if hold then
    if s.is Reg.CLK_KEEP_HOLD port then s
    else
      let s := s.wr Reg.CLK_KEEP_HOLD port 1
      { s with mail := { s.mail with holdSince := SMap.insert s.mail.holdSince port s.time } }
  else
    let s := s.wr Reg.CLK_KEEP_HOLD port 0
    ({ s with mail := { s.mail with holdSince := SMap.erase s.mail.holdSince port } }).releaseStops

/-- A port's PF writes its own hold. -/
def execClockHold (port : Fin 2) (hold : Bool) (s : State) : Host.Outcome State Fault Refusal :=
  .next (s.access (.fn ⟨port, 0⟩) 0x150020 (some (BitVec.ofNat 32 hold.toNat)) (fun s => s.clockHold port hold))

/-- 100 ms after it was set a hold lapses. -/
def execHoldLapse (port : Fin 2) (s : State) : Host.Outcome State Fault Refusal :=
  .next (
    match SMap.find? s.mail.holdSince port with
    | some t =>
      if s.is Reg.CLK_KEEP_HOLD port ∧ t + 100000000 ≤ s.time then (s.wr Reg.CLK_KEEP_LAPSED port 1).clockHold port false else s
    | none => s)

end Sys2Proof.Machine
end

