-- ==== Sys2Proof/Machine/Fabric.lean ====
section
/-! DEFINITION. Machine/Fabric.lean: the commands of the on-die fabric (chapter 5). -/
namespace Sys2Proof.Machine

/-- A flit arrives at a router: its parity is checked, and it is forwarded, replicated, combined or delivered. -/
def execFlitArrive (router : Fin 11100) (input : RouterPort) (flit : Flit) (parityOk adderOk credit : Bool) (s : State) : Host.Outcome State Fault Refusal :=
  .next (
    if !parityOk then s.parityError router input
    else
      let q := s.router router
      let s := s.setRouter router { q with retries := SMap.put 0 q.retries (portCode input) 0 }
      s.routeFlit router (portCode input) flit adderOk credit)

/-- A reduction flit reaches its destination router. -/
def execReductionContribution (core : Core) (flit : Flit) (adderOk : Bool) (s : State) : Host.Outcome State Fault Refusal :=
  .next (if isReduction flit then s.consumePoint core flit.tag (fun s => s.contributeAt core flit adderOk) else s)

/-- An ARRIVE flit reaches an express router: its root counts it, another router sends it on. -/
def execBarrierArrive (course : Course) (flit : Flit) (s : State) : Host.Outcome State Fault Refusal :=
  .next (
    if !isArrive flit then s
    else
      let (x, y, _, _) := routeRect flit
      let root := s.gate (s.rd Reg.NOC_COURSE_MAP_PHYS (10 * (y / 10) + x / 10))
      if root = course.val then s.deliverExpress course flit
      else s.routeFlit (expressRouter course) 5 flit true true)

/-- A RELEASE flit reaches a participant. -/
def execBarrierRelease (core : Core) (tag : W64) (number : Fin 4096) (s : State) : Host.Outcome State Fault Refusal :=
  .next (s.consumePoint core tag (fun s => s.releaseAt core tag number))

/-- A FLAG_ADD flit reaches its core. -/
def execFlagAddArrive (core : Core) (flag : Fin 64) (value : W16) (tag : W64) (s : State) : Host.Outcome State Fault Refusal :=
  .next (s.consumePoint core tag (fun s => s.flagAt core flag value.toNat))

/-- The management firmware changes a map (R192). -/
def execMapUpdate (update : MapUpdate) (s : State) : Host.Outcome State Fault Refusal := .next (s.updateMap update)

/-- Every router has applied the update (R192). -/
def execMapApplied (s : State) : Host.Outcome State Fault Refusal := .next s.mapApplied

/-- A router input passed nothing for 4,096 fabric clocks while data waited: its link fails (R406). -/
def execLinkWatchdog (router : Fin 11100) (input : RouterPort) (s : State) : Host.Outcome State Fault Refusal :=
  let (from_, port) := senderOf router input
  .next (s.failLink from_ port router)

/-- A read of `NOC_BAR_MAX` returns the longest die-wide barrier and clears it (R6). -/
def State.readBarMax (s : State) (who : Requester) : State :=
  (s.emit (.readData (reqCode who) (s.rd Reg.NOC_BAR_MAX_CLOCKS))).wr Reg.NOC_BAR_MAX_CLOCKS 0 0

def execBarMaxRead (who : Requester) (s : State) : Host.Outcome State Fault Refusal :=
  .next (s.access who 0xC003C none (fun s => s.readBarMax who))

end Sys2Proof.Machine
end

