-- ==== Sys2Proof/Machine/Host.lean ====
section
/-! DEFINITION. Machine/Host.lean: the commands of the host interface (chapter 8). -/
namespace Sys2Proof.Machine

/-! Reset of a port or a function -/

def resetCode : PortResetCause → Nat
  | .perst => 1 | .hotReset => 2 | .dlDown => 3

/-- PERST#, a hot reset or DL_Down of one port (R274). -/
def execPortReset (port : Fin 2) (cause : PortResetCause) (s : State) : Host.Outcome State Fault Refusal :=
  .next (s.portReset port (resetCode cause))

/-- A function level reset begins (R275). -/
def execFlr (fn : PciFn) (s : State) : Host.Outcome State Fault Refusal := .next (s.flr fn.port fn.idx)

/-- The FLR completes: the function serves from its configuration reset state, as its host then configures it. -/
def execFlrComplete (fn : PciFn) (cfg : FnConfig) (s : State) : Host.Outcome State Fault Refusal :=
  .next (
    if !(s.fnState (fnCode fn)).flr then s
    else
      let s := if fn.idx.val = 0 then s.forEach (portCodes fn.port) (fun s c => s.setFnState c {}) else s
      s.setFnState (fnCode fn) { memory := cfg.memory, ats := cfg.ats, pri := cfg.pri })

/-- Entry of a function to D3hot stops its rings as if STOP had been written to each (R263). -/
def execD3hotEntry (fn : PciFn) (s : State) : Host.Outcome State Fault Refusal :=
  .next (s.forEach (s.ringsOf (fun c => c == fnCode fn)) State.stopRing)

/-- A port trains to DL_Up, and its host configures its functions (R262, R274). -/
def execPcieLinkUp (port : Fin 2) (rate : Fin 6) (width : Fin 17) (ide : Bool) (cfg : PortConfig) (s : State) : Host.Outcome State Fault Refusal :=
  .next (
    if rate.val = 0 ∨ width.val = 0 ∨ !s.board.powered then s
    else
      let p := port.val
      let s := s.wr Reg.TRM_CLKIN_PCIE_OK 0 (setBit (s.rd Reg.TRM_CLKIN_PCIE_OK) p true)
      let s := ((((s.wr Reg.HIF_PORT_STATUS_RATE p rate).wr Reg.HIF_PORT_STATUS_WIDTH p width).wr Reg.HIF_PORT_STATUS_DL_UP p 1).wr
        Reg.HIF_PORT_STATUS_DEGRADED p (decide (rate.val < 5) || decide (width.val < 16)).toNat).wr Reg.HIF_PORT_STATUS_IDE p ide.toNat
      let s := s.setPortState p { s.portState p with downSince := none, bar4 := cfg.bar4 }
      s.forEach (List.range 17) (fun s i =>
        s.setFnState (32 * p + i) { memory := cfg.memory.getLsbD i, ats := cfg.ats.getLsbD i, pri := cfg.pri.getLsbD i, flr := (s.fnState (32 * p + i)).flr }))

/-! Ownership -/

def execOwnClaim (who : Requester) (nonce : W32) (s : State) : Host.Outcome State Fault Refusal :=
  .next (s.access who 0x20 (some nonce) (fun s => s.claim who nonce.toNat))

/-- OFFER of a VF is a write to its read-only view (Table 8.4). -/
def execHandoverOffer (who : Requester) (s : State) : Host.Outcome State Fault Refusal :=
  .next (s.access who 0x2C (some 1) (fun s => if isVf who then s else s.owned who 0x2C State.offer))

def execHandoverAccept (who : Requester) (nonce : W32) (s : State) : Host.Outcome State Fault Refusal :=
  .next (s.access who 0x30 (some nonce) (fun s => s.accept who nonce.toNat))

/-- More than 100 ms have passed without an ACCEPT (R271). -/
def execHandoverExpiry (s : State) : Host.Outcome State Fault Refusal :=
  .next (if s.is Reg.HIF_OWN_STATUS_OFFER && s.offerExpired then s.endOffer true else s)

/-! Rings -/

/-- A write of `RCB_CFG` with ENABLE = 1 (R279). -/
def execRingEnable (who : Requester) (ring : Ring) (s : State) : Host.Outcome State Fault Refusal :=
  .next (s.access who (0x20004 + 64 * ring) (some (s.cfgWord ring 1)) (fun s => s.ringReg who ring 4 (fun s => s.ringSwitch ring 1)))

/-- A write of `RCB_CFG` with ENABLE = 0 (R284). -/
def execRingDisable (who : Requester) (ring : Ring) (s : State) : Host.Outcome State Fault Refusal :=
  .next (s.access who (0x20004 + 64 * ring) (some (s.cfgWord ring 0)) (fun s => s.ringReg who ring 4 (fun s => s.ringSwitch ring 0)))

/-- A write of `RCB_CTRL.STOP` (R284). -/
def execRingStop (who : Requester) (ring : Ring) (s : State) : Host.Outcome State Fault Refusal :=
  .next (s.access who (0x2002C + 64 * ring) (some 1) (fun s => s.ringReg who ring 0x2C (fun s => s.ringCtrl ring 1)))

/-- A write of `RCB_CTRL.RESUME`. -/
def execRingResume (who : Requester) (ring : Ring) (s : State) : Host.Outcome State Fault Refusal :=
  .next (s.access who (0x2002C + 64 * ring) (some 2) (fun s => s.ringReg who ring 0x2C (fun s => s.ringCtrl ring 2)))

/-- A write of a ring's `DB_INDEX` (R280, R281). -/
def execDbIndex (fn : PciFn) (ring : Ring) (value : W32) (s : State) : Host.Outcome State Fault Refusal :=
  .next (s.doorbellAccess fn (4096 * ring) value (fun s => s.doorbell fn ring (4096 * ring) (fun s => s.newIndex ring value.toNat)))

/-- A write of a ring's `DB_ARM` (R283). -/
def execDbArm (fn : PciFn) (ring : Ring) (value : W32) (s : State) : Host.Outcome State Fault Refusal :=
  .next (s.doorbellAccess fn (4096 * ring + 8) value (fun s => s.doorbell fn ring (4096 * ring + 8) (fun s => s.arm ring value.toNat)))

/-- The coalescing timer of an armed device-producer ring expires (R283). -/
def execCoalesceTimer (ring : Ring) (s : State) : Host.Outcome State Fault Refusal := .next (s.ringSignal ring)

/-! DMA -/

def execCopyIn (ring : Ring) (desc : BitVec 256) (s : State) : Host.Outcome State Fault Refusal := .next (s.dmaStart ring 1 desc)
def execCopyOut (ring : Ring) (desc : BitVec 256) (s : State) : Host.Outcome State Fault Refusal := .next (s.dmaStart ring 2 desc)
def execZero (ring : Ring) (desc : BitVec 256) (s : State) : Host.Outcome State Fault Refusal := .next (s.dmaStart ring 3 desc)

/-- An engine finishes a piece of a ring's transfer (R291). -/
def execDmaPiece (ring : Ring) (hostData : List Byte) (s : State) : Host.Outcome State Fault Refusal := .next (s.dmaPiece ring hostData)

def execPageRequestResponse (ring : Ring) (code : PrsCode) (s : State) : Host.Outcome State Fault Refusal := .next (s.pageResponse ring code)

def execPageRequestTimeout (ring : Ring) (s : State) : Host.Outcome State Fault Refusal := .next (s.pageExpired ring)

def execAtsInvalidation (port : Fin 2) (page : BitVec 52) (pages : Nat) (s : State) : Host.Outcome State Fault Refusal :=
  .next (s.atsInvalidate port page.toNat pages)

def execAtsTranslationCompletion (ring : Ring) (readable writable : Bool) (s : State) : Host.Outcome State Fault Refusal :=
  .next (s.translated ring readable writable)

/-- A write or read through BAR4 (R268). -/
def execBar4Access (fn : PciFn) (offset : BitVec 36) (access : WindowAccess) (s : State) : Host.Outcome State Fault Refusal :=
  .next (s.bar4 fn offset.toNat access)

end Sys2Proof.Machine
end

