-- ==== Sys2Proof/Machine/Integrity.lean ====
section
/-! DEFINITION. Machine/Integrity.lean: the commands of checking and fault reporting (chapter 13). -/
namespace Sys2Proof.Machine

/-- The patrol scrub reads a location of a powered stack. -/
def execPatrolScrub (address : BitVec 39) (outcome : EccOutcome) (s : State) : Host.Outcome State Fault Refusal :=
  .next (if stackSize ≤ address.toNat ∨ s.resting ∨ !s.board.powered then s else s.stackError address.toNat outcome)

/-- Both copies of a redundant stream have come (R388). -/
def execRedundancyCompare (core : Core) (chan : Fin 4096) (producer twinProducer : W32) (analog : Bool) (s : State) : Host.Outcome State Fault Refusal :=
  .next (s.compareCopies core chan producer twinProducer analog)

/-- The twin copy of a stream is late (R418). -/
def execTwinWaitExpiry (core : Core) (chan : Fin 4096) (late : Core) (s : State) : Host.Outcome State Fault Refusal :=
  .next (s.twinExpiry core chan late)

/-- The Peg engine compares a sample (R390). -/
def execAuditComparison (core : Core) (instr : Fin 2048) (expected : List Nat) (s : State) : Host.Outcome State Fault Refusal :=
  .next (s.compareSample core instr expected)

/-- A sample is not compared within 64 passes: it is abandoned, and taken again in the next pass that executes it (R390). -/
def execAuditAbandon (core : Core) (instr : Fin 2048) (s : State) : Host.Outcome State Fault Refusal :=
  .next (
    let x := s.auditSample core instr
    if !x.waiting ∨ s.passNow core < x.pass + 64 then s
    else (s.setSample core instr { x with waiting := false, resample := true, codes := [], rows := [], conversions := 0 }).bump Reg.FLT_AUDIT_ABANDON_COUNT)

/-- A stand-alone audit (R391). -/
def execStandAloneAudit (core : Core) (instr : Fin 2048) (codes expected : List Nat) (s : State) : Host.Outcome State Fault Refusal :=
  .next (s.standAlone core instr codes expected)

/-- The admitting device rolls a named request back (R393). -/
def execAuditRollback (part : Part) (context : W16) (version : W16) (window : Nat) (unit : W32) (s : State) : Host.Outcome State Fault Refusal :=
  .next (s.rollBack part context.toNat version.toNat window unit)

/-- A quarantine is confirmed or escalated (R397). -/
def execConfirmation (core : Core) (array : Option (Fin 9)) (passed : Bool) (s : State) : Host.Outcome State Fault Refusal :=
  .next (s.confirm core (array.map (fun a => a.val)) passed)

/-- `FLT_FT_CMD` written with START. -/
def execFieldTestStart (who : Requester) (value : W32) (s : State) : Host.Outcome State Fault Refusal :=
  let v := setBit value.toNat 7 true
  .next (s.ownedAccess who 0x130060 (BitVec.ofNat 32 v) (fun s => s.fieldTestWrite v))

/-- `FLT_FT_CMD` written with ABORT. -/
def execFieldTestAbort (who : Requester) (value : W32) (s : State) : Host.Outcome State Fault Refusal :=
  let v := setBit value.toNat 8 true
  .next (s.ownedAccess who 0x130060 (BitVec.ofNat 32 v) (fun s => s.fieldTestWrite v))

/-- The field test ends (R399). -/
def execFieldTestDone (failures : List (Core × Fin 9)) (s : State) : Host.Outcome State Fault Refusal :=
  .next (s.fieldTestDone (failures.map (fun f => (f.1.val, f.2.val))))

/-- A report reaches its aggregator (R400, R402). A CHECK_ANALOG report that accuses a tier names it to its Peg engine (R338). -/
def execFaultReport (sender : W32) (unit : W32) (cls : Fin 16) (tag : W64) (s : State) : Host.Outcome State Fault Refusal :=
  .next (
    let s := s.report { sender := sender, unit := unit, cls := cls, tag := tag }
    let row := bits unit.toNat 21 7
    let col := bits unit.toNat 14 7
    let a := bits unit.toNat 10 4
    if cls.val = 3 ∧ unitKind unit = 3 ∧ row < 100 ∧ col < 110 ∧ a < 9 then s.nameTier (arrayKey (110 * row + col) a) (bits unit.toNat 3 7) else s)

/-- A merge window closes (R402). -/
def execAggregationWindowClose (agg : Fin 101) (s : State) : Host.Outcome State Fault Refusal := .next (s.closeWindow agg)

/-- The die-log writer accepts a record and writes one that is due (R402 to R405). -/
def execDieLogWrite (s : State) : Host.Outcome State Fault Refusal := .next s.acceptRecord.writeHeld

/-- A write of `FLT_LOG_RD`, accepted only forward within the records held (R404). -/
def State.logRead (s : State) (index : Nat) : State :=
  let moved := (index + 2 ^ 32 - s.rd Reg.FLT_LOG_RD_INDEX) % 2 ^ 32
  if moved ≤ s.logHeld then s.wr Reg.FLT_LOG_RD_INDEX 0 index else s

def execLogRdWrite (who : Requester) (index : W32) (s : State) : Host.Outcome State Fault Refusal :=
  .next (s.ownedAccess who 0x130008 index (fun s => s.logRead index.toNat))

/-- `FLT_FFC_CLR`: the first-failure slots are empty (R405). -/
def State.clearFirst (s : State) : State :=
  (({ s with fault := { s.fault with ffc := [], ffcLast := none } }).wr Reg.FLT_STATUS_FFC_COUNT 0 0).wr Reg.FLT_STATUS_FFC_LAST 0 0

def execFfcClear (who : Requester) (s : State) : Host.Outcome State Fault Refusal :=
  .next (s.ownedAccess who 0x13002C 1 State.clearFirst)

end Sys2Proof.Machine
end

