-- ==== Sys2Proof/Machine/Links.lean ====
section
/-! DEFINITION. Machine/Links.lean: the commands of the ZL ports: training, hellos, lanes, loss of a partner, messages
(chapter 10). -/
namespace Sys2Proof.Machine

/-! Training (R318) -/

/-- Lanes of a mask that are allowed to train. -/
def State.laneMask (s : State) (p : Nat) (mask : BitVec 4) : Nat := (mask &&& BitVec.ofNat 4 (s.rd Reg.LNK_CTRL_LANE_EN p)).toNat

/-- Training's time limit in ns: 250 ms electrical, 500 ms optical. -/
def trainingLimit (optical : Bool) : Nat := if optical then 500000000 else 250000000

/-- Signal stands on enough lanes of an enabled port that is DOWN: training starts. -/
def execTrainingStart (port : ZlPort) (signal : BitVec 4) (s : State) : Host.Outcome State Fault Refusal :=
  .next (
    if s.zlMode port = 0 ∧ !s.resting ∧ s.is Reg.LNK_CTRL_ENABLE port ∧ s.lanesEnough port (s.laneMask port signal) ∧ (s.zl port).retryAt ≤ s.time then s.retrainPort port
    else s)

/-- Enough lanes lock within the time limit: the FULL hello goes out. -/
def execTrainingDone (port : ZlPort) (locked : BitVec 4) (s : State) : Host.Outcome State Fault Refusal :=
  .next (
    let m := s.laneMask port locked
    if s.zlMode port = 1 ∧ s.lanesEnough port m ∧ s.time ≤ (s.zl port).since + trainingLimit (s.zl port).optical then
      ((s.wr Reg.LNK_STATUS_LANES port m).setZlMode port 2 false).sendFullHello port
    else s)

/-- Training exceeds its time limit. -/
def execTrainingTimeout (port : ZlPort) (s : State) : Host.Outcome State Fault Refusal :=
  .next (
    if s.zlMode port = 1 ∧ (s.zl port).since + trainingLimit (s.zl port).optical ≤ s.time then s.zlDown port 2 1000000000
    else s)

/-! Hellos (R318, R319) -/

/-- No usable FULL hello in HELLO: LINK_DOWN is reported, and the port tries again after 1 s. -/
def State.helloFailed (s : State) (p : Nat) : State := (s.reportLinkDown p).zlDown p 3 1000000000

/-- The partner's FULL hello arrives. One without a nonce of this port, before any hello has verified, only brings the
partner's nonce, and is answered. -/
def execFullHello (port : ZlPort) (hello : Hello) (signed : Bool) (s : State) : Host.Outcome State Fault Refusal :=
  .next (
    if s.zlMode port < 2 then s
    else
      let s := s.zlTake port
      if signed && hello.nonce == 0 && s.zlMode port == 2 && (s.zl port).peerNonce == 0 then
        (s.setZl port { s.zl port with peerNonce := hello.own }).sendFullHello port
      else if signed && hello.nonce == (s.zl port).nonce then s.acceptHello port hello
      else
        let s := s.bump Reg.LNK_CNT_HELLO_BAD_COUNT port
        if s.zlMode port = 2 then s.helloFailed port else s)

/-- No verified FULL hello within 100 ms. -/
def execHelloTimeout (port : ZlPort) (s : State) : Host.Outcome State Fault Refusal :=
  .next (if s.zlMode port = 2 ∧ (s.zl port).since + 100000000 ≤ s.time then s.helloFailed port else s)

/-- A SHORT hello arrives: another digest than the last verified FULL body's makes the port ask for a FULL hello. -/
def execShortHello (port : ZlPort) (digest : W128) (s : State) : Host.Outcome State Fault Refusal :=
  .next (
    if s.zlMode port < 2 then s
    else
      let s := s.zlTake port
      match (s.zl port).partner with
      | some h => if helloDigest h = digest then s else s.zlLink port linkHelloOp 0 0
      | none => s.zlLink port linkHelloOp 0 0)

/-- HELLO_REQ arrives. -/
def execHelloReq (port : ZlPort) (s : State) : Host.Outcome State Fault Refusal :=
  .next (if s.zlMode port < 2 then s else (s.zlTake port).sendFullHello port)

/-- The hello timer: a FULL hello when its body has changed or a second has passed, else a SHORT hello after 1 ms. -/
def execHelloTimer (port : ZlPort) (s : State) : Host.Outcome State Fault Refusal :=
  .next (
    if s.zlMode port < 2 then s
    else
      let z := s.zl port
      match z.sent with
      | none => s.sendFullHello port
      | some h =>
        if { s.helloBody port h.own with nonce := h.nonce } ≠ h ∨ z.lastFull + 1000000000 ≤ s.time then s.sendFullHello port
        else if z.lastShort + 1000000 ≤ s.time then s.sendShortHello port h
        else s)

/-! Replay and lanes (R314, R322) -/

/-- A LINK REPLAY arrives: the flits from the SEQ it names go out again; the eighth in a row for one SEQ retrains. -/
def execLinkReplay (port : ZlPort) (seq : BitVec 12) (s : State) : Host.Outcome State Fault Refusal :=
  .next (
    if s.zlMode port < 2 then s
    else
      let s := s.zlTake port
      let z := s.zl port
      let n := if z.replaySeq = some seq.toNat then z.replays + 1 else 1
      let s := s.setZl port { z with replaySeq := some seq.toNat, replays := n }
      if 8 ≤ n then
        let s := s.report { sender := unitZl port 4, unit := unitZl port 4, cls := 13 }
        (s.wr Reg.LNK_STATUS_LAST_DOWN port 6).retrainPort port
      else s.zlResend port seq.toNat)

/-- A lane in use fails here: LANE_DROP goes out on the others. -/
def execLaneFail (port : ZlPort) (lane : Fin 4) (s : State) : Host.Outcome State Fault Refusal :=
  .next (
    if s.zlUp port && bit (s.zlLanes port) lane then (s.zlLink port linkDropOp (s.zl port).rxSeq lane).dropLane port lane
    else s)

/-- LANE_DROP arrives: this end stops using the lane too, and replays from the SEQ it names. -/
def execLaneDrop (port : ZlPort) (lane : Fin 4) (seq : BitVec 12) (s : State) : Host.Outcome State Fault Refusal :=
  .next (
    if !s.zlUp port then s
    else
      let s := s.zlTake port
      let s := if bit (s.zlLanes port) lane then s.dropLane port lane else s
      if s.zlUp port then s.zlResend port seq.toNat else s)

/-! Loss of a partner (R321, R323) -/

/-- GOODBYE arrives. Together with a loss of lock it is one partner loss, and LAST_DOWN shows 5 (Table 10.7). -/
def execGoodbye (port : ZlPort) (s : State) : Host.Outcome State Fault Refusal :=
  .next (
    if s.zlUp port then s.loseLink port 5 0 true
    else if s.zlMode port = 0 then (if s.rd Reg.LNK_STATUS_LAST_DOWN port = 4 ∧ (s.zl port).since = s.time then s.wr Reg.LNK_STATUS_LAST_DOWN port 5 else s)
    else s.zlDown port 5 0)

/-- Every lane has lost lock, or no good flit came for 8 µs. It takes precedence over a replay limit reached at once with it
(Table 10.7). -/
def execPartnerLoss (port : ZlPort) (s : State) : Host.Outcome State Fault Refusal :=
  .next (
    if s.zlUp port ∨ (s.zlMode port = 1 ∧ s.rd Reg.LNK_STATUS_LAST_DOWN port = 6 ∧ (s.zl port).since = s.time) then s.loseLink port 4 0 true
    else s)

/-- The word of `LNK_CTRL` as it stands. -/
def State.lnkCtrl (s : State) (p : Nat) : Nat :=
  s.rd Reg.LNK_CTRL_ENABLE p + 2 * s.rd Reg.LNK_CTRL_MODE p + 4 * s.rd Reg.LNK_CTRL_MIN_LANES p + 256 * s.rd Reg.LNK_CTRL_LANE_EN p

/-- RETRAIN at a port that is UP. -/
def State.retrainWrite (s : State) (p : Nat) : State := if s.zlUp p then s.retrainPort p else s

/-- ENABLE goes to 0: GOODBYE, and the port stays DOWN. -/
def State.disablePort (s : State) (p : Nat) : State :=
  let s := (s.wr Reg.LNK_CTRL_ENABLE p 0).noteNv
  if s.zlMode p = 0 then s.wr Reg.LNK_STATUS_LAST_DOWN p 1
  else if s.zlUp p then (s.zlLink p linkGoodbyeOp 0 0).loseLink p 1 0 false
  else (s.zlLink p linkGoodbyeOp 0 0).zlDown p 1 0

/-- A write of `LNK_CTRL.RETRAIN` = 1. -/
def execRetrain (who : Requester) (port : ZlPort) (s : State) : Host.Outcome State Fault Refusal :=
  .next (s.ownedAccess who (lnkOffset port 0) (BitVec.ofNat 32 (s.lnkCtrl port + 16)) (fun s => s.retrainWrite port))

/-- A write of `LNK_CTRL.ENABLE` = 0. -/
def execPortDisable (who : Requester) (port : ZlPort) (s : State) : Host.Outcome State Fault Refusal :=
  .next (s.ownedAccess who (lnkOffset port 0) (BitVec.ofNat 32 (s.lnkCtrl port / 2 * 2)) (fun s => s.disablePort port))

/-! Messages (R314, R315, R320, R325, R327) -/

/-- The ACK and the credits that a flit carries. -/
def State.takeReturns (s : State) (p : Nat) (f : ZlFlit) : State :=
  let z := s.zl p
  let rest := match z.replay.findIdx? (fun x => x.seq == f.ack.toNat) with
    | some i => z.replay.drop (i + 1)
    | none => z.replay
  let c := f.cvc.toNat
  let s := s.setZl p { z with replay := rest, credits := SMap.put 0 z.credits c (SMap.get 0 z.credits c - f.cred.toNat) }
  s.zlDrain (z.queue.length) p

/-- A flit that fails or comes out of order is discarded; a REPLAY names the first missing SEQ, once. -/
def State.refuseFlit (s : State) (p : Nat) (q : FlitQuality) : State :=
  let s := match q with
    | .crcFailed => s.bump Reg.LNK_CNT_CRC_COUNT p
    | .uncorrectable => s.bump Reg.LNK_CNT_FECU_COUNT p
    | _ => s
  let z := s.zl p
  if z.asked = some z.rxSeq then s
  else ((s.setZl p { z with asked := some z.rxSeq }).bump Reg.LNK_CNT_REPLAY_COUNT p).zlLink p linkReplayOp z.rxSeq 0

/-- A MSG flit that the map or the ingress table does not take. -/
def State.dropMsg (s : State) (p : Nat) (tag : W64) : State :=
  s.report { sender := unitZl p 4, unit := unitZl p 4, cls := 14, tag := tag }

/-- A flit enters the die at a ZL port's express router, for a die block or for cores. -/
def State.injectMsg (s : State) (p : Nat) (route : Nat) (tag : W64) (granule : BitVec 256) : State :=
  s.routeFlit (expressRouter (blockCourse (8 + p))) 4 { route := BitVec.ofNat 64 route, tag := tag, payload := wordsOf (leBytes 32 granule.toNat) } true true

/-- A chain barrier's ARRIVE or RELEASE: it acts at the admitting device or at the members, and passes on (R327). -/
def State.chainBarrierMsg (s : State) (p part : Nat) (tag : W64) (granule : BitVec 256) : State :=
  let op := granule.toNat % 256
  let number := bits granule.toNat 8 12
  let root := s.rd Reg.NOC_COURSE_MAP_PHYS (s.rd Reg.LDR_PART_INFO_BAR_ROOT part)
  let pass := fun s : State => s.forEach ((s.portsOf part).filter (· != p)) (fun s q => s.zlMsg q chainBarrier 0 tag granule.toNat)
  if op = 1 then
    if s.admits part then s.chainArrive root ⟨part, tagContext tag, number, tagStep tag, 1⟩ tag else pass s
  else if op = 2 then pass (if s.cancelling tag then s.bump Reg.NOC_DROP_COUNT else s.sendRelease root 2 tag number)
  else s

/-- A cancel forwarded to the serving engine: the member's work is dropped, and it passes on (R161, R162, R251). -/
def State.chainCancel (s : State) (p part : Nat) (tag : W64) : State :=
  let step := if bit tag.toNat 59 then some (tagStep tag) else none
  let s := s.dropWork part (tagContext tag) step
  s.forEach ((s.portsOf part).filter (· != p)) (fun s q => s.zlMsg q chainServing 0 tag 4)

/-- A message for a fixed ingress entry: the serving engine, the loader, the barrier root, the management complex. -/
def State.fixedMsg (s : State) (p part : Nat) (f : ZlFlit) (tag : W64) : State :=
  let rch := f.rch.toNat
  if rch = chainBarrier then s.chainBarrierMsg p part tag f.granule
  else if rch = chainServing ∧ bit tag.toNat 60 then s.chainCancel p part tag
  else if rch = chainEpoch ∧ !(decide (1 ≤ bits f.granule.toNat 8 8) && decide (bits f.granule.toNat 8 8 ≤ 7)) then s.dropMsg p tag
  else s.injectMsg p ((if rch = chainServing then 0 else if rch = chainEpoch then 1 else 2) + 3 * 2 ^ 28 + f.off.toNat * 2 ^ 42 + 2 ^ 54) tag f.granule

/-- A MSG flit in order: translated through the map, then delivered as its ingress entry says. -/
def State.deliverMsg (s : State) (p : Nat) (f : ZlFlit) : State :=
  match (s.zl p).map with
  | none => s.dropMsg p f.tag
  | some (theirs, ours) =>
    if tagPart f.tag ≠ theirs then s.dropMsg p f.tag
    else
      let tag := BitVec.ofNat 64 (setBits f.tag.toNat 0 4 ours)
      let rch := f.rch.toNat
      if 0xFF0 ≤ rch then (if rch < 0xFF4 then s.fixedMsg p ours f tag else s.dropMsg p tag)
      else
        let e := (SMap.get 0 s.link.ingress (4096 * p + rch)).toNat
        if bit e 47 && bits e 43 4 == ours then
          let kind := match bits e 28 2 with | 2 => 3 | 1 => 1 | _ => 0
          s.injectMsg p (routeWord e kind f.off.toNat false false) tag f.granule
        else s.dropMsg p tag

/-- A MSG flit arrives. -/
def execMsg (port : ZlPort) (flit : ZlFlit) (quality : FlitQuality) (s : State) : Host.Outcome State Fault Refusal :=
  .next (
    if !s.zlUp port then s
    else match quality with
      | .crcFailed | .uncorrectable => s.refuseFlit port quality
      | _ =>
        let s := if quality = .corrected then s.bump Reg.LNK_CNT_FECC_COUNT port else s
        if flit.seq.toNat ≠ (s.zl port).rxSeq then s.refuseFlit port quality
        else (((s.zlTake port).takeReturns port flit).autowake).deliverMsg port flit)

/-- The chain is not whole within the longest wait (R323). -/
def execChainWaitTimeout (part : Part) (s : State) : Host.Outcome State Fault Refusal :=
  .next (if s.chainWhole part then s else s.chainExpire part)

end Sys2Proof.Machine
end

