-- ==== Sys2Proof/Machine/Peg.lean ====
section
/-! DEFINITION. Machine/Peg.lean: the commands of the Peg engines (chapter 11). -/
namespace Sys2Proof.Machine

/-- A retune job without readings. -/
def newJob (tier : Nat) (groups : List (Nat × Nat)) : RetuneJob := { tier := tier, groups := groups }

/-- Every probe group: the whole of a tier that is read row by row. -/
def allGroups : List (Nat × Nat) := (List.range 64).map (fun i => (i / 8, i % 8))

/-- A tier is due: it joins its array's queue; an array's last tier is read in full (R337). -/
def State.tierDue (s : State) (k tier : Nat) : State :=
  let known := (s.pegJobs k).any (fun j => j.tier == tier) || (SMap.get [] s.peg.due k).contains tier || (SMap.get [] s.peg.named k).contains tier
  if known ∨ !s.is Reg.CAL_PEG_CTRL_EN ∨ !s.swept (128 * k + tier) ∨ !s.probeOlder (128 * k + tier) 1 then s
  else if tier = 127 then s.setJobs k (s.pegJobs k ++ [newJob 127 allGroups])
  else { s with peg := { s.peg with due := SMap.put [] s.peg.due k (s.queueByAge k tier (SMap.get [] s.peg.due k)) } }

def execTierDue (core : Core) (array : Fin 9) (tier : Fin 128) (s : State) : Host.Outcome State Fault Refusal :=
  .next (s.tierDue (arrayKey core array) tier)

/-- A tier is not probed within twice its interval (R339). -/
def execTierOverdue (core : Core) (array : Fin 9) (tier : Fin 128) (s : State) : Host.Outcome State Fault Refusal :=
  .next (
    let tk := tierKey core array tier
    if s.peg.overdue.contains tk ∨ !s.swept tk ∨ !s.probeOlder tk 2 then s
    else ({ s with peg := { s.peg with overdue := s.peg.overdue ++ [tk] } }).bump Reg.CAL_PEG_CNT_DEFER_COUNT (courseOf core))

/-- The next tier to probe: one that a report accuses, else the oldest due. -/
def State.nextProbe (s : State) (k : Nat) : Option Nat :=
  match SMap.get [] s.peg.named k with
  | t :: _ => some t
  | [] => (SMap.get [] s.peg.due k).head?

/-- No due tier is left in a course: its sweep is complete. -/
def State.sweptAll (s : State) (course : Nat) : Bool := s.peg.due.all (fun e => courseOf (e.1 / 9) != course)

/-- A tier has been probed, or read in full. -/
def State.noteProbe (s : State) (k tier : Nat) : State :=
  let tk := 128 * k + tier
  let g := s.peg
  let was := (SMap.get [] g.due k).contains tier
  let s := { s with peg := { g with due := SMap.put [] g.due k ((SMap.get [] g.due k).filter (· != tier)), named := SMap.put [] g.named k ((SMap.get [] g.named k).filter (· != tier)), overdue := g.overdue.filter (· != tk), lastProbe := SMap.insert g.lastProbe tk s.time } }
  if was && s.sweptAll (courseOf (k / 9)) then s.wr Reg.CAL_PEG_LAST_TIME (courseOf (k / 9)) s.time else s

/-- A probe pass: suspect groups count and are to be read; those of an accused tier come first (R333, R338, R347). -/
def State.probe (s : State) (k tier : Nat) (codes : List (List Nat)) : State :=
  let accused := (SMap.get [] s.peg.named k).contains tier
  let groups := s.suspectGroups k tier codes
  let s := (s.noteProbe k tier).bump Reg.CAL_PEG_CNT_SUSPECT_COUNT (courseOf (k / 9)) groups.length
  if groups.isEmpty then s
  else s.setJobs k (if accused then newJob tier groups :: s.pegJobs k else s.pegJobs k ++ [newJob tier groups])

def execProbePass (core : Core) (array : Fin 9) (codes : List (List Nat)) (s : State) : Host.Outcome State Fault Refusal :=
  .next (
    let k := arrayKey core array
    match s.nextProbe k with
    | none => s
    | some t => if s.swept (128 * k + t) then s.unit k probeUnit false (fun s => s.probe k t codes) else s.noteProbe k t)

/-- A read slot: the row's readings join the job; the last one judges the tier. -/
def State.readSlot (s : State) (k : Nat) (j : RetuneJob) (row : Nat) (cells : List Int) : State :=
  let j := { j with reads := SMap.insert j.reads row cells }
  let s := s.putJob k j
  if (jobRows j).all (fun r => (SMap.find? j.reads r).isSome) then
    (if j.tier = 127 then s.noteProbe k 127 else s).judgeTier k j
  else s

def execVerifyRead (core : Core) (array : Fin 9) (row : Fin 256) (cells : List Int) (s : State) : Host.Outcome State Fault Refusal :=
  .next (
    let k := arrayKey core array
    match (s.pegJobs k).find? (fun j => !j.judged) with
    | none => s
    | some j => if (jobRows j).contains row.val then s.unit k readUnit false (fun s => s.readSlot k j row cells) else s)

/-- A program slot on the first marked row of the first judged tier, at a boundary of the course. -/
def execRetuneSlot (core : Core) (array : Fin 9) (row : Fin 256) (cells : List Int) (s : State) : Host.Outcome State Fault Refusal :=
  .next (
    let k := arrayKey core array
    match (s.pegJobs k).find? (fun j => j.judged) with
    | none => s
    | some j => if j.marked.head? = some row.val then s.unit k slotUnit true (fun s => s.retuneRow k j row cells) else s)

/-! The full verify sweep (R340, R341, R378, R379) -/

/-- Exit from Rest goes on to the sweep once the stacks' rails are in tolerance (R378, R449). -/
def State.finishRestExit (s : State) : State :=
  if s.rd Reg.TRM_PSTATE_STATE = 5 then
    let s := s.wr Reg.TRM_PSTATE_STATE 0 0
    ({ s with board := { s.board with stkRise := none } }).startSweep
  else s

/-- Tiers are treated, each once; the sweep goes on from there after a course reset. -/
def execFullVerifySweep (tiers : List TierReading) (s : State) : Host.Outcome State Fault Refusal :=
  .next (
    if !s.board.powered ∨ s.thermal.tripped ∨ s.recovery.held then s
    else
      let s := s.finishRestExit
      if s.peg.sweeping then s.forEach tiers State.treatTier else s)

/-- Spares whose tiers the sweep has verified serve (R89, R189). -/
def State.settleSpares (s : State) : State :=
  let mapped := (s.regs.filter (fun e => e.1 / 16777216 == Reg.CRS_ARR_SPARE_MAP_REPLACED.id)).map (fun e => e.1 % 16777216)
  let sites := (s.regs.filter (fun e => e.1 / 16777216 == Reg.NOC_SPARE_MAP_REPLACED.id)).map (fun e => e.1 % 16777216)
  (s.forEach mapped State.settleSpareArray).forEach sites (fun s n => s.settleSpareCore (110 * (n / 10) + 11 * (n % 10) + 10))

/-- Every tier has been treated: an installed image has completed its boot, the device leaves LIMITED (R379, R426). -/
def execSweepComplete (s : State) : Host.Outcome State Fault Refusal :=
  .next (
    if s.peg.sweeping ∧ s.formatted.all (fun t => s.peg.treated.contains t) then
      let s := { s with peg := { s.peg with sweeping := false, treated := [] } }
      let s := ((s.wr Reg.HIF_DEV_STATE_VERIFY 0 0).settleSpares).endChipRung
      let s := if s.rd Reg.SEC_FW_STATUS_RUNNING = s.rd Reg.SEC_FW_STATUS_ACTIVE then { s with sec := { s.sec with trial := false } } else s
      s.leaveLimited
    else s)

end Sys2Proof.Machine
end

