-- ==== Sys2Proof/Machine/Power.lean ====
section
/-! DEFINITION. Machine/Power.lean: the commands of temperature, power and power states (chapter 12). -/
namespace Sys2Proof.Machine

/-- BAR0 offset of a register of the TRM block. -/
def trmOffset (off : Nat) : Nat := 0x120000 + off

/-! Sensors and the clamp -/

/-- A sensor fails: THERMAL is reported against it, and it takes no further part (R361). -/
def State.failSensor (s : State) (n : Nat) : State :=
  (s.wr Reg.TRM_SENSOR_FAILED n 1).report { sender := unitDie 5, unit := unitSensor n, cls := 10 }

/-- Readings of the sensors beside one, as they stand. -/
def State.besides (s : State) (n : Nat) : List Int := ((neighbours n).filter s.sensorUsed).map (fun m => (s.sensor m).last)

/-- Some reading beside moved by more than 2 °C. -/
def movedApart (a b : List Int) : Bool := (a.zip b).any (fun (x, y) => decide (32 < (x - y).natAbs))

/-- A reading is taken: with its run of identical readings and its run at or above 115 °C. -/
def State.takeReading (s : State) (n : Nat) (t : Int) : State :=
  let x := s.sensor n
  let same := x.seen && x.last == t
  let x := { x with last := t, seen := true, time := s.time, run := if same then min 64 (x.run + 1) else 1, base := if same then x.base else s.besides n, hot := if 1840 ≤ t then min 2 (x.hot + 1) else 0 }
  ((s.setSensor n x).wr Reg.TRM_SENSOR_TEMP n (ofSigned 16 t)).wr Reg.TRM_SENSOR_RATE n (rateOf t)

/-- A sensor's reading shows that it has failed (R361). -/
def State.readingFails (s : State) (n : Nat) : Bool :=
  let x := s.sensor n
  decide (x.last < -640) || decide (2400 < x.last) || (decide (64 ≤ x.run) && movedApart x.base (s.besides n))

/-- A sensor is sampled (R360 to R366, R370, R374): the reading on its factory trims, with its traced offset. -/
def State.sample (s : State) (n : Nat) (reading : Int) : State :=
  let s := s.takeReading n (reading + SMap.get 0 s.cal.offsets n)
  let s := if !s.is Reg.TRM_SENSOR_FAILED n && s.readingFails n then s.failSensor n else s
  let s := ((s.judgeHeat).judgeCourseHeat n).settleCooling
  if s.sensorUsed n && decide (2 ≤ (s.sensor n).hot) then s.trip 1 n else s

def execSensorSample (sensor : Sensor) (reading : Int) (s : State) : Host.Outcome State Fault Refusal :=
  .next (if s.board.powered then s.sample sensor reading else s)

/-- A power interval of the Capo (R367, R368). -/
def execPowerInterval (p pu : W16) (s : State) : Host.Outcome State Fault Refusal := .next (s.powerStep p.toNat pu.toNat)

/-- PWR_CAP_ALERT# falls: f_P follows at once from the last measurement (R369). -/
def execCapAlert (s : State) : Host.Outcome State Fault Refusal :=
  .next (
    let s := s.wr Reg.TRM_STATUS_ALERT 0 1
    match s.thermal.powers with
    | p :: _ => (s.lowerFp p (s.rd Reg.TRM_POWER_P_U)).showCapped
    | [] => s)

/-- PWR_CAP_ALERT# rises. -/
def execCapAlertDeassert (s : State) : Host.Outcome State Fault Refusal := .next (s.wr Reg.TRM_STATUS_ALERT 0 0)

/-- The tray controller sets ALERT_W or TRAY_W (R367). -/
def execTrayCapSet (alert : Bool) (watts : BitVec 10) (s : State) : Host.Outcome State Fault Refusal :=
  .next (s.wr (if alert then Reg.TRM_CAP_ALERT_W else Reg.TRM_CAP_TRAY_W) 0 watts.toNat)

/-- A sensor in use has not been sampled for 10 ms (R370). -/
def execScanStall (sensor : Sensor) (s : State) : Host.Outcome State Fault Refusal :=
  .next (if s.sensorUsed sensor ∧ (s.sensor sensor).time + 10000000 ≤ s.time then s.trip 2 sensor else s)

/-! Trip records -/

/-- Every record up to a SEQ is acknowledged (R373). -/
def State.ackTrips (s : State) (seq : Nat) : State :=
  let top := (((s.thermal.trips.map (fun r => r.seq)).filter (fun q => decide (q ≤ seq))).foldl max (s.rd Reg.TRM_TRIP_ACK_SEQ))
  let left := (s.thermal.trips.filter (fun r => decide (top < r.seq))).length
  let s := (s.wr Reg.TRM_TRIP_ACK_SEQ 0 top).wr Reg.TRM_TRIP_STATUS_UNACK 0 left
  let s := if left = 0 then s.wr Reg.HIF_DEV_STATE_TRIP_REC 0 0 else s
  (s.noteNv).leaveLimited

/-- A write of `TRM_TRIP_ACK`. -/
def execTripAck (who : Requester) (seq : W32) (s : State) : Host.Outcome State Fault Refusal :=
  .next (s.ownedAccess who (trmOffset 0x68) seq (fun s => s.ackTrips seq.toNat))

/-! Idle, Nap, Rest -/

/-- A course without a pass for the delay is clock-gated (R376). -/
def execIdleGate (course : Course) (s : State) : Host.Outcome State Fault Refusal :=
  .next (
    let us := s.rd Reg.TRM_IDLE_US
    let c := course.val
    let busy := s.cores.any (fun e => e.2.running && courseOf e.1 == c)
    if us = 0 ∨ busy ∨ s.courseNapped c ∨ s.thermal.gated.contains c ∨ s.time < SMap.get 0 s.thermal.lastPass c + 1000 * us then s
    else { s with thermal := { s.thermal with gated := s.thermal.gated ++ [c] } })

/-- The Nap bit of one course is written (R377, R309). -/
def State.napWrite (s : State) (course : Nat) (nap : Bool) : State :=
  if nap then s.stop course else (s.undeferStop course).setNapBit course false

/-- A bit of `TRM_NAP_MASK`; the value shown is the register's with that bit. -/
def execCourseNap (who : Requester) (course : Course) (nap : Bool) (s : State) : Host.Outcome State Fault Refusal :=
  .next (
    let n := course.val / 32
    let word := BitVec.ofNat 32 (setBit (s.rd Reg.TRM_NAP_MASK_COURSE n) (course % 32) nap)
    s.ownedAccess who (trmOffset (0x48 + 4 * n)) word (fun s => s.napWrite course nap))

/-- TARGET and AUTOWAKE as they are written. -/
def State.pstateFields (s : State) (target : Nat) (autowake : Bool) : State :=
  (s.wr Reg.TRM_PSTATE_CMD_TARGET 0 target).wr Reg.TRM_PSTATE_CMD_AUTOWAKE 0 autowake.toNat

/-- TARGET = 1 (R377). -/
def State.commandNap (s : State) (autowake : Bool) : State := (s.pstateFields 1 autowake).stop stopNap

/-- TARGET = 2 (R378). -/
def State.commandRest (s : State) (autowake : Bool) : State := (s.pstateFields 2 autowake).stop stopRest

/-- TARGET = 0, or 3, which acts as 0: Nap is left, now or as soon as it is entered; DRAINING ends; exit from Rest starts
(R377, R378, R380). -/
def State.commandActive (s : State) (target : Nat) (autowake : Bool) : State :=
  let s := ((s.pstateFields target autowake).undeferStop stopNap).undeferStop stopRest
  match s.rd Reg.TRM_PSTATE_STATE with
  | 1 => { s with thermal := { s.thermal with wake := true } }
  | 2 => s.wr Reg.TRM_PSTATE_STATE 0 3
  | 4 => s.exitRest
  | _ => if s.rd Reg.HIF_DEV_STATE_STATE = 3 then s.wr Reg.HIF_DEV_STATE_STATE 0 2 else s

/-- The word that a write of `TRM_PSTATE_CMD` carries. -/
def pstateWord (target : Nat) (autowake : Bool) : W32 := BitVec.ofNat 32 (target + 4 * autowake.toNat)

/-- A power state is commanded through the register or by the tray controller. -/
def State.commanded (s : State) (who : Commander) (word : W32) (f : State → State) : State :=
  match who with
  | .register w => s.ownedAccess w (trmOffset 0x40) word f
  | .tray => f s

def execPstateNap (who : Requester) (autowake : Bool) (s : State) : Host.Outcome State Fault Refusal :=
  .next (s.ownedAccess who (trmOffset 0x40) (pstateWord 1 autowake) (fun s => s.commandNap autowake))

/-- No pass runs any more: data SRAM is saved, the islands are down; a wake that came meanwhile starts the exit at once (R377,
R380). -/
def execNapEntryComplete (s : State) : Host.Outcome State Fault Refusal :=
  .next (
    if s.rd Reg.TRM_PSTATE_STATE = 1 ∧ s.cores.all (fun e => !e.2.running) then
      { s with thermal := { s.thermal with napSince := some s.time, wake := false } }.wr Reg.TRM_PSTATE_STATE 0 (if s.thermal.wake then 3 else 2)
    else s)

def execPstateRest (who : Commander) (autowake : Bool) (s : State) : Host.Outcome State Fault Refusal :=
  .next (s.commanded who (pstateWord 2 autowake) (fun s => s.commandRest autowake))

/-- Every entry is FREE in DRAINING, and no hold or rung defers the stop (R309, R378). -/
def execRestEntry (s : State) : Host.Outcome State Fault Refusal :=
  .next (
    if s.rd Reg.HIF_DEV_STATE_STATE = 3 ∧ s.serving.requests.all (fun e => e.2.state == .free) ∧ !s.clockHeld ∧ !s.rungBusy ∧ s.rd Reg.TRM_PSTATE_STATE = 0 then s.enterRest
    else s)

def execPstateActive (who : Commander) (autowake : Bool) (s : State) : Host.Outcome State Fault Refusal :=
  .next (s.commanded who (pstateWord 0 autowake) (fun s => s.commandActive 0 autowake))

/-- Nap exit is complete: tabs are reloaded and passes resume (R377). -/
def execNapExitComplete (s : State) : Host.Outcome State Fault Refusal :=
  .next (if s.rd Reg.TRM_PSTATE_STATE = 3 then s.leaveNap else s)

/-- A read of `TRM_PEAK` returns it and clears it. -/
def State.readPeak (s : State) (who : Requester) : State :=
  let v := s.rd Reg.TRM_PEAK_TEMP + s.rd Reg.TRM_PEAK_SENSOR * 65536
  let s := s.clearFields [Reg.TRM_PEAK_TEMP, Reg.TRM_PEAK_SENSOR] 0
  ({ s with thermal := { s.thermal with peakSeen := false } }).emit (.readData (reqCode who) v)

def execPeakRead (who : Requester) (s : State) : Host.Outcome State Fault Refusal :=
  .next (s.access who (trmOffset 0xC) none (fun s => s.readPeak who))

end Sys2Proof.Machine
end

