-- ==== Sys2Proof/Machine/Recovery.lean ====
section
/-! DEFINITION. Machine/Recovery.lean: watchdogs, resets, notices and the fabric self-test (chapter 14, R165). -/
namespace Sys2Proof.Machine

/-! Watchdogs (R165, R406, R407) -/

/-- The tab watchdog of a core: WATCHDOG is reported, and every slot of its pass is step-aborted; a second expiry within 1 s
resets its course. -/
def State.tabExpired (s : State) (core : Nat) : State :=
  let recent := (s.core core).watchdogs.filter (fun t => decide (s.time ≤ t + 1000000000))
  let tag := s.coreTag core
  let s := (s.bump Reg.CRS_CORE_EVENTS_WDOG core).noteCoreFault core 10
  let s := s.report { sender := unitCore core 1, unit := unitCore core 1, cls := 6, tag := tag }
  let s := s.setCore core { s.core core with watchdogs := recent ++ [s.time], lastRetire := s.time }
  let s := s.abortSlots core
  if recent.isEmpty then s else s.startCourseReset (courseOf core) 3

/-- 2^20 core clocks of 3.3 GHz with nothing retired and nothing parked. -/
def execTabWatchdog (core : Core) (s : State) : Host.Outcome State Fault Refusal :=
  let c := s.core core
  .next (if c.running && c.park.isNone && decide (10485760 ≤ 33 * (s.time - c.lastRetire)) then s.tabExpired core else s)

/-- A slot passed no layer mark for STEP_MS of issue-scaled time. -/
def execStepWatchdog (core : Core) (slot : Fin 64) (s : State) : Host.Outcome State Fault Refusal :=
  .next (
    let c := s.core core
    let ms := s.rd Reg.FLT_WD_CTRL_STEP_MS
    match c.slots[slot.val]? with
    | some x =>
      if ms = 0 ∨ !c.running ∨ x.dropped ∨ s.thermal.scaled < c.markAt + ms * 256000000 then s
      else
        let r := x.slotRec
        let tag := tagOf c.part r.context r.epoch r.step r.cls (s.layerOf core) 0
        (s.report { sender := unitCore core 1, unit := unitCore core 1, cls := 6, tag := tag }).stepAbortOf c.part r.context r.step
    | none => s)

/-- Three heartbeats of a course with a pass in flight are missed. -/
def execCourseHeartbeatMiss (course : Course) (s : State) : Host.Outcome State Fault Refusal :=
  .next (
    let c := course.val
    let busy := s.cores.any (fun e => e.2.running && courseOf e.1 == c)
    if !busy ∨ s.courseNapped c ∨ s.thermal.gated.contains c ∨ s.recovery.courses.contains c then s
    else
      let s := s.report { sender := unitDie 0, unit := unitCourse c 3, cls := 6 }
      (s.wr Reg.FLT_HB_STATUS_COURSE 0 c).startCourseReset c 4)

/-- No heartbeat of a partition for 100 ms. -/
def execPartitionHeartbeatMiss (part : Part) (s : State) : Host.Outcome State Fault Refusal :=
  .next (
    let s := s.wr Reg.FLT_HB_STATUS_PART_LATE 0 (setBit (s.rd Reg.FLT_HB_STATUS_PART_LATE) part true)
    (s.report { sender := unitDie 0, unit := unitDie 1, cls := 6 }).startPartitionReset part 5)

/-- The image that runs is marked failed (R426). -/
def State.failImage (s : State) : State :=
  let s := { s with sec := { s.sec with trial := false } }
  if s.rd Reg.SEC_FW_STATUS_RUNNING = 0 then s.wr Reg.SEC_FW_STATUS_FAIL_A 0 1 else s.wr Reg.SEC_FW_STATUS_FAIL_B 0 1

/-- No global heartbeat of the firmware for 1 s: the AON domain starts a chip reset; a newly installed image that misses its
first heartbeat is marked failed (R406, R426). -/
def execFirmwareWatchdog (s : State) : Host.Outcome State Fault Refusal :=
  .next (
    let s := s.wr Reg.FLT_HB_STATUS_FW_LATE 0 1
    let s := s.report { sender := unitDie 0, unit := unitDie 0, cls := 6 }
    let s := if s.sec.trial && s.rd Reg.SEC_FW_STATUS_RUNNING == s.rd Reg.SEC_FW_STATUS_ACTIVE then s.failImage else s
    s.chipReset 6)

/-- A rung exceeds its bound (R409). -/
def execResetOverrun (target : ResetTarget) (s : State) : Host.Outcome State Fault Refusal :=
  .next (match target with
    | .context part ctx => s.overrun 0 (65536 * part.val + ctx.toNat)
    | .course c => s.overrun 1 c
    | .partition p => s.overrun 2 p
    | .chip => s.overrun 3 0)

/-! Rungs (R408 to R414) -/

/-- A context reset: of an entry of that partition. -/
def execContextReset (part : Part) (context : W16) (cause : Fin 16) (s : State) : Host.Outcome State Fault Refusal :=
  .next (if (s.request context.toNat).part = part.val then s.contextReset context.toNat cause else s)

def execCourseReset (course : Course) (cause : Fin 16) (s : State) : Host.Outcome State Fault Refusal :=
  .next (s.startCourseReset course cause)

/-- A course's island runs again. -/
def execCourseResetComplete (course : Course) (s : State) : Host.Outcome State Fault Refusal :=
  .next (if s.recovery.courses.contains course.val then s.courseBack course else s)

def execPartitionReset (part : Part) (cause : Fin 16) (s : State) : Host.Outcome State Fault Refusal :=
  .next (s.startPartitionReset part cause)

def execChipReset (cause : Fin 16) (s : State) : Host.Outcome State Fault Refusal := .next (s.chipReset cause)

/-- DEV_RESET# falls: the chip is held in reset (R453, R458). -/
def execDevReset (s : State) : Host.Outcome State Fault Refusal := .next ({ s with recovery := { s.recovery with devLow := true } }.holdChip 7)

/-- DEV_RESET# rises: the chip completes its reset, unless REFCLK_SYS is lost, and the MCTP answer timer starts (R415, R452). -/
def execDevResetRelease (s : State) : Host.Outcome State Fault Refusal :=
  .next (
    let s := { s with recovery := { s.recovery with released := some s.time, devLow := false } }
    if s.recovery.refLost then s else s.freeChip)

/-! RESET_NOTICE (R413) -/

/-- A notice's fields (Table 14.4). -/
def noticeScope (n : W128) : Nat := bits n.toNat 8 8
def noticeContext (n : W128) : Nat := bits n.toNat 16 16

/-- A member discards an entry of a request with its pages. -/
def State.discardMember (s : State) (i : Nat) : State :=
  let r := s.request i
  let s := (s.leavePass r.part i).dropWork r.part i none
  s.setRequest i { version := r.version }

/-- A notice names entries of a partition: the admitting device ends their requests, another member discards its entries. -/
def State.applyNotice (s : State) (p : Nat) (named : List Nat) (code : Nat) : State :=
  s.forEach named (fun s i =>
    let r := s.request i
    if r.part ≠ p ∨ r.isCompanion then s
    else if s.admits p then (if liveState r.state && !r.member then s.faultRequest i code else s)
    else if r.member then s.discardMember i else s)

/-- A RESET_NOTICE arrives. -/
def execResetNotice (part : Part) (notice : W128) (s : State) : Host.Outcome State Fault Refusal :=
  .next (
    let p := part.val
    match noticeScope notice with
    | 0 => s.applyNotice p (s.entriesOf p) codePartitionReset
    | 1 => s.applyNotice p [noticeContext notice] codeContextReset
    | _ => s.report { sender := 0, unit := unitDie 0, cls := 14 })

/-! The fabric self-test (R409) -/

/-- Links that failed the self-test are marked and avoided; one that could not end resets the chip. -/
def execFabricSelfTestDone (completed : Bool) (failed : List (Fin 11100 × RouterPort)) (s : State) : Host.Outcome State Fault Refusal :=
  .next (
    if !s.fabric.selfTest then s
    else
      let s := { s with fabric := { s.fabric with selfTest := false } }
      if completed then s.forEach failed (fun s x => s.markLink x.1 (portCode x.2)) else s.chipReset 10)

end Sys2Proof.Machine
end

