-- ==== Sys2Proof/Machine/Serving.lean ====
section
/-! DEFINITION. Machine/Serving.lean: the serving engine: submissions, passes, steps, tokens and completions, the messages
between members (R225 to R261). -/
namespace Sys2Proof.Machine

/-! Submission entries (Table 7.4) -/

def sbOp (e : BitVec 512) : Nat := bits e.toNat 0 8
def sbAdapter (e : BitVec 512) : Nat := bits e.toNat 16 16
def sbPromptLen (e : BitVec 512) : Nat := bits e.toNat 32 21
def sbContext (e : BitVec 512) : Nat := bits e.toNat 32 16
def sbDraftLen (e : BitVec 512) : Nat := bits e.toNat 53 5
def sbMaxNew (e : BitVec 512) : Nat := bits e.toNat 64 21
def sbTopK (e : BitVec 512) : Nat := bits e.toNat 85 7
def sbTemp (e : BitVec 512) : Nat := bits e.toNat 96 16
def sbTopP (e : BitVec 512) : Nat := bits e.toNat 112 16
def sbUser (e : BitVec 512) : W64 := BitVec.ofNat 64 (bits e.toNat 128 64)
def sbDeadline (e : BitVec 512) : Nat := bits e.toNat 192 64
def sbPrefix (e : BitVec 512) : W64 := BitVec.ofNat 64 (bits e.toNat 256 64)
def sbPrompt (e : BitVec 512) : Nat := bits e.toNat 320 64
def sbSeed (e : BitVec 512) : W64 := BitVec.ofNat 64 (bits e.toNat 384 64)
def sbRebind (e : BitVec 512) : Bool := bit e.toNat 12
def sbReserve (e : BitVec 512) : Bool := bit e.toNat 13
def sbDlAbort (e : BitVec 512) : Bool := bit e.toNat 14

/-- A CANCEL or PREFIX_DROP holds zeros but for its own fields: `keep` of its 512 bits. -/
def sbOnly (e : BitVec 512) (keep : Nat) : Bool := e.toNat &&& (2 ^ 512 - 1 - keep) == 0

/-- Reserved bits and ranges of a GENERATE (R230, check 1). A temperature of −0 is not negative. -/
def sbGenerateOk (e : BitVec 512) : Bool :=
  !bit e.toNat 15 && bits e.toNat 58 6 == 0 && bits e.toNat 92 4 == 0 &&
  decide (1 ≤ sbPromptLen e) && decide (sbPromptLen e ≤ 1048576) && decide (sbDraftLen e ≤ 16) && decide (sbTopK e ≤ 64) &&
  (decide (sbTemp e < 0x7F80) || sbTemp e == 0x8000) && decide (sbPrompt e % 4 = 0) && (sbMaxNew e != 0 || sbSeed e != 0)

/-- The serving engine consumes submissions of a partition: the device is SERVING and Active, and no partition or chip reset
or trip holds it (R378, R412). -/
def State.consumes (s : State) (p : Nat) : Bool :=
  s.serves && s.rd Reg.TRM_PSTATE_STATE == 0 && !s.thermal.tripped &&
  s.recovery.rungs.all (fun g => !(g.level == 3 || (g.level == 2 && g.target == p)))

/-- The next entry of a SUBMIT ring, for a command of one operation: another operation is not this command's, and one that
Table 7.4 does not give completes INVALID_FIELD. A ring that stands still for want of a FREE entry gives nothing (R231). -/
def State.submitEntry (s : State) (ring op : Nat) (e : BitVec 512) (act : State → State) : State :=
  let p := s.ringPart ring
  if !(s.consumes p && s.ringReady ring kindSubmit) then s
  else if (s.ringState ring).stalled && (s.freeEntry? p).isNone then s
  else if 1 ≤ sbOp e ∧ sbOp e < 4 ∧ sbOp e ≠ op then s
  else match s.fetched ring with
    | (false, t) => t
    | (true, t) => if sbOp e = 0 ∨ 4 ≤ sbOp e then (t.consume ring).refuse ring (sbUser e) codeInvalid 0 else act t

/-! GENERATE (R230 to R232) -/

/-- The draft partition of a partition, if it qualifies (R255). -/
def State.draftPart? (s : State) (p : Nat) : Option Nat :=
  let d := s.rd Reg.SRV_PART_DRAFT_DPART p
  match s.currentSlot? d, s.currentSlot? p with
  | some k, some m =>
    let i := s.epochInfo (epochKey d k)
    if s.admits d && i.members ≤ 1 && i.vocabulary == (s.epochInfo (epochKey p m)).vocabulary then some d else none
  | _, _ => none

/-- `SRV_PART_DRAFT.EN` allows speculation and the draft partition qualifies. -/
def State.speculates (s : State) (p : Nat) : Bool := s.is Reg.SRV_PART_DRAFT_EN p && (s.draftPart? p).isSome

/-- Length of the prefix that a handle names, 0 for none. -/
def State.prefixLength (s : State) (p : Nat) (h : W64) : Nat :=
  match s.prefixEntry? p h with
  | some k => ((s.prefixEntry k).map (fun e => e.length)).getD 0
  | none => 0

/-- The CURRENT epoch's declared maximum context. -/
def State.maxContext (s : State) (p : Nat) : Nat :=
  match s.currentSlot? p with
  | some k => (s.epochInfo (epochKey p k)).maxContext
  | none => 1048576

/-- Every course is in service or covered by full redundancy, and the member course set is the partition's (check 8). -/
def State.coursesServe (s : State) (p : Nat) : Bool :=
  ((s.coursesOf p).all (fun c => !s.is Reg.NOC_COURSE_MAP_OUT c) || s.is Reg.PRT_PCTRL_REDUNDANT p) &&
  (match s.currentSlot? p with
   | some k => (List.range 100).all (fun c => !((s.epochInfo (epochKey p k)).courses.getLsbD c) || (s.coursesOf p).contains c)
   | none => true)

/-- PREFIX names a live prefix, of the CURRENT epoch and the same adapter unless the request rebinds (check 5). -/
def State.prefixOk (s : State) (p : Nat) (e : BitVec 512) : Bool :=
  sbPrefix e == 0 ||
  (match s.prefixEntry? p (sbPrefix e) with
   | some k => (match s.prefixEntry k with
     | some x => sbRebind e || (x.epoch == s.currentEpoch p && x.adapter == sbAdapter e)
     | none => false)
   | none => false)

/-- ADAPTER names a valid slot of the partition that is not superseded (check 6). -/
def State.adapterOk (s : State) (p h : Nat) : Bool :=
  h == 0xFFFF || (s.adapterValid p h && !s.is Reg.LDR_ADP_SLOT_SUPERSEDED (adapterSlot h))

/-- The checks of R230 in order: code and reason of the first failure, `(0, 0)` for none. A partition without a slice completes
every GENERATE with INVALID_FIELD; so does a device that does no admission for the chain (R226). -/
def State.generateCheck (s : State) (p : Nat) (e : BitVec 512) : Nat × Nat :=
  let n := s.prefixLength p (sbPrefix e) + sbPromptLen e + sbMaxNew e
  if !sbGenerateOk e || s.rd Reg.SRV_PART_SLICE_COUNT p == 0 then (codeInvalid, 0)
  else if 1048576 < n then (codeInvalid, 0)
  else if s.maxContext p < n then (codeNofit, 2)
  else if sbDraftLen e != 0 && !s.speculates p then (codeInvalid, 0)
  else if sbMaxNew e == 0 && (s.prefixEntry? p (sbSeed e)).isSome then (codeInvalid, 0)
  else if sbMaxNew e == 0 && s.freePrefix?.isNone then (codeNofit, 2)
  else if !s.prefixOk p e then (codePrefixUnknown, 0)
  else if !s.adapterOk p (sbAdapter e) then (codeAdapterMissing, 0)
  else if (s.currentSlot? p).isNone then (codeLoadIncomplete, 0)
  else if !s.admits p then (codeInvalid, 0)
  else if !s.coursesServe p then (codeNofit, 1)
  else if sbReserve e && decide (s.rd Reg.SRV_PART_POOL_COUNT_FRAMES p < s.pagesForTokens p n) then (codePages, 0)
  else (codeOk, 0)

/-- The entry that a GENERATE makes (Table 7.1), before its prefix is bound. -/
def requestOf (e : BitVec 512) (p ring version epoch now dir : Nat) : Request :=
  { state := .queued, prio := bits e.toNat 8 3, bulk := bit e.toNat 11, rebind := sbRebind e, reserve := sbReserve e,
    dlAbort := sbDlAbort e, part := p, subring := ring, version := version, userId := sbUser e,
    promptLen := sbPromptLen e, draftMax := sbDraftLen e, draftCur := sbDraftLen e, maxNew := sbMaxNew e,
    topK := if sbTopK e = 0 then 64 else sbTopK e, epoch := epoch, adapter := sbAdapter e,
    temp := BitVec.ofNat 16 (sbTemp e), topP := BitVec.ofNat 16 (sbTopP e), deadline := sbDeadline e, admitTime := now,
    prefixHandle := sbPrefix e, pagedir := BitVec.ofNat 32 dir, seed := sbSeed e,
    stop0 := BitVec.ofNat 32 (bits e.toNat 448 32), stop1 := BitVec.ofNat 32 (bits e.toNat 480 32), promptAddr := sbPrompt e,
    reserveWait := sbReserve e }

/-- An entry binds a prefix (R249): its leaves, shared, and a reference. -/
def State.bindPrefix (s : State) (idx p : Nat) (h : W64) : State :=
  match s.prefixEntry? p h with
  | none => s
  | some k =>
    match s.prefixEntry k with
    | none => s
    | some x =>
      let r := s.request idx
      (s.setPrefix k (some { x with refs := x.refs + 1 })).setRequest idx { r with pfxEntry := k, kvlen := x.length, pages := x.pages.map (fun e => (e.1, { e.2 with shared := true })) }

/-- The companion context of a speculative request (R253): a FREE entry of the draft partition, bound to its CURRENT epoch.
Without one the request decodes without speculation. -/
def State.addCompanion (s : State) (idx p : Nat) : State :=
  let r := s.request idx
  if r.draftMax = 0 then s
  else
    match s.draftPart? p with
    | none => s.setRequest idx { r with specOff := true }
    | some d =>
      match s.freeEntry? d with
      | none => s.setRequest idx { r with specOff := true }
      | some c =>
        let q : Request := { state := .queued, part := d, isCompanion := true, version := ((s.request c).version + 1) % 65536, epoch := s.currentEpoch d, prio := r.prio, bulk := r.bulk, subring := r.subring, userId := r.userId, promptLen := r.promptLen, promptAddr := r.promptAddr, admitTime := r.admitTime, deadline := r.deadline, topK := r.topK, temp := r.temp, topP := r.topP, seed := r.seed }
        ((s.setRequest c q).epochRef d q.epoch).setRequest idx { r with companion := c }

/-- Admission into a FREE entry (R232): bindings, reserve, companion, ADMIT to the members. A chain that is not whole, and a
deadline already past, act at once (R323, R232). -/
def State.admitRequest (s : State) (idx ring : Nat) (e : BitVec 512) : State :=
  let p := s.ringPart ring
  let (n, s) := s.draw
  let epoch := s.currentEpoch p
  let s := s.setRequest idx (requestOf e p ring (((s.request idx).version + 1) % 65536) epoch s.now (Config.free32 n).toNat)
  let s := ((s.epochRef p epoch).adapterRef (sbAdapter e)).bindPrefix idx p (sbPrefix e)
  let s := (s.tryReserve idx).addCompanion idx p
  let s := s.bump Reg.SRV_CNT_ADMIT_COUNT p
  let r := s.request idx
  let tokens := if r.reserve then r.kvlen + r.promptLen + r.maxNew else 0
  let s := if s.chainMembers p ≤ 1 then s
    else s.chainSend p chainServing (servingMessage 1 0 idx epoch (r.reserve.toNat + 2 * (decide (r.draftMax ≠ 0)).toNat) r.adapter r.prefixHandle tokens)
  let s := if s.chainWhole p then s else s.chainBroken p
  if r.dlAbort && r.deadline != 0 && decide (r.deadline < s.now) then s.cancelRequest idx codeTimeout false else s

/-- A GENERATE submission. -/
def execGenerate (ring : Ring) (entry : BitVec 512) (s : State) : Host.Outcome State Fault Refusal :=
  .next (s.submitEntry ring 1 entry (fun s =>
    let p := s.ringPart ring
    let (code, reason) := s.generateCheck p entry
    if code ≠ codeOk then (s.consume ring).refuse ring (sbUser entry) code reason
    else match s.freeEntry? p with
      | none => (s.bump Reg.SRV_CNT_FULL_COUNT p).setRingState ring { s.ringState ring with stalled := true }
      | some idx =>
        let s := (s.setRingState ring { s.ringState ring with stalled := false }).consume ring
        s.admitRequest idx ring entry))

/-- A CANCEL submission (R251, R252). -/
def execCancel (ring : Ring) (entry : BitVec 512) (s : State) : Host.Outcome State Fault Refusal :=
  .next (s.submitEntry ring 2 entry (fun s =>
    let p := s.ringPart ring
    let r := s.request (sbContext entry)
    let s := s.consume ring
    if !sbOnly entry (0xFF + 0xFFFF * 2 ^ 32 + (2 ^ 64 - 1) * 2 ^ 128) then s.refuse ring (sbUser entry) codeInvalid 0
    else if liveState r.state && r.part == p && r.userId == sbUser entry && !r.member && !r.isCompanion then
      s.cancelRequest (sbContext entry) codeCancelled false
    else s.bump Reg.SRV_CNT_CANCEL_LATE_COUNT p))

/-- A PREFIX_DROP submission (R250). -/
def execPrefixDrop (ring : Ring) (entry : BitVec 512) (s : State) : Host.Outcome State Fault Refusal :=
  .next (s.submitEntry ring 3 entry (fun s =>
    let p := s.ringPart ring
    let s := s.consume ring
    let answer := fun (s : State) (code : Nat) => s.ringPush (s.rd Reg.RCB_PAIR_CPL ring) 32 (completionEntry (sbUser entry) 0xFFFF code 0 0 0 0 0 0xFFFF s.now)
    if !sbOnly entry (0xFF + (2 ^ 64 - 1) * 2 ^ 128 + (2 ^ 64 - 1) * 2 ^ 256) then s.refuse ring (sbUser entry) codeInvalid 0
    else match s.prefixEntry? p (sbPrefix entry) with
      | some k => answer (s.prefixDropAt k) codeOk
      | none => answer s codePrefixUnknown))

/-! Passes (R239 to R242) -/

/-- The order of R239: priority, deadline with none last, admission time. -/
def servedBefore (a b : Request) : Bool :=
  let d := fun r : Request => if r.deadline = 0 then 2 ^ 64 else r.deadline
  if a.prio ≠ b.prio then decide (a.prio < b.prio)
  else if d a ≠ d b then decide (d a < d b)
  else decide (a.admitTime < b.admitTime)
def insertServed (e : Nat × Request) : List (Nat × Request) → List (Nat × Request)
  | [] => [e]
  | x :: l => if servedBefore e.2 x.2 then e :: x :: l else x :: insertServed e l
def sortServed (l : List (Nat × Request)) : List (Nat × Request) := l.foldl (fun acc e => insertServed e acc) []

/-- A request is ready (R239): its chain is whole, its reserve is set aside and no token waits for its ring. -/
def readyRequest (r : Request) : Bool :=
  !r.member && !r.isCompanion && r.chainWait.isNone && !r.reserveWait && r.heldTokens.isEmpty && !r.inFlight &&
  (r.state == .queued || r.state == .prefill || r.state == .decode)

/-- Speculation is on for a request. -/
def specOn (r : Request) : Bool := r.companion != 0xFFFF && !r.specOff && r.draftCur != 0

/-- Prefill chunk length (`SRV_PART_SCHED.CHUNK`). -/
def State.chunkOf (s : State) (p : Nat) : Nat := max 16 (s.rd Reg.SRV_PART_SCHED_CHUNK p / 16 * 16)
def State.batchCap (s : State) (p : Nat) : Nat :=
  let c := s.rd Reg.SRV_PART_SCHED_BATCH_CAP p
  if c = 0 then 64 else min c 64

/-- slice_tokens (R240), exactly: the costs in 1/1,024,000 ns, the budget in 1/1,024 ns. A token without cost leaves the
chunk unlimited. -/
def State.sliceTokens (s : State) (p c n : Nat) : Nat :=
  let t := s.rd Reg.SRV_PART_COST_A_NS p * 1024000 + s.rd Reg.SRV_PART_COST_B_PS p * c
  let budget := max (s.rd Reg.SRV_PART_SCHED_SLICE_US p * 1024000) (s.rd Reg.SRV_PART_COST2_C_NS p * c)
  if t = 0 then n else min n (16 * max 1 (budget * 1000 / (16 * t)))

/-- An interactive request of the partition is in DECODE or VERIFY. -/
def State.interactive (s : State) (p : Nat) : Bool :=
  s.serving.requests.any (fun e => e.2.part == p && !e.2.bulk && !e.2.isCompanion && (e.2.state == .decode || e.2.state == .verify))

/-- Tokens of a request's next prefill chunk; a chunk that was pre-empted or aborted after a layer mark resumes as it was. -/
def State.chunkTokens (s : State) (p : Nat) (r : Request) (lat : Bool) : Nat :=
  if r.startLayer ≠ 0xFFF then r.ntok
  else
    let n := min (s.chunkOf p) (r.promptLen - r.prefillPos)
    if lat then s.sliceTokens p r.kvlen n else n

/-- A streamed adapter of a request. -/
def State.streamed (s : State) (h : Nat) : Bool := h != 0xFFFF && !s.is Reg.LDR_ADP_SLOT_RESIDENT (adapterSlot h)
/-- A pass takes at most one streamed adapter (R222). -/
def State.adapterFits (s : State) (slots : List SlotRecord) (h : Nat) : Bool :=
  !s.streamed h || slots.all (fun x => x.adapter == 0xFFFFFFFF || x.adapter == adapterSlot h || s.is Reg.LDR_ADP_SLOT_RESIDENT x.adapter)

/-- An entry takes a slot of the pass under formation. -/
def State.takeSlot (s : State) (slots : List SlotRecord) (idx n cls : Nat) (st : ReqState) : State × List SlotRecord :=
  let r := s.request idx
  let x : SlotRecord := ⟨idx, cls, r.kvlen, n, r.kvlen, if r.adapter = 0xFFFF then 0xFFFFFFFF else adapterSlot r.adapter, r.epoch, r.step, r.startLayer⟩
  (s.setRequest idx { r with state := st, cause := .none, inFlight := true, ntok := n, mark := r.startLayer, preempt := false }, slots ++ [x])

/-- Class of a request's decode, draft and verify steps (R46). -/
def stepClass (r : Request) : Nat := if r.bulk then 2 else 1

/-- A plain decode step, or the pause for its pages. -/
def State.formDecode (s : State) (slots : List SlotRecord) (idx : Nat) : State × List SlotRecord :=
  let r := s.request idx
  let s := s.setRequest idx { r with drafts := [] }
  match s.getPages idx 1 with
  | some s => s.takeSlot slots idx 1 (stepClass r) .decode
  | none => (s.shortOfPages idx, slots)

/-- A verify step over the drafts, cut to the present token block when the next has no pages (Table 7.9). -/
def State.formVerify (s : State) (slots : List SlotRecord) (idx : Nat) : State × List SlotRecord :=
  let r := s.request idx
  match s.getPages idx (1 + r.drafts.length) with
  | some s => s.takeSlot slots idx (1 + r.drafts.length) (stepClass r) .verify
  | none =>
    let tp := s.tokensPerPage r.part
    let cut := (tp - r.kvlen % tp) % tp - 1
    if cut = 0 then s.formDecode slots idx
    else
      let s := s.setRequest idx { r with drafts := r.drafts.take cut }
      match s.getPages idx (1 + (r.drafts.take cut).length) with
      | some s => s.takeSlot slots idx (1 + (r.drafts.take cut).length) (stepClass r) .verify
      | none => s.formDecode slots idx

/-- A request's place in a pass of its own partition (R239). A request whose round lacks drafts waits for its draft steps. -/
def State.formRequest (s : State) (slots : List SlotRecord) (idx : Nat) (lat : Bool) : State × List SlotRecord :=
  let r := s.request idx
  if r.prefillPos < r.promptLen then
    let n := s.chunkTokens r.part r lat
    match s.getPages idx n with
    | some s => s.takeSlot slots idx n 2 .prefill
    | none => (s.shortOfPages idx, slots)
  else if specOn r && decide (r.drafts.length < r.draftCur) then (s, slots)
  else if r.drafts.isEmpty then s.formDecode slots idx
  else s.formVerify slots idx

/-! Draft contexts (R253 to R256) -/

/-- Tokens whose KV the companion needs before the next draft step. -/
def State.draftTarget (s : State) (o : Request) : Nat :=
  let base := if o.pfxEntry = 0xFFFF then 0 else ((s.prefixEntry o.pfxEntry).map (fun e => e.length)).getD 0
  max o.promptLen (o.kvlen - base) + o.drafts.length

/-- The KV of rejected positions is discarded in the draft model (R254). -/
def State.trimCompanion (s : State) (idx : Nat) : State :=
  let o := s.request idx
  if o.companion = 0xFFFF then s
  else
    let c := s.request o.companion
    if s.draftTarget o < c.kvlen ∧ !c.inFlight then (s.setRequest o.companion { c with kvlen := s.draftTarget o }).trimPages o.companion
    else s

/-- Speculation ends for a request: its companion goes (R255). -/
def State.endSpeculation (s : State) (idx : Nat) : State :=
  let s := s.setRequest idx { s.request idx with specOff := true, specWait := 0, drafts := [] }
  s.dropCompanion idx

/-- Every tier of an epoch is verified. -/
def State.tiersReady (s : State) (p e : Nat) : Bool :=
  match s.epochSlot? p e with
  | some k => (s.epochInfo (epochKey p k)).tiers.all (fun t => s.is Reg.CRS_ARR_TFMT_VERIFIED t)
  | none => false

/-- What R255 asks of a request's companion before a pass: gone with the draft partition's CURRENT epoch; on again once the
tiers that stopped it are verified. -/
def State.reviewDraft (s : State) (idx : Nat) : State :=
  let o := s.request idx
  if o.companion = 0xFFFF ∨ !liveState o.state then s
  else if (s.draftPart? o.part).isNone then s.endSpeculation idx
  else
    let c := s.request o.companion
    if o.specOff && o.specWait == 0 && s.tiersReady c.part c.epoch then (s.setRequest idx { o with specOff := false }).trimCompanion idx
    else s.trimCompanion idx

/-- A companion's place in a pass of the draft partition: a draft prefill, or a draft step of its request's round. -/
def State.formDraft (s : State) (slots : List SlotRecord) (idx owner : Nat) : State × List SlotRecord :=
  let o := s.request owner
  let c := s.request idx
  if c.inFlight || !specOn o || !liveState o.state || o.state == .paused then (s, slots)
  else if c.kvlen < s.draftTarget o then
    let n := min (s.chunkOf c.part) (s.draftTarget o - c.kvlen)
    match s.getPages idx n with
    | some s => s.takeSlot slots idx n 2 .prefill
    | none => (s.endSpeculation owner, slots)
  else if readyRequest o && o.prefillPos == o.promptLen && decide (o.drafts.length < o.draftCur) then
    match s.getPages idx 1 with
    | some s =>
      let (s, l) := s.takeSlot slots idx 1 (stepClass o) .decode
      (s.setRequest owner { s.request owner with state := .decode, cause := .none, inFlight := true, specUsed := true }, l)
    | none => (s.endSpeculation owner, slots)
  else (s, slots)

/-! Forming and starting passes -/

/-- The Peg engine holds a course of the partition (R345). -/
def State.pegHeld (s : State) (p : Nat) : Bool :=
  (s.physCoursesOf p).any (fun c => (SMap.get [] s.peg.holds c).any (fun h => decide (h.1 ≤ s.time) && decide (s.time < h.1 + h.2)))

/-- Passes of a partition may start at this device. -/
def State.passes (s : State) (p : Nat) : Bool :=
  let d := s.rd Reg.HIF_DEV_STATE_STATE
  (d == 2 || d == 3) && s.rd Reg.TRM_PSTATE_STATE == 0 && !s.issueStopped && s.passIdle p && !s.pegHeld p &&
  (s.physCoursesOf p).all (fun c => !s.recovery.courses.contains c) &&
  s.recovery.rungs.all (fun g => !(g.level == 3 || (g.level == 2 && g.target == p)))

/-- Candidates of a partition's pass in their order: its ready requests, and its draft contexts in the place of the requests
they draft for. -/
def State.candidates (s : State) (p : Nat) : List (Nat × Request) :=
  let mine := s.serving.requests.filter (fun e => e.2.part == p && readyRequest e.2)
  let drafts := (s.serving.requests.filter (fun e => e.2.part == p && e.2.isCompanion && !e.2.inFlight)).flatMap (fun e =>
    (s.ownersOf e.1).map (fun o => (e.1, s.request o)))
  sortServed (mine ++ drafts)

/-- Ports of a partition towards the next and the previous member (R242). -/
def State.nextPorts (s : State) (p : Nat) : List Nat :=
  (s.portsOf p).filter (fun q => s.rd Reg.LNK_EXP_PEER_MEMBER q == s.memberIndex p + 1)
def State.prevPorts (s : State) (p : Nat) : List Nat :=
  (s.portsOf p).filter (fun q => s.rd Reg.LNK_EXP_PEER_MEMBER q + 1 == s.memberIndex p)

/-- Send a serving message on some ports: a header granule and what follows it. -/
def State.sendServing (s : State) (p : Nat) (ports : List Nat) (gs : List Nat) : State :=
  let tag : Nat := p % 16 + 0xFFF * 2 ^ 46
  s.forEach ports (fun s q => s.forEach gs.zipIdx (fun s (g, i) =>
    s.zlMsg q chainServing i (BitVec.ofNat 64 (setBit tag 63 (i + 1 == gs.length))) g))

/-- A pass message (Tables 7.7, 7.8). -/
def passGranules (l : List SlotRecord) : List Nat :=
  servingMessage 2 l.length 0 0 0 0 0 0 :: l.map (fun x => leNat (slotBytes x))

/-- Form one pass at the admitting device (R239). -/
def State.formPass (s : State) (p : Nat) : State :=
  let s := s.forEach (s.entriesOf p) (fun s i => (s.tryReserve i).reviewDraft i)
  let lat := s.interactive p && !(s.rd Reg.SRV_PART_COST_A_NS p == 0 && s.rd Reg.SRV_PART_COST_B_PS p == 0 && s.rd Reg.SRV_PART_COST2_C_NS p == 0)
  let cap := s.batchCap p
  let (s, slots) := (s.candidates p).foldl (fun (a : State × List SlotRecord) (e : Nat × Request) =>
    let (s, slots) := a
    let r := s.request e.1
    if cap ≤ slots.length || !s.adapterFits slots r.adapter then (s, slots)
    else if r.isCompanion then (match s.ownersOf e.1 with
      | o :: _ => s.formDraft slots e.1 o
      | [] => (s, slots))
    else if readyRequest r then s.formRequest slots e.1 lat
    else (s, slots)) (s, [])
  if slots.isEmpty then s
  else (s.sendServing p (s.nextPorts p) (passGranules slots)).startPass p slots

/-- Ask the running slots that satisfy `hit` to leave at their next layer mark (R241). -/
def State.askPreempt (s : State) (p : Nat) (hit : SlotRecord → Bool) : State :=
  s.forEach ((s.cores.filter (fun e => e.2.running && e.2.part == p)).map Prod.fst) (fun s k =>
    let c := s.core k
    s.setCore k { c with slots := c.slots.map (fun x => if hit x.slotRec && !x.dropped then { x with preempt := true } else x) })

/-- The first stage runs a prefill chunk behind a more urgent ready request: its slot is to leave (R241). -/
def State.preemptPrefill (s : State) (p : Nat) : State :=
  let ready := s.candidates p
  let late := (s.serving.requests.filter (fun e => e.2.part == p && e.2.state == .prefill && e.2.inFlight && !e.2.member && !e.2.isCompanion &&
    ready.any (fun q => servedBefore q.2 e.2))).map Prod.fst
  let s := s.forEach late (fun s i => s.setRequest i { s.request i with preempt := true })
  s.askPreempt p (fun x => late.contains x.context)

/-- The next waiting pass of a member starts. -/
def State.startWaiting (s : State) (p : Nat) : State :=
  match SMap.get [] s.serving.waiting p with
  | l :: rest =>
    if s.passes p then ({ s with serving := { s.serving with waiting := SMap.put [] s.serving.waiting p rest } }).startPass p l else s
  | [] => s

/-- The scheduler of a partition: at the admitting device it forms a pass when the first stage is free, or asks a prefill chunk
to make way; at a member the next pass that waits starts. -/
def execPassFormation (part : Part) (s : State) : Host.Outcome State Fault Refusal :=
  .next (
    let p := part.val
    if !s.admits p then s.startWaiting p
    else if !s.passIdle p then s.preemptPrefill p
    else if s.passes p && s.chainWhole p then s.formPass p
    else s)

/-! Steps (Table 7.3, R232 to R237, R254 to R256, R260) -/

/-- A rebind request moves to the CURRENT epoch and to the adapter that replaced its own, at a step boundary (R219, R223). -/
def State.rebindRequest (s : State) (idx : Nat) : State :=
  let r := s.request idx
  if !(r.rebind && liveState r.state) then s
  else
    let cur := s.currentEpoch r.part
    let s := if (s.currentSlot? r.part).isNone || cur == r.epoch then s
      else ((s.setRequest idx { r with epoch := cur, rebound := true }).epochRef r.part cur).epochUnref r.part r.epoch
    let r := s.request idx
    let old := SMap.get {} s.loader.adapters (adapterSlot r.adapter)
    match old.next with
    | some h =>
      if r.adapter != 0xFFFF && s.adapterValid r.part r.adapter && s.is Reg.LDR_ADP_SLOT_SUPERSEDED (adapterSlot r.adapter) && s.adapterOk r.part h then
        ((s.setRequest idx { r with adapter := h, rebound := true }).adapterRef h).adapterUnref r.adapter
      else s
    | none => s

/-- Commit tokens in order from a position, each with whether it is an accepted draft, up to the one that ends the request
(R237): the entries, the last token, how many, whether the request ends, and whether by a stop token. -/
def commitTokens (r : Request) (degraded : Bool) : Nat → Nat → List (Drawn × Bool) → List Nat × W32 × Nat × Bool × Bool
  | _, _, [] => ([], r.lastToken, 0, false, false)
  | pos, gen, (t, draft) :: rest =>
    let stop := (t.token == r.stop0 && r.stop0 != 0xFFFFFFFF) || (t.token == r.stop1 && r.stop1 != 0xFFFFFFFF)
    let last := stop || decide (r.maxNew ≤ gen + 1) || decide (1048576 ≤ pos)
    let e := tokenEntry t.token t.logprob last degraded draft stop
    if last then ([e], t.token, 1, true, stop)
    else
      let (l, u, n, f, b) := commitTokens r degraded (pos + 1) (gen + 1) rest
      (e :: l, if rest.isEmpty then t.token else u, n + 1, f, b)

/-- DRAFT_CUR after a round of `n` drafts of which `k` were accepted (R256). -/
def adaptDraft (r : Request) (n k : Nat) : Request :=
  if k = 0 then
    if r.rejectRun + 1 = 4 then
      let d := r.draftCur / 2
      if d = 0 then { r with draftCur := 0, specOff := true, specWait := 64, rejectRun := 0, acceptRun := 0 }
      else { r with draftCur := d, rejectRun := 0, acceptRun := 0 }
    else { r with rejectRun := r.rejectRun + 1, acceptRun := 0 }
  else if k = n then
    if r.acceptRun + 1 = 4 then { r with draftCur := min r.draftMax (2 * r.draftCur), rejectRun := 0, acceptRun := 0 }
    else { r with acceptRun := r.acceptRun + 1, rejectRun := 0 }
  else { r with rejectRun := 0, acceptRun := 0 }

/-- Tokens committed without speculation bring it nearer (R256). -/
def countWait (r : Request) (n : Nat) : Request :=
  if r.specOff ∧ 0 < r.specWait then
    if r.specWait ≤ n then { r with specWait := 0, specOff := false, draftCur := min 2 r.draftMax } else { r with specWait := r.specWait - n }
  else r

/-- Commit what a step sampled: `tokens` from position `pos` up; the KV is committed up to the last token kept. The entries are
held for their ring (R233, R234). -/
def State.commitStep (s : State) (idx pos : Nat) (tokens : List (Drawn × Bool)) (degraded : Bool) : State :=
  let r := s.request idx
  let (l, u, n, ends, stop) := commitTokens r degraded pos r.gen tokens
  let entries := markEntry idx pos r.version false :: l
  let s := s.setRequest idx { r with kvlen := pos + n - 1, gen := r.gen + n, lastToken := u, heldTokens := r.heldTokens ++ entries, firstTime := if r.firstTime = 0 then s.now else r.firstTime, state := .decode, stopped := stop, degraded := r.degraded || degraded }
  let s := s.trimPages idx
  if ends then s.finish idx .done codeOk else s

/-- The last chunk of a request with MAX_NEW = 0 (R248): the prefix entry takes the page list; the handle reaches the members with
RELEASE. A handle entered meanwhile, or a full table, leaves nothing kept. -/
def State.keepPrefix (s : State) (idx : Nat) : State :=
  let r := s.request idx
  match s.freePrefix?, s.prefixEntry? r.part r.seed with
  | some k, none =>
    let e : PrefixEntry := { handle := r.seed, part := r.part, epoch := r.epoch, adapter := r.adapter, length := r.kvlen, pages := r.pages, created := SMap.get 0 s.fault.passCount r.part, parent := if r.pfxEntry = 0xFFFF then none else some r.pfxEntry }
    let s := s.setPrefix k (some e)
    let s := match e.parent with
      | some q => (match s.prefixEntry q with
        | some x => s.setPrefix q (some { x with refs := x.refs + 1 })
        | none => s)
      | none => s
    (s.setRequest idx { r with pages := [], prefixKept := true }).finish idx .done codeOk
  | _, _ => s.finish idx .done codeOk

/-- Accepted drafts of a verify step: the longest run that agrees with what was proposed (R254). -/
def acceptedRun : List W32 → List Drawn → List Drawn
  | d :: ds, t :: ts => if t.token = d then t :: acceptedRun ds ts else []
  | _, _ => []

/-- A prefill chunk is done: progress, then the next chunk, the prefix, or the first token. -/
def State.prefillDone (s : State) (idx : Nat) (x : StepResult) : State :=
  let r := s.request idx
  let r := { r with prefillPos := r.prefillPos + r.ntok, kvlen := r.kvlen + r.ntok, startLayer := 0xFFF, mark := 0xFFF }
  let s := s.setRequest idx r
  if r.prefillPos < r.promptLen then s
  else if r.maxNew = 0 then s.keepPrefix idx
  else s.commitStep idx r.kvlen [(x.token, false)] x.degraded

/-- A decode step is done. -/
def State.decodeDone (s : State) (idx : Nat) (x : StepResult) : State :=
  let r := s.request idx
  (s.setRequest idx (countWait r 1)).commitStep idx (r.kvlen + 1) [(x.token, false)] x.degraded

/-- A verify step is done: the accepted drafts and one token of the main model. -/
def State.verifyDone (s : State) (idx : Nat) (x : StepResult) : State :=
  let r := s.request idx
  let acc := acceptedRun r.drafts x.accepted
  let s := s.bump Reg.SRV_CNT_ACCEPTED_COUNT r.part acc.length
  let r := { adaptDraft r r.drafts.length acc.length with acceptedCount := r.acceptedCount + acc.length, drafts := [] }
  (s.setRequest idx r).commitStep idx (r.kvlen + 1) (acc.map (fun t => (t, true)) ++ [(x.token, false)]) x.degraded

/-- A step that drew from logits met non-finite ones (R260). -/
def State.noteNonfinite (s : State) (idx : Nat) (x : StepResult) : State :=
  if x.nonfinite || x.noDistribution then
    (s.bump Reg.SRV_CNT_NONFINITE_COUNT (s.request idx).part).setRequest idx { s.request idx with nonfinite := true }
  else s

/-- The step of a companion is done: a draft prefill, or a draft token for its request's round. -/
def State.draftDone (s : State) (idx : Nat) (x : StepResult) : State :=
  let c := s.request idx
  let s := s.leavePass c.part idx
  if c.state = .prefill then
    s.setRequest idx { c with inFlight := false, kvlen := c.kvlen + c.ntok, prefillPos := min c.promptLen (c.prefillPos + c.ntok), step := c.step + 1 }
  else
    let s := s.setRequest idx { c with inFlight := false, step := c.step + 1, kvlen := c.kvlen + 1 }
    s.forEach (s.ownersOf idx) (fun s i =>
      let o := s.request i
      if !(o.state == .decode && o.inFlight) then s.trimCompanion i
      else
        let s := s.noteNonfinite i x
        let o := s.request i
        match x.draft, x.noDistribution with
        | some t, false =>
          (s.bump Reg.SRV_CNT_DRAFTED_COUNT o.part).setRequest i { o with inFlight := false, drafts := o.drafts ++ [t], drafted := o.drafted + 1 }
        | _, _ => (s.setRequest i { o with inFlight := false }).endSpeculation i)

/-- A context's slot still runs at some core. -/
def State.slotRuns (s : State) (p ctx : Nat) : Bool :=
  s.cores.any (fun e => e.2.running && e.2.part == p && e.2.slots.any (fun x => x.slotRec.context == ctx && !x.dropped))

/-- A step reaches its boundary. -/
def State.stepDone (s : State) (idx : Nat) (x : StepResult) : State :=
  let r := s.request idx
  let chunk := r.state == .prefill
  let samples := !chunk || (decide (r.promptLen ≤ r.prefillPos + r.ntok) && r.maxNew != 0)
  if x.suspect || r.suspectStore then s.stepAbortOf r.part idx r.step
  else if r.isCompanion then s.draftDone idx x
  else if chunk && x.badToken then s.faultRequest idx codeInvalid
  else if chunk && x.promptFail.isSome then s.faultRequest idx ((x.promptFail.map BitVec.toNat).getD codeInvalid)
  else
    let s := if samples then s.noteNonfinite idx x else s
    if samples && x.noDistribution then
      (((s.noteRung 1 9 0 r.part).bump Reg.FLT_RST_CNT_CTX_COUNT).broadcastCancel r.part idx r.step false).faultRequest idx codeContextReset
    else
      let s := s.leavePass r.part idx
      let s := s.setRequest idx { s.request idx with inFlight := false, step := r.step + 1, aborts := 0, preempt := false }
      let s := match r.state with
        | .prefill => s.prefillDone idx x
        | .verify => s.verifyDone idx x
        | _ => s.decodeDone idx x
      (s.rebindRequest idx).trimCompanion idx

/-- STEP_COMPLETE of a context whose step is in flight and past its CTRL.END here. -/
def execStepComplete (context : W16) (result : StepResult) (s : State) : Host.Outcome State Fault Refusal :=
  .next (
    let r := s.request context.toNat
    if r.inFlight && !r.member && (runState r.state) && !s.slotRuns r.part context.toNat then s.stepDone context.toNat result else s)

/-! Tokens and completions (R234, R235) -/

/-- A step's token entries go out if their ring has room for all of them; otherwise the request pauses with CAUSE RING. -/
def execTokenWrite (context : W16) (s : State) : Host.Outcome State Fault Refusal :=
  .next (
    let s := s.flushTokens context.toNat
    let r := s.request context.toNat
    if r.heldTokens.isEmpty || !(r.state == .decode || r.state == .verify) then s else s.pause context.toNat .ring)

/-- The completion of a DONE or FAULTED request. -/
def execCompletionWrite (context : W16) (s : State) : Host.Outcome State Fault Refusal := .next (s.complete context.toNat)

/-! Messages between members (R226, R242) -/

def smKind (m : BitVec 256) : Nat := bits m.toNat 0 8
def smCount (m : BitVec 256) : Nat := bits m.toNat 8 8
def smContext (m : BitVec 256) : Nat := bits m.toNat 16 16
def smEpoch (m : BitVec 256) : Nat := bits m.toNat 32 8
def smReserve (m : BitVec 256) : Bool := bit m.toNat 40
def smAdapter (m : BitVec 256) : Nat := bits m.toNat 48 16
def smPrefix (m : BitVec 256) : W64 := BitVec.ofNat 64 (bits m.toNat 64 64)
def smTokens (m : BitVec 256) : Nat := bits m.toNat 128 32

/-- A serving message of one kind: another kind of Table 7.8 is not this command's, and any other is dropped and reported. -/
def State.servingArrival (s : State) (p kind : Nat) (m : BitVec 256) (act : State → State) : State :=
  if smKind m = 0 ∨ 5 ≤ smKind m then
    s.report { sender := unitDie 1, unit := 0, cls := 14, tag := BitVec.ofNat 64 (p + 0xFFF * 2 ^ 46) }
  else if smKind m ≠ kind then s
  else act s

/-- A slot record's fields (Table 7.7). -/
def slotOf (g : BitVec 256) : SlotRecord :=
  let w := g.toNat
  ⟨bits w 0 16, bits w 16 2, bits w 32 21, bits w 64 21, bits w 96 21, bits w 128 32, bits w 160 8, bits w 192 32, bits w 224 12⟩

/-- ADMIT: a member entry at the same index (R226). -/
def execAdmitMessage (part : Part) (message : BitVec 256) (s : State) : Host.Outcome State Fault Refusal :=
  .next (s.servingArrival part 1 message (fun s =>
    let p := part.val
    let i := smContext message
    let s := s.sendServing p (s.nextPorts p) [message.toNat]
    if s.admits p || !s.inSlice p i then s
    else
      let s := if (s.request i).state = .free then s else (s.freePages i).release i 0
      let r : Request := { state := .queued, member := true, part := p, version := ((s.request i).version + 1) % 65536, epoch := smEpoch message, adapter := smAdapter message, prefixHandle := smPrefix message, reserve := smReserve message, reserveWait := smReserve message, admitTime := s.now, promptLen := smTokens message }
      let s := ((s.setRequest i r).adapterRef r.adapter).bindPrefix i p (smPrefix message)
      let r := s.request i
      (s.setRequest i { r with promptLen := r.promptLen - r.kvlen }).tryReserve i))

/-- A slot of a PASS at a member: its entry takes the record's progress and the pages of the step. An unknown context is dropped
with a notice, and a shortage of pages answers SHORT (R242, R413). -/
def State.memberSlot (s : State) (p : Nat) (x : SlotRecord) : State × Bool :=
  let r := s.request x.context
  if r.state = .free ∨ r.part ≠ p ∨ !r.member then (s.sendNotice p 1 x.context 0 0, false)
  else
    let s := s.setRequest x.context { r with kvlen := x.kvlen, ntok := x.ntok, epoch := x.epoch, step := x.step }
    match s.getPages x.context x.ntok with
    | some s => (s, true)
    | none => (s.sendServing p (s.prevPorts p) [servingMessage 3 0 x.context 0 0 0 0 x.ntok], false)

/-- PASS at a member: it is forwarded and runs in the order of arrival; one with a LATENCY slot asks BULK prefill slots of the
running pass to leave (R241). A partition whose program is lost answers with a notice (R423). -/
def execPassMessage (part : Part) (message : BitVec 256) (records : List (BitVec 256)) (s : State) : Host.Outcome State Fault Refusal :=
  .next (s.servingArrival part 2 message (fun s =>
    let p := part.val
    if s.admits p || records.length != smCount message || records.isEmpty || decide (64 < records.length) then s
    else if bit (s.rd Reg.FLT_PROG_LOST_PART) p then s.sendNotice p 0 0 0 0
    else
      let s := s.sendServing p (s.nextPorts p) (message.toNat :: records.map BitVec.toNat)
      let (s, l) := (records.map slotOf).foldl (fun (a : State × List SlotRecord) (x : SlotRecord) =>
        let (s, ok) := a.1.memberSlot p x
        (s, if ok then a.2 ++ [x] else a.2)) (s, [])
      if l.isEmpty then s
      else
        let s := if l.any (fun x => x.cls == 1) then s.askPreempt p (fun x => x.cls == 2 && decide (1 < x.ntok)) else s
        ({ s with serving := { s.serving with waiting := SMap.put [] s.serving.waiting p (SMap.get [] s.serving.waiting p ++ [l]) } }).startWaiting p))

/-- SHORT: a member's shortage of pages counts as the admitting device's own; the step leaves execution (R242). Another member passes
it on. -/
def execShort (part : Part) (message : BitVec 256) (s : State) : Host.Outcome State Fault Refusal :=
  .next (s.servingArrival part 3 message (fun s =>
    let p := part.val
    let i := smContext message
    let r := s.request i
    if !s.admits p then s.sendServing p (s.prevPorts p) [message.toNat]
    else if r.part ≠ p ∨ !runState r.state ∨ !r.inFlight then s
    else
      let s := (s.broadcastCancel p i r.step true).dropWork p i (some (r.step % 65536))
      let s := (s.setRequest i { s.request i with inFlight := false, step := r.step + 1, drafts := [] }).trimPages i
      s.shortOfPages i))

/-- RELEASE: a member drops its entry, and enters a new prefix with its own pages (R242, R248). -/
def execServingRelease (part : Part) (message : BitVec 256) (s : State) : Host.Outcome State Fault Refusal :=
  .next (s.servingArrival part 4 message (fun s =>
    let p := part.val
    let i := smContext message
    let s := s.sendServing p (s.nextPorts p) [message.toNat]
    let r := s.request i
    if r.state = .free ∨ r.part ≠ p ∨ !r.member then s
    else
      let s := if smPrefix message = 0 then s
        else (s.setRequest i { r with kvlen := r.kvlen + r.ntok, seed := smPrefix message }).keepPrefix i
      ((s.leavePass p i).dropWork p i none).release i 0))

/-! Deadlines, pauses, drains -/

/-- A deadline passes with DL_ABORT (R243). -/
def execDeadlineExpiry (context : W16) (s : State) : Host.Outcome State Fault Refusal :=
  .next (
    let r := s.request context.toNat
    if r.dlAbort && r.deadline != 0 && decide (r.deadline < s.now) then s.cancelRequest context.toNat codeTimeout false else s)

/-- A request has been paused for pages for too long (R246). -/
def execPagewaitTimeout (context : W16) (s : State) : Host.Outcome State Fault Refusal :=
  .next (
    let r := s.request context.toNat
    if r.state == .paused && r.cause == .pages && decide (r.pausedAt + s.rd Reg.SRV_PART_WAIT_PAGEWAIT_MS r.part * 1000000 < s.time) then
      s.finish context.toNat .done codePages
    else s)

/-- The cause of a pause has cleared (R246, R164, R234): pages for the next token are free and no request before it in the order of
R239 waits for pages; the epoch's tiers are verified; the held tokens went out. -/
def State.pauseCleared (s : State) (idx : Nat) : Bool :=
  let r := s.request idx
  match r.cause with
  | .pages =>
    decide ((s.pagesWanted r 1).length + (s.reservedCount r.part - r.reserved) ≤ s.freeCount r.part) &&
    s.serving.requests.all (fun e => !(e.2.part == r.part && e.2.state == .paused && e.2.cause == .pages && servedBefore e.2 r))
  | .tier => s.tiersReady r.part r.epoch
  | .ring => r.heldTokens.isEmpty
  | .none => true

/-- A paused request returns to QUEUED. -/
def execPauseResume (context : W16) (s : State) : Host.Outcome State Fault Refusal :=
  .next (
    let i := context.toNat
    let t := s.flushTokens i
    if (t.request i).state == .paused && t.pauseCleared i then t.setRequest i { t.request i with state := .queued, cause := .none } else s)

/-- A drain is complete on every member (R251). -/
def execCancelDrainComplete (context : W16) (s : State) : Host.Outcome State Fault Refusal := .next (s.drained context.toNat)

end Sys2Proof.Machine
end

