-- ==== Sys2Proof/Machine/ReadOps.lean ====
section
/-! DEFINITION. Machine/ReadOps.lean: what a read of a register returns: stored fields, live and computed ones, the read windows,
and the view of a VF (R6, R9, R10, R266). -/
namespace Sys2Proof.Machine

/-! What a requester sees (Table 8.4) -/

/-- A VF exposes the partition whose slice holds a request-table index; every other requester exposes them all. -/
def State.exposesIndex (s : State) (who : Requester) (i : Nat) : Bool :=
  (List.range 16).any (fun p => s.inSlice p i && (!isVf who || s.exposes (reqCode who) p))

/-- A copy of a field is in a requester's view. -/
def State.sees (s : State) (who : Requester) (f : Field) (i : Nat) : Bool :=
  if f.scope = .request then s.exposesIndex who i
  else if !isVf who then true
  else if f.scope = .req then true
  else
    let mine := match f.partOf i with | some p => s.exposes (reqCode who) p | none => false
    match f.block with
    | .hif => decide (f.offset < 0x38)
    | .rcb => s.is Reg.RCB_ASSIGN_VALID i && s.ringFn i == reqCode who
    | .dma | .srv => mine
    | .ldr => mine || (f.scope == .adapterSlot && s.is Reg.LDR_ADP_SLOT_VALID i && s.exposes (reqCode who) (s.rd Reg.LDR_ADP_SLOT_PART i))
    | .prt => mine || (f.scope == .logicalCourse && s.is Reg.PRT_COURSE_ASSIGNED i && s.exposes (reqCode who) (s.rd Reg.PRT_COURSE_PART i))
    | .clk => true
    | _ => false

/-! Live and computed fields -/

/-- `CRS_CORE_STATUS.STATE`. -/
def State.coreMode (s : State) (core : Nat) : Nat :=
  let c := s.core core
  if s.coreHalted core then 3
  else if s.fieldTesting (courseOf core) then 5
  else if s.coreSpare core then 4
  else if c.park.isSome then 2
  else c.running.toNat

/-- The oldest incomplete instruction of a core and its slot; 0 outside a pass. -/
def State.oldestInstr (s : State) (core : Nat) : Nat × Nat :=
  let c := s.core core
  if !c.running then (0, 0)
  else match c.inflight with
    | x :: _ => (x.pc, x.slot)
    | [] => (c.pc, c.cur)

/-- A field of a course window that is live. -/
def State.liveCrs (s : State) (f : Field) (i : Nat) : Option Nat :=
  if f.id = Reg.CRS_ARR_STATUS_BUSY.id then some (s.array i).mvm.isSome.toNat
  else if f.id = Reg.CRS_CORE_STATUS_STATE.id then some (s.coreMode i)
  else if f.id = Reg.CRS_CORE_STATUS_PC.id then some (s.oldestInstr i).1
  else if f.id = Reg.CRS_CORE_STATUS_SLOT.id then some (s.oldestInstr i).2
  else none

/-- Fields of the serving engine, from its tables. -/
def State.liveSrv (s : State) (f : Field) (i : Nat) : Option Nat :=
  let r := s.request i
  if f.id = Reg.SRV_PART_DRAFT_OK.id then some (s.draftPart? i).isSome.toNat
  else if f.id = Reg.SRV_PART_STATUS_LIVE.id then some (s.entriesOf i).length
  else if f.id = Reg.SRV_PART_STATUS_PREFIXES.id then some (s.serving.prefixes.filter (fun e => e.2.part == i && !e.2.dropped)).length
  else if f.id = Reg.SRV_PART_PAGES_FREE_FRAMES.id then some (s.freeCount i)
  else if f.id = Reg.SRV_PART_PAGES_RES_FRAMES.id then some (s.reservedCount i)
  else if f.id = Reg.SRV_RQ_STATE_STATE.id then some (reqCodeOf r.state)
  else if f.id = Reg.SRV_RQ_STATE_CAUSE.id then some (causeCode r.cause)
  else if f.id = Reg.SRV_RQ_STATE_CODE.id then some r.code
  else if f.id = Reg.SRV_RQ_STATE_VERSION.id then some r.version
  else if f.id = Reg.SRV_RQ_PROGRESS_KVLEN.id then some r.kvlen
  else if f.id = Reg.SRV_RQ_PROGRESS_DRAFT_CUR.id then some r.draftCur
  else if f.id = Reg.SRV_RQ_GEN_GEN.id then some r.gen
  else if f.id = Reg.SRV_RQ_USER_USER_ID.id then some r.userId.toNat
  else none

/-- Identity, time and ownership as a requester reads them. -/
def State.liveHif (s : State) (who : Requester) (f : Field) (i : Nat) : Option Nat :=
  if f.id = Reg.HIF_ID_VENDOR.id then some Config.vendorId.toNat
  else if f.id = Reg.HIF_DSN_SERIAL.id then some Config.serialNumber.toNat
  else if f.id = Reg.HIF_TIME_TIME.id then some s.now
  else if f.id = Reg.HIF_OWN_STATUS_MINE.id then some (match reqPort who with | some p => s.owner == p + 1 | none => false).toNat
  else if f.id = Reg.HIF_FUNC_PART_PARTS.id ∧ i % 32 = 0 then some 0xFFFF
  else none

/-- A word whose bits say something of the numbers from `base`. -/
def bitWord (base n : Nat) (p : Nat → Bool) : Nat := ((List.range n).map (fun i => (p (base + i)).toNat * 2 ^ i)).sum

/-- Domains that run (Table 9.3), and accesses held at stopped ones. -/
def State.liveClk (s : State) (f : Field) (i : Nat) : Option Nat :=
  if f.id = Reg.CLK_DOMAIN_ALIVE_MEM.id then some (if s.resting then 0 else 15)
  else if f.id = Reg.CLK_DOMAIN_ALIVE_LINK.id then some (bitWord 0 8 (fun p => s.rd Reg.LNK_STATUS_STATE p != 0))
  else if f.id = Reg.CLK_DOMAIN_ALIVE_MCV.id then some (s.rd Reg.CAL_MCV_EN_EN)
  else if f.id = Reg.CLK_DOMAIN_ALIVE_FABRIC.id then some (!s.resting).toNat
  else if f.id = Reg.CLK_DOMAIN_ALIVE_PCIE.id then some (s.rd Reg.TRM_CLKIN_PCIE_OK)
  else if f.id = Reg.CLK_DOMAIN_ALIVE_COURSES_ALL.id then some ((List.range 100).all (fun c => !s.courseNapped c)).toNat
  else if f.id = Reg.CLK_COURSE_ALIVE_COURSE.id then some (bitWord (32 * i) 32 (fun c => decide (c < 100) && !s.courseNapped c))
  else if f.id = Reg.CLK_STALL_HELD.id then some (((s.mail.accesses.map (fun e => (e.2.filter (fun h => h.domain != 255)).length)).sum) % 256)
  else none

/-- Live fields of the Peg engines and the calibration chain. -/
def State.liveCal (s : State) (f : Field) (i : Nat) : Option Nat :=
  let here := fun core : Nat => courseOf core == i
  if f.id = Reg.CAL_PEG_STATUS_STATE.id then
    some (if s.peg.sweeping then 2 else if !s.is Reg.CAL_PEG_CTRL_EN then 3
      else (s.peg.busy.any (fun e => here (e.1 / 9) && decide (33 * s.time < e.2))).toNat)
  else if f.id = Reg.CAL_PEG_STATUS_OVERDUE.id then some (s.peg.overdue.any (fun t => here (t / 1152))).toNat
  else if f.id = Reg.CAL_PEG_STATUS_GAPS_OFF.id then some (s.peg.gapsOff.any here).toNat
  else if f.id = Reg.CAL_PEG_HOLD_US.id then some (((s.recentHolds i).map Prod.snd).sum / 1000)
  else if f.id = Reg.CAL_BG0_UV.id ∧ s.rd f = 0 then some Config.factoryBandgap0.toNat
  else if f.id = Reg.CAL_BG1_UV.id ∧ s.rd f = 0 then some Config.factoryBandgap1.toNat
  else none

/-- Live fields of the other blocks. -/
def State.liveOther (s : State) (f : Field) (i : Nat) : Option Nat :=
  if f.id = Reg.LDR_LAND_SIZE_USABLE.id then some s.usableBuffers
  else if f.id = Reg.LNK_PARTNER_INFO_MAPPED.id then some (s.zl i).map.isSome.toNat
  else if f.id = Reg.MCV_STATE_ENTRY.id then some s.mcv.entry
  else if f.id = Reg.MCV_STATE_SETTLING.id then some (decide (0 < s.mcv.settle)).toNat
  else if f.id = Reg.MCV_STATE_RUNNING.id then some (s.is Reg.MCV_CTRL_RUN && s.rd Reg.MCV_CTRL_SCAN_LEN != 0).toNat
  else if f.id = Reg.TRM_RAIL_ARMED.id then some (s.railArmed i).toNat
  else if f.id = Reg.FLT_STATUS_LOG_FULL.id then some (decide (s.logHeld = 4096)).toNat
  else if f.id = Reg.FLT_RST_STATUS_BUSY.id then some s.rungBusy.toNat
  else if f.id = Reg.SEC_GEN_STATUS_DIRTY.id then some s.sec.dirty.isSome.toNat
  else if f.id = Reg.PRT_PSTATUS_COURSES.id then some (s.coursesOf i).length
  else if f.id = Reg.PRT_PSTATUS_PENDING.id then
    some (s.sec.handover.filter (fun e =>
      if s.is Reg.PRT_COURSE_ASSIGNED e.1 then s.rd Reg.PRT_COURSE_PART e.1 == i else bit e.2 4 && bits e.2 0 4 == i)).length
  else none

/-- The value that a copy of a field reads as. WO and W1S fields and `FLT_RST_CMD` read 0 (Table 0.3). -/
def State.shown (s : State) (who : Requester) (f : Field) (i : Nat) : Nat :=
  if f.access = .wo ∨ f.access = .w1s then 0
  else
    let v := match f.block with
      | .crs => s.liveCrs f i
      | .srv => s.liveSrv f i
      | .hif => s.liveHif who f i
      | .clk => s.liveClk f i
      | .cal => s.liveCal f i
      | _ => s.liveOther f i
    v.getD (s.rd f i)

/-- What a field gives to the word of its register, in its place. -/
def State.fieldWord (s : State) (who : Requester) (p : RegPlace) (f : Field) : Nat :=
  match s.copyAt who p f with
  | none => 0
  | some i =>
    if !s.sees who f i then 0
    else
      let v := s.shown who f i
      (if f.width = 64 then (if f.high p then v / 2 ^ 32 else v % 2 ^ 32) else v % 2 ^ f.width) * 2 ^ f.lsb

/-! Read windows -/

/-- The word at a byte offset of a record. -/
def wordAt (l : List Byte) (off : Nat) : Nat := leNat ((l.drop off).take 4)

/-- The bytes of a capture entry (Table 2.7). -/
def captureBytes (c : CaptureEntry) : List Byte :=
  leBytes 8 c.tag.toNat ++ leBytes 8 c.time ++ leBytes 1 c.tier ++ leBytes 1 c.tfmt ++ leBytes 1 c.nchk ++
  leBytes 1 (c.actw % 16 + 16 * c.acts.toNat) ++ leBytes 4 (ofSigned 32 c.sumd0) ++ leBytes 4 (ofSigned 32 c.sumd1) ++
  leBytes 1 c.loc ++ leBytes 1 (c.c0.toNat + 2 * c.c1.toNat + 4 * c.sat.toNat) ++ leBytes 2 0 ++ c.input

/-- The bytes of a trip record (Table 12.6). -/
def tripBytes (r : TripRecord) : List Byte :=
  leBytes 4 r.seq ++ leBytes 1 r.cause ++ leBytes 1 r.sensor ++ leBytes 2 (ofSigned 16 r.temp) ++ leBytes 8 r.time ++
  leBytes 2 r.power ++ leBytes 2 (r.clamp % 512) ++ leBytes 1 (r.devState % 8) ++ leBytes 1 r.hot ++ leBytes 2 r.gen ++
  leBytes 4 r.uptime ++ leBytes 4 0

/-- `CRS_ARR_CAP_DATA`: the capture entry that `CRS_ARR_SEL` chooses. -/
def State.captureWord (s : State) (who : Requester) (course off : Nat) : Nat :=
  match s.selArray (reqCode who) course with
  | none => 0
  | some k =>
    match (s.array k).captures[s.rd Reg.CRS_ARR_SEL_CAPIDX (100 * reqCode who + course)]? with
    | some c => wordAt (captureBytes c) off
    | none => 0

/-- `TRM_TRIP_REC`. -/
def State.tripWord (s : State) (who : Requester) (off : Nat) : Nat :=
  match s.thermal.trips[s.rd Reg.TRM_TRIP_SEL_INDEX (reqCode who)]? with
  | some r => wordAt (tripBytes r) off
  | none => 0

/-- `FLT_LOG_REC`: the record at a log index that the log holds, else 0. -/
def State.logWord (s : State) (who : Requester) (off : Nat) : Nat :=
  let i := s.rd Reg.FLT_LOG_SEL_INDEX (reqCode who)
  if (i + 2 ^ 32 - s.rd Reg.FLT_LOG_RD_INDEX) % 2 ^ 32 < s.logHeld then leNat (s.stackRead (s.logAddress i + off) 4) else 0

/-- `FLT_FFC_REC`. -/
def State.firstWord (s : State) (who : Requester) (off : Nat) : Nat :=
  let i := s.rd Reg.FLT_FFC_SEL_INDEX (reqCode who)
  match (if i < 16 then s.fault.ffc[i]? else if i = 16 then s.fault.ffcLast else none) with
  | some c => wordAt (recordBytes c) off
  | none => 0

/-- The word of a function's MSI-X table at a BAR0 offset. -/
def msixWord (who : Requester) (a : Nat) : Option Nat :=
  match who with
  | .fn f => if 0x8000 ≤ a ∧ a < 0x8000 + 16 * vectorsOf (fnCode f) ∧ a % 4 = 0 then some (8192 * fnCode f + (a - 0x8000) / 4) else none
  | .fw _ => none

/-- The word at a place: its fields, or a window's. -/
def State.placeWord (s : State) (who : Requester) (p : RegPlace) : Nat :=
  let o := p.off
  if o % 4 ≠ 0 then 0
  else if p.block = .crs ∧ 0x4100 ≤ o ∧ o < 0x4220 then s.captureWord who p.copy (o - 0x4100)
  else if p.block = .trm ∧ 0x80 ≤ o ∧ o < 0xA0 then s.tripWord who (o - 0x80)
  else if p.block = .flt ∧ 0x100 ≤ o ∧ o < 0x120 then s.logWord who (o - 0x100)
  else if p.block = .flt ∧ 0x120 ≤ o ∧ o < 0x140 then s.firstWord who (o - 0x120)
  else ((fieldsAt p).map (s.fieldWord who p)).sum

/-- What a BAR0 offset reads as; 0 where nothing lies (R10). -/
def State.wordOf (s : State) (who : Requester) (a : Nat) : Nat :=
  match msixWord who a with
  | some k => SMap.get 0 s.host.msix k
  | none => (match regPlace a with | some p => s.placeWord who p | none => 0)

/-! Reads (R9) -/

/-- A BAR0 offset is the low half of a pair read coherently: a 64-bit quantity, or `HIF_NOW_LAST` with its high bits. -/
def isLowHalf (a : Nat) : Bool :=
  a == 0x74 || (match regPlace a with | some p => (fieldsAt p).any (fun f => f.width == 64 && f.offset == p.off) | none => false)

def State.setSnapshot (s : State) (who : Requester) (a : Nat) (v : Option Nat) : State :=
  { s with snapshots := match v with
      | some x => SMap.insert s.snapshots (latchKey who a) x
      | none => SMap.erase s.snapshots (latchKey who a) }

/-- A read of a BAR0 register by a requester: of a low half it snapshots the high half, whose next read by the same requester
returns that; the registers that a read clears are cleared (R6, R9). -/
def State.readReg (s : State) (who : Requester) (a : Nat) : State :=
  let give := fun (s : State) (v : Nat) => s.emit (.readData (reqCode who) v)
  if !isVf who && a == 0xC003C then s.readBarMax who
  else if !isVf who && a == 0x110010 then s.readResult who
  else if !isVf who && a == 0x110018 then s.readDrop who
  else if !isVf who && a == 0x12000C then s.readPeak who
  else if isLowHalf a then (give s (s.wordOf who a)).setSnapshot who a (some (s.wordOf who (a + 4)))
  else if 4 ≤ a ∧ isLowHalf (a - 4) then
    (match SMap.find? s.snapshots (latchKey who (a - 4)) with
     | some x => (give s x).setSnapshot who (a - 4) none
     | none => give s (s.wordOf who a))
  else give s (s.wordOf who a)

end Sys2Proof.Machine
end

