-- ==== Sys2Proof/Machine/Security.lean ====
section
/-! DEFINITION. Machine/Security.lean: firmware, the stage, approval, reclaim and SPDM (chapter 15, R272). -/
namespace Sys2Proof.Machine

/-- BAR0 offset of a register of the SEC block. -/
def secOffset (off : Nat) : Nat := 0x140000 + off

/-! Firmware (R426) -/

/-- The result of a firmware command: 1 OK, 2 signature, 3 refused. -/
def State.fwResult (s : State) (r : Nat) : State := s.wr Reg.SEC_FW_CMD_RESULT 0 r

/-- INSTALL: a verified image goes into the slot that does not run, and starts at the next chip reset. -/
def State.installImage (s : State) (signed : Bool) (svn : Nat) : State :=
  if !signed then s.fwResult 2
  else if svn < s.rd Reg.SEC_FW_STATUS_MIN_SVN then s.fwResult 3
  else
    let image : FirmwareImage := ⟨true, svn⟩
    let s := if s.rd Reg.SEC_FW_STATUS_RUNNING = 0 then ({ s with sec := { s.sec with imageB := image, trial := true } }.wr Reg.SEC_FW_STATUS_FAIL_B 0 0).wr Reg.SEC_FW_STATUS_ACTIVE 0 1 else ({ s with sec := { s.sec with imageA := image, trial := true } }.wr Reg.SEC_FW_STATUS_FAIL_A 0 0).wr Reg.SEC_FW_STATUS_ACTIVE 0 0
    s.fwResult 1

def execFirmwareInstall (who : Requester) (signed : Bool) (svn : BitVec 12) (s : State) : Host.Outcome State Fault Refusal :=
  .next (s.ownedAccess who (secOffset 8) 1 (fun s => s.installImage signed svn.toNat))

/-- COMMIT_SVN: refused while the other image, not marked failed, would fall below MIN_SVN. -/
def State.commitSvn (s : State) : State :=
  let svn := s.rd Reg.SEC_FW_STATUS_SVN
  let (other, failed) := if s.rd Reg.SEC_FW_STATUS_RUNNING = 0 then (s.sec.imageB, s.is Reg.SEC_FW_STATUS_FAIL_B) else (s.sec.imageA, s.is Reg.SEC_FW_STATUS_FAIL_A)
  if !failed ∧ other.svn < svn then s.fwResult 3
  else (s.wr Reg.SEC_FW_STATUS_MIN_SVN 0 (max (s.rd Reg.SEC_FW_STATUS_MIN_SVN) svn)).fwResult 1

def execCommitSvn (who : Requester) (s : State) : Host.Outcome State Fault Refusal :=
  .next (s.ownedAccess who (secOffset 8) 2 State.commitSvn)

/-! The stage (R433, R434, R437, R441) -/

def execKeyStage (who : Requester) (value : W32) (readable : Bool) (s : State) : Host.Outcome State Fault Refusal :=
  .next (s.ownedAccess who (secOffset 0xA0) value (fun s => s.stageKey value.toNat readable))

def execSeal (who : Requester) (s : State) : Host.Outcome State Fault Refusal :=
  .next (s.ownedAccess who (secOffset 0x30) 1 State.sealStage)

def execStageAbort (who : Requester) (s : State) : Host.Outcome State Fault Refusal :=
  .next (s.ownedAccess who (secOffset 0x30) 2 (fun s => s.discardStage 8))

def execConfigRollback (who : Requester) (s : State) : Host.Outcome State Fault Refusal :=
  .next (s.ownedAccess who (secOffset 0x30) 4 State.stageRollback)

/-- TIMEOUT_S has passed since the seal. -/
def execStageTimeout (s : State) : Host.Outcome State Fault Refusal :=
  .next (
    if s.rd Reg.SEC_TP_STATUS_STATE = 2 ∧ s.sec.sealedAt + 1000000000 * max 1 (s.rd Reg.SEC_TP_CTRL_TIMEOUT_S) ≤ s.time then s.discardStage 7
    else s)

/-- Writes that wait are recorded in a generation (R440). -/
def execGenerationRecord (s : State) : Host.Outcome State Fault Refusal :=
  .next (if s.sec.dirty.isSome then s.recordGeneration false else s)

/-! Kwejan messages (Table 15.5) -/

/-- A channel's number: 0 MCTP, 1 and 2 DOE of a port. -/
def channelCode : SpdmChannel → Nat
  | .mctp => 0
  | .doe p => 1 + p.val

/-- SPDM response codes, as the SPDM specification numbers them. -/
def spdmCertificate : Nat := 0x02
def spdmChallengeAuth : Nat := 0x03
def spdmMeasurements : Nat := 0x60
def spdmAlgorithms : Nat := 0x63
def spdmKeyExchange : Nat := 0x64
def spdmVendor : Nat := 0x7E
def spdmError : Nat := 0x7F

/-- Answer a Kwejan message: STATUS (0 accepted, 1 refused), and what follows it. -/
def State.answer (s : State) (channel : SpdmChannel) (status : Nat) (data : List Byte) : State :=
  s.emit (.message (channelCode channel) spdmVendor (leBytes 1 status ++ data))

/-- A message is counted in BAD and otherwise ignored. -/
def State.badMessage (s : State) (channel : SpdmChannel) : State := (s.bump Reg.SEC_TP_STATUS_BAD).answer channel 1 []

/-- The channel that APPROVE is accepted on (R435). -/
def State.approveChannel (s : State) : SpdmChannel → Bool
  | .mctp => !s.provisioned || !s.is Reg.SEC_TP_CTRL_APPROVER
  | .doe p => s.provisioned && s.is Reg.SEC_TP_CTRL_APPROVER && s.owner != 0 && s.owner != p.val + 1

/-- The content of an APPROVE is that of the sealed stage record. -/
def State.approvesStage (s : State) (a : Approval) : Bool :=
  a.serial == Config.serialNumber && a.gen.toNat == s.sec.sealedGen && a.nonce.toNat == s.rd Reg.SEC_TP_NONCE_NONCE && a.digest == s.stageDigest

/-- Approver keys that the stage installs. -/
def State.stagedApprovers (s : State) : List StagedKey := s.sec.keys.filter (fun k => k.op == 0 && bit k.roles 2)

/-- The signature verifies: under an APPROVER slot, or in an unprovisioned device under the key that the stage installs. -/
def State.approvalVerifies (s : State) (a : Approval) : Bool :=
  if s.provisioned then s.approverKey a.signer
  else match a.signer with
    | some d => s.stagedApprovers.any (fun k => k.whole && k.digest == d)
    | none => false

/-- APPROVE (R435, R436, R437). -/
def State.approve (s : State) (channel : SpdmChannel) (a : Approval) : State :=
  if !s.approveChannel channel ∨ s.rd Reg.SEC_TP_STATUS_STATE ≠ 2 ∨ !s.approvesStage a then s.badMessage channel
  else if !s.provisioned && s.stagedApprovers.isEmpty then (s.refuseStage 10).answer channel 1 []
  else if !s.approvalVerifies a then s.badMessage channel
  else (s.answer channel 0 []).commitStage

def execApprove (channel : SpdmChannel) (a : Approval) (s : State) : Host.Outcome State Fault Refusal := .next (s.approve channel a)

/-- GET_STAGE: up to 1,024 bytes of the stage record, and its length. -/
def execGetStage (channel : SpdmChannel) (offset : W32) (s : State) : Host.Outcome State Fault Refusal :=
  .next (
    if s.rd Reg.SEC_TP_STATUS_STATE = 2 then s.answer channel 0 ((s.sec.record.drop offset.toNat).take 1024 ++ leBytes 4 s.sec.record.length)
    else s.answer channel 1 [])

/-- GET_NONCE: a fresh nonce, good for 10 s. -/
def execGetNonce (channel : SpdmChannel) (s : State) : Host.Outcome State Fault Refusal :=
  .next (
    let (n, s) := s.draw
    let nonce := Config.fresh64 n
    let live := s.sec.nonces.filter (fun e => decide (s.time ≤ e.2 + 10000000000))
    ({ s with sec := { s.sec with nonces := live ++ [(nonce, s.time)] } }).answer channel 0 (leBytes 8 nonce.toNat))

/-- The owner's port has been down for more than 1 s. -/
def State.ownerGone (s : State) : Bool :=
  s.owner != 0 && (match (s.portState (s.owner - 1)).downSince with
    | some t => decide (t + 1000000000 < s.time)
    | none => false)

/-- RECLAIM (R272, R438). -/
def State.reclaim (s : State) (nonce : W64) (signer : Option (BitVec 256)) : State :=
  if !s.provisioned then s.answer .mctp 1 []
  else if !s.approverKey signer || !s.sec.nonces.any (fun e => e.1 == nonce && decide (s.time ≤ e.2 + 10000000000)) then s.badMessage .mctp
  else if !s.ownerGone || !s.is Reg.HIF_OWN_POLICY_RECLAIM_EN then s.answer .mctp 1 []
  else
    let s := ((s.wr Reg.HIF_OWN_STATUS_OWNER 0 0).wr Reg.HIF_OWN_NONCE_NONCE 0 0).wr Reg.HIF_OWN_STATUS_RECLAIMED 0 1
    (s.discardStage 9).answer .mctp 0 []

def execReclaim (nonce : W64) (signer : Option (BitVec 256)) (s : State) : Host.Outcome State Fault Refusal := .next (s.reclaim nonce signer)

/-! SPDM (R427, R429 to R431) -/

def State.spdm (s : State) (c : SpdmChannel) : SpdmState := SMap.get {} s.sec.spdm (channelCode c)
def State.setSpdm (s : State) (c : SpdmChannel) (x : SpdmState) : State :=
  { s with sec := { s.sec with spdm := SMap.put {} s.sec.spdm (channelCode c) x } }

/-- An ERROR response: 1 InvalidRequest, 4 UnexpectedRequest. -/
def State.spdmFail (s : State) (c : SpdmChannel) (error : Nat) : State := s.emit (.message (channelCode c) spdmError (leBytes 1 error))

/-- A response to a negotiated requester; its exchange joins the transcript. -/
def State.spdmAnswer (s : State) (c : SpdmChannel) (code : Nat) (asked data : List Byte) : State :=
  let x := s.spdm c
  (s.setSpdm c { x with transcript := x.transcript ++ asked ++ data }).emit (.message (channelCode c) code data)

/-- Falcon-1024 signatures are padded to 1,280 bytes. -/
def paddedSignature (bytes : List Byte) : List Byte :=
  let g := Config.identitySign bytes
  g ++ List.replicate (1280 - g.length) 0

/-- A signed response: the identity key signs the transcript with it, which starts anew. -/
def State.spdmSigned (s : State) (c : SpdmChannel) (code : Nat) (asked data : List Byte) : State :=
  let x := s.spdm c
  (s.setSpdm c { x with transcript := [] }).emit (.message (channelCode c) code (data ++ paddedSignature (x.transcript ++ asked ++ data)))

/-- Only after NEGOTIATE_ALGORITHMS. -/
def State.negotiated (s : State) (c : SpdmChannel) (f : State → State) : State := if (s.spdm c).negotiated then f s else s.spdmFail c 4

/-- The algorithms of Table 15.2, and nothing else; a requester without Falcon-1024 is refused (R430). -/
def execNegotiateAlgorithms (channel : SpdmChannel) (falcon : Bool) (s : State) : Host.Outcome State Fault Refusal :=
  .next (
    if !falcon then s.spdmFail channel 1
    else (s.setSpdm channel { s.spdm channel with negotiated := true, transcript := [] }).spdmAnswer channel spdmAlgorithms []
      (leBytes 2 Config.vendorId.toNat ++ leBytes 2 1))

/-- What measurement block 5 covers: `HIF_REV`, spare and course maps, quarantine state. -/
def hardwareKey (k : Nat) : Bool :=
  match fieldOfKey k with
  | some f => (f.block == .hif && f.offset == 4) || (f.block == .noc && decide (0x14 ≤ f.offset) && decide (f.offset ≤ 0x1C)) || (f.block == .crs && f.offset == 0x402C) || f.id == Reg.CRS_ARR_STATUS_STATE.id || f.id == Reg.FLT_QUAR_CNT_QUAR.id
  | none => false

/-- The value of a measurement block (Table 15.3). -/
def State.measurement (s : State) (index : Nat) : BitVec 256 :=
  match index with
  | 1 => Config.shake256 (Config.codeBytes 0)
  | 2 => Config.shake256 (Config.codeBytes (1 + s.rd Reg.SEC_FW_STATUS_RUNNING))
  | 3 => Config.shake256 (leBytes 4 (s.rd Reg.SEC_FW_STATUS_SVN) ++ leBytes 4 (s.rd Reg.SEC_FW_STATUS_MIN_SVN))
  | 4 => copyDigest s.sec.current
  | 5 => Config.hardwareDigest (s.regs.filter (fun e => hardwareKey e.1))
  | n =>
    let p := n - 16
    match s.currentSlot? p with
    | some k => Config.shake256 (leBytes 32 (s.epochInfo (epochKey p k)).digest.toNat ++ leBytes 1 (s.rd Reg.LDR_EPOCH_NUMBER (epochKey p k)))
    | none => Config.shake256 (leBytes 32 0)

/-- The indices of the blocks. -/
def measurementIndices : List Nat := [1, 2, 3, 4, 5] ++ (List.range 16).map (· + 16)

/-- The block of an index: the index and its value. -/
def State.measurementBlock (s : State) (i : Nat) : List Byte := leBytes 1 i ++ leBytes 32 (s.measurement i).toNat

/-- GET_MEASUREMENTS: the count, one block or all, with the nonce and a signature where one is asked. -/
def State.measure (s : State) (channel : SpdmChannel) (index : Nat) (nonce : BitVec 256) (signed : Bool) : State :=
  let asked := leBytes 1 index ++ (if signed then leBytes 32 nonce.toNat else [])
  let blocks := if index = 255 then measurementIndices else measurementIndices.filter (· == index)
  if index ≠ 0 ∧ blocks.isEmpty then s.spdmFail channel 1
  else
    let data := leBytes 1 (if index = 0 then measurementIndices.length else blocks.length) ++ blocks.flatMap s.measurementBlock
    if signed then s.spdmSigned channel spdmMeasurements asked (data ++ leBytes 32 nonce.toNat) else s.spdmAnswer channel spdmMeasurements asked data

def execGetMeasurements (channel : SpdmChannel) (index : Byte) (nonce : BitVec 256) (signed : Bool) (s : State) : Host.Outcome State Fault Refusal :=
  .next (s.negotiated channel (fun s => s.measure channel index.toNat nonce signed))

/-- GET_CERTIFICATE: a portion of the chain of slot 0, and how much is left; the other slots are empty. -/
def execGetCertificate (channel : SpdmChannel) (slot : Byte) (offset length : W16) (s : State) : Host.Outcome State Fault Refusal :=
  .next (s.negotiated channel (fun s =>
    let portion := (Config.certificateChain.drop offset.toNat).take length.toNat
    let asked := leBytes 1 slot.toNat ++ leBytes 2 offset.toNat ++ leBytes 2 length.toNat
    if slot = 0 then s.spdmAnswer channel spdmCertificate asked (portion ++ leBytes 2 (Config.certificateChain.length - offset.toNat - portion.length))
    else s.spdmFail channel 1))

/-- CHALLENGE: signed by the device identity over the transcript. -/
def execChallenge (channel : SpdmChannel) (slot : Byte) (nonce : BitVec 256) (s : State) : Host.Outcome State Fault Refusal :=
  .next (s.negotiated channel (fun s =>
    if slot = 0 then s.spdmSigned channel spdmChallengeAuth (leBytes 1 0 ++ leBytes 32 nonce.toNat) (leBytes 32 (Config.shake256 Config.certificateChain).toNat)
    else s.spdmFail channel 1))

/-- KEY_EXCHANGE: a session over secp384r1 and AES-256-GCM; its identifier joins the requester's half and the device's. -/
def execKeyExchange (channel : SpdmChannel) (slot : Byte) (session : W16) (exchange : List Byte) (s : State) : Host.Outcome State Fault Refusal :=
  .next (s.negotiated channel (fun s =>
    if slot = 0 then
      let (n, s) := s.draw
      let half := (Config.fresh64 n).toNat % 65536
      let x := s.spdm channel
      let s := s.setSpdm channel { x with sessions := x.sessions ++ [session.toNat + 65536 * half] }
      s.spdmSigned channel spdmKeyExchange (leBytes 1 0 ++ leBytes 2 session.toNat ++ exchange) (leBytes 2 half ++ Config.exchangeValue n)
    else s.spdmFail channel 1))

end Sys2Proof.Machine
end

