-- ==== Sys2Proof/Machine/Sequencer.lean ====
section
/-! DEFINITION. Machine/Sequencer.lean: messages, barriers, flags, streams and control of a tab, and what stops and resumes
a core (R146 to R165). -/
namespace Sys2Proof.Machine

/-! SEND, RECV, RED (R153 to R155, R182) -/

/-- The replay source of a narrow operand that is sent (R113). -/
def State.keepSource (s : State) (core : Nat) (w : W128) (o : Operand) : State :=
  if o.fmt ≤ 1 then
    let g := s.granA core w
    let c := s.core core
    let vs := match SMap.find? c.quantised g with
      | some l => l
      | none => s.opFlat core g o
    let x : ReplaySource := { tag := s.coreTag core, channel := bits (wArg1 w) 0 12, ts := o.ts, width := o.width, signed := o.fmt == 1, values := vs }
    s.setCore core { c with sources := c.sources ++ [x] }
  else s

/-- SEND: operand A on a channel, or one empty packet when LEN is 0. -/
def execSend (core : Core) (word : W128) (s : State) : Host.Outcome State Fault Refusal :=
  .next (s.issue core word 3 0 (done (fun s =>
    let o := s.operand core (wDesc word)
    let s := s.sendMessage core (bits (wArg1 word) 0 12) (s.coreTag core) (s.granWords core (s.granA core word) (opGranules o))
    if o.len = 0 then s else s.keepSource core word o)))

/-- RECV: a message into D, or park. -/
def execRecv (core : Core) (word : W128) (s : State) : Host.Outcome State Fault Refusal :=
  .next (s.issue core word 4 0 (fun s => s.orPark core (.recv word) (s.tryRecv core word)))

/-- RECVRED: the result of a reduction into D, or park. -/
def execRecvred (core : Core) (word : W128) (s : State) : Host.Outcome State Fault Refusal :=
  .next (s.issue core word 4 1 (fun s => s.orPark core (.recvred word (s.contributors core word)) (s.tryRecvRed core word)))

/-- A RED instruction's contributions. -/
def State.contribute (s : State) (core : Nat) (w : W128) (max : Bool) : State :=
  let o := s.operand core (wDesc w)
  s.sendReduction core (bits (wArg1 w) 0 12) (s.coreTag core) max (bit (wArg0 w) 0) (s.granWords core (s.granA core w) (opGranules o))

/-- RED ADD. -/
def execRedAdd (core : Core) (word : W128) (s : State) : Host.Outcome State Fault Refusal :=
  .next (s.issue core word 5 0 (done (fun s => s.contribute core word false)))
/-- RED MAX. -/
def execRedMax (core : Core) (word : W128) (s : State) : Host.Outcome State Fault Refusal :=
  .next (s.issue core word 5 1 (done (fun s => s.contribute core word true)))

/-! BAR, FLAG, WAIT (R156, R179) -/

/-- BAR: ARRIVE with CNT 1 towards the barrier's root, and park until RELEASE. -/
def execBarArriveWait (core : Core) (word : W128) (s : State) : Host.Outcome State Fault Refusal :=
  .next (s.issue core word 6 0 (fun s =>
    let n := bits (wArg1 word) 0 12
    let scope := bits (wArg0 word) 0 2
    let root := if scope = 0 then (s.logicalOf (courseOf core)).getD 0 else s.rd Reg.LDR_PART_INFO_BAR_ROOT (s.core core).part
    let s := s.sendControl core (cornerOf root + n * 2 ^ 30 + 2 ^ 54) (s.coreTag core) 1 scope
    some (s.parkAt core (.bar n), false)))

/-- FLAG ADD: a value towards a flag of the core that the channel reaches. -/
def execFlagAdd (core : Core) (word : W128) (s : State) : Host.Outcome State Fault Refusal :=
  .next (s.issue core word 7 0 (done (fun s =>
    let e := s.channel core (bits (wArg1 word) 0 12)
    let route := bits e 0 28 + bits (wArg0 word) 0 6 * 2 ^ 30 + 2 ^ 54
    s.sendControl core route (s.coreTag core) 3 (bits (wImm word) 0 16))))

/-- WAIT GE: park until the local flag is at least the value, then subtract it. -/
def execWaitGe (core : Core) (word : W128) (s : State) : Host.Outcome State Fault Refusal :=
  let f := bits (wArg0 word) 0 6
  let v := bits (wImm word) 0 16
  .next (s.issue core word 8 0 (fun s => s.orPark core (.wait f v) (s.tryWait core f v)))

/-! STREAM (R151, R157, R160) -/

/-- Bytes of the partition's data window: outside it a read is one the manual does not give, and a write goes nowhere. -/
def State.windowRead (s : State) (p off n : Nat) : List Byte :=
  let (base, len) := s.dataWindow p
  (List.range n).map (fun i => if off + i < len then (s.stackRead (base + off + i) 1).getD 0 0 else Config.absentByte (base + off + i))
def State.windowWrite (s : State) (p off : Nat) (bs : List Byte) : State :=
  let (base, len) := s.dataWindow p
  s.stackWrite (base + off) (bs.take (len - off))

/-- Issue a STREAM instruction whose length field, when it has one, is not 0. -/
def State.stream (s : State) (core : Nat) (w : W128) (op len : Nat) (act : State → State) : State :=
  s.issue core w 9 op (done (fun s => if len = 0 then s else act s))

/-- Length in granules of LOAD, STORE and ADLOAD. -/
def streamLen (w : W128) : Nat := bits (wArg1 w) 0 12

/-- STREAM LOAD. -/
def execStreamLoad (core : Core) (word : W128) (s : State) : Host.Outcome State Fault Refusal :=
  .next (s.stream core word 0 (streamLen word) (fun s =>
    s.granWrite core (s.granD core word) (s.windowRead (s.core core).part (64 * wImm word) (32 * streamLen word))))

/-- STREAM STORE. -/
def execStreamStore (core : Core) (word : W128) (s : State) : Host.Outcome State Fault Refusal :=
  .next (s.stream core word 1 (streamLen word) (fun s =>
    s.windowWrite (s.core core).part (64 * wImm word) (s.sramRead core (32 * s.granA core word) (32 * streamLen word))))

/-- Bytes of one token in one page (R245). -/
def State.tokenBytes (s : State) (p : Nat) : Nat := 65536 / s.tokensPerPage p

/-- Stack address of part `which` of a KV stream for a token of a context, if its page is allocated (R245). -/
def State.kvAddress (s : State) (p ctx stream which t : Nat) : Option Nat :=
  let i := t / s.tokensPerPage p * s.pagesPerBlock p + 2 * stream + which
  (SMap.find? (s.request ctx).pages i).map (fun e => 65536 * e.frame + t % s.tokensPerPage p * s.tokenBytes p)

/-- First token of a KV transfer: A + IX[IXA], not reduced to a granule (Table 4.5). -/
def State.kvFirst (s : State) (core : Nat) (w : W128) : Nat := wA w + s.ix core (wIxa w)

/-- KVLOAD: K or V of a run of tokens into D. A token without a page reads as bytes the manual does not give. -/
def execKvload (core : Core) (word : W128) (s : State) : Host.Outcome State Fault Refusal :=
  .next (s.stream core word 2 (bits (wImm word) 16 16) (fun s =>
    match s.curSlot core with
    | none => s
    | some x =>
      let p := (s.core core).part
      let n := s.tokenBytes p
      let bs := (List.range (bits (wImm word) 16 16)).flatMap (fun j =>
        let t := s.kvFirst core word + j
        match s.kvAddress p x.slotRec.context (bits (wImm word) 0 16) (bits (wArg0 word) 0 1) t with
        | some a => s.stackRead a n
        | none => (List.range n).map (fun i => Config.absentByte (stackSize + t * n + i)))
      s.granWrite core (s.granD core word) bs))

/-- KVSTORE: K or V of a run of tokens from B to their pages; SUSPECT data is reported to the serving engine (R383). -/
def execKvstore (core : Core) (word : W128) (s : State) : Host.Outcome State Fault Refusal :=
  .next (s.stream core word 3 (bits (wImm word) 16 16) (fun s =>
    match s.curSlot core with
    | none => s
    | some x =>
      let p := (s.core core).part
      let n := s.tokenBytes p
      let ctx := x.slotRec.context
      let b := 32 * s.granB core word
      let s := (List.range (bits (wImm word) 16 16)).foldl (fun s j =>
        match s.kvAddress p ctx (bits (wImm word) 0 16) (bits (wArg0 word) 0 1) (s.kvFirst core word + j) with
        | some a => s.stackWrite a (s.sramRead core (b + j * n) n)
        | none => s) s
      if x.suspect && (s.request ctx).state != .free then s.setRequest ctx { s.request ctx with suspectStore := true } else s))

/-- ADLOAD: an adapter's factors of a layer into the adapter cache at D, unless they are cached (R160). -/
def execAdload (core : Core) (word : W128) (s : State) : Host.Outcome State Fault Refusal :=
  .next (s.stream core word 4 (streamLen word) (fun s =>
    let slot := s.ix core 5 % 1024
    let h := slot + 1024 * s.rd Reg.LDR_ADP_SLOT_VERSION slot
    let key := (h, bits (wImm word) 0 12, bits (wImm word) 12 2)
    let c := s.core core
    if c.cached.contains key then s
    else
      let s := s.setCore core { c with cached := c.cached ++ [key] }
      s.granWrite core (s.granD core word) ((List.range (32 * streamLen word)).map (Config.adapterByte key.1 key.2.1 key.2.2))))

/-- GATHER: data from stack memory into the operand that DESCB describes at D. The manual gives no field for where in stack
memory it comes from. -/
def execGather (core : Core) (word : W128) (s : State) : Host.Outcome State Fault Refusal :=
  .next (s.issue core word 9 5 (done (fun s =>
    let (n, s) := s.draw
    s.granWrite core (s.granD core word) ((List.range (32 * opGranules (s.operand core (wDescb word)))).map (Config.gatherByte n)))))

/-! CTRL (R146, R147, R151, R163) -/

/-- The first live slot from a number on. -/
def State.nextSlot (s : State) (core n : Nat) : Option Nat :=
  (((s.core core).slots.zipIdx.drop n).find? (fun x => slotLive (s.layerOf core) x.1)).map Prod.snd

/-- Enter a slot: its index registers are loaded (Table 4.2). -/
def State.enterSlot (s : State) (core n : Nat) : State :=
  match (s.core core).slots[n]? with
  | some x => (s.setCore core { s.core core with cur := n }).loadIx core n x.slotRec
  | none => s

/-- The word of an instruction of the loaded tab. -/
def State.tabWord (s : State) (core i : Nat) : W128 := BitVec.ofNat 128 (leNat (s.tabRead core (16 * i) 16))

/-- Index of the ENDEACH that closes a body opened before `i`. -/
def State.bodyEnd (s : State) (core i : Nat) : Nat :=
  let n := s.rd Reg.CRS_CORE_TAB_NINSTR core
  ((List.range (n - i)).map (· + i)).find? (fun j => wClass (s.tabWord core j) == 10 && wOp (s.tabWord core j) == 1) |>.getD n

/-- Issue a CTRL instruction that moves to the next one. -/
def State.ctrl (s : State) (core : Nat) (w : W128) (op : Nat) (act : State → State) : State := s.issue core w 10 op (done act)

/-- FOREACH: the body runs for each live slot; with none it is passed over. -/
def execCtrlForeach (core : Core) (word : W128) (s : State) : Host.Outcome State Fault Refusal :=
  .next (s.ctrl core word 0 (fun s =>
    let c := s.core core
    match s.nextSlot core 0 with
    | some n => (s.setCore core { c with body := some (c.pc + 1) }).enterSlot core n
    | none => s.setCore core { c with pc := s.bodyEnd core (c.pc + 1) }))

/-- ENDEACH: the next live slot, or the end of the body. It runs for the slot that ends, live or dropped. -/
def State.endEach (s : State) (core : Nat) : State :=
  let c := s.core core
  match c.body with
  | none => s.advance core
  | some b =>
    match s.nextSlot core (c.cur + 1) with
    | some n => (s.setCore core { c with pc := b }).enterSlot core n
    | none => s.setCore core { c with body := none, pc := c.pc + 1 }

/-- ENDEACH. A slot that left the pass in the body does not execute it, so it does not retire for that slot. -/
def execCtrlEndeach (core : Core) (word : W128) (s : State) : Host.Outcome State Fault Refusal :=
  .next (
    if s.sequencing core && wClass word == 10 && wOp word == 1 && s.mayIssue core word then
      (if s.skips core word then s.endEach core else (s.endEach core).retired core).stepHalt core
    else if s.sequencing core && decide (11 ≤ wClass word) then s.tabUncorrectable core (wClass word) else s)

/-- SETI. -/
def execCtrlSeti (core : Core) (word : W128) (s : State) : Host.Outcome State Fault Refusal :=
  .next (s.ctrl core word 2 (fun s => s.setIx core (bits (wArg0 word) 0 4) (wImm word)))
/-- ADDI: the immediate is added to the target register. -/
def execCtrlAddi (core : Core) (word : W128) (s : State) : Host.Outcome State Fault Refusal :=
  let n := bits (wArg0 word) 0 4
  .next (s.ctrl core word 3 (fun s => s.setIx core n (s.ix core n + wImm word)))
/-- DIVC: ceil(IX[IXA] ÷ IMM) to the target register. -/
def execCtrlDivc (core : Core) (word : W128) (s : State) : Host.Outcome State Fault Refusal :=
  .next (s.ctrl core word 4 (fun s =>
    let a := s.ix core (wIxa word)
    let d := wImm word
    s.setIx core (bits (wArg0 word) 0 4) (if d = 0 then (Config.divByZero a).toNat else (a + d - 1) / d)))

/-- BR's condition: 0 always, 1 equal, 2 less, 3 greater or equal, comparing IX[ARG0] with IX[IXB]. -/
def State.branchTaken (s : State) (core : Nat) (w : W128) : Bool :=
  let a := s.ix core (bits (wArg0 w) 0 4)
  let b := s.ix core (wIxb w)
  match bits (wImm w) 13 2 with
  | 0 => true
  | 1 => a == b
  | 2 => decide (a < b)
  | _ => decide (b ≤ a)

/-- BR: branch by the signed relative target, counted from this instruction, when the condition holds. -/
def execCtrlBr (core : Core) (word : W128) (s : State) : Host.Outcome State Fault Refusal :=
  .next (s.issue core word 10 5 (fun s =>
    let d := if s.branchTaken core word then toSigned 12 (wArg1 word) else 1
    some ((s.branch core d).retired core, false)))

/-- LOOP: the target register counts down, and the branch is taken until it reaches 0. -/
def execCtrlLoop (core : Core) (word : W128) (s : State) : Host.Outcome State Fault Refusal :=
  .next (s.issue core word 10 6 (fun s =>
    let n := bits (wArg0 word) 0 4
    let v := (s.ix core n + 2 ^ 32 - 1) % 2 ^ 32
    let s := s.setIx core n v
    some ((s.branch core (if v = 0 then 1 else toSigned 12 (wArg1 word))).retired core, false)))

/-- A member runs a pre-empted slot again in a pass of its own, after those that wait (R241, Table 7.10). -/
def State.requeueSlot (s : State) (p : Nat) (x : SlotRecord) : State :=
  let l := SMap.get [] s.serving.waiting p
  let l := if l.any (fun q => q.any (fun y => y.context == x.context && y.step == x.step)) then l
    else match l.reverse with
      | q :: r => if q.any (fun y => y.startLayer != 0xFFF) then (r.reverse ++ [q ++ [x]]) else l ++ [[x]]
      | [] => [[x]]
  { s with serving := { s.serving with waiting := SMap.put [] s.serving.waiting p l } }

/-- A slot with a pending pre-empt request leaves the pass at a layer mark; the serving engine records its start layer
(R163). -/
def State.preemptSlots (s : State) (core layer : Nat) : State :=
  let c := s.core core
  let go := c.slots.filter (fun x => x.preempt && slotLive (s.layerOf core) x)
  let s := s.setCore core { c with slots := c.slots.map (fun x => if go.contains x then { x with dropped := true } else x) }
  s.forEach go (fun s x =>
    let ctx := x.slotRec.context
    let r := s.request ctx
    if r.member then (s.requeueSlot c.part { x.slotRec with startLayer := layer }).bump Reg.SRV_CNT_PREEMPT_COUNT c.part
    else if runState r.state && r.inFlight then
      ((s.setRequest ctx { r with state := .queued, startLayer := layer, mark := layer, inFlight := false, preempt := false }).leavePass c.part ctx).bump Reg.SRV_CNT_PREEMPT_COUNT c.part
    else s)

/-- A prefill slot that every core of its pass has brought to a layer mark restarts from there after a step abort (Tables 4.7,
4.8). -/
def State.markSlots (s : State) (core layer : Nat) : State :=
  let c := s.core core
  let all := s.cores.all (fun e => !(e.2.running && e.2.part == c.part) || (s.layerOf e.1 != 0xFFF && decide (layer ≤ s.layerOf e.1)))
  if !all then s
  else s.forEach (c.slots.filter (fun x => slotLive (s.layerOf core) x)) (fun s x =>
    let r := s.request x.slotRec.context
    if r.state == .prefill && r.inFlight && r.part == c.part then s.setRequest x.slotRec.context { r with mark := layer } else s)

/-- LAYER: sets the layer of later tags; at a pre-emption point slots with a pending request leave. -/
def execCtrlLayer (core : Core) (word : W128) (s : State) : Host.Outcome State Fault Refusal :=
  .next (s.ctrl core word 7 (fun s =>
    let layer := bits (wImm word) 0 12
    let s := (s.wr Reg.CRS_CORE_PASS_LAYER core layer).setCore core { s.core core with markAt := s.thermal.scaled }
    (if bit (wImm word) 12 then (s.markSlots core layer).preemptSlots core layer else s).countLive core))

/-- END: the pass ends when what is in flight has completed (Table 4.8). -/
def execCtrlEnd (core : Core) (word : W128) (s : State) : Host.Outcome State Fault Refusal :=
  .next (s.ctrl core word 8 (fun s => (s.setCore core { s.core core with ending := true }).settlePass core))

/-! Stops (R142, R161, R162, R165) -/

/-- A step abort: the broadcast, every unit's drop, the request's return to QUEUED (R162). -/
def execStepAbort (part : Part) (context : W16) (step : W16) (s : State) : Host.Outcome State Fault Refusal :=
  .next (s.stepAbortOf part context.toNat step.toNat)

/-- A CANCEL flit reaches a core: only a CONTROL packet with CANCEL set, of the core's partition (R34, R49, R161). -/
def execCancelFlit (core : Core) (tag : W64) (s : State) : Host.Outcome State Fault Refusal :=
  .next (
    if !bit tag.toNat 60 ∨ tagClass tag ≠ 0 then s
    else if s.corePart core ≠ some (tagPart tag) then
      s.report { sender := unitCore core 7, unit := unitCore core 7, cls := 14, tag := tag }
    else s.dropCore core (tagPart tag) (tagContext tag) (if bit tag.toNat 59 then some (tagStep tag) else none))

/-- The scrub of tab SRAM (R142). -/
def execTabScrub (core : Core) (outcome : EccOutcome) (s : State) : Host.Outcome State Fault Refusal :=
  .next (
    if !s.is Reg.CRS_CORE_CTRL_SCRUB_EN core then s
    else match outcome with
      | .clean => s
      | .corrected => (s.bump Reg.CRS_CORE_ECC_TS_CE core).report { sender := unitCore core 6, unit := unitCore core 6, cls := 1 }
      | .uncorrectable => s.tabUncorrectable core (wClass (s.tabWord core (s.core core).pc)))

/-- The loader has reloaded a halted core's tab, and the core leaves HALTED (R142). -/
def execTabReloadComplete (core : Core) (s : State) : Host.Outcome State Fault Refusal :=
  let c := s.core core
  .next (
    if c.reload && !c.quarantined then (s.setCore core { c with reload := false }).wr Reg.CRS_CORE_STATUS_STATE core 0 else s)

/-- Do something to the core a requester's selector picks. -/
def State.onCore (s : State) (who : Requester) (course : Nat) (f : State → Nat → State) : State :=
  match s.selCore (reqCode who) course with
  | some core => f s core
  | none => s

/-- HALT = 1: the core stops issuing at the next instruction boundary. -/
def State.haltCore (s : State) (core : Nat) : State :=
  (s.wr Reg.CRS_CORE_CTRL_HALT core 1).wr Reg.CRS_CORE_STATUS_STATE core 3
/-- RESUME: the core leaves HALTED, unless its tab is to be reloaded or it is quarantined. -/
def State.resumeCore (s : State) (core : Nat) : State :=
  let s := s.wr Reg.CRS_CORE_CTRL_HALT core 0
  if (s.core core).reload || (s.core core).quarantined then s else s.wr Reg.CRS_CORE_STATUS_STATE core 0
/-- The word of `CRS_CORE_CTRL` that a write of HALT or RESUME carries: the other settings of the selected core as they stand. -/
def State.coreCtrlWord (s : State) (who : Requester) (course act : Nat) : W32 :=
  match s.selCore (reqCode who) course with
  | some core => BitVec.ofNat 32 (act + 2 * s.rd Reg.CRS_CORE_CTRL_STEP1 core + 8 * s.rd Reg.CRS_CORE_CTRL_SCRUB_EN core)
  | none => BitVec.ofNat 32 act
/-- CLEAR of CRS_CORE_FAULT. -/
def State.clearCoreFault (s : State) (core : Nat) : State :=
  s.clearFields [Reg.CRS_CORE_FAULT_PC, Reg.CRS_CORE_FAULT_CLASS, Reg.CRS_CORE_FAULT_SLOT, Reg.CRS_CORE_FAULT_VALID] core

/-- A write of `CRS_CORE_CTRL.HALT` = 1. -/
def execCoreHalt (who : Requester) (course : Course) (s : State) : Host.Outcome State Fault Refusal :=
  .next (s.ownedAccess who (crsOffset course 0x4804) (s.coreCtrlWord who course 1) (fun s => s.onCore who course State.haltCore))
/-- A write of `CRS_CORE_CTRL.RESUME` = 1. -/
def execCoreResume (who : Requester) (course : Course) (s : State) : Host.Outcome State Fault Refusal :=
  .next (s.ownedAccess who (crsOffset course 0x4804) (s.coreCtrlWord who course 4) (fun s => s.onCore who course State.resumeCore))
/-- A write of `CRS_CORE_FAULT_CLR.CLEAR` = 1. -/
def execFaultClear (who : Requester) (course : Course) (s : State) : Host.Outcome State Fault Refusal :=
  .next (s.access who (crsOffset course 0x4824) (some 1) (fun s => s.onCore who course State.clearCoreFault))

end Sys2Proof.Machine
end

