-- ==== Sys2Proof/Machine/WriteOps.lean ====
section
/-! DEFINITION. Machine/WriteOps.lean: what a write of a register does, block by block: stored and latched fields, selectors, staged
fields and actions (R6, R9, R10, R270). -/
namespace Sys2Proof.Machine

/-! Storing -/

/-- Store a field; one that survives as NV and changes waits to be recorded (R440). -/
def State.storeField (s : State) (f : Field) (i v : Nat) : State :=
  if s.rd f i = v % 2 ^ f.width then s
  else if f.survives = .nv then (s.wr f i v).noteNv else s.wr f i v

/-- A half of a 64-bit field: the low half is latched, the high half commits both (R9). -/
def State.storeHalf (s : State) (who : Requester) (p : RegPlace) (a : Nat) (f : Field) (i v : Nat) : State :=
  if f.high p then
    let (w, s) := s.joinHalves who (a - 4) (s.rd f i) v
    s.storeField f i w
  else s.setLatch who a (some v)

/-- Fields of a course that take effect at its next boundary (R29): the check bands, where 0 is ignored, and the precision control. -/
def boundaryField (f : Field) : Bool := f.block == .crs && (f.offset == 0x400C || (decide (0x4400 ≤ f.offset) && decide (f.offset ≤ 0x4408)))
def State.storeBoundary (s : State) (f : Field) (i v : Nat) : State :=
  if f.offset = 0x400C ∧ v = 0 then s
  else
    let old := (SMap.find? s.cal.boundary (f.key i)).getD (s.rd f i)
    if old = v then s
    else
      let s := { s with cal := { s.cal with boundary := SMap.insert s.cal.boundary (f.key i) v } }
      if f.survives = .nv then s.noteNv else s

/-- What a write gives one field of its register. -/
def State.writeField (s : State) (who : Requester) (p : RegPlace) (a v : Nat) (f : Field) : State :=
  match s.copyAt who p f with
  | none => s
  | some i =>
    let x := bits v f.lsb f.width
    if f.width = 64 then s.storeHalf who p a f i v else if boundaryField f then s.storeBoundary f i x else s.storeField f i x

/-- Store the fields of a register that are RW or RWO. -/
def State.storeRegister (s : State) (who : Requester) (p : RegPlace) (a v : Nat) : State :=
  s.forEach ((fieldsAt p).filter (fun f => f.access == .rw || f.access == .rwo)) (fun s f => s.writeField who p a v f)

/-- A write of a register without an action of its own, by its access codes (Table 0.3): RW2 fields stage, RWO fields are the
owner's, RW fields store, the rest is discarded. -/
def State.plainWrite (s : State) (who : Requester) (p : RegPlace) (a v : Nat) : State :=
  let fs := fieldsAt p
  if fs.any (fun f => f.access == .rw2) then s.owned who a (fun s => s.stageWrite who a (BitVec.ofNat 32 v))
  else if fs.any (fun f => f.access == .rwo) then s.owned who a (fun s => s.storeRegister who p a v)
  else s.storeRegister who p a v

/-! The blocks -/

/-- The host interface (R269, R271). -/
def State.writeHif (s : State) (who : Requester) (p : RegPlace) (a v : Nat) : State :=
  if p.off = 0x20 then s.claim who v
  else if p.off = 0x2C then s.owned who a (fun s => if bit v 0 then s.offer else s)
  else if p.off = 0x30 then s.accept who v
  else s.plainWrite who p a v

/-- A mailbox or a doorbell register (R297 to R305). -/
def State.writeMbx (s : State) (who : Requester) (p : RegPlace) (a v : Nat) : State :=
  let m := p.copy
  let word := BitVec.ofNat 32 v
  let mine := fun (f : State → State) => match reqPort who with | some _ => f s | none => s
  match p.off with
  | 0 => if isSender who m then s.setLatch who a (some v) else s.foreignMail who a
  | 4 => s.mailWrite who m word
  | 12 => s.mailAck who m (bits v 0 16)
  | 16 => if isSender who m then s.wr Reg.MBX_TMO_US m (bits v 0 24) else s.foreignMail who a
  | 20 => if bit v 0 || !isSender who m then s.mailWithdraw who m else s
  | 0x800 => mine (fun s => s.clearDoorbells ((reqPort who).getD 0) word)
  | 0x804 => mine (fun s => s.writeMask ((reqPort who).getD 0) word)
  | _ => s.storeRegister who p a v

/-- Fields of `RCB_CFG` beside ENABLE. -/
def configFields : List Field := [Reg.RCB_CFG_KIND, Reg.RCB_CFG_CFMT, Reg.RCB_CFG_SIZE_EXP]

/-- A write of `RCB_CFG` (R279, R284): the kind and size are taken only while the ring is DISABLED. -/
def State.writeConfig (s : State) (r v : Nat) : State :=
  let s := if s.ringMode r = 0 then s.forEach configFields (fun s f => s.wr f r (bits v f.lsb f.width)) else s
  s.ringSwitch r (bits v 10 1)

/-- A ring control block (R276 to R284). -/
def State.writeRcb (s : State) (who : Requester) (p : RegPlace) (a v : Nat) : State :=
  let r := p.copy
  let o := p.off
  if o = 0 then s.plainWrite who p a v
  else if (fieldsAt p).all (fun f => f.access == .ro) then s
  else s.ringReg who r o (fun s =>
    if o = 4 then s.writeConfig r v
    else if o = 0x2C then s.ringCtrl r v
    else if o = 0xC ∨ s.ringMode r = 0 then s.storeRegister who p a v
    else s)

/-- The loader: the adapter pool's base stands while a slot is valid. -/
def State.writeLdr (s : State) (who : Requester) (p : RegPlace) (a v : Nat) : State :=
  if (p.off = 0x50 ∨ p.off = 0x54) ∧ (List.range 1024).any (fun k => s.is Reg.LDR_ADP_SLOT_VALID k) then s.owned who a id
  else s.plainWrite who p a v

/-- A ZL port: `LNK_CTRL` trains, retrains or disables (R318). -/
def State.writeLnk (s : State) (who : Requester) (p : RegPlace) (a v : Nat) : State :=
  if p.off ≠ 0 then s.plainWrite who p a v
  else s.owned who a (fun s =>
    let z := p.copy
    let s := s.forEach [Reg.LNK_CTRL_MODE, Reg.LNK_CTRL_MIN_LANES, Reg.LNK_CTRL_LANE_EN] (fun s f => s.storeField f z (bits v f.lsb f.width))
    if !bit v 0 then s.disablePort z
    else
      let s := s.storeField Reg.LNK_CTRL_ENABLE z 1
      if bit v 4 then s.retrainWrite z else s)

/-- `CAL_CMD` and `CAL_MCV_EN` act; the rest of the block stores. -/
def State.writeCal (s : State) (who : Requester) (p : RegPlace) (a v : Nat) : State :=
  if p.off = 0x40 then s.owned who a (fun s =>
    let s := (s.wr Reg.CAL_CMD_TEMP 0 (bits v 2 1)).wr Reg.CAL_CMD_ARRAYS 0 (bits v 3 1)
    let s := if bit v 0 then s.calStart (bit v 2) (bit v 3) else s
    if bit v 1 then s.calAbort else s)
  else if p.off = 0x70 then s.owned who a (fun s => if bit v 0 then (s.undeferStop stopMcv).wr Reg.CAL_MCV_EN_EN 0 1 else s.stop stopMcv)
  else s.plainWrite who p a v

/-- One register of `TRM_NAP_MASK`: each bit that differs commands its course (R377). -/
def State.writeNapMask (s : State) (n v : Nat) : State :=
  s.forEach ((List.range 32).filter (fun b => decide (32 * n + b < 100))) (fun s b =>
    if bit v b && bit (s.rd Reg.TRM_NAP_MASK_COURSE n) b then s else s.napWrite (32 * n + b) (bit v b))

/-- `TRM_PSTATE_CMD` (R377, R378). -/
def State.writePstate (s : State) (v : Nat) : State :=
  match bits v 0 2 with
  | 1 => s.commandNap (bit v 2)
  | 2 => s.commandRest (bit v 2)
  | t => s.commandActive t (bit v 2)

/-- Temperature and power. -/
def State.writeTrm (s : State) (who : Requester) (p : RegPlace) (a v : Nat) : State :=
  if p.off = 0x40 then s.owned who a (fun s => s.writePstate v)
  else if p.off = 0x48 then s.owned who a (fun s => s.writeNapMask p.copy v)
  else if p.off = 0x68 then s.owned who a (fun s => s.ackTrips v)
  else s.plainWrite who p a v

/-- `FLT_RST_CMD`: the rung of its KIND, with cause 0 (R408). -/
def State.commandRung (s : State) (v : Nat) : State :=
  let part := bits v 3 4
  let course := bits v 7 7
  let ctx := bits v 14 16
  match bits v 0 3 with
  | 1 => if (s.request ctx).part = part then s.contextReset ctx 0 else s
  | 2 => if course < 100 then s.startCourseReset course 0 else s
  | 3 => s.startPartitionReset part 0
  | 4 => s.chipReset 0
  | _ => s

/-- Faults, the log, field tests and resets. -/
def State.writeFlt (s : State) (who : Requester) (p : RegPlace) (a v : Nat) : State :=
  if p.off = 8 then s.owned who a (fun s => s.logRead v)
  else if p.off = 0xC then (if bit v 0 then s.wr Reg.FLT_STATUS_OVERFLOW 0 0 else s)
  else if p.off = 0x2C then s.owned who a (fun s => if bit v 0 then s.clearFirst else s)
  else if p.off = 0x60 then s.owned who a (fun s => s.fieldTestWrite v)
  else if p.off = 0x204 then s.owned who a (fun s => s.commandRung v)
  else s.plainWrite who p a v

/-- `SEC_FW_CMD`: what verifying the image at `SEC_FW_ADDR` shows is a free value. -/
def State.writeFirmware (s : State) (v : Nat) : State :=
  let s := if bit v 0 then
      let (n, s) := s.draw
      s.installImage (bit (Config.free32 n).toNat 12) (bits (Config.free32 n).toNat 0 12)
    else s
  if bit v 1 then s.commitSvn else s

/-- `SEC_TP_CMD`: more than one bit acts as ABORT alone (R434). -/
def State.writeStageCmd (s : State) (v : Nat) : State :=
  match bits v 0 3 with
  | 0 => s
  | 1 => s.sealStage
  | 4 => s.stageRollback
  | _ => s.discardStage 8

/-- Security: whether a key's bytes can be read in full is a free value. -/
def State.writeSec (s : State) (who : Requester) (p : RegPlace) (a v : Nat) : State :=
  if p.off = 8 then s.owned who a (fun s => s.writeFirmware v)
  else if p.off = 0x30 then s.owned who a (fun s => s.writeStageCmd v)
  else if p.off = 0xA0 then s.owned who a (fun s => let (n, s) := s.draw; s.stageKey v (bit (Config.free32 n).toNat 0))
  else s.plainWrite who p a v

/-- `CLK_KEEP` of the writing PF's port (R309). -/
def State.writeClk (s : State) (who : Requester) (p : RegPlace) (v : Nat) : State :=
  match p.off, pfPort who with
  | 0x20, some q =>
    let s := if bit v 1 then s.wr Reg.CLK_KEEP_LAPSED q 0 else s
    s.clockHold q (bit v 0)
  | _, _ => s

/-- `CRS_CORE_CTRL` of the selected core. A HALT stands against a RESUME of the same write. -/
def State.writeCoreCtrl (s : State) (v core : Nat) : State :=
  let s := (s.wr Reg.CRS_CORE_CTRL_STEP1 core (bits v 1 1)).wr Reg.CRS_CORE_CTRL_SCRUB_EN core (bits v 3 1)
  if bit v 0 then s.haltCore core
  else
    let s := s.wr Reg.CRS_CORE_CTRL_HALT core 0
    if bit v 2 then s.resumeCore core else s

/-- A course window. -/
def State.writeCrs (s : State) (who : Requester) (p : RegPlace) (a v : Nat) : State :=
  if p.off = 0x4034 then (if bit v 0 then s.capClear who p.copy else s)
  else if p.off = 0x4804 then s.owned who a (fun s => s.onCore who p.copy (fun s core => s.writeCoreCtrl v core))
  else if p.off = 0x4824 then (if bit v 0 then s.onCore who p.copy State.clearCoreFault else s)
  else s.plainWrite who p a v

/-! Any register -/

/-- A write of a VF (Table 8.4): selectors of the blocks it sees, its own rings, and what R270 reports of its partitions' registers.
The rest of its view is read-only. -/
def State.writeVf (s : State) (who : Requester) (p : RegPlace) (a v : Nat) : State :=
  let fs := fieldsAt p
  if fs.any (fun f => f.scope == .req) then s.storeRegister who p a v
  else match p.block with
    | .rcb => s.writeRcb who p a v
    | .srv | .ldr =>
      if fs.any (fun f => match s.copyAt who p f with | some i => s.sees who f i | none => false) then s.plainWrite who p a v else s
    | _ => s

/-- A write of a register at a BAR0 offset by a requester; one of an offset where nothing lies is discarded (R10). -/
def State.writeReg (s : State) (who : Requester) (a v : Nat) : State :=
  match msixWord who a with
  | some k => { s with host := { s.host with msix := SMap.put 0 s.host.msix k v } }
  | none =>
    match regPlace a with
    | none => s
    | some p =>
      if p.off % 4 ≠ 0 then s
      else if isVf who then s.writeVf who p a v
      else match p.block with
        | .hif => s.writeHif who p a v
        | .mbx => s.writeMbx who p a v
        | .rcb => s.writeRcb who p a v
        | .ldr => s.writeLdr who p a v
        | .lnk => s.writeLnk who p a v
        | .cal => s.writeCal who p a v
        | .trm => s.writeTrm who p a v
        | .flt => s.writeFlt who p a v
        | .sec => s.writeSec who p a v
        | .clk => s.writeClk who p v
        | .crs => s.writeCrs who p a v
        | .dma | .srv | .noc | .mcv | .prt => s.plainWrite who p a v

/-- A write of a doorbell page (R280). -/
def State.writeDoorbell (s : State) (fn : PciFn) (a v : Nat) : State :=
  let r := a / 4096
  match a % 4096 with
  | 0 => s.doorbell fn r a (fun s => s.newIndex r v)
  | 8 => s.doorbell fn r a (fun s => s.arm r v)
  | _ => s

/-! Held accesses (R308) -/

/-- A held access is a posted write. -/
def HeldAccess.posted (h : HeldAccess) : Bool := h.value.isSome || (match h.window with | some (.write _) => true | _ => false)

/-- The domain that a held access is for runs. -/
def State.mayProceed (s : State) (h : HeldAccess) : Bool :=
  match h.bar with
  | 0 => (s.stoppedDomain h.offset).isNone
  | 1 => true
  | _ => !(s.resting && s.inLanding h.offset 1)

/-- Make an access that was held. -/
def State.proceed (s : State) (h : HeldAccess) : State :=
  match h.bar, h.who with
  | 0, who =>
    let s := s.ungate h.offset
    (match h.value with
     | some v => s.writeReg who h.offset v.toNat
     | none => s.readReg who h.offset)
  | 1, .fn f => (match h.value with | some v => s.writeDoorbell f h.offset v.toNat | none => s)
  | _, .fn f => (match h.window with | some w => s.bar4Do f h.offset w | none => s)
  | _, _ => s

/-- The oldest access that may proceed, behind no held posted write, and the accesses it leaves. -/
def State.nextHeld (s : State) : List HeldAccess → Option (HeldAccess × List HeldAccess)
  | [] => none
  | h :: l =>
    if s.mayProceed h then some (h, l)
    else if h.posted then none
    else (s.nextHeld l).map (fun x => (x.1, h :: x.2))

/-- The oldest access of a crossing that may proceed does. -/
def State.releaseHeld (s : State) (lane : Nat) : State :=
  match s.nextHeld (s.heldAt lane) with
  | some (h, l) => (s.setHeld lane l).proceed h
  | none => s

end Sys2Proof.Machine
end

