-- ==== Sys2Proof/Machine/Registers.lean ====
section
/-! DEFINITION. Machine/Registers.lean: the register accesses (R6 to R10, R293, R308). -/
namespace Sys2Proof.Machine

/-- A 32-bit write at a BAR0 offset, by the access codes of its fields and the writer's rights (R6, R9, R10, R270). -/
def execRegisterWrite (who : Requester) (offset : BitVec 26) (value : W32) (s : State) : Host.Outcome State Fault Refusal :=
  .next (s.access who offset.toNat (some value) (fun s => s.writeReg who offset.toNat value.toNat))

/-- A write of a register with RW2 fields (R433): staged. -/
def State.writeStaged (s : State) (who : Requester) (a v : Nat) : State :=
  match regPlace a with
  | some p => if (stagedFields p).isEmpty then s else s.writeReg who a v
  | none => s

def execStagedWrite (who : Requester) (offset : BitVec 26) (value : W32) (s : State) : Host.Outcome State Fault Refusal :=
  .next (s.access who offset.toNat (some value) (fun s => s.writeStaged who offset.toNat value.toNat))

/-- A read at a BAR0 offset; of the low half of a 64-bit register it snapshots the high half for the requester (R9). -/
def execLowHalfRead (who : Requester) (offset : BitVec 26) (s : State) : Host.Outcome State Fault Refusal :=
  .next (s.access who offset.toNat none (fun s => s.readReg who offset.toNat))

/-- A read of `HIF_TIME_LO` (R293). -/
def execTimeRead (who : Requester) (s : State) : Host.Outcome State Fault Refusal :=
  .next (s.access who 0x18 none (fun s => s.readReg who 0x18))

/-- An access held at a stopped domain proceeds when its clock restarts (R308). -/
def execHeldAccessRelease (lane : Fin 6) (s : State) : Host.Outcome State Fault Refusal := .next (s.releaseHeld lane)

end Sys2Proof.Machine
end

