-- ==== Sys2Proof/Machine/Tiers.lean ====
section
/-! DEFINITION. Machine/Tiers.lean: programming tiers, spare arrays, and the boundary of a course (R29, R32, R60, R88, R187). -/
namespace Sys2Proof.Machine

/-- A program slot may run on an array now (R61, R450): it is clocked, untripped and in service, no latency-class tier MVM runs on
it, and none on the tier at hand. -/
def State.slotAllowed (s : State) (k tier : Nat) : Bool :=
  let course := courseOf (k / 9)
  let clear := match (s.array k).mvm with
    | some m => tagClass m.tag != 1 && m.tier != tier % 128
    | none => true
  s.board.powered && !s.thermal.tripped && !s.recovery.held && !s.pumpsOff && !s.recovery.courses.contains course && !s.courseNapped course &&
  decide (33 * s.time ≥ SMap.get 0 s.peg.busy k) && decide (s.rd Reg.CRS_ARR_STATUS_STATE k < 2) && clear

/-- The tile that an array is to program next may start: below the limit of arrays at once, and a repair only after the sweep. -/
def State.tileAllowed (s : State) (t : Tile) : Bool :=
  let repair := t.shard == 0xFFFFFFFF
  decide (s.programming < s.progLimit repair) && !(repair && s.peg.sweeping)

/-- One program slot of an array: the row at hand of the tier it programs, or the first row of the next tile that waits. -/
def State.programStep (s : State) (k : Nat) (rowDone : Bool) : State :=
  match (s.array k).prog with
  | some j => if s.slotAllowed k j.tile.tier then s.progSlot k j rowDone else s
  | none =>
    match s.takeTile k with
    | none => s
    | some (t, u) =>
      if !s.slotAllowed k t.tier || !s.tileAllowed t then s
      else
        let u := u.startTile k t
        match (u.array k).prog with
        | some j => u.progSlot k j rowDone
        | none => u

/-- PROGRAM_SLOT (R60, R61). -/
def execProgramSlot (core : Core) (array : Fin 9) (rowDone : Bool) (s : State) : Host.Outcome State Fault Refusal :=
  .next (s.programStep (arrayKey core array) rowDone)

/-- The management firmware maps a core's idle spare array in place of a failed one (R88). -/
def execSpareArrayMap (core : Core) (failed : Fin 8) (s : State) : Host.Outcome State Fault Refusal :=
  .next (if s.rd Reg.CRS_ARR_STATUS_STATE (arrayKey core 8) = 1 then (s.mapSpareArray core failed).settleSpareArray core else s)

/-- The spare array serves once every tier it needs is verified (R89). -/
def execSpareActive (core : Core) (s : State) : Host.Outcome State Fault Refusal := .next (s.settleSpareArray core)

/-! The boundary of a course -/

/-- A course switches its partition's fallback as `NOC_FALLBACK` sets it; its cores take the other tabs, and ACTIVE shows whether
fallback is in force on every course (R187). -/
def State.switchFallback (s : State) (course : Nat) : State :=
  match s.coursePart course with
  | none => s
  | some p =>
    let key := 100 * p + course
    let want := bit (s.rd Reg.NOC_FALLBACK_PART) p
    if s.fabric.fallback.contains key = want then s
    else
      let s := { s with fabric := { s.fabric with fallback := if want then s.fabric.fallback ++ [key] else s.fabric.fallback.filter (· != key) } }
      let s := s.reloadCourse course
      let all := (s.physCoursesOf p).all (fun c => s.fabric.fallback.contains (100 * p + c))
      s.wr Reg.NOC_FALLBACK_ACTIVE 0 (setBit (s.rd Reg.NOC_FALLBACK_ACTIVE) p all)

/-- A course that runs no step takes calibration and configuration that wait for it, its new partition, and fallback. -/
def State.courseBoundary (s : State) (course : Nat) : State :=
  if !s.courseIdle course then s
  else
    let s := s.takeConfig course
    let s := match s.logicalOf course with
      | some l => s.handCourse l
      | none => s
    (s.forEach (List.range 16) State.handRedundancy).switchFallback course

/-- COURSE_BOUNDARY (R29). -/
def execCourseBoundary (course : Course) (s : State) : Host.Outcome State Fault Refusal := .next (s.courseBoundary course)

end Sys2Proof.Machine
end

