-- ==== Sys2Proof/Machine/Elementary.lean ====
section
/-! DEFINITION. Machine/Elementary.lean: EXP, RCP and RSQRT within the bound of R145, and the negated logarithm of a probability
(R259). The manual bounds the relative error and fixes no result: the word is a free value, of the words within the bound. -/
namespace Sys2Proof.Machine

/-- The free word `v` where it meets the bound `ok`, or where no word does; else the word nearest to the exact result. -/
def bounded (ok : W32 → Bool) (nearest v : W32) : W32 := if ok v || !ok nearest then v else nearest

/-- `a / b · 2^t` differs from 1 by at most `n/d`. -/
def nearOne (n d a b : Nat) (t : Int) : Bool :=
  let x := a <<< t.toNat
  let y := b <<< (-t).toNat
  decide ((x - y) * d ≤ y * n ∧ (y - x) * d ≤ y * n)

/-- A quotient as an FP32 word. -/
def quotient32 (neg : Bool) (m : Nat) (e : Int) (n : Nat) (f : Int) : W32 :=
  BitVec.ofNat 32 ((packQuotient 8 23 0x7F7FFFFF m e n f).getD 0x7F800000 + (if neg then 2 ^ 31 else 0))

/-! RCP -/

/-- `v` is within 2^−22 of the reciprocal of `x`. -/
def rcpOk (x v : W32) : Bool :=
  match Fp.of32 x, Fp.of32 v with
  | .fin a m e, .fin b n f => a == b && nearOne 1 (2 ^ 22) (m * n) 1 (e + f)
  | _, _ => false
/-- The word nearest to a reciprocal. -/
def rcpNearest (x : W32) : W32 :=
  match Fp.of32 x with
  | .fin a m e => if m = 0 then 0 else quotient32 a 1 0 m e
  | _ => 0
def rcpWord (x : W32) : W32 := bounded (rcpOk x) (rcpNearest x) (Config.rcpValue x)

/-! RSQRT -/

/-- The integer square root of `n`, from bit `k - 1` down. -/
def sqrtFrom (n : Nat) : Nat → Nat → Nat
  | 0, acc => acc
  | k + 1, acc =>
    let x := acc + 2 ^ k
    sqrtFrom n k (if x * x ≤ n then x else acc)
/-- `v` is within 2^−22 of the reciprocal of the square root of `x`: `v² · x` lies between (1 − 2^−22)² and (1 + 2^−22)². -/
def rsqrtOk (x v : W32) : Bool :=
  match Fp.of32 x, Fp.of32 v with
  | .fin false m e, .fin false n f =>
    let t := e + 2 * f
    let p := (m * n * n) <<< t.toNat * 2 ^ 44
    let y := 1 <<< (-t).toNat
    decide ((2 ^ 22 - 1) ^ 2 * y ≤ p ∧ p ≤ (2 ^ 22 + 1) ^ 2 * y)
  | _, _ => false
/-- A word near the reciprocal of a square root: 2^60 over the root of a mantissa of even exponent, rounded once. -/
def rsqrtNearest (x : W32) : W32 :=
  match Fp.of32 x with
  | .fin false m e =>
    let m2 := if e % 2 = 0 then m else 2 * m
    let e2 := if e % 2 = 0 then e else e - 1
    if m = 0 then 0 else (Fp.fin false (sqrtFrom (2 ^ 120 / m2) 61 0) (-60 - e2 / 2)).to32
  | _ => 0
def rsqrtWord (x : W32) : W32 := bounded (rsqrtOk x) (rsqrtNearest x) (Config.rsqrtValue x)

/-! EXP -/

/-- `2^96 · e^(f/2^96)` for `f` at most 2^96: the terms of the series until they vanish. -/
def expSeries (f : Nat) : Nat → Nat → Nat → Nat
  | 0, _, _ => 0
  | n + 1, k, term => term + expSeries f n (k + 1) (term * f / (2 ^ 96 * (k + 1)))
def expFixed (f : Nat) : Nat := expSeries f 40 0 (2 ^ 96)
/-- e to the absolute value of a number below 128, as an integer times a power of two, to more than 80 bits. -/
def expAbs (m : Nat) (e : Int) : Nat × Int :=
  let x := if 0 ≤ e + 96 then m <<< (e + 96).toNat else m >>> (-(e + 96)).toNat
  let i := x / 2 ^ 96
  (expFixed (2 ^ 96) ^ i * expFixed (x % 2 ^ 96), -96 * (i + 1 : Nat))
/-- The bound of R145, widened by 2^−42 for the error of `expAbs`. -/
def expOk (x v : W32) : Bool :=
  match Fp.of32 x, Fp.of32 v with
  | .fin a m e, .fin false n f =>
    let r := expAbs m e
    absBelow m e 1 7 && (if a then nearOne (2 ^ 20 + 1) (2 ^ 42) (n * r.1) 1 (f + r.2) else nearOne (2 ^ 20 + 1) (2 ^ 42) n r.1 (f - r.2))
  | _, _ => false
/-- The word nearest to an exponential. -/
def expNearest (x : W32) : W32 :=
  match Fp.of32 x with
  | .fin a m e =>
    let r := expAbs m e
    if !absBelow m e 1 7 then 0 else if a then quotient32 false 1 0 r.1 r.2 else (Fp.fin false r.1 r.2).to32
  | _ => 0
def expWord (x : W32) : W32 := bounded (expOk x) (expNearest x) (Config.expValue x)

/-! LOGPROB -/

/-- `2^80 · ln((1 + z)/(1 − z)) / 2` for `z` in units of 2^−80. -/
def atanhSeries (z : Nat) : Nat → Nat → Nat → Nat
  | 0, _, _ => 0
  | n + 1, k, power => power / (2 * k + 1) + atanhSeries z n (k + 1) (power * z / 2 ^ 80 * z / 2 ^ 80)
/-- `2^80 · ln(m / 2^(floor(log2 m)))`. -/
def lnMantissa (m : Nat) : Nat :=
  let one := 2 ^ Nat.log2 m
  let z := (m - one) * 2 ^ 80 / (m + one)
  2 * atanhSeries z 40 0 z
/-- `2^80 · ln 2`: twice the series at one third. -/
def ln2 : Nat := 2 * atanhSeries (2 ^ 80 / 3) 40 0 (2 ^ 80 / 3)
/-- LOGPROB of a probability: min(0xFFFF, round(−ln p × 1,024)) (R259). A word that is no probability above 0 has none
stated. -/
def logProbWord (p : W32) : BitVec 16 :=
  match Fp.of32 p with
  | .fin false m e =>
    if m = 0 then 0xFFFF else
    let l : Int := lnMantissa m + topBit m e * ln2
    BitVec.ofNat 16 (min 0xFFFF ((-l * 1024 + 2 ^ 79) / 2 ^ 80).toNat)
  | _ => Config.logProb p

end Sys2Proof.Machine
end

