-- ==== Sys2Proof/Machine/Vector.lean ====
section
/-! DEFINITION. Machine/Vector.lean: the DTU and the vector unit (R125 to R129, R144, R145, R157 to R160). -/
namespace Sys2Proof.Machine

/-! The DTU (R126, R144) -/

/-- The exact sum of products of up to 32 elements of row r of A and column c of B, from depth k0. -/
def State.dtuChunk (s : State) (core a b : Nat) (oa ob : Operand) (bt : Bool) (r c k0 n : Nat) : Fp :=
  (List.range n).foldl (fun acc i =>
    let x := s.opElem core a oa r (k0 + i)
    let y := if bt then s.opElem core b ob c (k0 + i) else s.opElem core b ob (k0 + i) c
    Fp.add acc (Fp.mul x y)) Fp.zero

/-- One output element: exact integers for pairs without block scales, else one FP32 accumulation per 32 products; then
the two tensor scales (R126). -/
def State.dtuElem (s : State) (core a b : Nat) (oa ob : Operand) (bt : Bool) (r c : Nat) : W32 :=
  let k := oa.len
  let acc : W32 :=
    if isInt oa && isInt ob then (s.dtuChunk core a b oa ob bt r c 0 k).to32
    else (List.range ((k + 31) / 32)).foldl (fun (x : W32) j =>
      (Fp.add (Fp.of32 x) (s.dtuChunk core a b oa ob bt r c (32 * j) (min 32 (k - 32 * j)))).to32) 0
  let acc := if scaled oa then fpMul acc oa.ts else acc
  if scaled ob then fpMul acc ob.ts else acc

/-- B's shape: K rows of N columns, or N rows of K when stored transposed. -/
def dtuShape (ob : Operand) (bt : Bool) (k n : Nat) : Operand :=
  if bt then { ob with rows := n, len := k } else { ob with rows := k, len := n }

/-- The output of a DTU instruction, row by row. With QOUT, DESCB describes the output and B shares A's format. -/
def State.dtuOutput (s : State) (core : Nat) (w : W128) : List W32 :=
  let oa := s.operand core (wDesc w)
  let n := 32 * bits (wArg1 w) 0 6
  let bt := bit (wArg0 w) 0
  let ob := dtuShape (if bit (wArg0 w) 2 then oa else s.operand core (wDescb w)) bt oa.len n
  let a := s.granA core w
  let b := s.granB core w
  let old := if bit (wArg0 w) 1 then s.readWords core (s.granD core w) (oa.rows * n) else []
  (List.range oa.rows).flatMap (fun r => (List.range n).map (fun c =>
    let v := s.dtuElem core a b oa ob bt r c
    match old[r * n + c]? with
    | some x => fpAdd x v
    | none => v))

/-- DTU TILE: begins on a free DTU; its output waits for the end-of-tile comparison (R144, R384). -/
def execDtuTile (core : Core) (word : W128) (s : State) : Host.Outcome State Fault Refusal :=
  .next (s.issue core word 1 0 (fun s =>
    let c := s.core core
    if c.dtu.isSome then none
    else if (s.operand core (wDesc word)).len = 0 ∨ bits (wArg1 word) 0 6 = 0 then some ((s.advance core).retired core, false)
    else
      let (rd, wr) := s.spans core word
      let job : DtuJob := { word := word, slot := c.cur, tag := s.coreTag core, out := s.dtuOutput core word }
      some (s.setCore core { c with dtu := some job, pc := c.pc + 1, inflight := c.inflight ++ [⟨9, c.pc, c.cur, rd, wr⟩] }, false)))

/-- The DTU's instruction ends: its output is written. -/
def State.dtuCommit (s : State) (core : Nat) (j : DtuJob) : State :=
  let n := 32 * bits (wArg1 j.word) 0 6
  let d := s.granD core j.word
  let rows := runsOf n j.out
  let s := if bit (wArg0 j.word) 2 then s.writeOperand core d { s.operand core (wDescb j.word) with rows := rows.length, len := n } rows
    else s.writeWords core d j.out
  (((s.setCore core { s.core core with dtu := none }).landed core 9).retired core).settlePass core

/-- The end of the tile: the checksums agree and the output is written, or it is withheld: reported, counted, reissued once,
and at the second failure the slot is step-aborted (R384, R385). -/
def execDtuTileEnd (core : Core) (ok : Bool) (s : State) : Host.Outcome State Fault Refusal :=
  .next (match (s.core core).dtu with
    | none => s
    | some j =>
      if ok then s.dtuCommit core j
      else
        let s := s.report { sender := unitCore core 2, unit := unitCore core 2, cls := 4, tag := j.tag }
        let s := s.dtuFailure core j.tag
        if !j.reissue then s.setCore core { s.core core with dtu := some { j with reissue := true } }
        else
          let s := (s.setCore core { s.core core with dtu := none }).landed core 9
          match (s.core core).slots[j.slot]? with
          | some x => s.stepAbortOf (s.core core).part x.slotRec.context x.slotRec.step
          | none => s)

/-! The vector unit. A is described by DESC. An operation with a second vector source takes B by DESCB and writes D in
FP32, rows contiguous; one without takes DESCB for its output. -/

/-- Issue a VEC instruction; a source of LEN 0 completes it with no effect (R153). -/
def State.vec (s : State) (core : Nat) (w : W128) (op : Nat) (act : State → State) : State :=
  s.issue core w 2 op (done (fun s => if (s.operand core (wDesc w)).len = 0 then s else act s))

/-- Rows of a row operation: ARG0, 0 meaning 1 (Table 4.5). -/
def vecRows (w : W128) : Nat := max 1 (bits (wArg0 w) 0 4)

/-- An elementwise operation of A and B. -/
def State.vecBinary (s : State) (core : Nat) (w : W128) (op : Nat) (f : W32 → W32 → W32) : State :=
  s.vec core w op (fun s =>
    let oa := s.operand core (wDesc w)
    let ob := { s.operand core (wDescb w) with rows := oa.rows, len := oa.len }
    let rows := ((s.opRows core (s.granA core w) oa oa.rows).zip (s.opRows core (s.granB core w) ob oa.rows)).map
      (fun (x, y) => (x.zip y).map (fun (a, b) => f a b))
    s.writeOperand core (s.granD core w) (plain oa.len oa.rows) rows)

/-- An elementwise operation of A, its output described by DESCB. -/
def State.vecUnary (s : State) (core : Nat) (w : W128) (op : Nat) (f : W32 → W32) : State :=
  s.vec core w op (fun s =>
    let oa := s.operand core (wDesc w)
    let od := { s.operand core (wDescb w) with rows := oa.rows, len := oa.len }
    s.writeOperand core (s.granD core w) od ((s.opRows core (s.granA core w) oa oa.rows).map (fun r => r.map f)))

/-- A row reduction of A: one FP32 value a row, side by side at D. -/
def State.vecReduce (s : State) (core : Nat) (w : W128) (op : Nat) (f : List W32 → W32) : State :=
  s.vec core w op (fun s =>
    let oa := { s.operand core (wDesc w) with rows := vecRows w }
    s.writeWords core (s.granD core w) ((s.opRows core (s.granA core w) oa oa.rows).map f))

/-- COPY: format conversion. -/
def execVecCopy (core : Core) (word : W128) (s : State) : Host.Outcome State Fault Refusal :=
  .next (s.vecUnary core word 0 id)
/-- ADD. -/
def execVecAdd (core : Core) (word : W128) (s : State) : Host.Outcome State Fault Refusal :=
  .next (s.vecBinary core word 1 fpAdd)
/-- MUL. -/
def execVecMul (core : Core) (word : W128) (s : State) : Host.Outcome State Fault Refusal :=
  .next (s.vecBinary core word 2 fpMul)
/-- FMA: A × B + D, D read in FP32 as it stands. -/
def execVecFma (core : Core) (word : W128) (s : State) : Host.Outcome State Fault Refusal :=
  .next (s.vec core word 3 (fun s =>
    let oa := s.operand core (wDesc word)
    let ob := { s.operand core (wDescb word) with rows := oa.rows, len := oa.len }
    let od := plain oa.len oa.rows
    let d := s.granD core word
    let rows := ((s.opRows core (s.granA core word) oa oa.rows).zip ((s.opRows core (s.granB core word) ob oa.rows).zip (s.opRows core d od oa.rows))).map
      (fun (x, y, z) => (x.zip (y.zip z)).map (fun (a, b, c) => fpFma a b c))
    s.writeOperand core d od rows))
/-- MAX. -/
def execVecMax (core : Core) (word : W128) (s : State) : Host.Outcome State Fault Refusal :=
  .next (s.vecBinary core word 4 fpMax)
/-- ROWSCALE: each row of D times B of that row, times the scalar IMM. DESC describes D. -/
def execRowscale (core : Core) (word : W128) (s : State) : Host.Outcome State Fault Refusal :=
  .next (s.vec core word 5 (fun s =>
    let od := { s.operand core (wDesc word) with rows := vecRows word }
    let d := s.granD core word
    let b := s.opFlat core (s.granB core word) { s.operand core (wDescb word) with rows := 1, len := vecRows word }
    let rows := (s.opRows core d od od.rows).zipIdx.map (fun (r, i) =>
      r.map (fun v => fpMul (fpMul v (b.getD i 0)) (BitVec.ofNat 32 (wImm word))))
    s.writeOperand core d od rows))
/-- EXP. -/
def execExp (core : Core) (word : W128) (s : State) : Host.Outcome State Fault Refusal :=
  .next (s.vecUnary core word 6 expWord)
/-- RCP. -/
def execRcp (core : Core) (word : W128) (s : State) : Host.Outcome State Fault Refusal :=
  .next (s.vecUnary core word 7 rcpWord)
/-- RSQRT. -/
def execRsqrt (core : Core) (word : W128) (s : State) : Host.Outcome State Fault Refusal :=
  .next (s.vecUnary core word 8 rsqrtWord)
/-- ROWSUM. -/
def execRowsum (core : Core) (word : W128) (s : State) : Host.Outcome State Fault Refusal :=
  .next (s.vecReduce core word 9 fpSum)
/-- Maximum of a row. -/
def rowMax (l : List W32) : W32 := match l with | [] => fpNegInf | a :: r => r.foldl fpMax a
/-- ROWMAX. -/
def execRowmax (core : Core) (word : W128) (s : State) : Host.Outcome State Fault Refusal :=
  .next (s.vecReduce core word 10 rowMax)
/-- ROWSUMSQ. -/
def execRowsumsq (core : Core) (word : W128) (s : State) : Host.Outcome State Fault Refusal :=
  .next (s.vecReduce core word 11 (fun l => fpSum (l.map (fun v => fpMul v v))))

/-- Where the row sums of SMAXN and SMAXR lie: in the granules after the row maxima at B. -/
def State.sumGranule (s : State) (core : Nat) (w : W128) : Nat := s.granB core w + (vecRows w + 7) / 8

/-- SMAXN: per row m = max, p = exp(s − m) through the output quantiser to D, l = Σp; m at B and l after it (R157). -/
def execSmaxn (core : Core) (word : W128) (s : State) : Host.Outcome State Fault Refusal :=
  .next (s.vec core word 12 (fun s =>
    let oa := { s.operand core (wDesc word) with rows := vecRows word }
    let rows := s.opRows core (s.granA core word) oa oa.rows
    let m := rows.map rowMax
    let p := (rows.zip m).map (fun (r, x) => r.map (fun v => expWord (fpSub v x)))
    let od := { s.operand core (wDescb word) with rows := oa.rows, len := oa.len }
    let s := s.writeOperand core (s.granD core word) od p
    (s.writeWords core (s.granB core word) m).writeWords core (s.sumGranule core word) (p.map fpSum)))

/-- SMAXR: α = exp(m − M) per row; the rows of D and l are scaled by α. M at A, m at B and l after it, D by DESCB (R157). -/
def execSmaxr (core : Core) (word : W128) (s : State) : Host.Outcome State Fault Refusal :=
  .next (s.vec core word 13 (fun s =>
    let n := vecRows word
    let big := s.opFlat core (s.granA core word) { s.operand core (wDesc word) with rows := 1, len := n }
    let m := s.readWords core (s.granB core word) n
    let l := s.readWords core (s.sumGranule core word) n
    let alpha := (m.zip big).map (fun (x, y) => expWord (fpSub x y))
    let od := { s.operand core (wDescb word) with rows := n }
    let d := s.granD core word
    let rows := ((s.opRows core d od n).zip alpha).map (fun (r, a) => r.map (fun v => fpMul v a))
    (s.writeOperand core d od rows).writeWords core (s.sumGranule core word) ((l.zip alpha).map (fun (x, a) => fpMul x a))))

/-! Selection and sampling (R158, R159, R258 to R260) -/

/-- Insert a candidate (value, number) in falling order of value, ties to the lower number first. -/
def insertCandidate (x : W32 × Nat) : List (W32 × Nat) → List (W32 × Nat)
  | [] => [x]
  | y :: l =>
    if Fp.below (Fp.of32 y.1) (Fp.of32 x.1) || (y.1 == x.1 && decide (x.2 < y.2)) then x :: y :: l
    else y :: insertCandidate x l

/-- Candidates in falling order; a NaN is none (R260). -/
def rankCandidates (l : List (W32 × Nat)) : List (W32 × Nat) :=
  (l.filter (fun x => Fp.of32 x.1 != .nan)).foldr insertCandidate []

/-- TOPK: the k largest elements of A and their places: k FP32 values at D, then k 32-bit places in the next granules.
Fewer elements than k leave −∞ and 0xFFFF_FFFF. -/
def execTopk (core : Core) (word : W128) (s : State) : Host.Outcome State Fault Refusal :=
  .next (s.vec core word 14 (fun s =>
    let k := max 1 (min 64 (wImm word))
    let vs := s.opFlat core (s.granA core word) (s.operand core (wDesc word))
    let top := (rankCandidates vs.zipIdx).take k
    let d := s.granD core word
    let s := s.writeWords core d ((List.range k).map (fun i => (top.getD i (fpNegInf, 0)).1))
    s.writeWords core (d + (k + 7) / 8) ((List.range k).map (fun i =>
      match top[i]? with | some x => BitVec.ofNat 32 x.2 | none => 0xFFFFFFFF))))

/-- FP32 division. -/
def fpDiv (a b : W32) : W32 :=
  match Fp.of32 a, Fp.of32 b with
  | .fin x m e, .fin y n f =>
    if n = 0 then (if m = 0 then 0x7FC00000 else Fp.to32 (.inf (x != y)))
    else BitVec.ofNat 32 ((packQuotient 8 23 0x7F7FFFFF m e n f).getD 0x7F800000 + (if x != y then 2 ^ 31 else 0))
  | .nan, _ | _, .nan => 0x7FC00000
  | .inf _, .inf _ => 0x7FC00000
  | .inf x, .fin y _ _ => Fp.to32 (.inf (x != y))
  | .fin x _ _, .inf y => if x != y then 0x80000000 else 0

/-- The shortest run of probabilities, falling, whose sum reaches `p`; all of them if they never reach it (R258). -/
def nucleus (p : W32) : W32 → List (W32 × Nat) → List (W32 × Nat)
  | _, [] => []
  | acc, x :: l =>
    let acc := fpAdd acc x.1
    if Fp.below (Fp.of32 acc) (Fp.of32 p) then x :: nucleus p acc l else [x]

/-- The candidate that a uniform variate falls on, over probabilities whose sum is `z`. -/
def drawCandidate (u z : W32) : W32 → List (W32 × Nat) → Option (W32 × Nat)
  | _, [] => none
  | _, [x] => some x
  | acc, x :: l =>
    let acc := fpAdd acc x.1
    if Fp.below (Fp.of32 (fpMul u z)) (Fp.of32 acc) then some x else drawCandidate u z acc l

/-- Probabilities of ranked candidates: +∞ logits share equally; else exp(scaled − max) ÷ Z (R258, R260). -/
def candidateProbs (scaled : List (W32 × Nat)) (top z : W32) : List (W32 × Nat) :=
  let n := (scaled.filter (fun x => Fp.of32 x.1 == .inf false)).length
  if n = 0 then scaled.map (fun x => (fpDiv (expWord (fpSub x.1 top)) z, x.2))
  else scaled.map (fun x => (if Fp.of32 x.1 == .inf false then fpDiv 0x3F800000 (Fp.ofInt n 0).to32 else 0, x.2))

/-- SAMPLE: A holds the candidates' logits, B their token IDs and, in the granule after them, the maximum, Z and the
uniform variate; IMM is the temperature; TOP_K and TOP_P are the request's. D receives the token and its LOGPROB (R258,
R259). -/
def execSample (core : Core) (word : W128) (s : State) : Host.Outcome State Fault Refusal :=
  .next (s.vec core word 15 (fun s =>
    let oa := s.operand core (wDesc word)
    let vs := s.opFlat core (s.granA core word) oa
    let b := s.granB core word
    let ids := s.readWords core b vs.length
    let extra := s.readWords core (b + (vs.length + 7) / 8) 3
    let temp := BitVec.ofNat 32 (wImm word)
    let greedy := wImm word % 2 ^ 31 == 0
    let r := match s.curSlot core with | some x => s.request x.slotRec.context | none => {}
    let cands := rankCandidates ((vs.zip ids).map (fun (v, i) => (if greedy then v else fpDiv v temp, i.toNat)))
    let kept := if r.topK = 0 then cands else cands.take r.topK
    let probs := candidateProbs kept (extra.getD 0 0) (extra.getD 1 0)
    let topP := (Fp.ofInt (r.topP.toNat : Nat) (-16)).to32
    let probs := if greedy then probs.take 1 else if r.topP.toNat = 0 then probs else nucleus topP 0 probs
    match drawCandidate (extra.getD 2 0) (fpSum (probs.map Prod.fst)) 0 probs with
    | some (p, t) => s.writeWords core (s.granD core word) [BitVec.ofNat 32 t, BitVec.ofNat 32 (logProbWord p).toNat]
    | none => s))

/-- RAND: a uniform variate keyed by the request's seed and the token position (R159). -/
def execRand (core : Core) (word : W128) (s : State) : Host.Outcome State Fault Refusal :=
  .next (s.issue core word 2 16 (done (fun s =>
    let seed := match s.curSlot core with | some x => (s.request x.slotRec.context).seed | none => 0
    s.writeWords core (s.granD core word) [Config.randValue seed (s.ix core 2)])))

/-- The recurrence h = a · h + b along a row. -/
def scanRow (h : W32) : List (W32 × W32) → List W32
  | [] => []
  | (a, b) :: l => let h := fpFma a h b; h :: scanRow h l

/-- SCAN: h_t = a_t · h_{t−1} + b_t over NTOK positions of each row; the state before the first is D's first element of the
row as it stands (R160). -/
def execScan (core : Core) (word : W128) (s : State) : Host.Outcome State Fault Refusal :=
  .next (s.vec core word 17 (fun s =>
    let oa := s.operand core (wDesc word)
    let n := s.ix core 3
    let oa := { oa with len := min oa.len n }
    let ob := { s.operand core (wDescb word) with rows := oa.rows, len := oa.len }
    let od := plain oa.len oa.rows
    let d := s.granD core word
    let rows := (List.range oa.rows).map (fun r =>
      scanRow (s.opValue core d od r 0) ((List.range oa.len).map (fun c =>
        (s.opValue core (s.granA core word) oa r c, s.opValue core (s.granB core word) ob r c))))
    s.writeOperand core d od rows))

end Sys2Proof.Machine
end

