-- ==== Sys2Proof/Machine/Dispatch.lean ====
section
/-! DEFINITION. Machine/Dispatch.lean: one arm per command, each a direct call of its meaning. -/
namespace Sys2Proof.Machine

/-- The effect of a command on everything but the queue. -/
def exec (i : Instr) (s : State) : Host.Outcome State Fault Refusal :=
  match i with
  | .registerWrite who offset value => Sys2Proof.Machine.execRegisterWrite who offset value s
  | .lowHalfRead who offset => Sys2Proof.Machine.execLowHalfRead who offset s
  | .timeRead who => Sys2Proof.Machine.execTimeRead who s
  | .tierMvm core word carried => Sys2Proof.Machine.execTierMvm core word carried s
  | .conversion core array => Sys2Proof.Machine.execConversion core array s
  | .tierMvmComplete core array lowest => Sys2Proof.Machine.execTierMvmComplete core array lowest s
  | .tmvmAbort core array => Sys2Proof.Machine.execTmvmAbort core array s
  | .reemit core tag channel level => Sys2Proof.Machine.execReemit core tag channel level s
  | .replayBlocksArrive core array level groups => Sys2Proof.Machine.execReplayBlocksArrive core array level groups s
  | .recoveryPass core array blocks => Sys2Proof.Machine.execRecoveryPass core array blocks s
  | .programSlot core array rowDone => Sys2Proof.Machine.execProgramSlot core array rowDone s
  | .capClear who course => Sys2Proof.Machine.execCapClear who course s
  | .spareArrayMap core failed => Sys2Proof.Machine.execSpareArrayMap core failed s
  | .spareActive core => Sys2Proof.Machine.execSpareActive core s
  | .courseBoundary course => Sys2Proof.Machine.execCourseBoundary course s
  | .dtuTile core word => Sys2Proof.Machine.execDtuTile core word s
  | .dtuTileEnd core ok => Sys2Proof.Machine.execDtuTileEnd core ok s
  | .vecCopy core word => Sys2Proof.Machine.execVecCopy core word s
  | .vecAdd core word => Sys2Proof.Machine.execVecAdd core word s
  | .vecMul core word => Sys2Proof.Machine.execVecMul core word s
  | .vecFma core word => Sys2Proof.Machine.execVecFma core word s
  | .vecMax core word => Sys2Proof.Machine.execVecMax core word s
  | .rowscale core word => Sys2Proof.Machine.execRowscale core word s
  | .exp core word => Sys2Proof.Machine.execExp core word s
  | .rcp core word => Sys2Proof.Machine.execRcp core word s
  | .rsqrt core word => Sys2Proof.Machine.execRsqrt core word s
  | .rowsum core word => Sys2Proof.Machine.execRowsum core word s
  | .rowmax core word => Sys2Proof.Machine.execRowmax core word s
  | .rowsumsq core word => Sys2Proof.Machine.execRowsumsq core word s
  | .smaxn core word => Sys2Proof.Machine.execSmaxn core word s
  | .smaxr core word => Sys2Proof.Machine.execSmaxr core word s
  | .topk core word => Sys2Proof.Machine.execTopk core word s
  | .sample core word => Sys2Proof.Machine.execSample core word s
  | .rand core word => Sys2Proof.Machine.execRand core word s
  | .scan core word => Sys2Proof.Machine.execScan core word s
  | .send core word => Sys2Proof.Machine.execSend core word s
  | .recv core word => Sys2Proof.Machine.execRecv core word s
  | .recvred core word => Sys2Proof.Machine.execRecvred core word s
  | .redAdd core word => Sys2Proof.Machine.execRedAdd core word s
  | .redMax core word => Sys2Proof.Machine.execRedMax core word s
  | .barArriveWait core word => Sys2Proof.Machine.execBarArriveWait core word s
  | .flagAdd core word => Sys2Proof.Machine.execFlagAdd core word s
  | .waitGe core word => Sys2Proof.Machine.execWaitGe core word s
  | .streamLoad core word => Sys2Proof.Machine.execStreamLoad core word s
  | .streamStore core word => Sys2Proof.Machine.execStreamStore core word s
  | .kvload core word => Sys2Proof.Machine.execKvload core word s
  | .kvstore core word => Sys2Proof.Machine.execKvstore core word s
  | .adload core word => Sys2Proof.Machine.execAdload core word s
  | .gather core word => Sys2Proof.Machine.execGather core word s
  | .ctrlForeach core word => Sys2Proof.Machine.execCtrlForeach core word s
  | .ctrlEndeach core word => Sys2Proof.Machine.execCtrlEndeach core word s
  | .ctrlSeti core word => Sys2Proof.Machine.execCtrlSeti core word s
  | .ctrlAddi core word => Sys2Proof.Machine.execCtrlAddi core word s
  | .ctrlDivc core word => Sys2Proof.Machine.execCtrlDivc core word s
  | .ctrlBr core word => Sys2Proof.Machine.execCtrlBr core word s
  | .ctrlLoop core word => Sys2Proof.Machine.execCtrlLoop core word s
  | .ctrlLayer core word => Sys2Proof.Machine.execCtrlLayer core word s
  | .ctrlEnd core word => Sys2Proof.Machine.execCtrlEnd core word s
  | .stepAbort part context step => Sys2Proof.Machine.execStepAbort part context step s
  | .cancelFlit core tag => Sys2Proof.Machine.execCancelFlit core tag s
  | .tabWatchdog core => Sys2Proof.Machine.execTabWatchdog core s
  | .tabScrub core outcome => Sys2Proof.Machine.execTabScrub core outcome s
  | .tabReloadComplete core => Sys2Proof.Machine.execTabReloadComplete core s
  | .coreHalt who course => Sys2Proof.Machine.execCoreHalt who course s
  | .coreResume who course => Sys2Proof.Machine.execCoreResume who course s
  | .faultClear who course => Sys2Proof.Machine.execFaultClear who course s
  | .flitArrive router input flit parityOk adderOk credit => Sys2Proof.Machine.execFlitArrive router input flit parityOk adderOk credit s
  | .reductionContribution core flit adderOk => Sys2Proof.Machine.execReductionContribution core flit adderOk s
  | .barrierArrive course flit => Sys2Proof.Machine.execBarrierArrive course flit s
  | .barrierRelease core tag number => Sys2Proof.Machine.execBarrierRelease core tag number s
  | .flagAddArrive core flag value tag => Sys2Proof.Machine.execFlagAddArrive core flag value tag s
  | .mapUpdate update => Sys2Proof.Machine.execMapUpdate update s
  | .mapApplied => Sys2Proof.Machine.execMapApplied s
  | .linkWatchdog router input => Sys2Proof.Machine.execLinkWatchdog router input s
  | .fabricSelfTestDone completed failed => Sys2Proof.Machine.execFabricSelfTestDone completed failed s
  | .beginLoad ring desc plan => Sys2Proof.Machine.execBeginLoad ring desc plan s
  | .shardPosted ring desc => Sys2Proof.Machine.execShardPosted ring desc s
  | .endStream ring desc => Sys2Proof.Machine.execEndStream ring desc s
  | .commit ring desc => Sys2Proof.Machine.execCommit ring desc s
  | .rollback ring desc => Sys2Proof.Machine.execRollback ring desc s
  | .release ring desc => Sys2Proof.Machine.execRelease ring desc s
  | .abort ring desc => Sys2Proof.Machine.execAbort ring desc s
  | .adapterLoad ring desc blob => Sys2Proof.Machine.execAdapterLoad ring desc blob s
  | .adapterFree ring desc => Sys2Proof.Machine.execAdapterFree ring desc s
  | .shadowRebuild ring desc => Sys2Proof.Machine.execShadowRebuild ring desc s
  | .shadowRebuildDone part => Sys2Proof.Machine.execShadowRebuildDone part s
  | .manifestArrival part bytes signed image => Sys2Proof.Machine.execManifestArrival part bytes signed image s
  | .manifestTimeout part => Sys2Proof.Machine.execManifestTimeout part s
  | .shardComplete part index digestOk wellFormed contents => Sys2Proof.Machine.execShardComplete part index digestOk wellFormed contents s
  | .shardTimeout part index => Sys2Proof.Machine.execShardTimeout part index s
  | .relayHead port part stream kind index len => Sys2Proof.Machine.execRelayHead port part stream kind index len s
  | .relayData port stream data => Sys2Proof.Machine.execRelayData port stream data s
  | .relayReq port part index position => Sys2Proof.Machine.execRelayReq port part index position s
  | .epochPrepare part msg => Sys2Proof.Machine.execEpochPrepare part msg s
  | .epochReady part msg => Sys2Proof.Machine.execEpochReady part msg s
  | .scaleCalibrationDone part overflow maxCh => Sys2Proof.Machine.execScaleCalibrationDone part overflow maxCh s
  | .epochPrepared part msg => Sys2Proof.Machine.execEpochPrepared part msg s
  | .epochRefused part msg => Sys2Proof.Machine.execEpochRefused part msg s
  | .epochCommit part msg => Sys2Proof.Machine.execEpochCommit part msg s
  | .epochAbort part msg => Sys2Proof.Machine.execEpochAbort part msg s
  | .epochRetire part msg => Sys2Proof.Machine.execEpochRetire part msg s
  | .prepareTimeout part => Sys2Proof.Machine.execPrepareTimeout part s
  | .generate ring entry => Sys2Proof.Machine.execGenerate ring entry s
  | .cancel ring entry => Sys2Proof.Machine.execCancel ring entry s
  | .prefixDrop ring entry => Sys2Proof.Machine.execPrefixDrop ring entry s
  | .passFormation part => Sys2Proof.Machine.execPassFormation part s
  | .stepComplete context result => Sys2Proof.Machine.execStepComplete context result s
  | .tokenWrite context => Sys2Proof.Machine.execTokenWrite context s
  | .completionWrite context => Sys2Proof.Machine.execCompletionWrite context s
  | .admitMessage part message => Sys2Proof.Machine.execAdmitMessage part message s
  | .passMessage part message records => Sys2Proof.Machine.execPassMessage part message records s
  | .short part message => Sys2Proof.Machine.execShort part message s
  | .servingRelease part message => Sys2Proof.Machine.execServingRelease part message s
  | .deadlineExpiry context => Sys2Proof.Machine.execDeadlineExpiry context s
  | .pagewaitTimeout context => Sys2Proof.Machine.execPagewaitTimeout context s
  | .pauseResume context => Sys2Proof.Machine.execPauseResume context s
  | .cancelDrainComplete context => Sys2Proof.Machine.execCancelDrainComplete context s
  | .portReset port cause => Sys2Proof.Machine.execPortReset port cause s
  | .flr fn => Sys2Proof.Machine.execFlr fn s
  | .flrComplete fn cfg => Sys2Proof.Machine.execFlrComplete fn cfg s
  | .d3hotEntry fn => Sys2Proof.Machine.execD3hotEntry fn s
  | .ownClaim who nonce => Sys2Proof.Machine.execOwnClaim who nonce s
  | .handoverOffer who => Sys2Proof.Machine.execHandoverOffer who s
  | .handoverAccept who nonce => Sys2Proof.Machine.execHandoverAccept who nonce s
  | .handoverExpiry => Sys2Proof.Machine.execHandoverExpiry s
  | .reclaim nonce signer => Sys2Proof.Machine.execReclaim nonce signer s
  | .ringEnable who ring => Sys2Proof.Machine.execRingEnable who ring s
  | .ringDisable who ring => Sys2Proof.Machine.execRingDisable who ring s
  | .ringStop who ring => Sys2Proof.Machine.execRingStop who ring s
  | .ringResume who ring => Sys2Proof.Machine.execRingResume who ring s
  | .dbIndex fn ring value => Sys2Proof.Machine.execDbIndex fn ring value s
  | .dbArm fn ring value => Sys2Proof.Machine.execDbArm fn ring value s
  | .coalesceTimer ring => Sys2Proof.Machine.execCoalesceTimer ring s
  | .copyIn ring desc => Sys2Proof.Machine.execCopyIn ring desc s
  | .copyOut ring desc => Sys2Proof.Machine.execCopyOut ring desc s
  | .zero ring desc => Sys2Proof.Machine.execZero ring desc s
  | .dmaPiece ring hostData => Sys2Proof.Machine.execDmaPiece ring hostData s
  | .pageRequestResponse ring code => Sys2Proof.Machine.execPageRequestResponse ring code s
  | .pageRequestTimeout ring => Sys2Proof.Machine.execPageRequestTimeout ring s
  | .atsInvalidation port page pages => Sys2Proof.Machine.execAtsInvalidation port page pages s
  | .mailboxCommit who m high => Sys2Proof.Machine.execMailboxCommit who m high s
  | .mailboxAck who m code => Sys2Proof.Machine.execMailboxAck who m code s
  | .mailboxWithdraw who m => Sys2Proof.Machine.execMailboxWithdraw who m s
  | .mailboxTimeout m => Sys2Proof.Machine.execMailboxTimeout m s
  | .echo m => Sys2Proof.Machine.execEcho m s
  | .mbxDbClear port bits => Sys2Proof.Machine.execMbxDbClear port bits s
  | .mbxDbMaskWrite port mask => Sys2Proof.Machine.execMbxDbMaskWrite port mask s
  | .clockHold port hold => Sys2Proof.Machine.execClockHold port hold s
  | .holdLapse port => Sys2Proof.Machine.execHoldLapse port s
  | .heldAccessRelease lane => Sys2Proof.Machine.execHeldAccessRelease lane s
  | .trainingStart port signal => Sys2Proof.Machine.execTrainingStart port signal s
  | .trainingDone port locked => Sys2Proof.Machine.execTrainingDone port locked s
  | .trainingTimeout port => Sys2Proof.Machine.execTrainingTimeout port s
  | .fullHello port hello signed => Sys2Proof.Machine.execFullHello port hello signed s
  | .helloTimeout port => Sys2Proof.Machine.execHelloTimeout port s
  | .shortHello port digest => Sys2Proof.Machine.execShortHello port digest s
  | .helloReq port => Sys2Proof.Machine.execHelloReq port s
  | .helloTimer port => Sys2Proof.Machine.execHelloTimer port s
  | .linkReplay port seq => Sys2Proof.Machine.execLinkReplay port seq s
  | .laneFail port lane => Sys2Proof.Machine.execLaneFail port lane s
  | .laneDrop port lane seq => Sys2Proof.Machine.execLaneDrop port lane seq s
  | .goodbye port => Sys2Proof.Machine.execGoodbye port s
  | .partnerLoss port => Sys2Proof.Machine.execPartnerLoss port s
  | .retrain who port => Sys2Proof.Machine.execRetrain who port s
  | .portDisable who port => Sys2Proof.Machine.execPortDisable who port s
  | .msg port flit quality => Sys2Proof.Machine.execMsg port flit quality s
  | .chainWaitTimeout part => Sys2Proof.Machine.execChainWaitTimeout part s
  | .tierDue core array tier => Sys2Proof.Machine.execTierDue core array tier s
  | .tierOverdue core array tier => Sys2Proof.Machine.execTierOverdue core array tier s
  | .probePass core array codes => Sys2Proof.Machine.execProbePass core array codes s
  | .verifyRead core array row cells => Sys2Proof.Machine.execVerifyRead core array row cells s
  | .retuneSlot core array row cells => Sys2Proof.Machine.execRetuneSlot core array row cells s
  | .fullVerifySweep tiers => Sys2Proof.Machine.execFullVerifySweep tiers s
  | .sweepComplete => Sys2Proof.Machine.execSweepComplete s
  | .calStart who temp arrays => Sys2Proof.Machine.execCalStart who temp arrays s
  | .calAbort who => Sys2Proof.Machine.execCalAbort who s
  | .calStep m => Sys2Proof.Machine.execCalStep m s
  | .recalibrationTrigger course => Sys2Proof.Machine.execRecalibrationTrigger course s
  | .mcvResult value overload => Sys2Proof.Machine.execMcvResult value overload s
  | .mcvResultRead who => Sys2Proof.Machine.execMcvResultRead who s
  | .mcvDropRead who => Sys2Proof.Machine.execMcvDropRead who s
  | .sensorSample sensor reading => Sys2Proof.Machine.execSensorSample sensor reading s
  | .powerInterval p pu => Sys2Proof.Machine.execPowerInterval p pu s
  | .capAlert => Sys2Proof.Machine.execCapAlert s
  | .capAlertDeassert => Sys2Proof.Machine.execCapAlertDeassert s
  | .trayCapSet alert watts => Sys2Proof.Machine.execTrayCapSet alert watts s
  | .scanStall sensor => Sys2Proof.Machine.execScanStall sensor s
  | .tripAck who seq => Sys2Proof.Machine.execTripAck who seq s
  | .idleGate course => Sys2Proof.Machine.execIdleGate course s
  | .courseNap who course nap => Sys2Proof.Machine.execCourseNap who course nap s
  | .pstateNap who autowake => Sys2Proof.Machine.execPstateNap who autowake s
  | .napEntryComplete => Sys2Proof.Machine.execNapEntryComplete s
  | .pstateRest who autowake => Sys2Proof.Machine.execPstateRest who autowake s
  | .restEntry => Sys2Proof.Machine.execRestEntry s
  | .pstateActive who autowake => Sys2Proof.Machine.execPstateActive who autowake s
  | .patrolScrub address outcome => Sys2Proof.Machine.execPatrolScrub address outcome s
  | .redundancyCompare core chan producer twinProducer analog => Sys2Proof.Machine.execRedundancyCompare core chan producer twinProducer analog s
  | .twinWaitExpiry core chan late => Sys2Proof.Machine.execTwinWaitExpiry core chan late s
  | .auditComparison core instr expected => Sys2Proof.Machine.execAuditComparison core instr expected s
  | .auditAbandon core instr => Sys2Proof.Machine.execAuditAbandon core instr s
  | .standAloneAudit core instr codes expected => Sys2Proof.Machine.execStandAloneAudit core instr codes expected s
  | .auditRollback part context version window unit => Sys2Proof.Machine.execAuditRollback part context version window unit s
  | .confirmation core array passed => Sys2Proof.Machine.execConfirmation core array passed s
  | .fieldTestStart who value => Sys2Proof.Machine.execFieldTestStart who value s
  | .fieldTestAbort who value => Sys2Proof.Machine.execFieldTestAbort who value s
  | .fieldTestDone failures => Sys2Proof.Machine.execFieldTestDone failures s
  | .faultReport sender unit cls tag => Sys2Proof.Machine.execFaultReport sender unit cls tag s
  | .aggregationWindowClose agg => Sys2Proof.Machine.execAggregationWindowClose agg s
  | .dieLogWrite => Sys2Proof.Machine.execDieLogWrite s
  | .logRdWrite who index => Sys2Proof.Machine.execLogRdWrite who index s
  | .ffcClear who => Sys2Proof.Machine.execFfcClear who s
  | .stepWatchdog core slot => Sys2Proof.Machine.execStepWatchdog core slot s
  | .courseHeartbeatMiss course => Sys2Proof.Machine.execCourseHeartbeatMiss course s
  | .partitionHeartbeatMiss part => Sys2Proof.Machine.execPartitionHeartbeatMiss part s
  | .firmwareWatchdog => Sys2Proof.Machine.execFirmwareWatchdog s
  | .resetOverrun target => Sys2Proof.Machine.execResetOverrun target s
  | .contextReset part context cause => Sys2Proof.Machine.execContextReset part context cause s
  | .courseReset course cause => Sys2Proof.Machine.execCourseReset course cause s
  | .courseResetComplete course => Sys2Proof.Machine.execCourseResetComplete course s
  | .partitionReset part cause => Sys2Proof.Machine.execPartitionReset part cause s
  | .chipReset cause => Sys2Proof.Machine.execChipReset cause s
  | .devReset => Sys2Proof.Machine.execDevReset s
  | .resetNotice part notice => Sys2Proof.Machine.execResetNotice part notice s
  | .powerUp facts => Sys2Proof.Machine.execPowerUp facts s
  | .aonPowerOnReset => Sys2Proof.Machine.execAonPowerOnReset s
  | .railExcursion rail tooHigh => Sys2Proof.Machine.execRailExcursion rail tooHigh s
  | .railRecovery rail => Sys2Proof.Machine.execRailRecovery rail s
  | .railExcursionTimeout rail => Sys2Proof.Machine.execRailExcursionTimeout rail s
  | .stackRailTimeout => Sys2Proof.Machine.execStackRailTimeout s
  | .crystalLoss => Sys2Proof.Machine.execCrystalLoss s
  | .refclkSysLoss => Sys2Proof.Machine.execRefclkSysLoss s
  | .refclkSysRestore => Sys2Proof.Machine.execRefclkSysRestore s
  | .pcieRefclkLoss port => Sys2Proof.Machine.execPcieRefclkLoss port s
  | .dynamicAddressAssignment assigned => Sys2Proof.Machine.execDynamicAddressAssignment assigned s
  | .firmwareInstall who signed svn => Sys2Proof.Machine.execFirmwareInstall who signed svn s
  | .commitSvn who => Sys2Proof.Machine.execCommitSvn who s
  | .stagedWrite who offset value => Sys2Proof.Machine.execStagedWrite who offset value s
  | .keyStage who value readable => Sys2Proof.Machine.execKeyStage who value readable s
  | .seal who => Sys2Proof.Machine.execSeal who s
  | .stageAbort who => Sys2Proof.Machine.execStageAbort who s
  | .configRollback who => Sys2Proof.Machine.execConfigRollback who s
  | .approve channel a => Sys2Proof.Machine.execApprove channel a s
  | .stageTimeout => Sys2Proof.Machine.execStageTimeout s
  | .getStage channel offset => Sys2Proof.Machine.execGetStage channel offset s
  | .getNonce channel => Sys2Proof.Machine.execGetNonce channel s
  | .generationRecord => Sys2Proof.Machine.execGenerationRecord s
  | .negotiateAlgorithms channel falcon => Sys2Proof.Machine.execNegotiateAlgorithms channel falcon s
  | .getMeasurements channel index nonce signed => Sys2Proof.Machine.execGetMeasurements channel index nonce signed s
  | .getCertificate channel slot offset length => Sys2Proof.Machine.execGetCertificate channel slot offset length s
  | .challenge channel slot nonce => Sys2Proof.Machine.execChallenge channel slot nonce s
  | .keyExchange channel slot session exchange => Sys2Proof.Machine.execKeyExchange channel slot session exchange s
  | .barMaxRead who => Sys2Proof.Machine.execBarMaxRead who s
  | .peakRead who => Sys2Proof.Machine.execPeakRead who s
  | .napExitComplete => Sys2Proof.Machine.execNapExitComplete s
  | .crystalReturn => Sys2Proof.Machine.execCrystalReturn s
  | .pcieLinkUp port rate width ide cfg => Sys2Proof.Machine.execPcieLinkUp port rate width ide cfg s
  | .devResetRelease => Sys2Proof.Machine.execDevResetRelease s
  | .bar4Access fn offset access => Sys2Proof.Machine.execBar4Access fn offset access s
  | .atsTranslationCompletion ring readable writable => Sys2Proof.Machine.execAtsTranslationCompletion ring readable writable s

end Sys2Proof.Machine
end

