-- ==== Sys2Proof/Machine/Tick.lean ====
section
/-! DEFINITION. Machine/Tick.lean: what happens at a nanosecond of local time whatever is commanded: the model's step on an empty
queue. -/
namespace Sys2Proof.Machine

/-- The counters of milliseconds spent with WARN, THROT and CAPPED, at each whole millisecond. -/
def State.countMs (s : State) : State :=
  if s.time % 1000000 ≠ 0 then s
  else
    let s := if s.is Reg.TRM_STATUS_WARN then s.bump Reg.TRM_CNT_WARN_MS_MS else s
    let s := if s.is Reg.TRM_STATUS_THROT then s.bump Reg.TRM_CNT_THROT_MS_MS else s
    if s.is Reg.TRM_STATUS_CAPPED then s.bump Reg.TRM_CNT_CAPPED_MS_MS else s

/-- Local time advances by 1 ns, and with it the issue-scaled time (R54, R407). -/
def State.passTime (s : State) : State :=
  { s with time := s.time + 1, thermal := { s.thermal with scaled := s.thermal.scaled + s.rd Reg.TRM_CLAMP_F } }

/-- One nanosecond: routers forward a flit per output, held map updates, the loader's stopped clocks and the die-log writer move on,
deferred stops and passes that wait start. Nothing runs without VDD_AON. -/
def State.tick (s : State) : State :=
  if !s.board.powered then s
  else
    let s := ((((s.passTime).fabricTick).mapTick).loaderTick).writerTick
    (s.releaseStops.forEach (List.range 16) State.startWaiting).countMs

end Sys2Proof.Machine
end

