-- ==== Sys2Proof/Safety.lean ====
section
/-! DEFINITION. Safety.lean: what counts as a good state: every sparse map in its one canonical form, and every register field within
its width. -/
namespace Sys2Proof.Machine

/-- A memory is in canonical form: addresses strictly rise, and no entry equals 0, what an unlisted address reads as. -/
def memoryOk (m : List Host.Cell) : Bool := SMap.wf 0 m

/-- The value stored under a key differs from its copy's Reset value and fits its field. -/
def regEntryOk (e : Nat × Nat) : Bool :=
  match fieldOfKey e.1 with
  | some f => decide (e.2 < 2 ^ f.width) && decide (e.2 ≠ f.resetAt (e.1 % 16777216))
  | none => false

/-- The memories of a state are in canonical form. -/
def State.memoriesOk (s : State) : Bool := memoryOk s.stack && memoryOk s.dsram && memoryOk s.tsram

/-- Register keys strictly rise, so that a field has one stored value. -/
def State.regsSorted (s : State) : Bool := SMap.sorted s.regs

/-- A good state. -/
def State.good (s : State) : Bool := s.memoriesOk && s.regsSorted

/-! The terms in which the statements speak of commands -/

/-- The command answers a next state, and that state is as `P` says. -/
def State.does (s : State) (c : Instr) (P : State → Prop) : Prop := ∃ t, exec c s = .next t ∧ P t

/-- An access of a requester at a BAR0 offset is made at once: the requester is served, a VF sees the offset, its domain runs, and no
posted write of its port is held (R10, R274, R275, R308). -/
def State.reaches (s : State) (who : Requester) (offset : Nat) : Bool :=
  s.served who && !(isVf who && vfHidden offset) && (s.stoppedDomain offset).isNone && !s.blocked who

/-- The same of a register that only the owner's PF and the management firmware write (R270). -/
def State.reachesOwned (s : State) (who : Requester) (offset : Nat) : Bool := s.reaches who offset && s.mayRwo who

/-- A write of a ring's doorbell page is made at once. -/
def State.reachesDoorbell (s : State) (fn : PciFn) : Bool := s.served (.fn fn) && !s.blocked (.fn fn)

/-- The word is of a class and operation, and the sequencer of the core issues it now: a pass runs, nothing is parked or in conflict,
and the current slot takes part (R146, R148). -/
def State.issues (s : State) (core : Nat) (w : W128) (cls op : Nat) : Bool :=
  s.sequencing core && decide (wClass w < 11) && wClass w == cls && wOp w == op && !s.skips core w && s.mayIssue core w

/-- The parts of the state beside the registers and the queue. -/
inductive StatePart where
  | time | latches | snapshots | fault | host | mail | serving | loader | arrays | cells | cores | fabric | link | peg | cal | mcv
  | thermal | recovery | sec | board | stack | dsram | tsram | out | fresh
deriving DecidableEq, Repr

/-- A part is the same in two states. -/
def StatePart.same (s t : State) : StatePart → Prop
  | .time => t.time = s.time | .latches => t.latches = s.latches | .snapshots => t.snapshots = s.snapshots
  | .fault => t.fault = s.fault | .host => t.host = s.host | .mail => t.mail = s.mail | .serving => t.serving = s.serving
  | .loader => t.loader = s.loader | .arrays => t.arrays = s.arrays | .cells => t.cells = s.cells | .cores => t.cores = s.cores
  | .fabric => t.fabric = s.fabric | .link => t.link = s.link | .peg => t.peg = s.peg | .cal => t.cal = s.cal
  | .mcv => t.mcv = s.mcv | .thermal => t.thermal = s.thermal | .recovery => t.recovery = s.recovery | .sec => t.sec = s.sec
  | .board => t.board = s.board | .stack => t.stack = s.stack | .dsram => t.dsram = s.dsram | .tsram => t.tsram = s.tsram
  | .out => t.out = s.out | .fresh => t.fresh = s.fresh

/-- Beside the parts and the register fields named, the second state is the first: every other part, and every copy of every other
register field. -/
def State.sameBut (s t : State) (parts : List StatePart) (fields : List Field) : Prop :=
  (∀ p, p ∉ parts → p.same s t) ∧ (∀ f ∈ Reg.table, (∀ g ∈ fields, f.id ≠ g.id) → ∀ i, t.rd f i = s.rd f i)

/-- Every other copy of a register field is as it was. -/
def State.otherCopies (s t : State) (f : Field) (i : Nat) : Prop := ∀ j, j % 16777216 ≠ i % 16777216 → t.rd f j = s.rd f j

/-- A saturating counter field has counted `n` more. -/
def State.counts (s t : State) (f : Field) (i : Nat := 0) (n : Nat := 1) : Prop := t.rd f i = min (s.rd f i + n) (2 ^ f.width - 1)

/-! Data SRAM, and an instruction that completes at once -/

/-- The FP32 word at a byte address of a core's data SRAM. -/
def State.wordAt (s : State) (core a : Nat) : W32 := BitVec.ofNat 32 (leNat (s.dataRead core a 4))

/-- Every byte of data SRAM, of every core, is as it was, but for `n` bytes of one core from an address up. -/
def State.bytesKept (s t : State) (core a n : Nat) : Prop :=
  ∀ x, x < dataSize * core + a ∨ dataSize * core + a + n ≤ x → SMap.get 0 t.dsram x = SMap.get 0 s.dsram x

/-- The core is past one instruction, which has retired. Beside it, its data SRAM, and the fields and parts named, nothing changes. -/
def State.retires (s t : State) (core : Nat) (fields : List Field := []) (parts : List StatePart := []) : Prop :=
  (t.core core).pc = (s.core core).pc + 1 ∧ s.counts t Reg.CRS_CORE_RETIRE_COUNT core ∧ (∀ k, k ≠ core → t.core k = s.core k) ∧
  s.sameBut t (.cores :: .dsram :: parts) (Reg.CRS_CORE_RETIRE_COUNT :: Reg.CRS_CORE_STATUS_STATE :: fields)

/-- The instruction that issues at the core waits there: nothing else changes but that a step of the core has halted it. -/
def State.parks (s t : State) (core : Nat) (p : Park) (parts : List StatePart := []) : Prop :=
  t.core core = { s.core core with park := some p } ∧ (∀ k, k ≠ core → t.core k = s.core k) ∧
  s.sameBut t (.cores :: parts) [Reg.CRS_CORE_STATUS_STATE]

/-- An operand of contiguous FP32 words. -/
def fp32Rows (o : Operand) : Prop := o.fmt = 15 ∧ o.stride = 0 ∧ o.trans = false

/-- Rows of FP32 words lie contiguously from a granule up, below the batch window; every byte outside them is as it was. -/
def State.holdsRows (s t : State) (core g rows len : Nat) (v : Nat → Nat → W32) : Prop :=
  (∀ r c, r < rows → c < len → t.wordAt core (32 * g + 4 * (r * len + c)) = v r c) ∧ s.bytesKept t core (32 * g) (4 * (rows * len))

/-! Rings -/

/-- The next entry of a host-producer ring of a kind is at hand: the ring may consume it, its fetch lies in a granting window, and its
page is there (R280, R281, R288 to R290). -/
def State.takes (s : State) (r kind : Nat) : Bool :=
  s.ringReady r kind && s.fetchOk r &&
  (s.xlate (s.ringFn r) (s.entryAddress r (s.rd Reg.RCB_HEAD_INDEX r) (entrySize (s.ringKind r))) false == .granted)

/-- An entry has been written to a device-producer ring, or waits for room there (R234). -/
def State.gives (s t : State) (q size value : Nat) : Prop :=
  (∃ i a, .ringEntry q i a size value ∈ t.out.drop s.out.length) ∨ (size, value) ∈ (t.ringState q).held

/-- The next descriptor of a LOAD ring is well-formed and of an operation, for a partition that the ring's function exposes. -/
def State.takesLoad (s : State) (r op : Nat) (d : BitVec 512) : Bool :=
  s.takes r kindLoad && ldOp d == op && decide (1 ≤ op) && decide (op ≤ 10) && s.exposes (s.ringFn r) (ldPart d) && ldReserved d

/-- The completion of a load descriptor has been given. -/
def State.givesLoad (s t : State) (r : Nat) (d : BitVec 512) (c : LoadDone) : Prop :=
  s.gives t (s.rd Reg.RCB_PAIR_CPL r) 32 (loadWord (ldCookie d) (ldOp d) (ldPart d) s.now c)

/-- The next submission of a SUBMIT ring is at hand, of an operation, and the serving engine takes it (R230, R231). -/
def State.takesSubmit (s : State) (r op : Nat) (e : BitVec 512) : Bool :=
  s.consumes (s.ringPart r) && s.takes r kindSubmit && !((s.ringState r).stalled && (s.freeEntry? (s.ringPart r)).isNone) &&
  sbOp e == op && decide (1 ≤ op) && decide (op ≤ 3)

/-- A ring writes an entry now: it has room, its window grants it, and its function's requests go out untranslated. -/
def State.writesNow (s : State) (q size n : Nat) : Bool :=
  s.ringRoom q n && s.windowOk (s.ringPart q) (s.ringFn q) (s.rd Reg.RCB_BASE_ADDR q) (size * s.ringCap q) true && !(s.fnState (s.ringFn q)).ats

/-! What each command may change. A group of register fields is named for what changes them. -/

/-- Fields that change when reports and records of faults are counted (R400, R405). -/
def Reg.reports : List Field :=
  [Reg.FLT_CNT_REPORT_COUNT, Reg.FLT_CNT_RECORD_COUNT]
/-- Fields that change when an epoch retires, and its tiers lose their formats (R207). -/
def Reg.retirement : List Field :=
  [Reg.CRS_ARR_TFMT_WIDTH, Reg.CRS_ARR_TFMT_SIGNED, Reg.CRS_ARR_TFMT_GAIN, Reg.CRS_ARR_TFMT_PARTIAL_FMT, Reg.CRS_ARR_TFMT_VERIFIED, Reg.CRS_ARR_TFMT_PROGRAMMING, Reg.LDR_EPOCH_NUMBER, Reg.LDR_EPOCH_STATE, Reg.LDR_EPOCH_HOLD, Reg.LDR_EPOCH_REFS, Reg.LNK_CNT_TX_COUNT]
/-- Fields that change when an adapter loses a reference (R221). -/
def Reg.adapters : List Field :=
  [Reg.LDR_ADP_SLOT_VALID, Reg.LDR_ADP_SLOT_RESIDENT, Reg.LDR_ADP_SLOT_SUPERSEDED, Reg.LDR_ADP_SLOT_REFS]
/-- Fields that change when work is dropped at cores (R161, R162). -/
def Reg.dropping : List Field :=
  [Reg.CRS_CORE_RETIRE_COUNT, Reg.CRS_CORE_EVENTS_ABORTS]
/-- Fields that change when a context reset (R410). -/
def Reg.contextRung : List Field :=
  [Reg.FLT_RST_STATUS_KIND, Reg.FLT_RST_STATUS_CAUSE, Reg.FLT_RST_STATUS_COURSE, Reg.FLT_RST_STATUS_PARTITION, Reg.FLT_RST_STATUS_OVERRUN, Reg.FLT_RST_TIME_TIME, Reg.FLT_RST_CNT_CTX_COUNT]
/-- Fields that change when a core halts on an error of its tab SRAM (R142, R150). -/
def Reg.coreStop : List Field :=
  [Reg.CRS_CORE_STATUS_STATE, Reg.CRS_CORE_ECC_TS_UE, Reg.CRS_CORE_FAULT_PC, Reg.CRS_CORE_FAULT_CLASS, Reg.CRS_CORE_FAULT_SLOT, Reg.CRS_CORE_FAULT_VALID]
/-- Fields that change when the output quantiser counts (R109). -/
def Reg.quantiser : List Field :=
  [Reg.CRS_PRC_NONFINITE_COUNT, Reg.CRS_PRC_CO_FLUSH_COUNT, Reg.CRS_PRC_CO_SAT_COUNT]
/-- Fields that change when a device-producer ring takes an entry (R278, R281 to R283, R290). -/
def Reg.ringOutput : List Field :=
  [Reg.RCB_TAIL_INDEX, Reg.RCB_STATUS_STATE, Reg.RCB_STATUS_ERR, Reg.RCB_STATUS_ARMED, Reg.RCB_STATUS_FAULT_WAIT, Reg.RCB_COUNT_ENTRIES, Reg.DMA_CNT_PRQ_COUNT, Reg.DMA_CNT_PFAIL_COUNT, Reg.FLT_CNT_REPORT_COUNT, Reg.FLT_CNT_RECORD_COUNT]
/-- Fields that change when an access is held at a stopped domain (R308). -/
def Reg.stall : List Field :=
  [Reg.CLK_STALL_DOMAIN, Reg.CLK_STALL_TOTAL]
/-- Fields that change when a write that is not the owner's is discarded (R270). -/
def Reg.discard : List Field :=
  [Reg.HIF_NOW_CNT_NONOWNER, Reg.HIF_NOW_LAST_OFFSET, Reg.HIF_NOW_LAST_FUNCTION, Reg.HIF_NOW_LAST_BAR, Reg.HIF_NOW_LAST_HI_OFFSET_HI]
/-- Fields that change when the firmware posts to a mailbox (R297, R305). -/
def Reg.mailOutput : List Field :=
  [Reg.MBX_DB_IN, Reg.MBX_DB_OUT, Reg.MBX_DATA_WORD, Reg.MBX_STATUS_FULL, Reg.MBX_STATUS_TMO, Reg.MBX_STATUS_REJ, Reg.MBX_ACK_VALID]
/-- Fields that change when a load ends (R203). -/
def Reg.loadEnd : List Field :=
  [Reg.LDR_LOAD_STATE, Reg.LDR_LOAD_ERR_CODE, Reg.LDR_LOAD_ERR_REASON, Reg.LDR_LOAD_ERR_NOFIT_MASK, Reg.LDR_LOAD_ERR_DETAIL, Reg.LDR_LOAD_BAD_SHARD]
/-- Fields that change when a core is given a tab (R143). -/
def Reg.tab : List Field :=
  [Reg.CRS_CORE_TAB_NINSTR, Reg.CRS_CORE_TAB_NDESC, Reg.CRS_CORE_TAB_EPOCH]
/-- Fields that change when a row tile climbs the precision ladder (R110 to R123). -/
def Reg.ladder : List Field :=
  [Reg.CRS_PRC_REPLAY_COUNT, Reg.CRS_PRC_TRIP_FLUSH_COUNT]
/-- Fields that change when a pass begins at a core (R146). -/
def Reg.passStart : List Field :=
  [Reg.CRS_CORE_PASS_LAYER, Reg.CRS_CORE_PASS_NLIVE]
/-- Fields that change when a record takes its number (R405). -/
def Reg.dieLog : List Field :=
  [Reg.FLT_STATUS_FFC_COUNT, Reg.FLT_STATUS_FFC_LAST]
/-- Fields that change when an offer of ownership ends (R271). -/
def Reg.offer : List Field :=
  [Reg.HIF_OWN_STATUS_OFFER, Reg.HIF_OWN_STATUS_ABANDONED, Reg.HIF_OWN_HANDOVER_OFFER]
/-- Fields that change when a stage ends (R437). -/
def Reg.stageEnd : List Field :=
  [Reg.SEC_TP_STATUS_STATE, Reg.SEC_TP_STATUS_ERR, Reg.SEC_TP_STATUS_ENTRIES]
/-- Fields that change when the maps of the fabric are written (R189 to R192). -/
def Reg.maps : List Field :=
  [Reg.NOC_SPARE_MAP_REPLACED, Reg.NOC_SPARE_MAP_SPARE_FAILED, Reg.NOC_COURSE_MAP_PHYS, Reg.NOC_COURSE_MAP_OUT, Reg.NOC_FAIL_LINK, Reg.NOC_FAIL_ROUTER, Reg.NOC_FAIL_ATTACH, Reg.NOC_FAIL_EXPRESS]
/-- Fields that a reset of a strength returns (Table 0.4). -/
def Reg.weaker (n : Nat) : List Field := Reg.table.filter (fun f => decide (f.survives.rank < n))
/-- The register fields that a command may change. A register access by offset may change any. -/
def changesFields : Instr → List Field
  | .registerWrite _ _ _ | .courseBoundary _ | .heldAccessRelease _ | .powerUp _ | .stagedWrite _ _ _ | .approve _ _ =>
    Reg.table
  | .lowHalfRead _ _ | .timeRead _ =>
    Reg.stall ++ [Reg.NOC_BAR_MAX_CLOCKS, Reg.MCV_QSTAT_COUNT, Reg.MCV_DROP_COUNT, Reg.TRM_PEAK_TEMP, Reg.TRM_PEAK_SENSOR]
  | .tierMvm _ _ _ =>
    Reg.reports ++ Reg.retirement ++ Reg.adapters ++ Reg.dropping ++ Reg.contextRung ++ Reg.coreStop ++ Reg.ladder ++
      [Reg.CRS_ARR_DENSE_COUNT, Reg.CRS_CORE_EVENTS_TNR, Reg.SRV_CNT_PAGEWAIT_COUNT, Reg.CAL_PEG_CNT_INTRUDE_COUNT]
  | .conversion _ _ =>
    [Reg.CRS_ARR_SAT_CNT_COUNT, Reg.CRS_ARR_CONV_COUNT]
  | .tierMvmComplete _ _ _ =>
    Reg.reports ++ Reg.retirement ++ Reg.adapters ++ Reg.dropping ++ Reg.contextRung ++ Reg.quantiser ++
      [Reg.CRS_ARR_STATUS_STATE, Reg.CRS_ARR_CHK_CNT_C0_FAIL, Reg.CRS_ARR_CHK_CNT_C1_ONLY, Reg.CRS_ARR_DENSE_COUNT,
      Reg.CRS_ARR_CAP_STATUS_COUNT, Reg.CRS_ARR_CAP_STATUS_LOST, Reg.CRS_ARR_CAP_STATUS_WRAP, Reg.CRS_PRC_TRIP_SAT_COUNT,
      Reg.CRS_PRC_REPLAY_COUNT, Reg.CRS_PRC_HOVF_COUNT, Reg.CRS_PRC_DEGRADED_COUNT, Reg.FLT_QUAR_CNT_QUAR,
      Reg.FLT_QUAR_CNT_CONFIRMED, Reg.FLT_AUDIT_ABANDON_COUNT, Reg.FLT_FT_LIB_ENTRIES]
  | .tmvmAbort _ _ | .reemit _ _ _ _ | .epochReady _ _ | .flrComplete _ _ | .tierDue _ _ _ | .recalibrationTrigger _
  | .idleGate _ | .railExcursionTimeout _ | .dynamicAddressAssignment _ | .getStage _ _ | .getNonce _ | .negotiateAlgorithms _ _
  | .getMeasurements _ _ _ _ | .getCertificate _ _ _ _ | .challenge _ _ _ | .keyExchange _ _ _ _ =>
    []
  | .replayBlocksArrive _ _ _ _ =>
    Reg.ladder ++ [Reg.CRS_ARR_DENSE_COUNT]
  | .recoveryPass _ _ _ =>
    [Reg.CRS_ARR_DENSE_COUNT, Reg.CRS_PRC_HREC_COUNT]
  | .programSlot _ _ _ =>
    Reg.reports ++ Reg.retirement ++ Reg.ringOutput ++ Reg.loadEnd ++ [Reg.CRS_ARR_STATUS_PROG, Reg.CRS_ARR_STATUS_PTIER,
      Reg.CRS_ARR_WEAR_MAX_CYCLES, Reg.CRS_ARR_SPARE_MAP_ACTIVE, Reg.NOC_SPARE_MAP_ACTIVE, Reg.LDR_LOAD_EPOCH,
      Reg.LDR_LOAD_SHARDS_DONE, Reg.LDR_SHADOW_EN, Reg.LDR_SHADOW_READY, Reg.SRV_PART_KVGEO_STREAMS, Reg.SRV_PART_KVGEO_LOG2_TP,
      Reg.FLT_PROG_LOST_PART]
  | .capClear _ _ =>
    Reg.stall ++ [Reg.CRS_ARR_CAP_STATUS_COUNT, Reg.CRS_ARR_CAP_STATUS_LOST, Reg.CRS_ARR_CAP_STATUS_WRAP]
  | .spareArrayMap _ _ =>
    [Reg.CRS_ARR_TFMT_VERIFIED, Reg.CRS_ARR_STATUS_STATE, Reg.CRS_ARR_SPARE_MAP_REPLACED, Reg.CRS_ARR_SPARE_MAP_ACTIVE,
      Reg.CRS_ARR_SPARE_MAP_SYS_MOVED]
  | .spareActive _ =>
    [Reg.CRS_ARR_SPARE_MAP_ACTIVE]
  | .dtuTile _ _ | .rowsum _ _ | .rowmax _ _ | .rowsumsq _ _ | .topk _ _ | .sample _ _ | .rand _ _ | .send _ _ | .recv _ _
  | .recvred _ _ | .redAdd _ _ | .redMax _ _ | .barArriveWait _ _ | .flagAdd _ _ | .waitGe _ _ | .streamLoad _ _
  | .streamStore _ _ | .kvload _ _ | .kvstore _ _ | .adload _ _ | .gather _ _ | .ctrlForeach _ _ | .ctrlEndeach _ _
  | .ctrlSeti _ _ | .ctrlAddi _ _ | .ctrlDivc _ _ | .ctrlBr _ _ | .ctrlLoop _ _ | .ctrlEnd _ _ =>
    Reg.reports ++ Reg.retirement ++ Reg.adapters ++ Reg.dropping ++ Reg.contextRung ++ Reg.coreStop
  | .dtuTileEnd _ _ =>
    Reg.reports ++ Reg.retirement ++ Reg.adapters ++ Reg.dropping ++ Reg.contextRung ++ Reg.quantiser ++
      [Reg.CRS_CORE_STATUS_STATE, Reg.FLT_QUAR_CNT_QUAR]
  | .vecCopy _ _ | .vecAdd _ _ | .vecMul _ _ | .vecFma _ _ | .vecMax _ _ | .rowscale _ _ | .exp _ _ | .rcp _ _ | .rsqrt _ _
  | .smaxn _ _ | .smaxr _ _ | .scan _ _ =>
    Reg.reports ++ Reg.retirement ++ Reg.adapters ++ Reg.dropping ++ Reg.contextRung ++ Reg.coreStop ++ Reg.quantiser
  | .ctrlLayer _ _ =>
    Reg.reports ++ Reg.retirement ++ Reg.adapters ++ Reg.dropping ++ Reg.contextRung ++ Reg.coreStop ++ Reg.passStart ++
      [Reg.SRV_CNT_PREEMPT_COUNT]
  | .stepAbort _ _ _ | .contextReset _ _ _ =>
    Reg.retirement ++ Reg.adapters ++ Reg.dropping ++ Reg.contextRung
  | .cancelFlit _ _ =>
    Reg.reports ++ Reg.dropping
  | .tabWatchdog _ =>
    Reg.weaker 2 ++ Reg.reports ++ Reg.retirement ++ Reg.adapters ++ Reg.contextRung ++ Reg.dieLog ++ [Reg.FLT_STATUS_OVERFLOW,
      Reg.FLT_CNT_LOST_COUNT, Reg.FLT_RST_CNT_COURSE_COUNT]
  | .tabScrub _ _ =>
    Reg.reports ++ Reg.retirement ++ Reg.adapters ++ Reg.dropping ++ Reg.contextRung ++ Reg.coreStop ++ [Reg.CRS_CORE_ECC_TS_CE]
  | .tabReloadComplete _ =>
    [Reg.CRS_CORE_STATUS_STATE]
  | .coreHalt _ _ | .coreResume _ _ =>
    Reg.stall ++ Reg.discard ++ [Reg.CRS_CORE_STATUS_STATE, Reg.CRS_CORE_CTRL_HALT]
  | .faultClear _ _ =>
    Reg.stall ++ [Reg.CRS_CORE_FAULT_PC, Reg.CRS_CORE_FAULT_CLASS, Reg.CRS_CORE_FAULT_SLOT, Reg.CRS_CORE_FAULT_VALID]
  | .flitArrive _ _ _ _ _ _ =>
    Reg.reports ++ Reg.dropping ++ [Reg.CRS_CORE_STATUS_STATE, Reg.NOC_FALLBACK_PART, Reg.NOC_FAIL_LINK, Reg.NOC_FAIL_ATTACH,
      Reg.NOC_MAP_GEN_PENDING, Reg.NOC_RETRY_COUNT, Reg.NOC_COMBCHK_COUNT, Reg.NOC_DROP_COUNT, Reg.NOC_BAR_MAX_CLOCKS,
      Reg.LNK_CNT_TX_COUNT]
  | .reductionContribution _ _ _ =>
    Reg.reports ++ [Reg.CRS_CORE_STATUS_STATE, Reg.CRS_CORE_RETIRE_COUNT, Reg.NOC_FALLBACK_PART, Reg.NOC_COMBCHK_COUNT,
      Reg.NOC_DROP_COUNT]
  | .barrierArrive _ _ =>
    Reg.reports ++ Reg.dropping ++ [Reg.CRS_CORE_STATUS_STATE, Reg.NOC_FALLBACK_PART, Reg.NOC_COMBCHK_COUNT, Reg.NOC_DROP_COUNT,
      Reg.NOC_BAR_MAX_CLOCKS, Reg.LNK_CNT_TX_COUNT]
  | .barrierRelease _ _ _ =>
    Reg.reports ++ [Reg.CRS_CORE_STATUS_STATE, Reg.CRS_CORE_RETIRE_COUNT, Reg.NOC_DROP_COUNT, Reg.NOC_BAR_MAX_CLOCKS]
  | .flagAddArrive _ _ _ _ =>
    Reg.reports ++ [Reg.CRS_CORE_STATUS_STATE, Reg.CRS_CORE_RETIRE_COUNT, Reg.NOC_DROP_COUNT]
  | .mapUpdate _ =>
    Reg.retirement ++ Reg.dropping ++ Reg.tab ++ Reg.maps ++ [Reg.NOC_SPARE_MAP_ACTIVE, Reg.NOC_MAP_GEN_PENDING]
  | .mapApplied =>
    Reg.retirement ++ Reg.adapters ++ Reg.dropping ++ Reg.contextRung ++ [Reg.NOC_MAP_GEN_GEN, Reg.NOC_MAP_GEN_PENDING]
  | .linkWatchdog _ _ =>
    Reg.reports ++ [Reg.NOC_FAIL_LINK, Reg.NOC_FAIL_ATTACH, Reg.NOC_MAP_GEN_PENDING]
  | .fabricSelfTestDone _ _ =>
    Reg.weaker 5 ++ Reg.retirement ++ Reg.dieLog ++ [Reg.NOC_FAIL_LINK, Reg.NOC_FAIL_ATTACH, Reg.LNK_STATUS_STATE,
      Reg.LNK_STATUS_LANES, Reg.TRM_PSTATE_STATE, Reg.FLT_STATUS_OVERFLOW, Reg.FLT_CNT_LOST_COUNT, Reg.FLT_RST_STATUS_KIND,
      Reg.FLT_RST_STATUS_CAUSE, Reg.FLT_RST_STATUS_COURSE, Reg.FLT_RST_STATUS_PARTITION, Reg.FLT_RST_STATUS_OVERRUN,
      Reg.FLT_RST_TIME_TIME, Reg.FLT_RST_CNT_CHIP_COUNT, Reg.FLT_HB_STATUS_PART_LATE, Reg.FLT_HB_STATUS_FW_LATE,
      Reg.FLT_PROG_LOST_PART, Reg.SEC_FW_STATUS_RUNNING, Reg.SEC_FW_STATUS_SVN]
  | .beginLoad _ _ _ =>
    Reg.reports ++ Reg.ringOutput ++ Reg.loadEnd ++ [Reg.LDR_LOAD_EPOCH, Reg.LDR_LOAD_POSITION, Reg.LDR_LOAD_MEMBER,
      Reg.LDR_LOAD_SHARDS_EXPECTED, Reg.LDR_LOAD_SHARDS_DONE, Reg.RCB_HEAD_INDEX]
  | .shardPosted _ _ =>
    Reg.reports ++ Reg.ringOutput ++ [Reg.LDR_LOAD_BAD_SHARD, Reg.LDR_RELAY_FWD_COUNT, Reg.RCB_HEAD_INDEX, Reg.LNK_CNT_TX_COUNT]
  | .endStream _ _ =>
    Reg.reports ++ Reg.ringOutput ++ [Reg.RCB_HEAD_INDEX, Reg.LNK_CNT_TX_COUNT]
  | .commit _ _ | .rollback _ _ =>
    Reg.reports ++ Reg.retirement ++ Reg.ringOutput ++ Reg.loadEnd ++ [Reg.CRS_ARR_STATUS_PROG, Reg.LDR_LOAD_EPOCH,
      Reg.SRV_PART_KVGEO_STREAMS, Reg.SRV_PART_KVGEO_LOG2_TP, Reg.RCB_HEAD_INDEX, Reg.FLT_PROG_LOST_PART]
  | .release _ _ =>
    Reg.reports ++ Reg.retirement ++ Reg.ringOutput ++ [Reg.RCB_HEAD_INDEX]
  | .abort _ _ =>
    Reg.reports ++ Reg.retirement ++ Reg.ringOutput ++ Reg.loadEnd ++ [Reg.CRS_ARR_STATUS_PROG, Reg.LDR_LOAD_EPOCH,
      Reg.RCB_HEAD_INDEX]
  | .adapterLoad _ _ _ =>
    Reg.reports ++ Reg.adapters ++ Reg.ringOutput ++ [Reg.LDR_ADP_SLOT_VERSION, Reg.LDR_ADP_SLOT_PART, Reg.RCB_HEAD_INDEX]
  | .adapterFree _ _ =>
    Reg.reports ++ Reg.ringOutput ++ [Reg.LDR_ADP_SLOT_VALID, Reg.LDR_ADP_SLOT_RESIDENT, Reg.LDR_ADP_SLOT_SUPERSEDED,
      Reg.RCB_HEAD_INDEX]
  | .shadowRebuild _ _ | .copyIn _ _ | .copyOut _ _ | .zero _ _ =>
    Reg.reports ++ Reg.ringOutput ++ [Reg.RCB_HEAD_INDEX]
  | .shadowRebuildDone _ =>
    Reg.reports ++ Reg.ringOutput ++ [Reg.LDR_SHADOW_READY]
  | .manifestArrival _ _ _ _ =>
    Reg.reports ++ Reg.retirement ++ Reg.ringOutput ++ Reg.loadEnd ++ [Reg.CRS_ARR_STATUS_PROG, Reg.LDR_LOAD_EPOCH,
      Reg.LDR_LOAD_SHARDS_EXPECTED, Reg.LDR_LOAD_SHARDS_DONE, Reg.LDR_PART_INFO_BAR_ROOT, Reg.LDR_PART_INFO_ADMITTING,
      Reg.LDR_SHADOW_EN, Reg.LDR_SHADOW_READY, Reg.SRV_PART_KVGEO_STREAMS, Reg.SRV_PART_KVGEO_LOG2_TP, Reg.FLT_PROG_LOST_PART]
  | .manifestTimeout _ | .epochAbort _ _ =>
    Reg.reports ++ Reg.ringOutput ++ Reg.loadEnd ++ [Reg.CRS_ARR_TFMT_WIDTH, Reg.CRS_ARR_TFMT_SIGNED, Reg.CRS_ARR_TFMT_GAIN,
      Reg.CRS_ARR_TFMT_PARTIAL_FMT, Reg.CRS_ARR_TFMT_VERIFIED, Reg.CRS_ARR_TFMT_PROGRAMMING, Reg.CRS_ARR_STATUS_PROG,
      Reg.LDR_LOAD_EPOCH, Reg.LDR_EPOCH_NUMBER, Reg.LDR_EPOCH_STATE, Reg.LDR_EPOCH_HOLD, Reg.LDR_EPOCH_REFS]
  | .shardComplete _ _ _ _ _ =>
    Reg.reports ++ Reg.retirement ++ Reg.ringOutput ++ Reg.loadEnd ++ Reg.tab ++ [Reg.CRS_ARR_STATUS_PROG, Reg.LDR_LOAD_EPOCH,
      Reg.LDR_LOAD_SHARDS_DONE, Reg.LDR_RELAY_BAD_COUNT, Reg.LDR_RELAY_REQ_COUNT, Reg.LDR_SHADOW_EN, Reg.LDR_SHADOW_READY,
      Reg.SRV_PART_KVGEO_STREAMS, Reg.SRV_PART_KVGEO_LOG2_TP, Reg.FLT_PROG_LOST_PART]
  | .shardTimeout _ _ =>
    Reg.reports ++ Reg.ringOutput ++ Reg.loadEnd ++ [Reg.LDR_RELAY_REQ_COUNT, Reg.LNK_CNT_TX_COUNT]
  | .relayHead _ _ _ _ _ _ =>
    Reg.reports ++ Reg.ringOutput ++ Reg.loadEnd ++ [Reg.LDR_RELAY_FWD_COUNT, Reg.LDR_RELAY_REQ_COUNT, Reg.LNK_CNT_TX_COUNT,
      Reg.LNK_CNT_RX_COUNT]
  | .relayData _ _ _ | .shortHello _ _ | .helloReq _ =>
    [Reg.LNK_CNT_TX_COUNT, Reg.LNK_CNT_RX_COUNT]
  | .relayReq _ _ _ _ =>
    [Reg.LDR_RELAY_FWD_COUNT, Reg.LNK_CNT_TX_COUNT, Reg.LNK_CNT_RX_COUNT]
  | .epochPrepare _ _ | .epochPrepared _ _ | .epochCommit _ _ =>
    Reg.reports ++ Reg.retirement ++ Reg.ringOutput ++ Reg.loadEnd ++ [Reg.CRS_ARR_STATUS_PROG, Reg.LDR_LOAD_EPOCH,
      Reg.SRV_PART_KVGEO_STREAMS, Reg.SRV_PART_KVGEO_LOG2_TP, Reg.FLT_PROG_LOST_PART]
  | .scaleCalibrationDone _ _ _ =>
    Reg.reports ++ Reg.retirement ++ Reg.ringOutput ++ Reg.loadEnd ++ [Reg.CRS_ARR_STATUS_PROG, Reg.CRS_PRC_HCAL_MAX_CH,
      Reg.CRS_PRC_HCAL_EPOCH, Reg.CRS_PRC_HCAL_DONE, Reg.CRS_PRC_HCAL_OVF, Reg.LDR_LOAD_EPOCH, Reg.SRV_PART_KVGEO_STREAMS,
      Reg.SRV_PART_KVGEO_LOG2_TP, Reg.FLT_PROG_LOST_PART]
  | .epochRefused _ _ | .prepareTimeout _ =>
    Reg.reports ++ Reg.retirement ++ Reg.ringOutput ++ Reg.loadEnd ++ [Reg.CRS_ARR_STATUS_PROG, Reg.LDR_LOAD_EPOCH]
  | .epochRetire _ _ =>
    [Reg.CRS_ARR_TFMT_WIDTH, Reg.CRS_ARR_TFMT_SIGNED, Reg.CRS_ARR_TFMT_GAIN, Reg.CRS_ARR_TFMT_PARTIAL_FMT,
      Reg.CRS_ARR_TFMT_VERIFIED, Reg.CRS_ARR_TFMT_PROGRAMMING, Reg.LDR_EPOCH_NUMBER, Reg.LDR_EPOCH_STATE, Reg.LDR_EPOCH_HOLD,
      Reg.LDR_EPOCH_REFS]
  | .generate _ _ =>
    Reg.reports ++ Reg.retirement ++ Reg.adapters ++ Reg.dropping ++ Reg.ringOutput ++ [Reg.SRV_CNT_ADMIT_COUNT,
      Reg.SRV_CNT_REFUSE_COUNT, Reg.SRV_CNT_FULL_COUNT, Reg.SRV_CNT_CANCEL_COUNT, Reg.RCB_HEAD_INDEX]
  | .cancel _ _ =>
    Reg.reports ++ Reg.retirement ++ Reg.adapters ++ Reg.dropping ++ Reg.ringOutput ++ [Reg.SRV_CNT_REFUSE_COUNT,
      Reg.SRV_CNT_CANCEL_COUNT, Reg.SRV_CNT_CANCEL_LATE_COUNT, Reg.RCB_HEAD_INDEX]
  | .prefixDrop _ _ =>
    Reg.reports ++ Reg.ringOutput ++ [Reg.SRV_CNT_REFUSE_COUNT, Reg.RCB_HEAD_INDEX]
  | .passFormation _ =>
    Reg.retirement ++ Reg.dropping ++ Reg.passStart ++ [Reg.SRV_CNT_PAGEWAIT_COUNT]
  | .stepComplete _ _ =>
    Reg.retirement ++ Reg.adapters ++ Reg.dropping ++ Reg.contextRung ++ [Reg.SRV_CNT_DRAFTED_COUNT, Reg.SRV_CNT_ACCEPTED_COUNT,
      Reg.SRV_CNT_NONFINITE_COUNT]
  | .tokenWrite _ =>
    Reg.reports ++ Reg.ringOutput ++ [Reg.SRV_CNT_PAGEWAIT_COUNT]
  | .completionWrite _ =>
    Reg.reports ++ Reg.adapters ++ Reg.ringOutput ++ [Reg.LNK_CNT_TX_COUNT]
  | .admitMessage _ _ =>
    Reg.reports ++ Reg.adapters ++ [Reg.LNK_CNT_TX_COUNT]
  | .passMessage _ _ _ =>
    Reg.reports ++ Reg.passStart ++ [Reg.LNK_CNT_TX_COUNT]
  | .short _ _ =>
    Reg.reports ++ Reg.retirement ++ Reg.dropping ++ [Reg.SRV_CNT_PAGEWAIT_COUNT]
  | .servingRelease _ _ =>
    Reg.reports ++ Reg.retirement ++ Reg.adapters ++ Reg.dropping
  | .deadlineExpiry _ =>
    Reg.retirement ++ Reg.adapters ++ Reg.dropping ++ [Reg.SRV_CNT_CANCEL_COUNT]
  | .pagewaitTimeout _ | .chainWaitTimeout _ =>
    Reg.retirement ++ Reg.dropping
  | .pauseResume _ | .d3hotEntry _ | .dmaPiece _ _ | .pageRequestResponse _ _ | .pageRequestTimeout _
  | .atsTranslationCompletion _ _ _ =>
    Reg.reports ++ Reg.ringOutput
  | .cancelDrainComplete _ =>
    Reg.retirement ++ Reg.adapters ++ Reg.dropping
  | .portReset _ _ =>
    Reg.retirement ++ Reg.adapters ++ Reg.dropping ++ Reg.mailOutput ++ Reg.offer ++ [Reg.SRV_CNT_CANCEL_COUNT,
      Reg.HIF_PORT_STATUS_RATE, Reg.HIF_PORT_STATUS_WIDTH, Reg.HIF_PORT_STATUS_DL_UP, Reg.HIF_PORT_STATUS_DEGRADED,
      Reg.HIF_PORT_STATUS_IDE, Reg.HIF_PORT_STATUS_LAST_RESET, Reg.RCB_CFG_KIND, Reg.RCB_CFG_CFMT, Reg.RCB_CFG_SIZE_EXP,
      Reg.RCB_CFG_ENABLE, Reg.RCB_PAIR_CPL, Reg.RCB_PAIR_TOKEN, Reg.RCB_INTR_VECTOR, Reg.RCB_INTR_INTR_EN, Reg.RCB_INTR_COAL_CNT,
      Reg.RCB_INTR_COAL_T, Reg.RCB_BASE_ADDR, Reg.RCB_WB_ADDR, Reg.RCB_HEAD_INDEX, Reg.RCB_TAIL_INDEX, Reg.RCB_STATUS_STATE,
      Reg.RCB_STATUS_ERR, Reg.RCB_STATUS_ARMED, Reg.RCB_STATUS_FAULT_WAIT, Reg.RCB_COUNT_ENTRIES, Reg.MBX_STATUS_WD_FAIL,
      Reg.MBX_ACK_CODE, Reg.MBX_TMO_US, Reg.MBX_DB_MASK_MASK, Reg.MBX_IRQ_VECTOR, Reg.MBX_IRQ_EN, Reg.CLK_KEEP_HOLD,
      Reg.CLK_KEEP_LAPSED]
  | .flr _ =>
    Reg.retirement ++ Reg.adapters ++ Reg.dropping ++ Reg.mailOutput ++ Reg.offer ++ [Reg.SRV_CNT_CANCEL_COUNT,
      Reg.HIF_PORT_STATUS_LAST_RESET, Reg.RCB_CFG_KIND, Reg.RCB_CFG_CFMT, Reg.RCB_CFG_SIZE_EXP, Reg.RCB_CFG_ENABLE,
      Reg.RCB_PAIR_CPL, Reg.RCB_PAIR_TOKEN, Reg.RCB_INTR_VECTOR, Reg.RCB_INTR_INTR_EN, Reg.RCB_INTR_COAL_CNT, Reg.RCB_INTR_COAL_T,
      Reg.RCB_BASE_ADDR, Reg.RCB_WB_ADDR, Reg.RCB_HEAD_INDEX, Reg.RCB_TAIL_INDEX, Reg.RCB_STATUS_STATE, Reg.RCB_STATUS_ERR,
      Reg.RCB_STATUS_ARMED, Reg.RCB_STATUS_FAULT_WAIT, Reg.RCB_COUNT_ENTRIES, Reg.MBX_STATUS_WD_FAIL, Reg.MBX_ACK_CODE,
      Reg.MBX_TMO_US, Reg.MBX_DB_MASK_MASK, Reg.MBX_IRQ_VECTOR, Reg.MBX_IRQ_EN, Reg.CLK_KEEP_HOLD, Reg.CLK_KEEP_LAPSED]
  | .ownClaim _ _ =>
    Reg.stall ++ Reg.discard ++ [Reg.HIF_OWN_STATUS_OWNER, Reg.HIF_OWN_STATUS_RECLAIMED, Reg.HIF_OWN_NONCE_NONCE]
  | .handoverOffer _ =>
    Reg.stall ++ Reg.discard ++ Reg.offer
  | .handoverAccept _ _ =>
    Reg.stall ++ Reg.discard ++ Reg.offer ++ Reg.stageEnd ++ [Reg.HIF_OWN_STATUS_OWNER, Reg.HIF_OWN_STATUS_RECLAIMED,
      Reg.HIF_OWN_NONCE_NONCE]
  | .handoverExpiry =>
    Reg.offer
  | .reclaim _ _ =>
    Reg.stageEnd ++ [Reg.HIF_OWN_STATUS_OWNER, Reg.HIF_OWN_STATUS_RECLAIMED, Reg.HIF_OWN_NONCE_NONCE, Reg.SEC_TP_STATUS_BAD]
  | .ringEnable _ _ | .ringDisable _ _ =>
    Reg.reports ++ Reg.ringOutput ++ Reg.stall ++ Reg.discard ++ [Reg.RCB_CFG_ENABLE, Reg.RCB_HEAD_INDEX]
  | .ringStop _ _ | .ringResume _ _ =>
    Reg.reports ++ Reg.ringOutput ++ Reg.stall ++ Reg.discard
  | .dbIndex _ _ _ =>
    Reg.reports ++ Reg.ringOutput ++ Reg.stall ++ Reg.discard ++ [Reg.HIF_NOW_CNT_BADDB, Reg.RCB_HEAD_INDEX, Reg.TRM_PSTATE_STATE]
  | .dbArm _ _ _ =>
    Reg.stall ++ Reg.discard ++ [Reg.HIF_NOW_CNT_BADDB, Reg.RCB_STATUS_ARMED]
  | .coalesceTimer _ =>
    [Reg.RCB_STATUS_ARMED]
  | .atsInvalidation _ _ _ =>
    [Reg.RCB_STATUS_FAULT_WAIT, Reg.DMA_CNT_ATSINV_COUNT]
  | .mailboxCommit _ _ _ =>
    Reg.stall ++ Reg.mailOutput ++ [Reg.HIF_NOW_LAST_OFFSET, Reg.HIF_NOW_LAST_FUNCTION, Reg.HIF_NOW_LAST_BAR,
      Reg.HIF_NOW_LAST_HI_OFFSET_HI, Reg.MBX_CNT_REJECT, Reg.MBX_CNT_FOREIGN]
  | .mailboxAck _ _ _ =>
    Reg.stall ++ Reg.mailOutput ++ [Reg.HIF_NOW_LAST_OFFSET, Reg.HIF_NOW_LAST_FUNCTION, Reg.HIF_NOW_LAST_BAR,
      Reg.HIF_NOW_LAST_HI_OFFSET_HI, Reg.MBX_ACK_CODE, Reg.MBX_CNT_FOREIGN]
  | .mailboxWithdraw _ _ =>
    Reg.stall ++ Reg.mailOutput ++ [Reg.HIF_NOW_LAST_OFFSET, Reg.HIF_NOW_LAST_FUNCTION, Reg.HIF_NOW_LAST_BAR,
      Reg.HIF_NOW_LAST_HI_OFFSET_HI, Reg.MBX_STATUS_WD_FAIL, Reg.MBX_CNT_FOREIGN]
  | .mailboxTimeout _ =>
    [Reg.MBX_STATUS_TMO, Reg.MBX_DB_IN, Reg.MBX_DB_OUT]
  | .echo _ =>
    Reg.mailOutput ++ [Reg.MBX_ACK_CODE]
  | .mbxDbClear _ _ =>
    Reg.stall ++ [Reg.MBX_DB_IN, Reg.MBX_DB_OUT]
  | .mbxDbMaskWrite _ _ =>
    Reg.stall ++ [Reg.MBX_DB_MASK_MASK]
  | .clockHold _ _ =>
    Reg.stall ++ [Reg.HIF_DEV_STATE_STATE, Reg.CLK_KEEP_HOLD, Reg.CAL_MCV_EN_EN, Reg.TRM_PSTATE_STATE, Reg.TRM_NAP_MASK_COURSE]
  | .holdLapse _ =>
    [Reg.HIF_DEV_STATE_STATE, Reg.CLK_KEEP_HOLD, Reg.CLK_KEEP_LAPSED, Reg.CAL_MCV_EN_EN, Reg.TRM_PSTATE_STATE,
      Reg.TRM_NAP_MASK_COURSE]
  | .trainingStart _ _ =>
    Reg.retirement ++ Reg.dropping ++ Reg.mailOutput ++ [Reg.LNK_STATUS_STATE, Reg.LNK_STATUS_EVENTS, Reg.LNK_STATUS_FAILED]
  | .trainingDone _ _ =>
    Reg.mailOutput ++ [Reg.LNK_STATUS_STATE, Reg.LNK_STATUS_LANES, Reg.LNK_STATUS_EVENTS, Reg.LNK_CNT_TX_COUNT]
  | .trainingTimeout _ =>
    Reg.mailOutput ++ [Reg.LNK_STATUS_STATE, Reg.LNK_STATUS_LANES, Reg.LNK_STATUS_LAST_DOWN, Reg.LNK_STATUS_EVENTS]
  | .fullHello _ _ _ =>
    Reg.reports ++ Reg.retirement ++ Reg.dropping ++ Reg.mailOutput ++ [Reg.LNK_STATUS_STATE, Reg.LNK_STATUS_LANES,
      Reg.LNK_STATUS_LAST_DOWN, Reg.LNK_STATUS_EVENTS, Reg.LNK_PARTNER_DSN_SERIAL, Reg.LNK_PARTNER_INFO_PORT,
      Reg.LNK_PARTNER_INFO_ADMIT, Reg.LNK_PARTNER_INFO_PART, Reg.LNK_PARTNER_INFO_MEMBER, Reg.LNK_PARTNER_FW_GEN,
      Reg.LNK_CNT_HELLO_BAD_COUNT, Reg.LNK_CNT_RX_COUNT]
  | .helloTimeout _ =>
    Reg.reports ++ Reg.mailOutput ++ [Reg.LNK_STATUS_STATE, Reg.LNK_STATUS_LANES, Reg.LNK_STATUS_LAST_DOWN, Reg.LNK_STATUS_EVENTS]
  | .helloTimer _ =>
    [Reg.LNK_CNT_TX_COUNT]
  | .linkReplay _ _ =>
    Reg.reports ++ Reg.retirement ++ Reg.dropping ++ Reg.mailOutput ++ [Reg.LNK_STATUS_STATE, Reg.LNK_STATUS_LAST_DOWN,
      Reg.LNK_STATUS_EVENTS, Reg.LNK_STATUS_FAILED, Reg.LNK_CNT_RX_COUNT]
  | .laneFail _ _ =>
    Reg.reports ++ Reg.retirement ++ Reg.adapters ++ Reg.dropping ++ Reg.contextRung ++ Reg.mailOutput ++ [Reg.LNK_STATUS_STATE,
      Reg.LNK_STATUS_LANES, Reg.LNK_STATUS_LAST_DOWN, Reg.LNK_STATUS_EVENTS, Reg.LNK_STATUS_FAILED]
  | .laneDrop _ _ _ =>
    Reg.reports ++ Reg.retirement ++ Reg.adapters ++ Reg.dropping ++ Reg.contextRung ++ Reg.mailOutput ++ [Reg.LNK_STATUS_STATE,
      Reg.LNK_STATUS_LANES, Reg.LNK_STATUS_LAST_DOWN, Reg.LNK_STATUS_EVENTS, Reg.LNK_STATUS_FAILED, Reg.LNK_CNT_RX_COUNT]
  | .goodbye _ | .partnerLoss _ =>
    Reg.reports ++ Reg.retirement ++ Reg.adapters ++ Reg.dropping ++ Reg.contextRung ++ Reg.mailOutput ++ [Reg.LNK_STATUS_STATE,
      Reg.LNK_STATUS_LANES, Reg.LNK_STATUS_LAST_DOWN, Reg.LNK_STATUS_EVENTS]
  | .retrain _ _ =>
    Reg.retirement ++ Reg.dropping ++ Reg.stall ++ Reg.discard ++ Reg.mailOutput ++ [Reg.LNK_STATUS_STATE, Reg.LNK_STATUS_EVENTS,
      Reg.LNK_STATUS_FAILED]
  | .portDisable _ _ =>
    Reg.reports ++ Reg.retirement ++ Reg.adapters ++ Reg.dropping ++ Reg.contextRung ++ Reg.stall ++ Reg.discard ++ Reg.mailOutput
      ++ [Reg.LNK_CTRL_ENABLE, Reg.LNK_STATUS_STATE, Reg.LNK_STATUS_LANES, Reg.LNK_STATUS_LAST_DOWN, Reg.LNK_STATUS_EVENTS]
  | .msg _ _ _ =>
    Reg.reports ++ Reg.dropping ++ [Reg.CRS_CORE_STATUS_STATE, Reg.NOC_FALLBACK_PART, Reg.NOC_COMBCHK_COUNT, Reg.NOC_DROP_COUNT,
      Reg.NOC_BAR_MAX_CLOCKS, Reg.LNK_CNT_FECC_COUNT, Reg.LNK_CNT_FECU_COUNT, Reg.LNK_CNT_CRC_COUNT, Reg.LNK_CNT_REPLAY_COUNT,
      Reg.LNK_CNT_TX_COUNT, Reg.LNK_CNT_RX_COUNT, Reg.TRM_PSTATE_STATE]
  | .tierOverdue _ _ _ =>
    [Reg.CAL_PEG_CNT_DEFER_COUNT]
  | .probePass _ _ _ =>
    [Reg.CAL_PEG_LAST_TIME, Reg.CAL_PEG_CNT_SUSPECT_COUNT, Reg.CAL_PEG_CNT_DEFER_COUNT]
  | .verifyRead _ _ _ _ =>
    Reg.reports ++ [Reg.CRS_ARR_TFMT_VERIFIED, Reg.CRS_ARR_TFMT_PROGRAMMING, Reg.CRS_ARR_STATUS_PROG, Reg.CRS_ARR_STATUS_PTIER,
      Reg.CAL_PEG_LAST_TIME, Reg.CAL_PEG_CNT_REPROG_COUNT, Reg.CAL_PEG_CNT_DEFER_COUNT]
  | .retuneSlot _ _ _ _ =>
    Reg.reports ++ [Reg.CRS_ARR_TFMT_VERIFIED, Reg.CRS_ARR_TFMT_PROGRAMMING, Reg.CRS_ARR_STATUS_PROG, Reg.CRS_ARR_WEAR_MAX_CYCLES,
      Reg.CAL_PEG_CNT_CELLS_COUNT, Reg.CAL_PEG_CNT_REPROG_COUNT, Reg.CAL_PEG_CNT_DEFER_COUNT]
  | .fullVerifySweep _ =>
    Reg.reports ++ [Reg.CRS_ARR_TFMT_VERIFIED, Reg.CRS_ARR_TFMT_PROGRAMMING, Reg.CRS_ARR_STATUS_PROG, Reg.CRS_ARR_WEAR_MAX_CYCLES,
      Reg.HIF_DEV_STATE_STATE, Reg.HIF_DEV_STATE_TRIP_REC, Reg.HIF_DEV_STATE_VERIFY, Reg.CAL_PEG_CNT_CELLS_COUNT,
      Reg.CAL_PEG_CNT_REPROG_COUNT, Reg.TRM_PSTATE_STATE]
  | .sweepComplete =>
    [Reg.CRS_ARR_SPARE_MAP_ACTIVE, Reg.NOC_SPARE_MAP_ACTIVE, Reg.HIF_DEV_STATE_STATE, Reg.HIF_DEV_STATE_TRIP_REC,
      Reg.HIF_DEV_STATE_VERIFY, Reg.CAL_MCV_EN_EN, Reg.TRM_PSTATE_STATE, Reg.TRM_NAP_MASK_COURSE]
  | .calStart _ _ _ =>
    Reg.stall ++ Reg.discard ++ [Reg.CAL_CMD_TEMP, Reg.CAL_CMD_ARRAYS, Reg.CAL_STATUS_STATE, Reg.CAL_STATUS_ERR,
      Reg.CAL_STATUS_STEP]
  | .calAbort _ | .bar4Access _ _ _ =>
    Reg.stall ++ Reg.discard
  | .calStep _ =>
    [Reg.CAL_STATUS_STATE, Reg.CAL_STATUS_TRACE, Reg.CAL_STATUS_TEMP_TRACE, Reg.CAL_STATUS_ERR, Reg.CAL_STATUS_STEP,
      Reg.CAL_BG0_UV, Reg.CAL_BG1_UV, Reg.CAL_SET_PENDING, Reg.CAL_LAST_TIME, Reg.CAL_MCV_EN_EN, Reg.SEC_GEN_GEN,
      Reg.SEC_GEN_STATUS_COPY, Reg.SEC_GEN_STATUS_PREV_VALID, Reg.SEC_GEN_STATUS_TWO_PARTY]
  | .mcvResult _ _ =>
    [Reg.MCV_QSTAT_COUNT, Reg.MCV_DROP_COUNT, Reg.TRM_RAIL_MV]
  | .mcvResultRead _ =>
    Reg.stall ++ [Reg.MCV_QSTAT_COUNT]
  | .mcvDropRead _ =>
    Reg.stall ++ [Reg.MCV_DROP_COUNT]
  | .sensorSample _ _ =>
    Reg.reports ++ Reg.mailOutput ++ [Reg.HIF_DEV_STATE_STATE, Reg.HIF_DEV_STATE_TRIP_REC, Reg.HIF_DEV_STATE_VERIFY,
      Reg.CAL_PEG_STATUS_HOT, Reg.TRM_SENSOR_TEMP, Reg.TRM_SENSOR_RATE, Reg.TRM_SENSOR_FAILED, Reg.TRM_HOT_TEMP, Reg.TRM_HOT_SENSOR,
      Reg.TRM_PEAK_TEMP, Reg.TRM_PEAK_SENSOR, Reg.TRM_STATUS_WARN, Reg.TRM_STATUS_THROT, Reg.TRM_CLAMP_F, Reg.TRM_CLAMP_F_T,
      Reg.TRM_TRIP_STATUS_UNACK, Reg.TRM_TRIP_STATUS_WRITTEN]
  | .powerInterval _ _ =>
    [Reg.TRM_STATUS_CAPPED, Reg.TRM_STATUS_CAP_UNMET, Reg.TRM_CLAMP_F, Reg.TRM_CLAMP_F_P, Reg.TRM_POWER_P, Reg.TRM_POWER_P_U]
  | .capAlert =>
    [Reg.TRM_STATUS_CAPPED, Reg.TRM_STATUS_ALERT, Reg.TRM_STATUS_CAP_UNMET, Reg.TRM_CLAMP_F, Reg.TRM_CLAMP_F_P]
  | .capAlertDeassert =>
    [Reg.TRM_STATUS_ALERT]
  | .trayCapSet _ _ =>
    [Reg.TRM_CAP_TRAY_W, Reg.TRM_CAP_ALERT_W]
  | .scanStall _ =>
    [Reg.TRM_CLAMP_F, Reg.TRM_TRIP_STATUS_UNACK, Reg.TRM_TRIP_STATUS_WRITTEN]
  | .tripAck _ _ =>
    Reg.stall ++ Reg.discard ++ [Reg.HIF_DEV_STATE_STATE, Reg.HIF_DEV_STATE_TRIP_REC, Reg.TRM_TRIP_STATUS_UNACK,
      Reg.TRM_TRIP_ACK_SEQ]
  | .courseNap _ _ _ =>
    Reg.stall ++ Reg.discard ++ [Reg.HIF_DEV_STATE_STATE, Reg.CAL_MCV_EN_EN, Reg.TRM_PSTATE_STATE, Reg.TRM_NAP_MASK_COURSE]
  | .pstateNap _ _ | .pstateRest _ _ =>
    Reg.stall ++ Reg.discard ++ [Reg.HIF_DEV_STATE_STATE, Reg.CAL_MCV_EN_EN, Reg.TRM_PSTATE_CMD_TARGET,
      Reg.TRM_PSTATE_CMD_AUTOWAKE, Reg.TRM_PSTATE_STATE, Reg.TRM_NAP_MASK_COURSE]
  | .napEntryComplete =>
    [Reg.TRM_PSTATE_STATE]
  | .restEntry =>
    Reg.retirement ++ Reg.adapters ++ Reg.dropping ++ Reg.contextRung ++ Reg.mailOutput ++ [Reg.CRS_ARR_STATUS_PROG,
      Reg.CRS_ARR_STATUS_PTIER, Reg.CRS_CORE_STATUS_STATE, Reg.LDR_SHADOW_READY, Reg.LDR_ADP_SLOT_VERSION, Reg.LDR_ADP_SLOT_PART,
      Reg.HIF_DEV_STATE_STATE, Reg.LNK_STATUS_STATE, Reg.LNK_STATUS_LANES, Reg.LNK_STATUS_LAST_DOWN, Reg.LNK_STATUS_EVENTS,
      Reg.TRM_PSTATE_STATE]
  | .pstateActive _ _ =>
    Reg.weaker 6 ++ Reg.retirement ++ [Reg.TRM_PSTATE_STATE, Reg.FLT_PROG_LOST_PART]
  | .patrolScrub _ _ =>
    Reg.reports ++ Reg.retirement ++ Reg.adapters ++ Reg.dropping ++ Reg.ringOutput ++ Reg.loadEnd ++ [Reg.LDR_RELAY_BAD_COUNT,
      Reg.LDR_RELAY_REQ_COUNT, Reg.FLT_CNT_LOST_COUNT, Reg.FLT_FT_LIB_ENTRIES]
  | .redundancyCompare _ _ _ _ _ =>
    Reg.reports ++ Reg.retirement ++ Reg.adapters ++ Reg.dropping ++ Reg.contextRung ++ [Reg.CRS_CORE_STATUS_STATE]
  | .twinWaitExpiry _ _ _ =>
    Reg.reports ++ [Reg.CRS_CORE_STATUS_STATE, Reg.CRS_CORE_RETIRE_COUNT]
  | .auditComparison _ _ _ =>
    Reg.reports ++ Reg.retirement ++ Reg.adapters ++ Reg.dropping ++ Reg.contextRung ++ [Reg.CRS_ARR_STATUS_STATE,
      Reg.FLT_QUAR_CNT_QUAR, Reg.FLT_QUAR_CNT_CONFIRMED, Reg.FLT_AUDIT_SAMPLE_COUNT, Reg.FLT_AUDIT_FAIL_COUNT]
  | .auditAbandon _ _ =>
    [Reg.FLT_AUDIT_ABANDON_COUNT]
  | .standAloneAudit _ _ _ _ =>
    Reg.reports ++ Reg.retirement ++ Reg.adapters ++ Reg.dropping ++ Reg.contextRung ++ [Reg.CRS_ARR_STATUS_STATE,
      Reg.CAL_PEG_CNT_DEFER_COUNT, Reg.FLT_QUAR_CNT_QUAR, Reg.FLT_QUAR_CNT_CONFIRMED, Reg.FLT_AUDIT_SAMPLE_COUNT,
      Reg.FLT_AUDIT_FAIL_COUNT]
  | .auditRollback _ _ _ _ _ =>
    Reg.reports ++ Reg.retirement ++ Reg.adapters ++ Reg.dropping ++ Reg.contextRung ++ Reg.ringOutput ++ [Reg.FLT_AUDIT_RB_COUNT]
  | .confirmation _ _ _ =>
    Reg.reports ++ [Reg.FLT_QUAR_CNT_CONFIRMED, Reg.FLT_QUAR_CNT_ESCALATED]
  | .fieldTestStart _ _ | .fieldTestAbort _ _ =>
    Reg.stall ++ Reg.discard ++ [Reg.CRS_ARR_STATUS_STATE, Reg.FLT_FT_CMD_COURSE, Reg.FLT_FT_CMD_VOLT, Reg.FLT_FT_CMD_CLK,
      Reg.FLT_FT_CMD_HEAT, Reg.FLT_FT_CMD_PASSES, Reg.FLT_FT_STATUS_STATE, Reg.FLT_FT_STATUS_REFUSE, Reg.FLT_FT_STATUS_FAILS]
  | .fieldTestDone _ =>
    Reg.reports ++ [Reg.CRS_ARR_STATUS_STATE, Reg.FLT_QUAR_CNT_QUAR, Reg.FLT_QUAR_CNT_CONFIRMED, Reg.FLT_FT_STATUS_STATE,
      Reg.FLT_FT_STATUS_FAILS]
  | .faultReport _ _ _ _ =>
    Reg.reports
  | .aggregationWindowClose _ =>
    Reg.dieLog ++ [Reg.FLT_STATUS_OVERFLOW, Reg.FLT_CNT_RECORD_COUNT, Reg.FLT_CNT_LOST_COUNT]
  | .dieLogWrite =>
    Reg.mailOutput ++ Reg.dieLog ++ [Reg.FLT_LOG_WR_INDEX, Reg.FLT_STATUS_OVERFLOW, Reg.FLT_CNT_RECORD_COUNT,
      Reg.FLT_CNT_LOST_COUNT]
  | .logRdWrite _ _ =>
    Reg.stall ++ Reg.discard ++ [Reg.FLT_LOG_RD_INDEX]
  | .ffcClear _ =>
    Reg.stall ++ Reg.discard ++ Reg.dieLog
  | .stepWatchdog _ _ =>
    Reg.reports ++ Reg.retirement ++ Reg.adapters ++ Reg.dropping ++ Reg.contextRung
  | .courseHeartbeatMiss _ =>
    Reg.weaker 2 ++ Reg.reports ++ Reg.retirement ++ Reg.adapters ++ Reg.contextRung ++ Reg.dieLog ++ [Reg.FLT_STATUS_OVERFLOW,
      Reg.FLT_CNT_LOST_COUNT, Reg.FLT_RST_CNT_COURSE_COUNT, Reg.FLT_HB_STATUS_COURSE]
  | .partitionHeartbeatMiss _ | .partitionReset _ _ =>
    Reg.weaker 3 ++ Reg.reports ++ Reg.retirement ++ Reg.adapters ++ Reg.contextRung ++ Reg.ringOutput ++ Reg.dieLog ++
      [Reg.HIF_DEV_STATE_STATE, Reg.CAL_MCV_EN_EN, Reg.TRM_PSTATE_STATE, Reg.TRM_NAP_MASK_COURSE, Reg.FLT_STATUS_OVERFLOW,
      Reg.FLT_CNT_LOST_COUNT, Reg.FLT_RST_CNT_PART_COUNT, Reg.FLT_HB_STATUS_PART_LATE]
  | .firmwareWatchdog =>
    Reg.weaker 5 ++ Reg.reports ++ Reg.retirement ++ Reg.dieLog ++ [Reg.LNK_STATUS_STATE, Reg.LNK_STATUS_LANES,
      Reg.TRM_PSTATE_STATE, Reg.FLT_STATUS_OVERFLOW, Reg.FLT_CNT_LOST_COUNT, Reg.FLT_RST_STATUS_KIND, Reg.FLT_RST_STATUS_CAUSE,
      Reg.FLT_RST_STATUS_COURSE, Reg.FLT_RST_STATUS_PARTITION, Reg.FLT_RST_STATUS_OVERRUN, Reg.FLT_RST_TIME_TIME,
      Reg.FLT_RST_CNT_CHIP_COUNT, Reg.FLT_HB_STATUS_PART_LATE, Reg.FLT_HB_STATUS_FW_LATE, Reg.FLT_PROG_LOST_PART,
      Reg.SEC_FW_STATUS_RUNNING, Reg.SEC_FW_STATUS_FAIL_A, Reg.SEC_FW_STATUS_FAIL_B, Reg.SEC_FW_STATUS_SVN]
  | .resetOverrun _ =>
    Reg.weaker 5 ++ Reg.reports ++ Reg.retirement ++ Reg.adapters ++ Reg.contextRung ++ Reg.dieLog ++ [Reg.LNK_STATUS_STATE,
      Reg.LNK_STATUS_LANES, Reg.CAL_MCV_EN_EN, Reg.TRM_PSTATE_STATE, Reg.TRM_NAP_MASK_COURSE, Reg.FLT_STATUS_OVERFLOW,
      Reg.FLT_CNT_LOST_COUNT, Reg.FLT_RST_CNT_COURSE_COUNT, Reg.FLT_RST_CNT_PART_COUNT, Reg.FLT_RST_CNT_CHIP_COUNT,
      Reg.FLT_HB_STATUS_PART_LATE, Reg.FLT_HB_STATUS_FW_LATE, Reg.FLT_PROG_LOST_PART, Reg.SEC_FW_STATUS_RUNNING,
      Reg.SEC_FW_STATUS_SVN]
  | .courseReset _ _ =>
    Reg.weaker 2 ++ Reg.retirement ++ Reg.adapters ++ Reg.contextRung ++ Reg.dieLog ++ [Reg.FLT_STATUS_OVERFLOW,
      Reg.FLT_CNT_LOST_COUNT, Reg.FLT_RST_CNT_COURSE_COUNT]
  | .courseResetComplete _ =>
    Reg.retirement ++ Reg.dropping ++ Reg.tab ++ Reg.maps ++ [Reg.CRS_ARR_STATUS_PROG, Reg.CRS_ARR_STATUS_PTIER,
      Reg.NOC_SPARE_MAP_ACTIVE, Reg.NOC_MAP_GEN_PENDING, Reg.HIF_DEV_STATE_STATE, Reg.CAL_MCV_EN_EN, Reg.TRM_PSTATE_STATE,
      Reg.TRM_NAP_MASK_COURSE, Reg.FLT_HB_STATUS_PART_LATE]
  | .chipReset _ =>
    Reg.weaker 5 ++ Reg.retirement ++ Reg.dieLog ++ [Reg.LNK_STATUS_STATE, Reg.LNK_STATUS_LANES, Reg.TRM_PSTATE_STATE,
      Reg.FLT_STATUS_OVERFLOW, Reg.FLT_CNT_LOST_COUNT, Reg.FLT_RST_STATUS_KIND, Reg.FLT_RST_STATUS_CAUSE, Reg.FLT_RST_STATUS_COURSE,
      Reg.FLT_RST_STATUS_PARTITION, Reg.FLT_RST_STATUS_OVERRUN, Reg.FLT_RST_TIME_TIME, Reg.FLT_RST_CNT_CHIP_COUNT,
      Reg.FLT_HB_STATUS_PART_LATE, Reg.FLT_HB_STATUS_FW_LATE, Reg.FLT_PROG_LOST_PART, Reg.SEC_FW_STATUS_RUNNING,
      Reg.SEC_FW_STATUS_SVN]
  | .devReset =>
    Reg.weaker 5 ++ Reg.retirement ++ Reg.dieLog ++ [Reg.LNK_STATUS_STATE, Reg.LNK_STATUS_LANES, Reg.TRM_PSTATE_STATE,
      Reg.FLT_STATUS_OVERFLOW, Reg.FLT_CNT_LOST_COUNT, Reg.FLT_RST_STATUS_KIND, Reg.FLT_RST_STATUS_CAUSE, Reg.FLT_RST_STATUS_COURSE,
      Reg.FLT_RST_STATUS_PARTITION, Reg.FLT_RST_STATUS_OVERRUN, Reg.FLT_RST_TIME_TIME, Reg.FLT_RST_CNT_CHIP_COUNT,
      Reg.FLT_HB_STATUS_PART_LATE, Reg.FLT_HB_STATUS_FW_LATE, Reg.FLT_PROG_LOST_PART]
  | .resetNotice _ _ =>
    Reg.reports ++ Reg.retirement ++ Reg.dropping
  | .aonPowerOnReset =>
    Reg.weaker 6 ++ Reg.retirement ++ Reg.adapters ++ Reg.contextRung ++ [Reg.CRS_ARR_STATUS_STATE, Reg.CRS_ARR_CAP_CLR_CLEAR,
      Reg.CRS_CORE_CTRL_RESUME, Reg.CRS_CORE_FAULT_CLR_CLEAR, Reg.LDR_LAND_SIZE_USABLE, Reg.LDR_SHADOW_READY,
      Reg.LDR_ADP_SLOT_VERSION, Reg.LDR_ADP_SLOT_PART, Reg.HIF_TIME_TIME, Reg.HIF_OWN_CLAIM_NONCE, Reg.HIF_OWN_STATUS_MINE,
      Reg.HIF_OWN_ACCEPT_NONCE, Reg.RCB_CTRL_STOP, Reg.RCB_CTRL_RESUME, Reg.MBX_WITHDRAW_WITHDRAW, Reg.CLK_DOMAIN_ALIVE_MEM,
      Reg.CLK_DOMAIN_ALIVE_LINK, Reg.CLK_DOMAIN_ALIVE_MCV, Reg.CLK_DOMAIN_ALIVE_FABRIC, Reg.CLK_DOMAIN_ALIVE_PCIE,
      Reg.CLK_DOMAIN_ALIVE_COURSES_ALL, Reg.CLK_COURSE_ALIVE_COURSE, Reg.CLK_STALL_HELD, Reg.LNK_CTRL_RETRAIN, Reg.LNK_STATUS_STATE,
      Reg.LNK_STATUS_LANES, Reg.LNK_PARTNER_INFO_MAPPED, Reg.CAL_PEG_HOLD_US, Reg.CAL_CMD_START, Reg.CAL_CMD_ABORT,
      Reg.CAL_LAST_TIME, Reg.MCV_STATE_ENTRY, Reg.MCV_STATE_SETTLING, Reg.MCV_STATE_RUNNING, Reg.TRM_SENSOR_TEMP,
      Reg.TRM_SENSOR_RATE, Reg.TRM_HOT_TEMP, Reg.TRM_HOT_SENSOR, Reg.TRM_STATUS_WARN, Reg.TRM_STATUS_THROT, Reg.TRM_STATUS_CAPPED,
      Reg.TRM_STATUS_ALERT, Reg.TRM_STATUS_CAP_UNMET, Reg.TRM_CLAMP_F, Reg.TRM_CLAMP_F_T, Reg.TRM_CLAMP_F_P, Reg.TRM_POWER_P,
      Reg.TRM_POWER_P_U, Reg.TRM_CAP_TRAY_W, Reg.TRM_CAP_ALERT_W, Reg.TRM_CNT_WARN_MS_MS, Reg.TRM_CNT_THROT_MS_MS,
      Reg.TRM_CNT_CAPPED_MS_MS, Reg.TRM_PSTATE_STATE, Reg.FLT_STATUS_LOG_FULL, Reg.FLT_FFC_CLR_CLEAR, Reg.FLT_FT_CMD_START,
      Reg.FLT_FT_CMD_ABORT, Reg.FLT_RST_CMD_KIND, Reg.FLT_RST_CMD_PARTITION, Reg.FLT_RST_CMD_COURSE, Reg.FLT_RST_CMD_CONTEXT,
      Reg.FLT_RST_STATUS_BUSY, Reg.FLT_RST_CNT_CHIP_COUNT, Reg.FLT_HB_STATUS_PART_LATE, Reg.FLT_HB_STATUS_FW_LATE,
      Reg.FLT_PROG_LOST_PART, Reg.SEC_FW_CMD_INSTALL, Reg.SEC_FW_CMD_COMMIT_SVN, Reg.SEC_GEN_STATUS_DIRTY, Reg.SEC_TP_CMD_SEAL,
      Reg.SEC_TP_CMD_ABORT, Reg.SEC_TP_CMD_ROLLBACK, Reg.PRT_PSTATUS_PENDING, Reg.TRM_RAIL_MV, Reg.TRM_RAIL_UV, Reg.TRM_RAIL_OV,
      Reg.TRM_RAIL_ARMED, Reg.TRM_RAIL_CNT_UV, Reg.TRM_RAIL_CNT_OV, Reg.TRM_CLKIN_XTAL_OK, Reg.TRM_CLKIN_REFSYS_OK,
      Reg.TRM_CLKIN_PCIE_OK, Reg.TRM_CLKIN_FALLBACK]
  | .railExcursion _ _ =>
    Reg.reports ++ Reg.retirement ++ Reg.adapters ++ Reg.dropping ++ Reg.contextRung ++ Reg.mailOutput ++ Reg.offer ++
      [Reg.SRV_CNT_CANCEL_COUNT, Reg.HIF_PORT_STATUS_RATE, Reg.HIF_PORT_STATUS_WIDTH, Reg.HIF_PORT_STATUS_DL_UP,
      Reg.HIF_PORT_STATUS_DEGRADED, Reg.HIF_PORT_STATUS_IDE, Reg.HIF_PORT_STATUS_LAST_RESET, Reg.RCB_CFG_KIND, Reg.RCB_CFG_CFMT,
      Reg.RCB_CFG_SIZE_EXP, Reg.RCB_CFG_ENABLE, Reg.RCB_PAIR_CPL, Reg.RCB_PAIR_TOKEN, Reg.RCB_INTR_VECTOR, Reg.RCB_INTR_INTR_EN,
      Reg.RCB_INTR_COAL_CNT, Reg.RCB_INTR_COAL_T, Reg.RCB_BASE_ADDR, Reg.RCB_WB_ADDR, Reg.RCB_HEAD_INDEX, Reg.RCB_TAIL_INDEX,
      Reg.RCB_STATUS_STATE, Reg.RCB_STATUS_ERR, Reg.RCB_STATUS_ARMED, Reg.RCB_STATUS_FAULT_WAIT, Reg.RCB_COUNT_ENTRIES,
      Reg.MBX_STATUS_WD_FAIL, Reg.MBX_ACK_CODE, Reg.MBX_TMO_US, Reg.MBX_DB_MASK_MASK, Reg.MBX_IRQ_VECTOR, Reg.MBX_IRQ_EN,
      Reg.CLK_KEEP_HOLD, Reg.CLK_KEEP_LAPSED, Reg.LNK_STATUS_STATE, Reg.LNK_STATUS_LANES, Reg.LNK_STATUS_LAST_DOWN,
      Reg.LNK_STATUS_EVENTS, Reg.CAL_STATUS_STATE, Reg.CAL_STATUS_ERR, Reg.TRM_RAIL_UV, Reg.TRM_RAIL_OV, Reg.TRM_RAIL_CNT_UV,
      Reg.TRM_RAIL_CNT_OV]
  | .railRecovery _ =>
    [Reg.TRM_RAIL_UV, Reg.TRM_RAIL_OV]
  | .stackRailTimeout =>
    Reg.reports ++ [Reg.TRM_PSTATE_STATE]
  | .crystalLoss =>
    Reg.reports ++ [Reg.TRM_CLKIN_XTAL_OK, Reg.TRM_CLKIN_FALLBACK]
  | .refclkSysLoss =>
    Reg.weaker 5 ++ Reg.retirement ++ Reg.dieLog ++ [Reg.LNK_STATUS_STATE, Reg.LNK_STATUS_LANES, Reg.TRM_PSTATE_STATE,
      Reg.FLT_STATUS_OVERFLOW, Reg.FLT_CNT_LOST_COUNT, Reg.FLT_RST_STATUS_KIND, Reg.FLT_RST_STATUS_CAUSE, Reg.FLT_RST_STATUS_COURSE,
      Reg.FLT_RST_STATUS_PARTITION, Reg.FLT_RST_STATUS_OVERRUN, Reg.FLT_RST_TIME_TIME, Reg.FLT_RST_CNT_CHIP_COUNT,
      Reg.FLT_HB_STATUS_PART_LATE, Reg.FLT_HB_STATUS_FW_LATE, Reg.FLT_PROG_LOST_PART, Reg.TRM_CLKIN_REFSYS_OK]
  | .refclkSysRestore =>
    Reg.tab ++ [Reg.HIF_DEV_STATE_STATE, Reg.HIF_DEV_STATE_TRIP_REC, Reg.HIF_DEV_STATE_VERIFY, Reg.SEC_FW_STATUS_RUNNING,
      Reg.SEC_FW_STATUS_SVN, Reg.TRM_CLKIN_REFSYS_OK]
  | .pcieRefclkLoss _ =>
    Reg.retirement ++ Reg.adapters ++ Reg.dropping ++ Reg.mailOutput ++ Reg.offer ++ [Reg.SRV_CNT_CANCEL_COUNT,
      Reg.HIF_PORT_STATUS_RATE, Reg.HIF_PORT_STATUS_WIDTH, Reg.HIF_PORT_STATUS_DL_UP, Reg.HIF_PORT_STATUS_DEGRADED,
      Reg.HIF_PORT_STATUS_IDE, Reg.HIF_PORT_STATUS_LAST_RESET, Reg.RCB_CFG_KIND, Reg.RCB_CFG_CFMT, Reg.RCB_CFG_SIZE_EXP,
      Reg.RCB_CFG_ENABLE, Reg.RCB_PAIR_CPL, Reg.RCB_PAIR_TOKEN, Reg.RCB_INTR_VECTOR, Reg.RCB_INTR_INTR_EN, Reg.RCB_INTR_COAL_CNT,
      Reg.RCB_INTR_COAL_T, Reg.RCB_BASE_ADDR, Reg.RCB_WB_ADDR, Reg.RCB_HEAD_INDEX, Reg.RCB_TAIL_INDEX, Reg.RCB_STATUS_STATE,
      Reg.RCB_STATUS_ERR, Reg.RCB_STATUS_ARMED, Reg.RCB_STATUS_FAULT_WAIT, Reg.RCB_COUNT_ENTRIES, Reg.MBX_STATUS_WD_FAIL,
      Reg.MBX_ACK_CODE, Reg.MBX_TMO_US, Reg.MBX_DB_MASK_MASK, Reg.MBX_IRQ_VECTOR, Reg.MBX_IRQ_EN, Reg.CLK_KEEP_HOLD,
      Reg.CLK_KEEP_LAPSED, Reg.TRM_CLKIN_PCIE_OK]
  | .firmwareInstall _ _ _ =>
    Reg.stall ++ Reg.discard ++ [Reg.SEC_FW_STATUS_ACTIVE, Reg.SEC_FW_STATUS_FAIL_A, Reg.SEC_FW_STATUS_FAIL_B,
      Reg.SEC_FW_CMD_RESULT]
  | .commitSvn _ =>
    Reg.stall ++ Reg.discard ++ [Reg.SEC_FW_STATUS_MIN_SVN, Reg.SEC_FW_CMD_RESULT]
  | .keyStage _ _ _ =>
    Reg.stall ++ Reg.discard ++ [Reg.SEC_TP_STATUS_STATE, Reg.SEC_TP_STATUS_OVER, Reg.SEC_TP_STATUS_LATE]
  | .seal _ =>
    Reg.stall ++ Reg.discard ++ [Reg.SEC_TP_STATUS_STATE, Reg.SEC_TP_NONCE_NONCE, Reg.SEC_TP_DIGEST_DIGEST]
  | .stageAbort _ =>
    Reg.stall ++ Reg.discard ++ Reg.stageEnd
  | .configRollback _ =>
    Reg.stall ++ Reg.discard ++ [Reg.SEC_TP_STATUS_STATE, Reg.SEC_TP_STATUS_ERR, Reg.SEC_TP_STATUS_OVER, Reg.SEC_TP_STATUS_LATE]
  | .stageTimeout =>
    Reg.stageEnd
  | .generationRecord =>
    [Reg.SEC_GEN_GEN, Reg.SEC_GEN_STATUS_COPY, Reg.SEC_GEN_STATUS_PREV_VALID, Reg.SEC_GEN_STATUS_TWO_PARTY]
  | .barMaxRead _ =>
    Reg.stall ++ [Reg.NOC_BAR_MAX_CLOCKS]
  | .peakRead _ =>
    Reg.stall ++ [Reg.TRM_PEAK_TEMP, Reg.TRM_PEAK_SENSOR]
  | .napExitComplete =>
    Reg.tab ++ [Reg.CRS_ARR_TFMT_VERIFIED, Reg.HIF_DEV_STATE_STATE, Reg.HIF_DEV_STATE_TRIP_REC, Reg.HIF_DEV_STATE_VERIFY,
      Reg.TRM_PSTATE_STATE]
  | .crystalReturn =>
    [Reg.TRM_CLKIN_XTAL_OK]
  | .pcieLinkUp _ _ _ _ _ =>
    [Reg.HIF_PORT_STATUS_RATE, Reg.HIF_PORT_STATUS_WIDTH, Reg.HIF_PORT_STATUS_DL_UP, Reg.HIF_PORT_STATUS_DEGRADED,
      Reg.HIF_PORT_STATUS_IDE, Reg.TRM_CLKIN_PCIE_OK]
  | .devResetRelease =>
    Reg.tab ++ [Reg.HIF_DEV_STATE_STATE, Reg.HIF_DEV_STATE_TRIP_REC, Reg.HIF_DEV_STATE_VERIFY, Reg.SEC_FW_STATUS_RUNNING,
      Reg.SEC_FW_STATUS_SVN]
/-- The other parts of the state that a command may change. -/
def changesParts : Instr → List StatePart
  | .registerWrite _ _ _ | .refclkSysLoss | .stagedWrite _ _ _ =>
    [.latches, .snapshots, .fault, .host, .mail, .serving, .loader, .arrays, .cores, .fabric, .link, .peg, .cal, .mcv, .thermal, .recovery, .sec, .board, .dsram, .tsram, .out, .fresh]
  | .lowHalfRead _ _ | .timeRead _ =>
    [.snapshots, .mail, .mcv, .thermal, .out]
  | .tierMvm _ _ _ | .dtuTile _ _ | .send _ _ | .redAdd _ _ | .redMax _ _ | .barArriveWait _ _ | .flagAdd _ _ | .waitGe _ _
  | .ctrlForeach _ _ | .ctrlEndeach _ _ | .ctrlSeti _ _ | .ctrlAddi _ _ | .ctrlDivc _ _ | .ctrlBr _ _ | .ctrlLoop _ _
  | .ctrlLayer _ _ | .ctrlEnd _ _ | .tabScrub _ _ | .auditComparison _ _ _ | .standAloneAudit _ _ _ _ | .stepWatchdog _ _ =>
    [.fault, .serving, .loader, .arrays, .cores, .fabric, .link, .peg, .recovery, .out]
  | .conversion _ _ =>
    [.fault, .arrays, .fresh]
  | .tierMvmComplete _ _ _ | .dtuTileEnd _ _ | .vecCopy _ _ | .vecAdd _ _ | .vecMul _ _ | .vecFma _ _ | .vecMax _ _
  | .rowscale _ _ | .exp _ _ | .rcp _ _ | .rsqrt _ _ | .rowsum _ _ | .rowmax _ _ | .rowsumsq _ _ | .smaxn _ _ | .smaxr _ _
  | .topk _ _ | .sample _ _ | .rand _ _ | .scan _ _ | .recv _ _ | .recvred _ _ | .streamLoad _ _ | .kvload _ _ | .adload _ _
  | .redundancyCompare _ _ _ _ _ =>
    [.fault, .serving, .loader, .arrays, .cores, .fabric, .link, .peg, .recovery, .dsram, .out]
  | .tmvmAbort _ _ =>
    [.arrays, .cores]
  | .reemit _ _ _ _ =>
    [.cores, .out]
  | .replayBlocksArrive _ _ _ _ =>
    [.fault, .arrays, .out]
  | .recoveryPass _ _ _ =>
    [.fault, .arrays]
  | .programSlot _ _ _ =>
    [.fault, .host, .loader, .arrays, .cells, .link, .peg, .stack, .out]
  | .capClear _ _ =>
    [.mail, .arrays, .thermal, .out]
  | .spareArrayMap _ _ | .epochReady _ _ =>
    [.loader]
  | .spareActive _ | .handoverExpiry | .capAlert | .capAlertDeassert | .trayCapSet _ _ | .crystalReturn =>
    []
  | .courseBoundary _ =>
    [.loader, .arrays, .cores, .fabric, .peg, .cal, .sec, .dsram, .tsram]
  | .streamStore _ _ | .kvstore _ _ =>
    [.fault, .serving, .loader, .arrays, .cores, .fabric, .link, .peg, .recovery, .stack, .out]
  | .gather _ _ =>
    [.fault, .serving, .loader, .arrays, .cores, .fabric, .link, .peg, .recovery, .dsram, .out, .fresh]
  | .stepAbort _ _ _ | .mapApplied | .stepComplete _ _ | .deadlineExpiry _ | .cancelDrainComplete _ | .contextReset _ _ _ =>
    [.serving, .loader, .arrays, .cores, .fabric, .link, .peg, .recovery, .out]
  | .cancelFlit _ _ | .fieldTestDone _ =>
    [.fault, .arrays, .cores]
  | .tabWatchdog _ | .courseHeartbeatMiss _ | .courseReset _ _ =>
    [.fault, .serving, .loader, .arrays, .cores, .fabric, .link, .peg, .recovery, .dsram, .tsram, .out]
  | .tabReloadComplete _ =>
    [.cores]
  | .coreHalt _ _ | .coreResume _ _ | .faultClear _ _ | .ownClaim _ _ | .mbxDbClear _ _ | .mbxDbMaskWrite _ _ | .clockHold _ _
  | .mcvDropRead _ | .courseNap _ _ _ | .pstateNap _ _ | .pstateRest _ _ | .logRdWrite _ _ | .commitSvn _ | .barMaxRead _
  | .peakRead _ =>
    [.mail, .thermal, .out]
  | .flitArrive _ _ _ _ _ _ | .barrierArrive _ _ =>
    [.fault, .arrays, .cores, .fabric, .link, .dsram, .out]
  | .reductionContribution _ _ _ =>
    [.fault, .cores, .fabric, .dsram]
  | .barrierRelease _ _ _ =>
    [.fault, .cores, .fabric]
  | .flagAddArrive _ _ _ _ | .twinWaitExpiry _ _ _ =>
    [.fault, .cores, .dsram]
  | .mapUpdate _ =>
    [.serving, .loader, .arrays, .cores, .fabric, .link, .peg, .dsram, .tsram, .out]
  | .linkWatchdog _ _ =>
    [.fault, .fabric]
  | .fabricSelfTestDone _ _ | .firmwareWatchdog | .resetOverrun _ | .chipReset _ | .devReset =>
    [.latches, .snapshots, .fault, .host, .mail, .serving, .loader, .arrays, .cores, .fabric, .link, .peg, .cal, .mcv, .thermal, .recovery, .sec, .board, .dsram, .tsram, .out]
  | .beginLoad _ _ _ | .adapterLoad _ _ _ | .adapterFree _ _ | .shadowRebuild _ _ | .shadowRebuildDone _ =>
    [.fault, .host, .loader, .out]
  | .shardPosted _ _ | .endStream _ _ | .shardTimeout _ _ | .relayHead _ _ _ _ _ _ =>
    [.fault, .host, .loader, .link, .out]
  | .commit _ _ | .rollback _ _ =>
    [.fault, .host, .loader, .arrays, .link, .peg, .out, .fresh]
  | .release _ _ =>
    [.fault, .host, .loader, .link, .peg, .out]
  | .abort _ _ | .epochPrepare _ _ | .scaleCalibrationDone _ _ _ | .epochPrepared _ _ | .epochRefused _ _ | .epochCommit _ _
  | .prepareTimeout _ =>
    [.fault, .host, .loader, .arrays, .link, .peg, .out]
  | .manifestArrival _ _ _ _ =>
    [.fault, .host, .loader, .arrays, .fabric, .link, .peg, .out]
  | .manifestTimeout _ | .epochAbort _ _ =>
    [.fault, .host, .loader, .arrays, .peg, .out]
  | .shardComplete _ _ _ _ _ =>
    [.fault, .host, .loader, .arrays, .cores, .link, .peg, .dsram, .tsram, .out]
  | .relayData _ _ _ =>
    [.loader, .link, .out]
  | .relayReq _ _ _ _ | .shortHello _ _ =>
    [.link, .out]
  | .epochRetire _ _ =>
    [.loader, .peg]
  | .generate _ _ =>
    [.fault, .host, .serving, .loader, .arrays, .cores, .fabric, .link, .peg, .recovery, .out, .fresh]
  | .cancel _ _ | .auditRollback _ _ _ _ _ =>
    [.fault, .host, .serving, .loader, .arrays, .cores, .fabric, .link, .peg, .recovery, .out]
  | .prefixDrop _ _ | .tokenWrite _ | .pauseResume _ =>
    [.fault, .host, .serving, .out]
  | .passFormation _ =>
    [.fault, .serving, .loader, .arrays, .cores, .fabric, .link, .peg, .cal, .thermal, .stack, .dsram, .out, .fresh]
  | .completionWrite _ =>
    [.fault, .host, .serving, .loader, .link, .out]
  | .admitMessage _ _ =>
    [.fault, .serving, .loader, .link, .out]
  | .passMessage _ _ _ =>
    [.fault, .serving, .cores, .link, .cal, .thermal, .stack, .dsram, .out, .fresh]
  | .short _ _ | .servingRelease _ _ | .resetNotice _ _ =>
    [.fault, .serving, .loader, .arrays, .cores, .fabric, .link, .peg, .out]
  | .pagewaitTimeout _ | .chainWaitTimeout _ =>
    [.serving, .loader, .arrays, .cores, .fabric, .link, .peg, .out]
  | .portReset _ _ | .flr _ | .pcieRefclkLoss _ =>
    [.fault, .host, .mail, .serving, .loader, .arrays, .cores, .fabric, .link, .peg, .recovery, .out]
  | .flrComplete _ _ | .pcieLinkUp _ _ _ _ _ =>
    [.host]
  | .d3hotEntry _ | .copyIn _ _ | .copyOut _ _ | .zero _ _ | .pageRequestResponse _ _ | .pageRequestTimeout _
  | .atsTranslationCompletion _ _ _ =>
    [.fault, .host, .out]
  | .handoverOffer _ =>
    [.host, .mail, .thermal, .out]
  | .handoverAccept _ _ | .tripAck _ _ | .firmwareInstall _ _ _ | .keyStage _ _ _ | .stageAbort _ | .configRollback _ =>
    [.mail, .thermal, .sec, .out]
  | .reclaim _ _ | .negotiateAlgorithms _ _ | .getMeasurements _ _ _ _ | .getCertificate _ _ _ _ | .challenge _ _ _ =>
    [.sec, .out]
  | .ringEnable _ _ | .ringDisable _ _ | .dbIndex _ _ _ =>
    [.fault, .host, .mail, .serving, .thermal, .out]
  | .ringStop _ _ | .ringResume _ _ =>
    [.fault, .host, .mail, .thermal, .out]
  | .dbArm _ _ _ =>
    [.host, .mail, .out]
  | .coalesceTimer _ | .atsInvalidation _ _ _ =>
    [.host, .out]
  | .dmaPiece _ _ =>
    [.fault, .host, .stack, .out]
  | .mailboxCommit _ _ _ =>
    [.latches, .mail, .thermal, .out]
  | .mailboxAck _ _ _ | .mailboxWithdraw _ _ | .ffcClear _ =>
    [.fault, .mail, .thermal, .out]
  | .mailboxTimeout _ =>
    [.mail, .out]
  | .echo _ =>
    [.fault, .mail, .out]
  | .holdLapse _ =>
    [.mail]
  | .heldAccessRelease _ =>
    [.latches, .snapshots, .fault, .host, .mail, .serving, .loader, .arrays, .cores, .fabric, .link, .peg, .cal, .mcv, .thermal, .recovery, .sec, .board, .stack, .dsram, .tsram, .out, .fresh]
  | .trainingStart _ _ =>
    [.mail, .serving, .loader, .arrays, .cores, .fabric, .link, .peg, .out]
  | .trainingDone _ _ =>
    [.mail, .link, .out, .fresh]
  | .trainingTimeout _ =>
    [.mail, .link, .out]
  | .fullHello _ _ _ =>
    [.fault, .mail, .serving, .loader, .arrays, .cores, .fabric, .link, .peg, .out, .fresh]
  | .helloTimeout _ =>
    [.fault, .mail, .link, .out]
  | .helloReq _ | .helloTimer _ =>
    [.link, .out, .fresh]
  | .linkReplay _ _ =>
    [.fault, .mail, .serving, .loader, .arrays, .cores, .fabric, .link, .peg, .out]
  | .laneFail _ _ | .laneDrop _ _ _ | .goodbye _ | .partnerLoss _ =>
    [.fault, .mail, .serving, .loader, .arrays, .cores, .fabric, .link, .peg, .recovery, .out]
  | .retrain _ _ =>
    [.mail, .serving, .loader, .arrays, .cores, .fabric, .link, .peg, .thermal, .out]
  | .portDisable _ _ =>
    [.fault, .mail, .serving, .loader, .arrays, .cores, .fabric, .link, .peg, .thermal, .recovery, .sec, .out]
  | .msg _ _ _ =>
    [.fault, .arrays, .cores, .fabric, .link, .thermal, .dsram, .out]
  | .tierDue _ _ _ | .tierOverdue _ _ _ | .probePass _ _ _ =>
    [.peg]
  | .verifyRead _ _ _ _ =>
    [.fault, .loader, .cells, .peg]
  | .retuneSlot _ _ _ _ =>
    [.fault, .loader, .peg]
  | .fullVerifySweep _ =>
    [.fault, .loader, .cells, .peg, .thermal, .board, .stack]
  | .sweepComplete =>
    [.mail, .peg, .recovery, .sec]
  | .calStart _ _ _ | .calAbort _ =>
    [.mail, .cal, .thermal, .out]
  | .calStep _ =>
    [.cal, .sec]
  | .recalibrationTrigger _ =>
    [.cal]
  | .mcvResult _ _ =>
    [.mcv]
  | .mcvResultRead _ =>
    [.mail, .mcv, .thermal, .out]
  | .sensorSample _ _ =>
    [.fault, .mail, .peg, .thermal, .out]
  | .powerInterval _ _ | .idleGate _ | .napEntryComplete =>
    [.thermal]
  | .scanStall _ =>
    [.thermal, .out]
  | .restEntry =>
    [.fault, .mail, .serving, .loader, .arrays, .cores, .fabric, .link, .peg, .recovery, .board, .stack, .dsram, .tsram, .out]
  | .pstateActive _ _ =>
    [.latches, .snapshots, .fault, .host, .mail, .serving, .loader, .arrays, .cores, .fabric, .link, .peg, .mcv, .thermal, .sec, .board, .dsram, .tsram, .out]
  | .patrolScrub _ _ =>
    [.fault, .host, .serving, .loader, .arrays, .cores, .fabric, .link, .peg, .recovery, .stack, .out, .fresh]
  | .auditAbandon _ _ | .confirmation _ _ _ | .aggregationWindowClose _ | .crystalLoss =>
    [.fault]
  | .fieldTestStart _ _ | .fieldTestAbort _ _ =>
    [.fault, .mail, .arrays, .cores, .thermal, .out]
  | .faultReport _ _ _ _ =>
    [.fault, .peg]
  | .dieLogWrite =>
    [.fault, .mail, .fabric, .stack, .out]
  | .partitionHeartbeatMiss _ | .partitionReset _ _ =>
    [.fault, .host, .mail, .serving, .loader, .arrays, .cores, .fabric, .link, .peg, .recovery, .dsram, .tsram, .out]
  | .courseResetComplete _ =>
    [.fault, .mail, .serving, .loader, .arrays, .cores, .fabric, .link, .peg, .recovery, .dsram, .tsram, .out]
  | .powerUp _ =>
    [.time, .latches, .snapshots, .fault, .host, .mail, .serving, .loader, .arrays, .cores, .fabric, .link, .peg, .cal, .mcv, .thermal, .recovery, .sec, .board, .stack, .dsram, .tsram, .out]
  | .aonPowerOnReset =>
    [.time, .latches, .snapshots, .fault, .host, .mail, .serving, .loader, .arrays, .cores, .fabric, .link, .peg, .cal, .mcv, .thermal, .recovery, .sec, .board, .stack, .dsram, .tsram]
  | .railExcursion _ _ =>
    [.fault, .host, .mail, .serving, .loader, .arrays, .cores, .fabric, .link, .peg, .cal, .recovery, .board, .out]
  | .railRecovery _ | .dynamicAddressAssignment _ =>
    [.board]
  | .railExcursionTimeout _ =>
    [.recovery, .out]
  | .stackRailTimeout =>
    [.fault, .board]
  | .refclkSysRestore | .devResetRelease =>
    [.loader, .cores, .peg, .thermal, .recovery, .dsram, .tsram, .out]
  | .seal _ =>
    [.mail, .thermal, .sec, .out, .fresh]
  | .approve _ _ =>
    [.mail, .cal, .sec, .out]
  | .stageTimeout | .generationRecord =>
    [.sec]
  | .getStage _ _ =>
    [.out]
  | .getNonce _ | .keyExchange _ _ _ _ =>
    [.sec, .out, .fresh]
  | .napExitComplete =>
    [.loader, .cores, .peg, .thermal, .dsram, .tsram]
  | .bar4Access _ _ _ =>
    [.mail, .stack, .out]

end Sys2Proof.Machine
end

