-- ==== Sys2Proof/Certificates/Slice0/Obligations.lean ====
section
/-! DEFINITION. Certificates/Slice0/Obligations.lean: the statements for the provers, each a definition of a proposition about the model. -/
open Sys2Proof Sys2Proof.Machine

/-- The queue is the model's own (log entry 2): a step takes its front command. -/
def Obligations.StepRunsFrontCommand : Prop :=
  ∀ (c : Instr) (s : State), step { s with pending := c :: s.pending } = exec c s

/-- The tick on an empty queue is the model's choice (log entry 1); R54 gives the local time counter its 1 ns. -/
def Obligations.IdleStepPassesTime : Prop :=
  ∀ s : State, s.pending = [] → ∃ t, step s = .next t ∧ t.pending = [] ∧
  (s.board.powered = true → t.time = s.time + 1 ∧ t.thermal.scaled = s.thermal.scaled + s.rd Reg.TRM_CLAMP_F) ∧
  (s.board.powered = false → t = s)

/-- The manual gives every command an effect, were it that nothing happens (R10). -/
def Obligations.EveryCommandCompletes : Prop :=
  ∀ (c : Instr) (s : State), ∃ t, exec c s = .next t

/-- The Reset column of the register tables. What the tables leave open at reset is the model's choice (log entries 5 to 7). -/
def Obligations.ResetState : Prop :=
  State.reset.good = true ∧ State.reset.pending = [] ∧ State.reset.time = 0 ∧
  (∀ f ∈ Reg.table, ∀ i, State.reset.rd f i = f.resetAt i) ∧
  State.reset.rd Reg.HIF_OWN_STATUS_OWNER = 0 ∧ State.reset.rd Reg.HIF_DEV_STATE_STATE = 0 ∧ State.reset.rd Reg.TRM_CLAMP_F = 256 ∧
  (∀ l, State.reset.rd Reg.NOC_COURSE_MAP_PHYS l = l) ∧ (∀ i, State.reset.rd Reg.NOC_SPARE_MAP_REPLACED i = 15) ∧
  (∀ i, State.reset.rd Reg.CRS_ARR_SPARE_MAP_REPLACED i = 15) ∧ (∀ m, State.reset.rd Reg.MBX_STATUS_FULL m = 0) ∧
  (∀ p, State.reset.rd Reg.LNK_STATUS_STATE p = 0) ∧ (∀ r, State.reset.rd Reg.RCB_STATUS_STATE r = 0)

/-- The canonical form is the model's own: equal memories are equal data. -/
def Obligations.EveryStepKeepsGood : Prop :=
  ∀ s t : State, s.good = true → step s = .next t → t.good = true

/-- Queue, trace and counter of free values are the model's own (log entries 2 to 4). -/
def Obligations.StepConsumesOneCommand : Prop :=
  ∀ (c : Instr) (rest : List Instr) (s t : State), s.pending = c :: rest → step s = .next t →
  t.pending = rest ∧ s.out <+: t.out ∧ s.fresh ≤ t.fresh

/-- The frame of every command, by the table of Safety.lean. -/
def Obligations.EveryCommandChangesOnly : Prop :=
  ∀ (c : Instr) (s t : State), exec c s = .next t → s.sameBut t (changesParts c) (changesFields c)

/-- Bytes as the model reads them: the list of storing commands is changesParts in Safety.lean. -/
def Obligations.MemoriesChangeOnlyBy : Prop :=
  (∀ (c : Instr) (s t : State), StatePart.stack ∉ changesParts c → exec c s = .next t → ∀ a n, t.stackRead a n = s.stackRead a n) ∧
(∀ (c : Instr) (s t : State), StatePart.tsram ∉ changesParts c → exec c s = .next t → ∀ k a n, t.tabRead k a n = s.tabRead k a n) ∧
(∀ (c : Instr) (s t : State), StatePart.dsram ∉ changesParts c → exec c s = .next t → ∀ k a n, t.dataRead k a n = s.dataRead k a n)

/-- Table 0.4, NV: "Every reset, every power state, and removal of all rails". -/
def Obligations.NvFieldsSurvive : Prop :=
  ∀ (c : Instr) (s t : State) (f : Field), f ∈ Reg.table → f.survives = .nv → f ∉ Reg.retirement →
  f ≠ Reg.FLT_PROG_LOST_PART → f ≠ Reg.CRS_ARR_STATUS_STATE →
  (match c with
    | .portReset _ _ | .flr _ | .contextReset _ _ _ | .courseReset _ _ | .partitionReset _ _ | .chipReset _ | .devReset
    | .courseHeartbeatMiss _ | .partitionHeartbeatMiss _ | .stepWatchdog _ _ | .pstateNap _ _ | .pstateRest _ _ | .restEntry
    | .pstateActive _ _ | .napExitComplete | .refclkSysLoss | .refclkSysRestore | .pcieRefclkLoss _ | .devResetRelease
    | .aonPowerOnReset => True
    | _ => False) →
  exec c s = .next t → ∀ i, t.rd f i = s.rd f i

/-- Table 0.3 (RW, RWO), the requesters of R9, the rights of R270. -/
def Obligations.RegisterWritesStore : Prop :=
  (∀ (s : State) (who : Requester) (v : W32), s.reaches who 0x80000 = true →
  s.does (.registerWrite who 0x80000 v) (fun t => t.rd Reg.SRV_PSEL_PART (reqCode who) = v.toNat % 16 ∧
    s.otherCopies t Reg.SRV_PSEL_PART (reqCode who) ∧ s.sameBut t [] [Reg.SRV_PSEL_PART])) ∧
(∀ (s : State) (who : Requester) (v : W32), s.reachesOwned who 0x60030 = true → isVf who = false →
  s.does (.registerWrite who 0x60030 v) (fun t => t.rd Reg.DMA_PRI_CTRL_TIMEOUT_MS = v.toNat % 65536 ∧
    s.sameBut t [.sec] [Reg.DMA_PRI_CTRL_TIMEOUT_MS])) ∧
(∀ (s : State) (who : Requester) (v : W32), s.reachesOwned who 0xA0004 = true → isVf who = false →
  s.does (.registerWrite who 0xA0004 v) (fun t => t.rd Reg.LDR_TIMEOUT_SHARD_MS = v.toNat % 65536 ∧
    t.rd Reg.LDR_TIMEOUT_PREP_10MS = v.toNat / 65536 ∧ s.sameBut t [.sec] [Reg.LDR_TIMEOUT_SHARD_MS, Reg.LDR_TIMEOUT_PREP_10MS]))

/-- R270 for the writer without the right, R10 for offsets where nothing lies. -/
def Obligations.ForeignWriteIsDiscarded : Prop :=
  (∀ (s : State) (who : Requester) (v : W32) (a : BitVec 26), a ∈ [0x60030, 0xA0004, 0x34] → isVf who = false →
  s.reaches who a.toNat = true → s.mayRwo who = false →
  s.does (.registerWrite who a v) (fun t =>
    s.counts t Reg.HIF_NOW_CNT_NONOWNER ∧ t.rd Reg.HIF_NOW_LAST_OFFSET = a.toNat / 4 ∧
    t.rd Reg.HIF_NOW_LAST_FUNCTION = reqCode who ∧ t.rd Reg.HIF_NOW_LAST_BAR = 0 ∧ t.rd Reg.HIF_NOW_LAST_HI_OFFSET_HI = 0 ∧
    t.out = s.out ++ [.unsupported (reqCode who)] ∧ s.sameBut t [.out] Reg.discard)) ∧
(∀ (s : State) (who : Requester) (v : W32) (a : BitVec 26), regPlace a.toNat = none → s.reaches who a.toNat = true →
  s.does (.registerWrite who a v) (fun t => t = s) ∧
  s.does (.lowHalfRead who a) (fun t => t = s.emit (.readData (reqCode who) 0)))

/-- R293 for HIF_TIME, R9 for every 64-bit quantity. -/
def Obligations.ReadsSnapshotTheHighHalf : Prop :=
  (∀ (s : State) (who : Requester), s.reaches who 0x18 = true →
  s.does (.timeRead who) (fun t => t.out = s.out ++ [.readData (reqCode who) (s.time % 2 ^ 32)] ∧
    SMap.find? t.snapshots (latchKey who 0x18) = some (s.time / 2 ^ 32 % 2 ^ 32) ∧ s.sameBut t [.out, .snapshots] [])) ∧
(∀ (s : State) (who : Requester) (x : Nat), s.reaches who 0x1C = true → SMap.find? s.snapshots (latchKey who 0x18) = some x →
  s.does (.lowHalfRead who 0x1C) (fun t => t.out = s.out ++ [.readData (reqCode who) x] ∧
    SMap.find? t.snapshots (latchKey who 0x18) = none ∧ s.sameBut t [.out, .snapshots] [])) ∧
(∀ (s : State) (who : Requester) (a : BitVec 26), isLowHalf a.toNat = true → a.toNat < 0x1000000 → s.reaches who a.toNat = true →
  s.does (.lowHalfRead who a) (fun t => t.out = s.out ++ [.readData (reqCode who) (s.wordOf who a.toNat)] ∧
    SMap.find? t.snapshots (latchKey who a.toNat) = some (s.wordOf who (a.toNat + 4)) ∧ s.sameBut t [.out, .snapshots] []))

/-- R308 and Table 9.3. How many posted writes CLK_STALL counts is the model's choice (log entry 10). -/
def Obligations.AccessHeldAtStoppedDomain : Prop :=
  (∀ (s : State) (who : Requester) (a : BitVec 26) (v : W32) (d : Nat), s.served who = true → (isVf who && vfHidden a.toNat) = false →
  s.stoppedDomain a.toNat = some d →
  s.does (.registerWrite who a v) (fun t => t.heldAt (laneOfReq who) = s.heldAt (laneOfReq who) ++ [⟨who, 0, a.toNat, some v, d, none⟩] ∧
    (∀ l, l ≠ laneOfReq who → t.heldAt l = s.heldAt l) ∧ t.rd Reg.CLK_STALL_DOMAIN = d ∧
    s.counts t Reg.CLK_STALL_TOTAL ∧ s.sameBut t [.mail] Reg.stall)) ∧
(∀ (s : State) (lane : Fin 6) (who : Requester) (a : BitVec 26) (v : W32) (d : Nat) (rest : List HeldAccess),
  s.heldAt lane = ⟨who, 0, a.toNat, some v, d, none⟩ :: rest → (s.setHeld lane rest).reaches who a.toNat = true →
  s.does (.heldAccessRelease lane) (fun t => exec (.registerWrite who a v) (s.setHeld lane rest) = .next t))

/-- R75 (one array, one input vector), R89 (the spare array), R213 (the epoch map), R64 (TIER_NOT_READY). -/
def Obligations.TierMvmIssues : Prop :=
  (∀ (s : State) (core : Core) (w : W128) (carried : List (Fin 33 × Fin 33)) (x : CoreSlot) (a : Nat),
  s.issues core w 0 0 = true → s.curSlot core = some x → s.physArray core (wArg0 w % 8) = some a →
  (s.array (arrayKey core a)).mvm = none →
  s.tierReady core a (s.physTier core x.slotRec.epoch (wArg1 w % 128)) = true →
  s.does (.tierMvm core w carried) (fun t =>
    (∃ m, (t.array (arrayKey core a)).mvm = some m ∧ m.word = w ∧ m.tier = s.physTier core x.slotRec.epoch (wArg1 w % 128) ∧
      m.slot = (s.core core).cur ∧ m.width = inputWidth (s.operand core (wDesc w)) ∧ m.signed = inputSigned (s.operand core (wDesc w)) ∧
      m.gain = 2 ^ s.rd Reg.CRS_ARR_TFMT_GAIN (128 * arrayKey core a + m.tier)) ∧
    (t.core core).pc = (s.core core).pc + 1 ∧ (t.core core).inflight.length = (s.core core).inflight.length + 1 ∧
    t.stack = s.stack ∧ t.dsram = s.dsram ∧ t.tsram = s.tsram)) ∧
(∀ (s : State) (core : Core) (w : W128) (carried : List (Fin 33 × Fin 33)) (x : CoreSlot) (a : Nat),
  s.issues core w 0 0 = true → s.curSlot core = some x → s.physArray core (wArg0 w % 8) = some a →
  (s.array (arrayKey core a)).mvm = none →
  s.tierReady core a (s.physTier core x.slotRec.epoch (wArg1 w % 128)) = false →
  s.does (.tierMvm core w carried) (fun t => (t.array (arrayKey core a)).mvm = none ∧
    s.counts t Reg.CRS_CORE_EVENTS_TNR core ∧ t.dsram = s.dsram))

/-- R71 and R78. The analog error within a code is a free value (log entry 3). -/
def Obligations.ConversionAccumulates : Prop :=
  ∀ (s : State) (core : Core) (array : Fin 9) (m : Mvm) (c : Conversion) (rest : List Conversion),
  (s.array (arrayKey core array)).mvm = some m → m.todo = c :: rest →
  s.does (.conversion core array) (fun t => ∃ (codes : List Nat) (n : Mvm),
    codes.length = 34 ∧ (∀ x ∈ codes, x ≤ 63) ∧ (t.array (arrayKey core array)).mvm = some n ∧ n.todo = rest ∧
    (c.lane = false → n.acc = m.acc.zipIdx.map (fun p => p.1 + c.weight * ((codes.getD p.2 0 * (8 / m.gain) : Nat) : Int)) ∧
      n.pop = m.pop + c.weight * (c.rows.length : Nat) ∧ n.laneAcc = m.laneAcc) ∧
    (c.lane = true → n.laneAcc = m.laneAcc.zipIdx.map (fun p => p.1 + c.weight * ((codes.getD p.2 0 * 2 : Nat) : Int)) ∧ n.acc = m.acc) ∧
    s.counts t Reg.CRS_ARR_CONV_COUNT (arrayKey core array) ∧
    s.sameBut t [.fault, .arrays, .fresh] [Reg.CRS_ARR_CONV_COUNT, Reg.CRS_ARR_SAT_CNT_COUNT])

/-- R78 and R79 for the end, R77 for the abort. -/
def Obligations.TierMvmEnds : Prop :=
  (∀ (s : State) (core : Core) (array : Fin 9) (lowest : Bool) (m : Mvm),
  let k := arrayKey core array
  (s.array k).mvm = some m → m.waiting = false → m.todo = [] → m.parts = [] → m.level = 0 → m.nan = false → m.flushTrip = false →
  checkPasses (s.band k m.gain) m.checked m.d0 m.d1 = (true, true) → checkPasses (s.band k 4) m.laneChecked m.laneD0 m.laneD1 = (true, true) →
  above (s.satThr (courseOf core) m.satThr) (m.carried + m.saturated.length) = false →
  bit (wArg1 m.word) 7 = true → bit (wArg0 m.word) 4 = false → s.is Reg.CRS_ARR_TFMT_PARTIAL_FMT (128 * k + m.tier) = false →
  s.does (.tierMvmComplete core array lowest) (fun t =>
    t.dsram = (s.writeWords core (s.granD core m.word)
      ((columnResults (s.rd Reg.CRS_ARR_TFMT_WIDTH (128 * k + m.tier)) (s.is Reg.CRS_ARR_TFMT_SIGNED (128 * k + m.tier)) m.acc m.pop).map (BitVec.ofInt 32))).dsram ∧
    (t.array k).mvm = none ∧ (∀ f ∈ (t.core core).inflight, f.unit ≠ array.val) ∧
    s.counts t Reg.CRS_CORE_RETIRE_COUNT core ∧
    s.sameBut t [.arrays, .cores, .dsram, .peg] [Reg.CRS_CORE_RETIRE_COUNT])) ∧
(∀ (s : State) (core : Core) (array : Fin 9), (s.array (arrayKey core array)).mvm ≠ none →
  s.does (.tmvmAbort core array) (fun t => (t.array (arrayKey core array)).mvm = none ∧ (t.array (arrayKey core array)).pool = [] ∧
    (∀ f ∈ (t.core core).inflight, f.unit ≠ array.val) ∧ s.sameBut t [.arrays, .cores] []))

/-- R111 to R113 for replays, R122 and R123 for the recovery pass. -/
def Obligations.ReplayRunsOnce : Prop :=
  (∀ (s : State) (core : Core) (tag : W64) (channel : Fin 4096) (level : Fin 4) (x : ReplaySource),
  x ∈ (s.core core).sources → x.channel = channel → tagHits (tagPart tag) (tagContext tag) (some (tagStep tag)) x.tag = true →
  tagLayer x.tag = tagLayer tag → level.val ∉ x.answered →
  s.does (.reemit core tag channel level) (fun t => s.out.length < t.out.length ∧ s.sameBut t [.out, .cores] [] ∧
    t.does (.reemit core tag channel level) (fun u => u = t))) ∧
(∀ (s : State) (core : Core) (array : Fin 9) (level : Fin 3) (groups : List Group) (m : Mvm),
  (s.array (arrayKey core array)).mvm = some m → m.waiting = true → m.level ≠ 3 → m.level ≤ level → 1 ≤ level.val →
  (∀ g ∈ groups, g.flush = 0) →
  s.does (.replayBlocksArrive core array level groups) (fun t => ∃ n, (t.array (arrayKey core array)).mvm = some n ∧ n.waiting = false ∧
    n.level = level ∧ n.all = partsOf level groups ∧ n.word = m.word ∧ n.tier = m.tier)) ∧
(∀ (s : State) (core : Core) (array : Fin 9) (blocks : List Group) (m : Mvm),
  (s.array (arrayKey core array)).mvm = some m → m.waiting = true → m.level = 3 →
  s.does (.recoveryPass core array blocks) (fun t => ∃ n, (t.array (arrayKey core array)).mvm = some n ∧ n.waiting = false ∧ n.gain = 1 ∧
    n.lane.length ≤ 8 ∧ bit n.tag.toNat 59 = true ∧
    s.counts t Reg.CRS_PRC_HREC_COUNT (courseOf core)))

/-- R60, R63 and R64 for programming, R88 and R89 for the spare array. -/
def Obligations.ProgrammingStoresRows : Prop :=
  (∀ (s : State) (core : Core) (array : Fin 9) (j : ProgJob),
  (s.array (arrayKey core array)).prog = some j → s.slotAllowed (arrayKey core array) j.tile.tier = true →
  (j.row + 1 < 256 → j.tile.levels.length = 8192 →
    s.does (.programSlot core array true) (fun t => (t.array (arrayKey core array)).prog = some { j with slots := j.slots + 1, row := j.row + 1 } ∧
      (∀ col, col < 32 → SMap.get 0 t.cells (cellKey j.tile.tier j.row col) = (j.tile.levels.getD (32 * j.row + col) 0).toNat) ∧
      (∀ key, (∀ col, col < 32 → key ≠ cellKey j.tile.tier j.row col) → SMap.get 0 t.cells key = SMap.get 0 s.cells key) ∧
      s.sameBut t [.arrays, .cells] [])) ∧
  s.does (.programSlot core array false) (fun t => (t.array (arrayKey core array)).prog = some { j with slots := j.slots + 1 } ∧ s.sameBut t [.arrays] []) ∧
  (j.row = 255 → j.tile.shard = 0xFFFFFFFF →
    s.does (.programSlot core array true) (fun t => (t.array (arrayKey core array)).prog = none ∧
      t.rd Reg.CRS_ARR_TFMT_VERIFIED j.tile.tier = 1 ∧ t.rd Reg.CRS_ARR_TFMT_WIDTH j.tile.tier = fmtWidth j.tile.format ∧
      t.rd Reg.CRS_ARR_STATUS_PROG (arrayKey core array) = 0 ∧
      SMap.find? t.loader.source j.tile.tier = some (j.tile.format, j.tile.levels)))) ∧
(∀ (s u : State) (core : Core) (array : Fin 9) (tl : Tile),
  (s.array (arrayKey core array)).prog = none → s.takeTile (arrayKey core array) = some (tl, u) →
  s.slotAllowed (arrayKey core array) tl.tier = true → s.tileAllowed tl = true →
  s.does (.programSlot core array false) (fun t => (∃ j, (t.array (arrayKey core array)).prog = some j ∧ j.tile = tl ∧ j.row = 0) ∧
    t.rd Reg.CRS_ARR_TFMT_VERIFIED tl.tier = 0 ∧ t.rd Reg.CRS_ARR_TFMT_PROGRAMMING tl.tier = 1 ∧ t.cells = s.cells ∧
    t.rd Reg.CRS_ARR_STATUS_PROG (arrayKey core array) = 1)) ∧
(∀ (s : State) (core : Core) (failed : Fin 8), s.rd Reg.CRS_ARR_STATUS_STATE (arrayKey core 8) = 1 → s.rd Reg.CRS_ARR_SPARE_MAP_REPLACED core = 15 →
  s.does (.spareArrayMap core failed) (fun t => t.rd Reg.CRS_ARR_SPARE_MAP_REPLACED core = failed ∧ t.rd Reg.CRS_ARR_STATUS_STATE (arrayKey core 8) = 0 ∧
    (failed = 0 → t.rd Reg.CRS_ARR_SPARE_MAP_SYS_MOVED core = 1) ∧
    s.sameBut t [.loader] [Reg.CRS_ARR_SPARE_MAP_REPLACED, Reg.CRS_ARR_SPARE_MAP_ACTIVE, Reg.CRS_ARR_SPARE_MAP_SYS_MOVED, Reg.CRS_ARR_STATUS_STATE, Reg.CRS_ARR_TFMT_VERIFIED])) ∧
(∀ (s : State) (core : Core), s.rd Reg.CRS_ARR_SPARE_MAP_REPLACED core < 8 → s.arrayVerified (arrayKey core 8) = true →
  s.does (.spareActive core) (fun t => t.rd Reg.CRS_ARR_SPARE_MAP_ACTIVE core = 1 ∧ s.otherCopies t Reg.CRS_ARR_SPARE_MAP_ACTIVE core ∧
    s.sameBut t [] [Reg.CRS_ARR_SPARE_MAP_ACTIVE]))

/-- R29 and R351 for boundaries, R85 and R92 for captures. An access to a course window ends its clock gating, a part of `thermal`. -/
def Obligations.BoundaryTakesWhatWaits : Prop :=
  (∀ (s : State) (course : Course) (m : CalReadings), s.courseIdle course = true → s.cal.waiting.contains course.val = true → s.cal.pending = [m] →
  (m.trims.map Prod.fst).Nodup → s.cal.waiting.length ≤ 100 → s.cal.gen < 65536 →
  s.does (.courseBoundary course) (fun t => t.cal.waiting = s.cal.waiting.filter (· != course.val) ∧
    t.rd Reg.CAL_SET_PENDING = t.cal.waiting.length ∧ (t.cal.waiting = [] → t.cal.pending = [] ∧ t.rd Reg.CAL_SET_GEN = s.cal.gen) ∧
    (∀ k v, (k, v) ∈ m.trims → courseOf (k / 9) = course.val → (t.array k).trim = v) ∧
    (∀ k, courseOf (k / 9) ≠ course.val → (t.array k).trim = (s.array k).trim) ∧ t.stack = s.stack)) ∧
(∀ (s : State) (course : Course), s.courseIdle course = false → s.does (.courseBoundary course) (fun t => t = s)) ∧
(∀ (s : State) (who : Requester) (course : Course) (k : Nat), s.reaches who (crsOffset course 0x4034) = true → s.selArray (reqCode who) course = some k →
  s.does (.capClear who course) (fun t => (t.array k).captures = [] ∧ t.rd Reg.CRS_ARR_CAP_STATUS_COUNT k = 0 ∧ t.rd Reg.CRS_ARR_CAP_STATUS_LOST k = 0 ∧
    t.rd Reg.CRS_ARR_CAP_STATUS_WRAP k = 0 ∧ (∀ q, q ≠ k → t.array q = s.array q) ∧
    s.sameBut t [.arrays, .thermal] [Reg.CRS_ARR_CAP_STATUS_COUNT, Reg.CRS_ARR_CAP_STATUS_LOST, Reg.CRS_ARR_CAP_STATUS_WRAP]))

/-- R126 and R144 for the tile, R384 and R385 for the comparison at its end. -/
def Obligations.DtuTileComputesAndCommits : Prop :=
  (∀ (s : State) (core : Core) (w : W128), s.issues core w 1 0 = true → (s.core core).dtu = none →
  (s.operand core (wDesc w)).len ≠ 0 → wArg1 w % 64 ≠ 0 →
  let oa := s.operand core (wDesc w)
  let n := 32 * (wArg1 w % 64)
  let bt := bit (wArg0 w) 0
  let ob := dtuShape (if bit (wArg0 w) 2 then oa else s.operand core (wDescb w)) bt oa.len n
  s.does (.dtuTile core w) (fun t => t.dsram = s.dsram ∧ t.stack = s.stack ∧ (t.core core).pc = (s.core core).pc + 1 ∧
    (t.core core).inflight.length = (s.core core).inflight.length + 1 ∧
    ∃ j, (t.core core).dtu = some j ∧ j.word = w ∧ j.reissue = false ∧ j.out.length = oa.rows * n ∧
      ∀ r c, r < oa.rows → c < n → j.out[r * n + c]? = some (
        if bit (wArg0 w) 1 then fpAdd ((s.readWords core (s.granD core w) (oa.rows * n)).getD (r * n + c) 0) (s.dtuElem core (s.granA core w) (s.granB core w) oa ob bt r c)
        else s.dtuElem core (s.granA core w) (s.granB core w) oa ob bt r c))) ∧
(∀ (s : State) (core : Core) (j : DtuJob), (s.core core).dtu = some j → bit (wArg0 j.word) 2 = false →
  32 * s.granD core j.word + 4 * j.out.length ≤ batchWindow →
  s.does (.dtuTileEnd core true) (fun t => (t.core core).dtu = none ∧ s.counts t Reg.CRS_CORE_RETIRE_COUNT core ∧
    (∀ i, i < j.out.length → t.wordAt core (32 * s.granD core j.word + 4 * i) = j.out.getD i 0) ∧
    s.bytesKept t core (32 * s.granD core j.word) (4 * j.out.length) ∧ s.sameBut t [.cores, .dsram] [Reg.CRS_CORE_RETIRE_COUNT])) ∧
(∀ (s : State) (core : Core) (j : DtuJob), (s.core core).dtu = some j → bit (wArg0 j.word) 2 = true →
  let out := runsOf (32 * (wArg1 j.word % 64)) j.out
  s.does (.dtuTileEnd core true) (fun t => (t.core core).dtu = none ∧
    t.dsram = (s.writeOperand core (s.granD core j.word) { s.operand core (wDescb j.word) with rows := out.length, len := 32 * (wArg1 j.word % 64) } out).dsram)) ∧
(∀ (s : State) (core : Core) (j : DtuJob), (s.core core).dtu = some j →
  s.does (.dtuTileEnd core false) (fun t => t.dsram = s.dsram ∧ t.stack = s.stack ∧
    (j.reissue = false → (t.core core).dtu = some { j with reissue := true }) ∧ (j.reissue = true → (t.core core).dtu = none)))

/-- R145 and Table 4.5 for the operations, R153 for LEN 0. -/
def Obligations.VectorArithmetic : Prop :=
  (∀ (s : State) (core : Core) (w : W128),
  let oa := s.operand core (wDesc w)
  let ob := { s.operand core (wDescb w) with rows := oa.rows, len := oa.len }
  let a := s.opValue core (s.granA core w) oa
  let b := s.opValue core (s.granB core w) ob
  let d := s.opValue core (s.granD core w) (plain oa.len oa.rows)
  oa.len ≠ 0 → 32 * s.granD core w + 4 * (oa.rows * oa.len) ≤ batchWindow →
  (s.issues core w 2 1 = true → s.does (.vecAdd core w) (fun t => s.retires t core ∧
    s.holdsRows t core (s.granD core w) oa.rows oa.len (fun r c => fpAdd (a r c) (b r c)))) ∧
  (s.issues core w 2 2 = true → s.does (.vecMul core w) (fun t => s.retires t core ∧
    s.holdsRows t core (s.granD core w) oa.rows oa.len (fun r c => fpMul (a r c) (b r c)))) ∧
  (s.issues core w 2 3 = true → s.does (.vecFma core w) (fun t => s.retires t core ∧
    s.holdsRows t core (s.granD core w) oa.rows oa.len (fun r c => fpFma (a r c) (b r c) (d r c)))) ∧
  (s.issues core w 2 4 = true → s.does (.vecMax core w) (fun t => s.retires t core ∧
    s.holdsRows t core (s.granD core w) oa.rows oa.len (fun r c => fpMax (a r c) (b r c))))) ∧
(∀ (s : State) (core : Core) (w : W128),
  let od := { s.operand core (wDesc w) with rows := vecRows w }
  let b := s.opValue core (s.granB core w) { s.operand core (wDescb w) with rows := 1, len := vecRows w }
  s.issues core w 2 5 = true → od.len ≠ 0 → fp32Rows od → 32 * s.granD core w + 4 * (od.rows * od.len) ≤ batchWindow →
  s.does (.rowscale core w) (fun t => s.retires t core ∧ s.holdsRows t core (s.granD core w) od.rows od.len
    (fun r c => fpMul (fpMul (s.opValue core (s.granD core w) od r c) (b 0 r)) (BitVec.ofNat 32 (wImm w))))) ∧
(∀ (s : State) (core : Core) (w : W128), (s.operand core (wDesc w)).len = 0 → s.issues core w 2 1 = true →
  s.does (.vecAdd core w) (fun t => t.dsram = s.dsram ∧ s.retires t core))

/-- R145 for the operations and their bound (log entry 13), R101 for the output quantiser, R127 and R128 for the functions. -/
def Obligations.VectorFunctions : Prop :=
  ∀ (s : State) (core : Core) (w : W128),
  let oa := s.operand core (wDesc w)
  let od := { s.operand core (wDescb w) with rows := oa.rows, len := oa.len }
  let a := s.opValue core (s.granA core w) oa
  let q := [Reg.CRS_PRC_NONFINITE_COUNT, Reg.CRS_PRC_CO_FLUSH_COUNT, Reg.CRS_PRC_CO_SAT_COUNT]
  let post := fun (f : W32 → W32) (t : State) => s.retires t core q ∧
    t.dsram = (s.writeOperand core (s.granD core w) od ((s.opRows core (s.granA core w) oa oa.rows).map (fun r => r.map f))).dsram ∧
    (fp32Rows od → 32 * s.granD core w + 4 * (oa.rows * oa.len) ≤ batchWindow →
      s.holdsRows t core (s.granD core w) oa.rows oa.len (fun r c => f (a r c)))
  oa.len ≠ 0 →
  (s.issues core w 2 0 = true → s.does (.vecCopy core w) (post id)) ∧
  (s.issues core w 2 6 = true → s.does (.exp core w) (post expWord)) ∧
  (s.issues core w 2 7 = true → s.does (.rcp core w) (post rcpWord)) ∧
  (s.issues core w 2 8 = true → s.does (.rsqrt core w) (post rsqrtWord)) ∧
  (∀ x, (expOk x (expNearest x) = true → expOk x (expWord x) = true) ∧ (rcpOk x (rcpNearest x) = true → rcpOk x (rcpWord x) = true) ∧
    (rsqrtOk x (rsqrtNearest x) = true → rsqrtOk x (rsqrtWord x) = true))

/-- R145 and R157. The row sums of SMAXN and SMAXR lie in the granules after the maxima: the model's choice of the operand convention. -/
def Obligations.RowReductions : Prop :=
  (∀ (s : State) (core : Core) (w : W128),
  let oa := { s.operand core (wDesc w) with rows := vecRows w }
  let row := fun r => (List.range oa.len).map (fun c => s.opValue core (s.granA core w) oa r c)
  oa.len ≠ 0 → 32 * s.granD core w + 4 * oa.rows ≤ batchWindow →
  (s.issues core w 2 9 = true → s.does (.rowsum core w) (fun t => s.retires t core ∧
    s.holdsRows t core (s.granD core w) oa.rows 1 (fun r _ => fpSum (row r)))) ∧
  (s.issues core w 2 10 = true → s.does (.rowmax core w) (fun t => s.retires t core ∧
    s.holdsRows t core (s.granD core w) oa.rows 1 (fun r _ => rowMax (row r)))) ∧
  (s.issues core w 2 11 = true → s.does (.rowsumsq core w) (fun t => s.retires t core ∧
    s.holdsRows t core (s.granD core w) oa.rows 1 (fun r _ => fpSum ((row r).map (fun v => fpMul v v)))))) ∧
(∀ (s : State) (core : Core) (w : W128),
  let oa := { s.operand core (wDesc w) with rows := vecRows w }
  let od := { s.operand core (wDescb w) with rows := vecRows w, len := oa.len }
  let row := fun r => (List.range oa.len).map (fun c => s.opValue core (s.granA core w) oa r c)
  let p := fun r c => expWord (fpSub (s.opValue core (s.granA core w) oa r c) (rowMax (row r)))
  let sums := s.granB core w + (vecRows w + 7) / 8
  s.issues core w 2 12 = true → oa.len ≠ 0 → 32 * sums + 4 * vecRows w ≤ batchWindow →
  s.does (.smaxn core w) (fun t =>
    s.retires t core [Reg.CRS_PRC_NONFINITE_COUNT, Reg.CRS_PRC_CO_FLUSH_COUNT, Reg.CRS_PRC_CO_SAT_COUNT] ∧
    ∀ r, r < vecRows w → t.wordAt core (32 * s.granB core w + 4 * r) = rowMax (row r) ∧
      t.wordAt core (32 * sums + 4 * r) = fpSum ((List.range oa.len).map (p r)) ∧
      (fp32Rows od → 32 * s.granD core w + 4 * (od.rows * od.len) ≤ batchWindow →
        32 * s.granD core w + 4 * (od.rows * od.len) ≤ 32 * s.granB core w ∨ 32 * sums + 4 * vecRows w ≤ 32 * s.granD core w →
        ∀ c, c < oa.len → t.wordAt core (32 * s.granD core w + 4 * (r * oa.len + c)) = p r c))) ∧
(∀ (s : State) (core : Core) (w : W128),
  let n := vecRows w
  let od := { s.operand core (wDescb w) with rows := n }
  let sums := s.granB core w + (n + 7) / 8
  let alpha := fun r => expWord (fpSub ((s.readWords core (s.granB core w) n).getD r 0)
    (s.opValue core (s.granA core w) { s.operand core (wDesc w) with rows := 1, len := n } 0 r))
  s.issues core w 2 13 = true → (s.operand core (wDesc w)).len ≠ 0 → 32 * sums + 4 * n ≤ batchWindow →
  s.does (.smaxr core w) (fun t =>
    s.retires t core [Reg.CRS_PRC_NONFINITE_COUNT, Reg.CRS_PRC_CO_FLUSH_COUNT, Reg.CRS_PRC_CO_SAT_COUNT] ∧
    ∀ r, r < n → t.wordAt core (32 * sums + 4 * r) = fpMul ((s.readWords core sums n).getD r 0) (alpha r) ∧
      (fp32Rows od → 32 * s.granD core w + 4 * (od.rows * od.len) ≤ batchWindow →
        32 * s.granD core w + 4 * (od.rows * od.len) ≤ 32 * sums ∨ 32 * sums + 4 * n ≤ 32 * s.granD core w →
        ∀ c, c < od.len → t.wordAt core (32 * s.granD core w + 4 * (r * od.len + c)) = fpMul (s.opValue core (s.granD core w) od r c) (alpha r))))

/-- R158 for TOPK, R258 to R260 for SAMPLE, R159 for RAND, R160 for SCAN. -/
def Obligations.SelectionAndSampling : Prop :=
  (∀ (s : State) (core : Core) (w : W128),
  let vs := s.opFlat core (s.granA core w) (s.operand core (wDesc w))
  let k := max 1 (min 64 (wImm w))
  let places := 32 * (s.granD core w + (k + 7) / 8)
  s.issues core w 2 14 = true → (s.operand core (wDesc w)).len ≠ 0 → places + 4 * k ≤ batchWindow →
  s.does (.topk core w) (fun t => s.retires t core ∧ ∃ l : List Nat, l.Nodup ∧
    l.length = min k (vs.filter (fun v => Fp.of32 v != .nan)).length ∧
    (∀ i, i < l.length → l.getD i 0 < vs.length ∧ Fp.of32 (vs.getD (l.getD i 0) 0) ≠ .nan ∧
      t.wordAt core (32 * s.granD core w + 4 * i) = vs.getD (l.getD i 0) 0 ∧ t.wordAt core (places + 4 * i) = BitVec.ofNat 32 (l.getD i 0)) ∧
    (∀ i j, i < j → j < l.length → Fp.below (Fp.of32 (vs.getD (l.getD i 0) 0)) (Fp.of32 (vs.getD (l.getD j 0) 0)) = false) ∧
    (∀ p, p < vs.length → Fp.of32 (vs.getD p 0) ≠ .nan → p ∉ l → ∀ q ∈ l, Fp.below (Fp.of32 (vs.getD q 0)) (Fp.of32 (vs.getD p 0)) = false) ∧
    (∀ i, l.length ≤ i → i < k → t.wordAt core (32 * s.granD core w + 4 * i) = fpNegInf ∧ t.wordAt core (places + 4 * i) = 0xFFFFFFFF))) ∧
(∀ (s : State) (core : Core) (w : W128),
  let vs := s.opFlat core (s.granA core w) (s.operand core (wDesc w))
  let ids := s.readWords core (s.granB core w) vs.length
  s.issues core w 2 15 = true → (s.operand core (wDesc w)).len ≠ 0 → 32 * s.granD core w + 8 ≤ batchWindow →
  s.does (.sample core w) (fun t => s.retires t core ∧ s.bytesKept t core (32 * s.granD core w) 8 ∧
    (t.dsram = s.dsram ∨ ∃ id ∈ ids, t.wordAt core (32 * s.granD core w) = id) ∧
    (wImm w % 2 ^ 31 = 0 → ∀ v id l, rankCandidates ((vs.zip ids).map (fun x => (x.1, x.2.toNat))) = (v, id) :: l →
      t.wordAt core (32 * s.granD core w) = BitVec.ofNat 32 id))) ∧
(∀ (s : State) (core : Core) (w : W128) (x : CoreSlot),
  s.issues core w 2 16 = true → s.curSlot core = some x → 32 * s.granD core w + 4 ≤ batchWindow →
  s.does (.rand core w) (fun t => s.retires t core ∧
    s.holdsRows t core (s.granD core w) 1 1 (fun _ _ => Config.randValue (s.request x.slotRec.context).seed (s.ix core 2)))) ∧
(∀ (s : State) (core : Core) (w : W128),
  let oa := s.operand core (wDesc w)
  let n := min oa.len (s.ix core 3)
  let a := s.opValue core (s.granA core w) { oa with len := n }
  let b := s.opValue core (s.granB core w) { s.operand core (wDescb w) with rows := oa.rows, len := n }
  s.issues core w 2 17 = true → oa.len ≠ 0 → 32 * s.granD core w + 4 * (oa.rows * n) ≤ batchWindow →
  s.does (.scan core w) (fun t => s.retires t core ∧ ∃ h : Nat → Nat → W32, s.holdsRows t core (s.granD core w) oa.rows n h ∧
    ∀ r, r < oa.rows → (0 < n → h r 0 = fpFma (a r 0) (s.opValue core (s.granD core w) (plain n oa.rows) r 0) (b r 0)) ∧
      ∀ c, c + 1 < n → h r (c + 1) = fpFma (a r (c + 1)) (h r c) (b r (c + 1))))

/-- R154 to R156, R169 and R182 for messages and contributions, R153 for LEN 0, R113 for the replay source. -/
def Obligations.MessagesLeaveTheCore : Prop :=
  (∀ (s : State) (core : Core) (w : W128),
  let o := s.operand core (wDesc w)
  let e := s.channel core (wArg1 w % 4096)
  let n := opGranules o
  let gran := fun i => wordsOf (s.sramRead core (32 * (s.granA core w + i)) 32)
  let kind := if bits e 28 2 = 2 then 3 else 0
  let red := fun (max : Bool) (t : State) => s.retires t core [] [.out] ∧ t.dsram = s.dsram ∧
    t.out = s.out ++ (if n = 0 then [.flit core (routeWord e 2 0 max (bit (wArg0 w) 0)) (withFlag (s.coreTag core) flagLast) 2 []] else
      (List.range n).map (fun i => .flit core (routeWord e 1 i max (bit (wArg0 w) 0)) (withFlag (s.coreTag core) flagLast) 1 (gran i)))
  (s.issues core w 3 0 = true → s.does (.send core w) (fun t => s.retires t core [] [.out] ∧ t.dsram = s.dsram ∧
    t.out = s.out ++ (if n = 0 then [.flit core (routeWord e kind 0 false false) (withFlag (s.coreTag core) flagLast) kind []] else
      (List.range n).map (fun i => .flit core (routeWord e kind i false false) (if i + 1 = n then withFlag (s.coreTag core) flagLast else s.coreTag core) kind (gran i))) ∧
    (o.len = 0 ∨ 1 < o.fmt → (t.core core).sources = (s.core core).sources) ∧
    (o.len ≠ 0 → o.fmt ≤ 1 → ∃ x, (t.core core).sources = (s.core core).sources ++ [x] ∧ x.tag = s.coreTag core ∧ x.channel = wArg1 w % 4096 ∧ x.answered = []))) ∧
  (s.issues core w 5 0 = true → s.does (.redAdd core w) (red false)) ∧
  (s.issues core w 5 1 = true → s.does (.redMax core w) (red true)) ∧
  (s.issues core w 7 0 = true → s.does (.flagAdd core w) (fun t => s.retires t core [] [.out] ∧ t.dsram = s.dsram ∧
    ∃ route tag, t.out = s.out ++ [.flit core route tag 4 [BitVec.ofNat 32 (3 + 256 * (wImm w % 65536))]] ∧ tagClass tag = 0)) ∧
  (s.issues core w 6 0 = true → s.does (.barArriveWait core w) (fun t => s.parks t core (.bar (wArg1 w % 4096)) [.out] ∧
    ∃ route tag, t.out = s.out ++ [.flit core route tag 4 [BitVec.ofNat 32 (1 + 256 * (wArg0 w % 4))]] ∧ tagClass tag = 0)))

/-- R155 for messages, R184 and R185 for reductions, R156 for flags. -/
def Obligations.ReceivesCompleteOrPark : Prop :=
  (∀ (s : State) (core : Core) (w : W128), s.issues core w 4 0 = true → s.redundant core = false →
  let found := (s.core core).packets.find? (fun k => k.channel == wArg1 w % 4096 && s.tagMatches core k.tag && packetWhole k)
  (∀ k, found = some k → (k.granules.map Prod.fst).Nodup → (∀ e ∈ k.granules, e.2.length = 8 ∧ 32 * (s.granD core w + e.1 + 1) ≤ batchWindow) →
    s.does (.recv core w) (fun t => s.retires t core ∧ (t.core core).packets = (s.core core).packets.erase k ∧
      (∀ o g i, (o, g) ∈ k.granules → i < 8 → t.wordAt core (32 * (s.granD core w + o) + 4 * i) = g.getD i 0) ∧
      (∀ x, (∀ e ∈ k.granules, x < dataSize * core + 32 * (s.granD core w + e.1) ∨ dataSize * core + 32 * (s.granD core w + e.1 + 1) ≤ x) →
        SMap.get 0 t.dsram x = SMap.get 0 s.dsram x))) ∧
  (found = none → s.does (.recv core w) (fun t => s.parks t core (.recv w)))) ∧
(∀ (s : State) (core : Core) (w : W128), s.issues core w 4 1 = true → s.redundant core = false →
  let found := (s.core core).reductions.find? (fun b => b.channel == wArg1 w % 4096 && s.tagMatches core b.tag && redWhole b (s.redGranules core w b) (s.contributors core w))
  (∀ b, found = some b → (∀ e ∈ b.granules, e.2.1.length = 8) → 32 * (s.granD core w + s.redGranules core w b) ≤ batchWindow →
    s.does (.recvred core w) (fun t => s.retires t core ∧ (t.core core).reductions = (s.core core).reductions.erase b ∧
      (b.channel, b.tag) ∈ (t.core core).closedReds ∧
      (∀ o i, o < s.redGranules core w b → i < 8 → t.wordAt core (32 * (s.granD core w + o) + 4 * i) = (redValue b o).getD i 0) ∧
      s.bytesKept t core (32 * s.granD core w) (32 * s.redGranules core w b))) ∧
  (found = none → s.does (.recvred core w) (fun t => s.parks t core (.recvred w (s.contributors core w))))) ∧
(∀ (s : State) (core : Core) (w : W128), s.issues core w 8 0 = true →
  let f := wArg0 w % 64
  let v := wImm w % 65536
  let have_ := SMap.get 0 (s.core core).flags f
  (v ≤ have_ → s.does (.waitGe core w) (fun t => s.retires t core ∧ t.dsram = s.dsram ∧ SMap.get 0 (t.core core).flags f = have_ - v ∧
    ∀ g, g ≠ f → SMap.get 0 (t.core core).flags g = SMap.get 0 (s.core core).flags g)) ∧
  (have_ < v → s.does (.waitGe core w) (fun t => s.parks t core (.wait f v))))

/-- R151 and R157 for streams, R245 for pages, R160 for adapters. Where GATHER's data comes from the manual does not say: its bytes are free values. -/
def Obligations.StreamsMoveBytes : Prop :=
  (∀ (s : State) (core : Core) (w : W128),
  let p := (s.core core).part
  let (base, win) := s.dataWindow p
  let n := 32 * streamLen w
  n ≠ 0 →
  (s.issues core w 9 0 = true → 32 * s.granD core w + n ≤ batchWindow →
    s.does (.streamLoad core w) (fun t => s.retires t core ∧ s.bytesKept t core (32 * s.granD core w) n ∧
      ∀ i, i < n → 64 * wImm w + i < win → base + 64 * wImm w + i < stackSize →
        SMap.get 0 t.dsram (dataSize * core + 32 * s.granD core w + i) = SMap.get 0 s.stack (base + 64 * wImm w + i))) ∧
  (s.issues core w 9 1 = true → s.does (.streamStore core w) (fun t => s.retires t core [] [.stack] ∧ t.dsram = s.dsram ∧
    (∀ i, i < n → 64 * wImm w + i < win → base + 64 * wImm w + i < stackSize →
      SMap.get 0 t.stack (base + 64 * wImm w + i) = (s.sramRead core (32 * s.granA core w + i) 1).getD 0 0) ∧
    (∀ a, a < base + 64 * wImm w ∨ base + 64 * wImm w + n ≤ a ∨ base + win ≤ a → SMap.get 0 t.stack a = SMap.get 0 s.stack a)))) ∧
(∀ (s : State) (core : Core) (w : W128) (x : CoreSlot), s.curSlot core = some x → bits (wImm w) 16 16 ≠ 0 →
  let p := (s.core core).part
  let n := s.tokenBytes p
  let page := fun j => s.kvAddress p x.slotRec.context (wImm w % 65536) (wArg0 w % 2) (s.kvFirst core w + j)
  (s.issues core w 9 2 = true → 32 * s.granD core w + n * bits (wImm w) 16 16 ≤ batchWindow →
    s.does (.kvload core w) (fun t => s.retires t core ∧ s.bytesKept t core (32 * s.granD core w) (n * bits (wImm w) 16 16) ∧
      ∀ j a i, j < bits (wImm w) 16 16 → page j = some a → i < n → a + i < stackSize →
        SMap.get 0 t.dsram (dataSize * core + 32 * s.granD core w + n * j + i) = SMap.get 0 s.stack (a + i))) ∧
  (s.issues core w 9 3 = true → s.does (.kvstore core w) (fun t => s.retires t core [] [.stack, .serving] ∧ t.dsram = s.dsram ∧
    (∀ y, (∀ j a, j < bits (wImm w) 16 16 → page j = some a → y < a ∨ a + n ≤ y) → SMap.get 0 t.stack y = SMap.get 0 s.stack y) ∧
    (∀ a i, bits (wImm w) 16 16 = 1 → page 0 = some a → i < n → a + i < stackSize →
      SMap.get 0 t.stack (a + i) = (s.sramRead core (32 * s.granB core w + i) 1).getD 0 0) ∧
    (x.suspect = false → t.serving = s.serving)))) ∧
(∀ (s : State) (core : Core) (w : W128), s.issues core w 9 4 = true → streamLen w ≠ 0 → 32 * s.granD core w + 32 * streamLen w ≤ batchWindow →
  let h := s.ix core 5 % 1024 + 1024 * s.rd Reg.LDR_ADP_SLOT_VERSION (s.ix core 5 % 1024)
  let key := (h, bits (wImm w) 0 12, bits (wImm w) 12 2)
  s.does (.adload core w) (fun t => s.retires t core ∧ key ∈ (t.core core).cached ∧ s.bytesKept t core (32 * s.granD core w) (32 * streamLen w) ∧
    ((s.core core).cached.contains key = true → t.dsram = s.dsram) ∧
    ((s.core core).cached.contains key = false → ∀ i, i < 32 * streamLen w →
      SMap.get 0 t.dsram (dataSize * core + 32 * s.granD core w + i) = Config.adapterByte key.1 key.2.1 key.2.2 i))) ∧
(∀ (s : State) (core : Core) (w : W128), s.issues core w 9 5 = true → 32 * s.granD core w + 32 * opGranules (s.operand core (wDescb w)) ≤ batchWindow →
  s.does (.gather core w) (fun t => s.retires t core [] [.fresh] ∧ t.fresh = s.fresh + 1 ∧
    s.bytesKept t core (32 * s.granD core w) (32 * opGranules (s.operand core (wDescb w)))))

/-- R147 and R151 for index registers and branches, R146 for bodies, R163 for layers, Table 4.8 for END. -/
def Obligations.ControlMovesTheSequencer : Prop :=
  (∀ (s : State) (core : Core) (w : W128),
  let n := wArg0 w % 16
  let only := fun (v : Nat) (t : State) => s.retires t core ∧ t.dsram = s.dsram ∧ t.ix core n = (if n = 0 then 0 else v % 2 ^ 32) ∧
    ∀ m, m ≠ n → t.ix core m = s.ix core m
  let a := s.ix core (wIxa w)
  (s.issues core w 10 2 = true → s.does (.ctrlSeti core w) (only (wImm w))) ∧
  (s.issues core w 10 3 = true → s.does (.ctrlAddi core w) (only (s.ix core n + wImm w))) ∧
  (s.issues core w 10 4 = true → wImm w ≠ 0 → s.does (.ctrlDivc core w) (only ((a + wImm w - 1) / wImm w))) ∧
  (s.issues core w 10 4 = true → wImm w = 0 → s.does (.ctrlDivc core w) (only (Config.divByZero a).toNat))) ∧
(∀ (s : State) (core : Core) (w : W128), s.issues core w 10 5 = true →
  s.does (.ctrlBr core w) (fun t => (t.core core).pc = (if s.branchTaken core w then (((s.core core).pc : Int) + toSigned 12 (wArg1 w)).toNat % 2048 else ((s.core core).pc + 1) % 2048) ∧
    s.counts t Reg.CRS_CORE_RETIRE_COUNT core ∧ (∀ m, t.ix core m = s.ix core m) ∧ s.sameBut t [.cores] [Reg.CRS_CORE_RETIRE_COUNT, Reg.CRS_CORE_STATUS_STATE])) ∧
(∀ (s : State) (core : Core) (w : W128), s.issues core w 10 6 = true →
  let n := wArg0 w % 16
  s.does (.ctrlLoop core w) (fun t => t.ix core n = (if n = 0 then 0 else (s.ix core n + 2 ^ 32 - 1) % 2 ^ 32) ∧
    (s.ix core n = 1 → (t.core core).pc = ((s.core core).pc + 1) % 2048) ∧
    (1 < s.ix core n → s.ix core n < 2 ^ 32 → (t.core core).pc = (((s.core core).pc : Int) + toSigned 12 (wArg1 w)).toNat % 2048) ∧
    s.sameBut t [.cores] [Reg.CRS_CORE_RETIRE_COUNT, Reg.CRS_CORE_STATUS_STATE])) ∧
(∀ (s : State) (core : Core) (w : W128), s.issues core w 10 0 = true →
  (∀ k x, s.nextSlot core 0 = some k → (s.core core).slots[k]? = some x →
    s.does (.ctrlForeach core w) (fun t => s.retires t core ∧ (t.core core).cur = k ∧ (t.core core).body = some ((s.core core).pc + 1) ∧ t.dsram = s.dsram ∧
      t.ix core 1 = k % 2 ^ 32 ∧ t.ix core 2 = x.slotRec.pos % 2 ^ 32 ∧ t.ix core 3 = x.slotRec.ntok % 2 ^ 32 ∧ t.ix core 4 = x.slotRec.kvlen % 2 ^ 32 ∧
      t.ix core 5 = x.slotRec.adapter % 2 ^ 32 ∧ t.ix core 6 = x.slotRec.epoch % 2 ^ 32 ∧ t.ix core 7 = x.slotRec.step % 2 ^ 32)) ∧
  (s.nextSlot core 0 = none → s.does (.ctrlForeach core w) (fun t => (t.core core).pc = s.bodyEnd core ((s.core core).pc + 1) + 1 ∧ t.dsram = s.dsram))) ∧
(∀ (s : State) (core : Core) (w : W128) (b : Nat), s.sequencing core = true → wClass w = 10 → wOp w = 1 → s.mayIssue core w = true → (s.core core).body = some b →
  (∀ k x, s.nextSlot core ((s.core core).cur + 1) = some k → (s.core core).slots[k]? = some x →
    s.does (.ctrlEndeach core w) (fun t => (t.core core).pc = b ∧ (t.core core).cur = k ∧ t.ix core 2 = x.slotRec.pos % 2 ^ 32 ∧ t.dsram = s.dsram)) ∧
  (s.nextSlot core ((s.core core).cur + 1) = none →
    s.does (.ctrlEndeach core w) (fun t => (t.core core).pc = (s.core core).pc + 1 ∧ (t.core core).body = none ∧ t.dsram = s.dsram))) ∧
(∀ (s : State) (core : Core) (w : W128), s.issues core w 10 7 = true →
  s.does (.ctrlLayer core w) (fun t => t.rd Reg.CRS_CORE_PASS_LAYER core = wImm w % 4096 ∧ (t.core core).pc = (s.core core).pc + 1 ∧
    s.counts t Reg.CRS_CORE_RETIRE_COUNT core ∧ t.dsram = s.dsram ∧ t.stack = s.stack ∧
    (bit (wImm w) 12 = false → s.retires t core [Reg.CRS_CORE_PASS_LAYER, Reg.CRS_CORE_PASS_NLIVE] ∧ (t.core core).slots = (s.core core).slots) ∧
    (bit (wImm w) 12 = true → ∀ x ∈ (t.core core).slots, x.preempt = true → slotLive (wImm w % 4096) x = false))) ∧
(∀ (s : State) (core : Core) (w : W128), s.issues core w 10 8 = true →
  s.does (.ctrlEnd core w) (fun t => s.retires t core ∧ t.dsram = s.dsram ∧
    ((s.core core).inflight = [] → (t.core core).running = false ∧ (t.core core).slots = []) ∧
    ((s.core core).inflight ≠ [] → (t.core core).running = true ∧ (t.core core).ending = true ∧ (t.core core).slots = (s.core core).slots)))

/-- R161 and R162 for cancels and aborts, R142 for tab SRAM, R165, R407 and R409 for watchdogs. Accesses to a course window end its clock gating, a part of `thermal`. -/
def Obligations.StopsDropWork : Prop :=
  (∀ (s : State) (part : Part) (ctx step : W16), s.does (.stepAbort part ctx step) (fun t =>
    (∃ l, t.out = s.out ++ .control part 4 (tagOf part ctx.toNat 0 step.toNat 0 0xFFF 6) 0 :: l) ∧ t.dsram = s.dsram ∧ t.stack = s.stack ∧
    (∀ k, (s.core k).part = part.val → ∀ x ∈ (t.core k).slots, slotHits ctx.toNat (some step.toNat) x = true → x.dropped = true) ∧
    ((s.request ctx.toNat).part = part.val → runState (s.request ctx.toNat).state = true → (s.request ctx.toNat).isCompanion = false →
      (s.request ctx.toNat).step % 65536 = step.toNat → (s.request ctx.toNat).aborts + 1 < max 1 (s.rd Reg.FLT_WD_CTRL_RERUN_MAX) →
      (t.request ctx.toNat).state = .queued ∧ (t.request ctx.toNat).step = (s.request ctx.toNat).step + 1 ∧
      (t.request ctx.toNat).aborts = (s.request ctx.toNat).aborts + 1 ∧ (t.request ctx.toNat).kvlen = (s.request ctx.toNat).kvlen))) ∧
(∀ (s : State) (core : Core) (tag : W64),
  (bit tag.toNat 60 = false ∨ tagClass tag ≠ 0 → s.does (.cancelFlit core tag) (fun t => t = s)) ∧
  (bit tag.toNat 60 = true → tagClass tag = 0 → s.corePart core = some (tagPart tag) → (s.core core).part = tagPart tag →
    s.does (.cancelFlit core tag) (fun t =>
      (∀ x ∈ (t.core core).slots, slotHits (tagContext tag) (if bit tag.toNat 59 then some (tagStep tag) else none) x = true → x.dropped = true) ∧
      (∀ k, k ≠ core.val → t.core k = s.core k) ∧ s.sameBut t [.arrays, .cores] [Reg.CRS_CORE_RETIRE_COUNT, Reg.CRS_CORE_EVENTS_ABORTS]))) ∧
(∀ (s : State) (core : Core),
  ((s.core core).running = true → (s.core core).park = none → 10485760 ≤ 33 * (s.time - (s.core core).lastRetire) → (s.core core).watchdogs = [] →
    s.does (.tabWatchdog core) (fun t => s.counts t Reg.CRS_CORE_EVENTS_WDOG core ∧ (∀ x ∈ (t.core core).slots, x.dropped = true) ∧
      (t.core core).watchdogs = [s.time] ∧ t.dsram = s.dsram)) ∧
  ((s.core core).park ≠ none → s.does (.tabWatchdog core) (fun t => t = s))) ∧
(∀ (s : State) (core : Core) (slot : Fin 64) (x : CoreSlot), (s.core core).slots[slot.val]? = some x → (s.core core).running = true → x.dropped = false →
  s.rd Reg.FLT_WD_CTRL_STEP_MS ≠ 0 → (s.core core).markAt + s.rd Reg.FLT_WD_CTRL_STEP_MS * 256000000 ≤ s.thermal.scaled →
  s.does (.stepWatchdog core slot) (fun t => t.dsram = s.dsram ∧
    ∀ y ∈ (t.core core).slots, slotHits x.slotRec.context (some (x.slotRec.step % 65536)) y = true → y.dropped = true)) ∧
(∀ (s : State) (core : Core),
  (s.is Reg.CRS_CORE_CTRL_SCRUB_EN core = true → s.does (.tabScrub core .corrected) (fun t => s.counts t Reg.CRS_CORE_ECC_TS_CE core) ∧
    s.does (.tabScrub core .uncorrectable) (fun t => s.counts t Reg.CRS_CORE_ECC_TS_UE core ∧ t.rd Reg.CRS_CORE_STATUS_STATE core = 3 ∧ (t.core core).reload = true)) ∧
  s.does (.tabScrub core .clean) (fun t => t = s) ∧
  ((s.core core).reload = true → (s.core core).quarantined = false →
    s.does (.tabReloadComplete core) (fun t => t.rd Reg.CRS_CORE_STATUS_STATE core = 0 ∧ t.core core = { s.core core with reload := false } ∧
      s.sameBut t [.cores] [Reg.CRS_CORE_STATUS_STATE])) ∧
  ((s.core core).quarantined = true → s.does (.tabReloadComplete core) (fun t => t = s))) ∧
(∀ (s : State) (who : Requester) (course : Course) (core : Nat), s.selCore (reqCode who) course = some core →
  (s.reachesOwned who (crsOffset course 0x4804) = true →
    s.does (.coreHalt who course) (fun t => t.rd Reg.CRS_CORE_CTRL_HALT core = 1 ∧ t.rd Reg.CRS_CORE_STATUS_STATE core = 3 ∧
      s.otherCopies t Reg.CRS_CORE_STATUS_STATE core ∧ s.sameBut t [.thermal] [Reg.CRS_CORE_CTRL_HALT, Reg.CRS_CORE_STATUS_STATE]) ∧
    s.does (.coreResume who course) (fun t => t.rd Reg.CRS_CORE_CTRL_HALT core = 0 ∧
      (((s.core core).reload || (s.core core).quarantined) = false → t.rd Reg.CRS_CORE_STATUS_STATE core = 0) ∧
      (((s.core core).reload || (s.core core).quarantined) = true → t.rd Reg.CRS_CORE_STATUS_STATE core = s.rd Reg.CRS_CORE_STATUS_STATE core) ∧
      s.sameBut t [.thermal] [Reg.CRS_CORE_CTRL_HALT, Reg.CRS_CORE_STATUS_STATE])) ∧
  (s.reaches who (crsOffset course 0x4824) = true →
    s.does (.faultClear who course) (fun t => t.rd Reg.CRS_CORE_FAULT_VALID core = 0 ∧ t.rd Reg.CRS_CORE_FAULT_PC core = 0 ∧
      t.rd Reg.CRS_CORE_FAULT_CLASS core = 0 ∧ t.rd Reg.CRS_CORE_FAULT_SLOT core = 0 ∧
      s.sameBut t [.thermal] [Reg.CRS_CORE_FAULT_PC, Reg.CRS_CORE_FAULT_CLASS, Reg.CRS_CORE_FAULT_SLOT, Reg.CRS_CORE_FAULT_VALID])))

/-- R169, R170 and R172 for routers, R34 and R49 for consume points, R155, R156, R184 and R185 for what arrives, R406 for the link watchdog. -/
def Obligations.FlitsRouteAndDeliver : Prop :=
  (∀ (s : State) (router : Fin 11100) (input : RouterPort) (f : Flit) (x y k w : Nat) (credit : Bool),
  routeRect f = (x, y, x, y) → routeKind f = 0 → isControl f = false → bit f.tag.toNat 60 = false → s.physOf x y = some k →
  (k ≠ router.val → s.outPort router (portCode input) (.core k) = some w → w ≠ 4 →
    s.does (.flitArrive router input f true true false) (fun t => (t.router router).waiting = (s.router router).waiting ++ [(w, f)] ∧
      (∀ r, r ≠ router.val → t.router r = s.router r) ∧ s.sameBut t [.fabric] [])) ∧
  (k = router.val → k < 11000 → s.ownPacket k f.tag = true → s.cancelling f.tag = false → s.epochLive f.tag = true → (s.core k).park = none →
    (s.core k).packets = [] → f.payload ≠ [] →
    s.does (.flitArrive router input f true true credit) (fun t => (∃ p, (t.core k).packets = [p] ∧ p.channel = routeRch f ∧ p.tag = f.tag ∧
      SMap.find? p.granules (routeOff f) = some f.payload ∧ p.closed = bit f.tag.toNat 63) ∧ t.dsram = s.dsram ∧
      (∀ r, (t.router r).waiting = (s.router r).waiting) ∧ s.sameBut t [.cores, .fabric] []))) ∧
(∀ (s : State) (router : Fin 11100) (input : RouterPort) (f : Flit) (a b : Bool),
  SMap.get 0 (s.router router).retries (portCode input) + 1 ≤ max 1 (s.rd Reg.NOC_CTRL_RETRY_MAX) →
  s.does (.flitArrive router input f false a b) (fun t => s.counts t Reg.NOC_RETRY_COUNT ∧ (t.router router).waiting = (s.router router).waiting ∧
    s.counts t Reg.FLT_CNT_REPORT_COUNT 0 ∧ s.sameBut t [.fault, .fabric] (Reg.NOC_RETRY_COUNT :: Reg.reports))) ∧
(∀ (s : State) (core : Core) (flag : Fin 64) (value : W16) (tag : W64), (s.core core).park = none →
  (s.ownPacket core tag = true → s.cancelling tag = false → s.epochLive tag = true →
    s.does (.flagAddArrive core flag value tag) (fun t => SMap.get 0 (t.core core).flags flag = min 65535 (SMap.get 0 (s.core core).flags flag + value.toNat) ∧
      (∀ g, g ≠ flag.val → SMap.get 0 (t.core core).flags g = SMap.get 0 (s.core core).flags g) ∧ s.sameBut t [.cores] [])) ∧
  (s.ownPacket core tag = false → s.does (.flagAddArrive core flag value tag) (fun t => s.counts t Reg.NOC_DROP_COUNT ∧
      s.counts t Reg.FLT_CNT_REPORT_COUNT 14 ∧ s.sameBut t [.fault] (Reg.NOC_DROP_COUNT :: Reg.reports)))) ∧
(∀ (s : State) (core : Core) (f : Flit), isReduction f = true → routeKind f = 1 → (s.core core).park = none →
  s.ownPacket core f.tag = true → s.cancelling f.tag = false → s.epochLive f.tag = true → (s.core core).closedReds = [] →
  (s.router core).combineOff = false → s.inFallback core (tagPart f.tag) = false →
  (∀ b g n, (s.core core).reductions = [b] → b.channel = routeRch f → combineKey b.tag = combineKey f.tag → b.max = routeMax f → b.int = routeInt f →
    SMap.find? b.granules (routeOff f) = some (g, n) →
    s.does (.reductionContribution core f true) (fun t => ∃ q, (t.core core).reductions = [q] ∧
      SMap.find? q.granules (routeOff f) = some (combineWords (routeMax f) (routeInt f) g f.payload, n + routeCnt f) ∧ q.empties = b.empties ∧ s.sameBut t [.cores] [])) ∧
  ((s.core core).reductions = [] → s.does (.reductionContribution core f true) (fun t => ∃ q, (t.core core).reductions = [q] ∧
      SMap.find? q.granules (routeOff f) = some (f.payload, routeCnt f) ∧ q.channel = routeRch f ∧ q.tag = f.tag ∧ s.sameBut t [.cores] []))) ∧
(∀ (s : State) (router : Fin 11100) (input : RouterPort), (senderOf router input).1 < 11000 → (senderOf router input).2 < 4 →
  s.does (.linkWatchdog router input) (fun t => t.rd Reg.NOC_MAP_GEN_PENDING = 1 ∧ bit (t.rd Reg.NOC_FAIL_LINK (senderOf router input).1) (senderOf router input).2 = true ∧
    s.otherCopies t Reg.NOC_FAIL_LINK (senderOf router input).1 ∧ s.counts t Reg.FLT_CNT_REPORT_COUNT 13 ∧
    s.sameBut t [.fault, .sec] (Reg.NOC_MAP_GEN_PENDING :: Reg.NOC_FAIL_LINK :: Reg.reports)))

/-- R178 and R179 for barriers, R155 for their release, R189 to R193 for maps. -/
def Obligations.BarriersAndMaps : Prop :=
  (∀ (s : State) (course : Course) (f : Flit), isArrive f = true →
  s.gate (s.rd Reg.NOC_COURSE_MAP_PHYS (10 * ((routeRect f).2.1 / 10) + (routeRect f).1 / 10)) = course.val → s.cancelling f.tag = false →
  controlArg f % 4 = 0 → SMap.get [] s.fabric.barriers course = [] →
  (s.participants (tagPart f.tag) course (routeRch f) ≤ routeCnt f →
    s.does (.barrierArrive course f) (fun t => SMap.get [] t.fabric.barriers course = [] ∧
      (∃ route tag, t.out = s.out ++ [.flit (expressRouter course) route tag 4 [2]] ∧ tagContext tag = tagContext f.tag ∧ tagPart tag = tagPart f.tag) ∧
      s.sameBut t [.fabric, .out] [])) ∧
  (routeCnt f < s.participants (tagPart f.tag) course (routeRch f) →
    s.does (.barrierArrive course f) (fun t => SMap.get [] t.fabric.barriers course = [⟨tagPart f.tag, tagContext f.tag, routeRch f, tagStep f.tag, routeCnt f⟩] ∧
      s.sameBut t [.fabric] []))) ∧
(∀ (s : State) (core : Core) (tag : W64) (n : Fin 4096) (x : CoreSlot), s.ownPacket core tag = true → s.cancelling tag = false → s.epochLive tag = true →
  s.curSlot core = some x →
  ((s.core core).park = some (.bar n) → (s.core core).part = tagPart tag → x.slotRec.context = tagContext tag → x.slotRec.step % 65536 = tagStep tag →
    s.does (.barrierRelease core tag n) (fun t => (t.core core).park = none ∧ (t.core core).pc = (s.core core).pc + 1 ∧
      s.counts t Reg.CRS_CORE_RETIRE_COUNT core ∧ (∀ k, k ≠ core.val → t.core k = s.core k) ∧
      s.sameBut t [.cores, .fabric] [Reg.CRS_CORE_RETIRE_COUNT, Reg.CRS_CORE_STATUS_STATE, Reg.NOC_BAR_MAX_CLOCKS])) ∧
  ((s.core core).park ≠ some (.bar n) → s.does (.barrierRelease core tag n) (fun t => t = s))) ∧
(∀ (s : State) (u : MapUpdate), s.mapsHeld = true → s.does (.mapUpdate u) (fun t => t.fabric.heldMaps = s.fabric.heldMaps ++ [u] ∧ s.sameBut t [.fabric] [])) ∧
(∀ (s : State), s.mapsHeld = false →
  (∀ (row : Fin 100) (cc col : Fin 10), s.rd Reg.NOC_SPARE_MAP_REPLACED (10 * row.val + cc.val) = 15 → s.rd Reg.NOC_SPARE_MAP_SPARE_FAILED (10 * row.val + cc.val) = 0 →
    s.does (.mapUpdate (.spare row cc col)) (fun t => t.rd Reg.NOC_SPARE_MAP_REPLACED (10 * row.val + cc.val) = col.val ∧
      t.rd Reg.NOC_SPARE_MAP_ACTIVE (10 * row.val + cc.val) = 0 ∧ t.rd Reg.NOC_MAP_GEN_PENDING = 1 ∧
      t.fabric.failedCores = s.fabric.failedCores ++ [110 * row.val + 11 * cc.val + col.val])) ∧
  (∀ (r : Core), s.does (.mapUpdate (.failed r none)) (fun t => t.rd Reg.NOC_FAIL_ROUTER r = 1 ∧ t.rd Reg.NOC_MAP_GEN_PENDING = 1 ∧
      s.otherCopies t Reg.NOC_FAIL_ROUTER r ∧ s.sameBut t [.sec] [Reg.NOC_FAIL_ROUTER, Reg.NOC_MAP_GEN_PENDING])) ∧
  (∀ (c : Course), s.does (.mapUpdate (.express c)) (fun t => t.rd Reg.NOC_FAIL_EXPRESS c = 1 ∧ t.rd Reg.NOC_MAP_GEN_PENDING = 1 ∧
      s.sameBut t [.sec] [Reg.NOC_FAIL_EXPRESS, Reg.NOC_MAP_GEN_PENDING]))) ∧
(∀ (s : State),
  (s.rd Reg.NOC_MAP_GEN_PENDING = 1 → s.does .mapApplied (fun t => t.rd Reg.NOC_MAP_GEN_PENDING = 0 ∧
    t.rd Reg.NOC_MAP_GEN_GEN = (s.rd Reg.NOC_MAP_GEN_GEN + 1) % 65536 ∧ t.fabric.failedCores = [] ∧
    (∀ k ∈ s.fabric.failedCores, (t.core k).running = false ∧ (t.core k).slots = [] ∧ (t.core k).park = none))) ∧
  (s.rd Reg.NOC_MAP_GEN_PENDING = 0 → s.does .mapApplied (fun t => t = s)))

/-- R318 and Table 10.5 for the states, R319 for hellos, R320 for the map. -/
def Obligations.LinksTrainAndGreet : Prop :=
  (∀ (s : State) (port : ZlPort) (signal : BitVec 4), s.zlMode port = 0 → s.resting = false → s.is Reg.LNK_CTRL_ENABLE port = true →
  s.lanesEnough port (s.laneMask port signal) = true → (s.zl port).retryAt ≤ s.time →
  s.does (.trainingStart port signal) (fun t => t.zlMode port = 1 ∧ s.counts t Reg.LNK_STATUS_EVENTS port ∧ t.rd Reg.LNK_STATUS_FAILED port = 0 ∧
    ∀ q, q % 16777216 ≠ port.val → t.zlMode q = s.zlMode q)) ∧
(∀ (s : State) (port : ZlPort) (locked : BitVec 4), s.zlMode port = 1 → s.lanesEnough port (s.laneMask port locked) = true →
  s.time ≤ (s.zl port).since + trainingLimit (s.zl port).optical →
  s.does (.trainingDone port locked) (fun t => t.zlMode port = 2 ∧ t.rd Reg.LNK_STATUS_LANES port = s.laneMask port locked ∧
    ∃ h, t.out = s.out ++ [.hello port true h] ∧ (t.zl port).nonce = h.own ∧ (t.zl port).sent = some h)) ∧
(∀ (s : State) (port : ZlPort),
  (s.zlMode port = 1 → (s.zl port).since + trainingLimit (s.zl port).optical ≤ s.time →
    s.does (.trainingTimeout port) (fun t => t.zlMode port = 0 ∧ t.rd Reg.LNK_STATUS_LAST_DOWN port = 2 ∧ (t.zl port).retryAt = s.time + 1000000000 ∧
      s.sameBut t [.mail, .link, .out] (Reg.LNK_STATUS_STATE :: Reg.LNK_STATUS_LANES :: Reg.LNK_STATUS_LAST_DOWN :: Reg.LNK_STATUS_EVENTS :: Reg.mailOutput))) ∧
  (s.zlMode port = 2 → (s.zl port).since + 100000000 ≤ s.time →
    s.does (.helloTimeout port) (fun t => t.zlMode port = 0 ∧ t.rd Reg.LNK_STATUS_LAST_DOWN port = 3 ∧ (t.zl port).retryAt = s.time + 1000000000 ∧
      s.counts t Reg.FLT_CNT_REPORT_COUNT 9))) ∧
(∀ (s : State) (port : ZlPort) (h : Hello),
  (2 ≤ s.zlMode port → h.nonce = (s.zl port).nonce → h.nonce ≠ 0 →
    s.does (.fullHello port h true) (fun t => t.zlMode port = 3 ∧ t.rd Reg.LNK_PARTNER_DSN_SERIAL port = h.serial.toNat ∧
      (t.zl port).partner = some h ∧ (t.zl port).map = s.mapOf port h ∧ (t.zl port).peerNonce = h.own)) ∧
  (s.zlMode port = 2 → h.nonce ≠ (s.zl port).nonce → h.nonce ≠ 0 →
    s.does (.fullHello port h true) (fun t => t.zlMode port = 0 ∧ t.rd Reg.LNK_STATUS_LAST_DOWN port = 3 ∧ s.counts t Reg.LNK_CNT_HELLO_BAD_COUNT port)) ∧
  (s.zlMode port = 3 → s.does (.fullHello port h false) (fun t => t.zlMode port = 3 ∧ s.counts t Reg.LNK_CNT_HELLO_BAD_COUNT port ∧
      (t.zl port).partner = (s.zl port).partner ∧ t.out = s.out))) ∧
(∀ (s : State) (port : ZlPort) (h : Hello) (d : W128), 2 ≤ s.zlMode port →
  ((s.zl port).partner = some h → helloDigest h = d → s.does (.shortHello port d) (fun t => t.out = s.out ∧ s.counts t Reg.LNK_CNT_RX_COUNT port ∧
      s.sameBut t [.link] [Reg.LNK_CNT_RX_COUNT])) ∧
  ((s.zl port).partner = some h → helloDigest h ≠ d → s.does (.shortHello port d) (fun t =>
      t.out = s.out ++ [.zl port (s.zl port).txSeq ftLink linkHelloOp 0 linkHelloOp])) ∧
  s.does (.helloReq port) (fun t => ∃ h, t.out = s.out ++ [.hello port true h] ∧ (t.zl port).sent = some h) ∧
  ((s.zl port).sent = none → s.does (.helloTimer port) (fun t => ∃ h, t.out = s.out ++ [.hello port true h])) ∧
  ((s.zl port).sent = some h → { s.helloBody port h.own with nonce := h.nonce } = h → s.time < (s.zl port).lastFull + 1000000000 →
    ((s.zl port).lastShort + 1000000 ≤ s.time → s.does (.helloTimer port) (fun t => t.out = s.out ++ [.hello port false h] ∧ (t.zl port).lastShort = s.time)) ∧
    (s.time < (s.zl port).lastShort + 1000000 → s.does (.helloTimer port) (fun t => t = s))))

/-- R314 and R315 for MSG flits, R320 and R325 for the map and the fixed entries, R321 to R323 for lanes and losses. -/
def Obligations.LinksCarryAndFail : Prop :=
  (∀ (s : State) (port : ZlPort) (f : ZlFlit), s.zlUp port = true → (s.zl port).queue = [] →
  (f.seq.toNat = (s.zl port).rxSeq → (s.zl port).map = none → s.does (.msg port f .clean) (fun t => (t.zl port).rxSeq = ((s.zl port).rxSeq + 1) % 4096 ∧
    s.counts t Reg.LNK_CNT_RX_COUNT port ∧ s.counts t Reg.FLT_CNT_REPORT_COUNT 14 ∧ t.cores = s.cores ∧ t.out = s.out)) ∧
  (∀ theirs ours o, f.seq.toNat = (s.zl port).rxSeq → (s.zl port).map = some (theirs, ours) → tagPart f.tag = theirs → f.rch.toNat = chainServing →
    bit f.tag.toNat 60 = false → s.expressPort (blockCourse (8 + port.val)) 4 (.block 0) = some o → o ≠ 4 →
    (s.router (expressRouter (blockCourse (8 + port.val)))).waiting = [] →
    s.does (.msg port f .clean) (fun t => (∃ g, t.out = s.out ++ [.hop (expressRouter (blockCourse (8 + port.val))) o g] ∧ tagPart g.tag = ours % 16 ∧
      tagContext g.tag = tagContext f.tag ∧ g.payload = wordsOf (leBytes 32 f.granule.toNat)) ∧ t.cores = s.cores)) ∧
  s.does (.msg port f .crcFailed) (fun t => s.counts t Reg.LNK_CNT_CRC_COUNT port ∧ (t.zl port).rxSeq = (s.zl port).rxSeq ∧
    ((s.zl port).asked ≠ some (s.zl port).rxSeq → s.counts t Reg.LNK_CNT_REPLAY_COUNT port) ∧ t.cores = s.cores)) ∧
(∀ (s : State) (port : ZlPort) (seq : BitVec 12),
  (2 ≤ s.zlMode port → (s.zl port).replaySeq ≠ some seq.toNat → s.does (.linkReplay port seq) (fun t => (t.zl port).replays = 1 ∧
    t.out = s.out ++ ((s.zl port).replay.dropWhile (fun f => f.seq != seq.toNat)).map (fun f => .zl port f.seq f.ftype f.op f.tag f.body))) ∧
  (2 ≤ s.zlMode port → (s.zl port).replaySeq = some seq.toNat → (s.zl port).replays = 7 → s.does (.linkReplay port seq) (fun t => t.zlMode port = 1 ∧
    t.rd Reg.LNK_STATUS_LAST_DOWN port = 6 ∧ s.counts t Reg.FLT_CNT_REPORT_COUNT 13))) ∧
(∀ (s : State) (port : ZlPort) (lane : Fin 4) (seq : BitVec 12), s.zlUp port = true → bit (s.zlLanes port) lane = true →
  let left := setBit (s.zlLanes port) lane false
  (s.lanesEnough port left = true →
    s.does (.laneFail port lane) (fun t => t.zlLanes port = left % 16 ∧ t.zlMode port = 3 ∧ bit (t.rd Reg.LNK_STATUS_FAILED port) lane = true ∧
      s.counts t Reg.FLT_CNT_REPORT_COUNT 8) ∧
    s.does (.laneDrop port lane seq) (fun t => t.zlLanes port = left % 16 ∧ t.zlMode port = 3)) ∧
  (s.lanesEnough port left = false → s.does (.laneFail port lane) (fun t => t.zlMode port = 0 ∧ t.rd Reg.LNK_STATUS_LAST_DOWN port = 7))) ∧
(∀ (s : State) (port : ZlPort), s.zlUp port = true →
  s.does (.goodbye port) (fun t => t.zlMode port = 0 ∧ t.rd Reg.LNK_STATUS_LAST_DOWN port = 5 ∧ t.zlLanes port = 0) ∧
  s.does (.partnerLoss port) (fun t => t.zlMode port = 0 ∧ t.rd Reg.LNK_STATUS_LAST_DOWN port = 4 ∧ t.zlLanes port = 0)) ∧
(∀ (s : State) (who : Requester) (port : ZlPort), s.reachesOwned who (lnkOffset port 0) = true →
  (s.zlUp port = true → s.does (.retrain who port) (fun t => t.zlMode port = 1 ∧ s.counts t Reg.LNK_STATUS_EVENTS port)) ∧
  (s.zlUp port = false → s.does (.retrain who port) (fun t => t = s)) ∧
  s.does (.portDisable who port) (fun t => t.rd Reg.LNK_CTRL_ENABLE port = 0 ∧ t.zlMode port = 0 ∧ t.rd Reg.LNK_STATUS_LAST_DOWN port = 1)) ∧
(∀ (s : State) (part : Part), s.chainWhole part = false →
  s.does (.chainWaitTimeout part) (fun t => ∀ i w, i ∈ s.entriesOf part → liveState (s.request i).state = true → (s.request i).chainWait = some w →
    w + s.chainPatience part ≤ s.time → (∀ j, (s.request j).companion ≠ i) → (t.request i).state = .faulted ∧ (t.request i).code = codeTimeout))

/-- R195 and R208 for manifests, R199 and R200 for landing, R204, R466 to R468 for descriptors and their timeouts, R207 for the states, R211 and R212 for shards that do not come. -/
def Obligations.LoadsTakeManifestsAndShards : Prop :=
  (∀ (s : State) (ring : Ring) (d : BitVec 512) (plan : Option (List W32)), s.takesLoad ring 1 d = true →
  (∀ l, s.beginOk d = true → s.load? (ldPart d) = none → s.planOf ring d plan = some l →
    s.does (.beginLoad ring d plan) (fun t => t.loadState (ldPart d) = 1 ∧ t.rd Reg.LDR_LOAD_EPOCH (ldPart d) = ldEpoch d ∧
      t.rd Reg.LDR_LOAD_POSITION (ldPart d) = ldPosition d ∧ t.rd Reg.LDR_LOAD_MEMBER (ldPart d) = ldMember d ∧
      ∃ x, t.load? (ldPart d) = some x ∧ x.plan = l ∧ x.ring = ring.val ∧ x.cookie = ldCookie d ∧ x.manifest = none)) ∧
  (s.beginOk d = false ∨ (s.load? (ldPart d)).isSome → s.does (.beginLoad ring d plan) (fun t =>
    s.givesLoad t ring d { code := codeInvalid, epoch := ldEpoch d } ∧ t.load? (ldPart d) = s.load? (ldPart d)))) ∧
(∀ (s : State) (ring : Ring) (d : BitVec 512) (l : Load) (e : ShardEntry), s.takesLoad ring 2 d = true → s.load? (ldPart d) = some l →
  s.loadState (ldPart d) = 3 → s.inBuffer (ldAddr d) (ldLen d) = true → shardEntry? l (ldArg d) = some e → s.keepsShard (ldPart d) l e = true →
  (shardState l (ldArg d)).verified = false →
  s.does (.shardPosted ring d) (fun t => ∃ x, t.load? (ldPart d) = some x ∧
    (shardState x (ldArg d)).posters = (shardState l (ldArg d)).posters ++ [(ring.val, ldCookie d)] ∧
    (shardState x (ldArg d)).buffer = some (s.bufferOf (ldAddr d)))) ∧
(∀ (s : State) (ring : Ring) (d : BitVec 512) (l : Load), s.takesLoad ring 3 d = true → s.load? (ldPart d) = some l → s.loadState (ldPart d) = 3 → l.upport = 15 →
  l.endSeen = false → bits d.toNat 12 52 = 0 → bits d.toNat 128 384 = 0 →
  s.does (.endStream ring d) (fun t => (∃ x, t.load? (ldPart d) = some x ∧ x.endSeen = true ∧ x.endAt = s.time) ∧ s.givesLoad t ring d {})) ∧
(∀ (s : State) (ring : Ring) (d : BitVec 512), s.takesLoad ring 7 d = true →
  s.does (.abort ring d) (fun t => t.load? (ldPart d) = none ∧ s.givesLoad t ring d {} ∧ ((s.load? (ldPart d)).isSome → t.loadState (ldPart d) = 0))) ∧
(∀ (s : State) (part : Part) (bytes : List Byte) (signed : Bool) (f : ImageFacts) (l : Load), s.load? part = some l → s.loadState part = 1 →
  let bs := if l.len ≠ 0 then s.stackRead (s.bar4Address l.addr) l.len else bytes
  let m := manifestOf bs (s.rd Reg.LDR_LOAD_MEMBER part)
  let u := (s.forwardManifest part l bs).wr Reg.LDR_LOAD_STATE part 2
  headerOk bs (s.manifestLen part l) l.plan.isEmpty = true →
  (signed = false → s.does (.manifestArrival part bytes signed f) (fun t => t.load? part = none ∧ t.loadState part = 0 ∧
    t.rd Reg.LDR_LOAD_ERR_CODE part = codeInvalid ∧ t.rd Reg.LDR_LOAD_ERR_DETAIL part = 1)) ∧
  (∀ slot, signed = true → m.keyslot ≤ 15 → s.is Reg.SEC_KEY_INFO_VALID m.keyslot = true → bit (s.rd Reg.SEC_KEY_INFO_ROLES m.keyslot) 0 = true →
    u.formatDetail part m f = 0 → u.epochSlot? part (u.rd Reg.LDR_LOAD_EPOCH part) = none → u.slotIn? part 0 = some slot → u.nofitMask part l m f = 0 →
    SMap.find? s.loader.memberTxn part = none →
    s.does (.manifestArrival part bytes signed f) (fun t => 3 ≤ t.loadState part ∧ t.rd Reg.LDR_EPOCH_STATE (epochKey part slot) = 1 ∧
      t.rd Reg.LDR_EPOCH_NUMBER (epochKey part slot) = s.rd Reg.LDR_LOAD_EPOCH part % 256 ∧
      ∃ x, t.load? part = some x ∧ x.manifest = some m ∧ x.slot = slot))) ∧
(∀ (s : State) (part : Part) (l : Load), s.load? part = some l → s.loadState part = 1 → l.started + l.timeoutMs * 1000000 ≤ s.time →
  s.does (.manifestTimeout part) (fun t => t.load? part = none ∧ t.loadState part = 0 ∧
    t.rd Reg.LDR_LOAD_ERR_CODE part = (if l.upport < 8 ∧ !s.zlUp l.upport then codeNofit else codeTimeout))) ∧
(∀ (s : State) (part : Part) (i : W32) (c : ShardContents) (l : Load) (m : Manifest) (e : ShardEntry), s.load? part = some l → s.loadState part = 3 → l.manifest = some m →
  shardEntry? l i.toNat = some e → s.keepsShard part l e = true → (shardState l e.index).verified = false →
  (e.kind ≠ 0 → c.tiles = [] → (shardState l e.index).programmed = false → SMap.find? s.loader.memberTxn part = none →
    s.does (.shardComplete part i true true c) (fun t => s.counts t Reg.LDR_LOAD_SHARDS_DONE part ∧
      ∃ x, t.load? part = some x ∧ (shardState x e.index).verified = true ∧ (shardState x e.index).programmed = true)) ∧
  s.does (.shardComplete part i false true c) (fun t => s.counts t Reg.LDR_RELAY_BAD_COUNT ∧ t.dsram = s.dsram ∧ t.tsram = s.tsram ∧
    ∃ x, t.load? part = some x ∧ (shardState x e.index).verified = false ∧ (shardState x e.index).missing = true ∧ x.tiles = l.tiles)) ∧
(∀ (s : State) (part : Part) (i : W32) (l : Load) (e : ShardEntry), s.load? part = some l → s.loadState part = 3 → shardEntry? l i.toNat = some e → l.endSeen = true →
  s.keepsShard part l e = true → (shardState l e.index).verified = false → (shardState l e.index).posters = [] → s.shardClockStopped = false →
  max l.endAt (shardState l e.index).since + l.timeoutMs * 1000000 ≤ s.time → (shardState l e.index).attempts < 3 →
  s.does (.shardTimeout part i) (fun t => s.counts t Reg.LDR_RELAY_REQ_COUNT ∧
    ∃ x, t.load? part = some x ∧ (shardState x e.index).attempts = (shardState l e.index).attempts + 1 ∧ (shardState x e.index).missing = true))

/-- R214 to R219 for transactions, R469 for the descriptors, R124 and R207 for the calibration and the load's states. -/
def Obligations.EpochTransactions : Prop :=
  (∀ (s : State) (ring : Ring) (d : BitVec 512), s.takesLoad ring 4 d = true →
  (∀ k e, s.admits (ldPart d) = true → s.txn? (ldPart d) = none → s.slotIn? (ldPart d) 2 = some k → s.rd Reg.LDR_EPOCH_NUMBER (epochKey (ldPart d) k) = e →
    s.epochSlot? (ldPart d) e = some k → (s.epochInfo (epochKey (ldPart d) k)).members ≤ 1 →
    s.does (.commit ring d) (fun t => t.rd Reg.LDR_EPOCH_STATE (epochKey (ldPart d) k) = 3 ∧ t.txn? (ldPart d) = none ∧ s.givesLoad t ring d { epoch := e } ∧
      (s.loadState (ldPart d) = 6 → t.load? (ldPart d) = none ∧ t.loadState (ldPart d) = 0) ∧
      ∀ o, s.currentSlot? (ldPart d) = some o → ldNoHold d = false →
        t.rd Reg.LDR_EPOCH_STATE (epochKey (ldPart d) o) = 4 ∧ t.rd Reg.LDR_EPOCH_HOLD (epochKey (ldPart d) o) = 1)) ∧
  (s.admits (ldPart d) = false ∨ (s.txn? (ldPart d)).isSome → s.does (.commit ring d) (fun t => s.givesLoad t ring d { code := codeInvalid } ∧
    t.txn? (ldPart d) = s.txn? (ldPart d))) ∧
  (s.admits (ldPart d) = true → s.txn? (ldPart d) = none → s.slotIn? (ldPart d) 2 = none → s.loadState (ldPart d) ≠ 4 →
    s.does (.commit ring d) (fun t => s.givesLoad t ring d { code := codeLoadIncomplete } ∧ t.rd Reg.LDR_LOAD_ERR_CODE (ldPart d) = codeLoadIncomplete))) ∧
(∀ (s : State) (ring : Ring) (d : BitVec 512), s.takesLoad ring 5 d = true → s.admits (ldPart d) = true → s.txn? (ldPart d) = none →
  (∀ k e, s.lastDraining (ldPart d) = some k → s.progLost (ldPart d) = false → s.rd Reg.LDR_EPOCH_NUMBER (epochKey (ldPart d) k) = e →
    s.epochSlot? (ldPart d) e = some k → (s.epochInfo (epochKey (ldPart d) k)).members ≤ 1 →
    s.does (.rollback ring d) (fun t => t.rd Reg.LDR_EPOCH_STATE (epochKey (ldPart d) k) = 3 ∧ t.txn? (ldPart d) = none ∧ s.givesLoad t ring d { epoch := e })) ∧
  (s.lastDraining (ldPart d) = none ∨ s.progLost (ldPart d) = true → s.does (.rollback ring d) (fun t => s.givesLoad t ring d { code := codeEpochRetired } ∧
    ∀ k, t.rd Reg.LDR_EPOCH_STATE k = s.rd Reg.LDR_EPOCH_STATE k))) ∧
(∀ (s : State) (ring : Ring) (d : BitVec 512) (k : Nat), s.takesLoad ring 6 d = true → ldEpoch d ≠ 0 → s.epochSlot? (ldPart d) (ldEpoch d) = some k →
  s.does (.release ring d) (fun t => t.rd Reg.LDR_EPOCH_HOLD (epochKey (ldPart d) k) = 0 ∧ s.givesLoad t ring d { epoch := ldEpoch d } ∧
    t.rd Reg.LDR_EPOCH_STATE (epochKey (ldPart d) k) = (if s.rd Reg.LDR_EPOCH_STATE (epochKey (ldPart d) k) = 4 ∧
      s.rd Reg.LDR_EPOCH_REFS (epochKey (ldPart d) k) = 0 ∧ s.admits (ldPart d) = true then 0 else s.rd Reg.LDR_EPOCH_STATE (epochKey (ldPart d) k)))) ∧
(∀ (s : State) (p : Part) (m : BitVec 256) (k : Nat), s.admits p = false → s.epochSlot? p (emEpoch m) = some k →
  (s.rd Reg.LDR_EPOCH_STATE (epochKey p k) = 1 → s.loadState p = 4 →
    s.does (.epochPrepare p m) (fun t => t.loadState p = 5 ∧ SMap.find? t.loader.memberTxn p = some (emEpoch m, emTxn m))) ∧
  (s.rd Reg.LDR_EPOCH_STATE (epochKey p k) = 2 → s.progLost p = false → SMap.find? s.loader.memberTxn p = some (emEpoch m, emTxn m) →
    s.does (.epochCommit p m) (fun t => t.rd Reg.LDR_EPOCH_STATE (epochKey p k) = 3 ∧ SMap.find? t.loader.memberTxn p = none ∧
      (s.loadState p = 6 → t.load? p = none ∧ t.loadState p = 0) ∧
      ∀ o, s.currentSlot? p = some o → t.rd Reg.LDR_EPOCH_STATE (epochKey p o) = 4 ∧ t.rd Reg.LDR_EPOCH_HOLD (epochKey p o) = 1)) ∧
  (SMap.find? s.loader.memberTxn p = some (emEpoch m, emTxn m) → s.does (.epochAbort p m) (fun t => SMap.find? t.loader.memberTxn p = none ∧
      (s.load? p = none → (s.rd Reg.LDR_EPOCH_STATE (epochKey p k) = 1 ∨ s.rd Reg.LDR_EPOCH_STATE (epochKey p k) = 2) →
        t.rd Reg.LDR_EPOCH_STATE (epochKey p k) = 0))) ∧
  (s.rd Reg.LDR_EPOCH_STATE (epochKey p k) = 4 → s.does (.epochRetire p m) (fun t => t.rd Reg.LDR_EPOCH_STATE (epochKey p k) = 0)) ∧
  (s.rd Reg.LDR_EPOCH_STATE (epochKey p k) ≠ 4 → s.does (.epochRetire p m) (fun t => t = s))) ∧
(∀ (s : State) (p : Part) (l : Load) (x : Nat × W64) (maxCh : Fin 16), s.admits p = false → s.txn? p = none → s.load? p = some l →
  SMap.find? s.loader.memberTxn p = some x → s.loadState p = 5 →
  s.does (.scaleCalibrationDone p false maxCh) (fun t => t.rd Reg.LDR_EPOCH_STATE (epochKey p l.slot) = 2 ∧ t.loadState p = 6 ∧
    ∀ c ∈ s.physCoursesOf p, t.rd Reg.CRS_PRC_HCAL_DONE c = 1 ∧ t.rd Reg.CRS_PRC_HCAL_OVF c = 0 ∧ t.rd Reg.CRS_PRC_HCAL_MAX_CH c = maxCh) ∧
  s.does (.scaleCalibrationDone p true maxCh) (fun t => t.loadState p = 0 ∧ t.load? p = none ∧ t.rd Reg.LDR_LOAD_ERR_CODE p = codeNofit ∧
    t.rd Reg.LDR_LOAD_ERR_REASON p = 6 ∧ ∀ c ∈ s.physCoursesOf p, t.rd Reg.CRS_PRC_HCAL_OVF c = 1)) ∧
(∀ (s : State) (p : Part) (m : BitVec 256) (x : Txn), s.txn? p = some x → x.id = emTxn m → x.epoch = emEpoch m →
  s.does (.epochReady p m) (fun t => ∃ y, t.txn? p = some y ∧ y.ready = (x.ready ++ [emMember m]).eraseDups ∧ y.prepared = x.prepared) ∧
  ((x.prepared ++ [emMember m]).eraseDups.length < x.members →
    s.does (.epochPrepared p m) (fun t => ∃ y, t.txn? p = some y ∧ y.prepared = (x.prepared ++ [emMember m]).eraseDups)) ∧
  (∀ k, x.members ≤ (x.prepared ++ [emMember m]).eraseDups.length → s.epochSlot? p x.epoch = some k →
    s.does (.epochPrepared p m) (fun t => t.rd Reg.LDR_EPOCH_STATE (epochKey p k) = 3 ∧ t.txn? p = none)) ∧
  (s.does (.epochRefused p m) (fun t => t.txn? p = none ∧
    (x.rollback = false → s.load? p = none → emCode m ≠ codeOk → t.rd Reg.LDR_LOAD_ERR_CODE p = emCode m) ∧
    ∀ k, x.rollback = false → s.load? p = none → s.epochSlot? p x.epoch = some k → s.rd Reg.LDR_EPOCH_STATE (epochKey p k) = 1 →
      t.rd Reg.LDR_EPOCH_STATE (epochKey p k) = 0)) ∧
  (x.opened + x.timeoutMs * 1000000 ≤ s.time → s.does (.prepareTimeout p) (fun t => t.txn? p = none ∧
    (x.rollback = false → s.load? p = none → t.rd Reg.LDR_LOAD_ERR_CODE p = codeTimeout))) ∧
  (s.time < x.opened + x.timeoutMs * 1000000 → s.does (.prepareTimeout p) (fun t => t = s)))

/-- R221 to R223 for adapters, R224 for the shadow, R202, R203, R211 and R328 for the Relay. -/
def Obligations.AdaptersAndRelay : Prop :=
  (∀ (s : State) (ring : Ring) (d : BitVec 512) (b : AdapterBlob), s.takesLoad ring 8 d = true → 1 ≤ ldRank d → ldRank d ≤ 256 → s.inBuffer (ldAddr d) (ldLen d) = true →
  (b.signed = false → s.does (.adapterLoad ring d b) (fun t => s.givesLoad t ring d { code := codeInvalid, detail := 1 } ∧
    ∀ k, t.rd Reg.LDR_ADP_SLOT_VALID k = s.rd Reg.LDR_ADP_SLOT_VALID k)) ∧
  (∀ k, b.signed = true → b.valid = true →
    (ldArg d = 0xFFFFFFFF ∨ ldArg d < 65536 ∧ s.adapterValid (ldPart d) (ldArg d) = true ∧ s.is Reg.LDR_ADP_SLOT_SUPERSEDED (adapterSlot (ldArg d)) = false) →
    ((List.range 1024).find? (fun k => !s.is Reg.LDR_ADP_SLOT_VALID k)) = some k →
    s.poolUsed + ldLen d ≤ 268435456 * s.rd Reg.LDR_ADP_POOL_SIZE_UNITS → s.streams (ldPart d) b.layerBytes = true →
    s.does (.adapterLoad ring d b) (fun t => t.rd Reg.LDR_ADP_SLOT_VALID k = 1 ∧ t.rd Reg.LDR_ADP_SLOT_PART k = ldPart d ∧ t.rd Reg.LDR_ADP_SLOT_REFS k = 0 ∧
      s.givesLoad t ring d { adapter := k + 1024 * t.rd Reg.LDR_ADP_SLOT_VERSION k } ∧
      (ldArg d ≠ 0xFFFFFFFF → if s.rd Reg.LDR_ADP_SLOT_REFS (adapterSlot (ldArg d)) = 0 then t.rd Reg.LDR_ADP_SLOT_VALID (adapterSlot (ldArg d)) = 0
        else t.rd Reg.LDR_ADP_SLOT_SUPERSEDED (adapterSlot (ldArg d)) = 1))) ∧
  (b.signed = true → b.valid = true → ldArg d = 0xFFFFFFFF → 268435456 * s.rd Reg.LDR_ADP_POOL_SIZE_UNITS < s.poolUsed + ldLen d →
    s.does (.adapterLoad ring d b) (fun t => s.givesLoad t ring d { code := codeNofit, reason := 8 }))) ∧
(∀ (s : State) (ring : Ring) (d : BitVec 512), s.takesLoad ring 9 d = true →
  (ldArg d < 65536 → s.adapterValid (ldPart d) (ldArg d) = true → s.does (.adapterFree ring d) (fun t => s.givesLoad t ring d {} ∧
    if s.rd Reg.LDR_ADP_SLOT_REFS (adapterSlot (ldArg d)) = 0 then t.rd Reg.LDR_ADP_SLOT_VALID (adapterSlot (ldArg d)) = 0
      else t.rd Reg.LDR_ADP_SLOT_SUPERSEDED (adapterSlot (ldArg d)) = 1)) ∧
  (s.adapterValid (ldPart d) (ldArg d) = false → s.does (.adapterFree ring d) (fun t => s.givesLoad t ring d { code := codeAdapterMissing }))) ∧
(∀ (s : State) (ring : Ring) (d : BitVec 512), s.takesLoad ring 10 d = true → SMap.find? s.loader.refills (ldPart d) = none →
  (bit (s.rd Reg.LDR_SHADOW_EN) (ldPart d) = false → s.does (.shadowRebuild ring d) (fun t => s.givesLoad t ring d { code := codeInvalid })) ∧
  (bit (s.rd Reg.LDR_SHADOW_EN) (ldPart d) = true → bit (s.rd Reg.LDR_SHADOW_READY) (ldPart d) = true →
    s.does (.shadowRebuild ring d) (fun t => s.givesLoad t ring d {})) ∧
  (bit (s.rd Reg.LDR_SHADOW_EN) (ldPart d) = true → bit (s.rd Reg.LDR_SHADOW_READY) (ldPart d) = false →
    s.does (.shadowRebuild ring d) (fun t => SMap.find? t.loader.refills (ldPart d) = some (ring.val, ldCookie d)))) ∧
(∀ (s : State) (p : Part) (x : Nat × W64), SMap.find? s.loader.refills p = some x →
  s.does (.shadowRebuildDone p) (fun t => bit (t.rd Reg.LDR_SHADOW_READY) p = true ∧ SMap.find? t.loader.refills p = none)) ∧
(∀ (s : State) (port : ZlPort) (p : Part) (i : Fin 4) (index len : W32) (l : Load), s.zlUp port = true → s.load? p = some l → l.upport = port →
  s.stream? (4 * port + i) = none →
  (l.endSeen = false → s.does (.relayHead port p i .endMarker index len) (fun t => ∃ y, t.load? p = some y ∧ y.endSeen = true ∧ y.endAt = s.time)) ∧
  (∀ e, shardEntry? l index.toNat = some e → s.does (.relayHead port p i .shard index len) (fun t => t.load? p = some l ∧
    ∃ x, t.stream? (4 * port + i) = some x ∧ x.part = p ∧ x.kind = .shard ∧ x.index = e.index ∧ x.len = len.toNat ∧ x.received = 0 ∧
      x.keep = s.keepsShard p l e))) ∧
(∀ (s : State) (port : ZlPort) (i : Fin 4) (data : List Byte) (x : RelayStream), s.zlUp port = true → s.stream? (4 * port + i) = some x →
  let n := x.received + min (min data.length 40) (x.len - x.received)
  (n < x.len → s.does (.relayData port i data) (fun t => t.stream? (4 * port + i) = some { x with received := n })) ∧
  (x.len ≤ n → x.kind ≠ .manifest → s.does (.relayData port i data) (fun t => t.stream? (4 * port + i) = none))) ∧
(∀ (s : State) (port : ZlPort) (p : Part) (index : W32) (pos : Byte) (l : Load) (e : ShardEntry), s.zlUp port = true → s.load? p = some l →
  shardEntry? l index.toNat = some e →
  (s.keepsShard p l e = true → (shardState l e.index).verified = true → s.does (.relayReq port p index pos) (fun t => s.counts t Reg.LDR_RELAY_FWD_COUNT ∧ t.loader = s.loader)) ∧
  ((shardState l e.index).verified = false → 8 ≤ l.upport → s.does (.relayReq port p index pos) (fun t => s.counts t Reg.LNK_CNT_RX_COUNT port ∧
    s.sameBut t [.link] [Reg.LNK_CNT_RX_COUNT])))

/-- R274 for a port, R275 for an FLR, R263 for D3hot, R262 for the link. -/
def Obligations.PortsAndFunctionsReset : Prop :=
  (∀ (s : State) (port : Fin 2) (cause : PortResetCause), s.does (.portReset port cause) (fun t =>
  t.rd Reg.HIF_PORT_STATUS_LAST_RESET port = resetCode cause ∧ t.rd Reg.HIF_PORT_STATUS_DL_UP port = 0 ∧ t.heldAt port = [] ∧ (t.portState port).atc = [] ∧
  t.rd Reg.CLK_KEEP_HOLD port = 0 ∧ t.rd Reg.HIF_OWN_STATUS_OWNER = s.rd Reg.HIF_OWN_STATUS_OWNER ∧
  (∀ i ≤ 16, t.fnState (32 * port + i) = {}) ∧
  (∀ r < 4096, s.is Reg.RCB_ASSIGN_VALID r = true → s.ringFn r / 32 = port → t.ringMode r = 0 ∧ t.ringKind r = 0 ∧ t.rd Reg.RCB_HEAD_INDEX r = 0 ∧
    t.rd Reg.RCB_TAIL_INDEX r = 0 ∧ t.ringFn r = s.ringFn r ∧ t.ringPart r = s.ringPart r) ∧
  (∀ q, q % 16777216 ≠ port → t.rd Reg.HIF_PORT_STATUS_DL_UP q = s.rd Reg.HIF_PORT_STATUS_DL_UP q ∧ t.rd Reg.CLK_KEEP_HOLD q = s.rd Reg.CLK_KEEP_HOLD q) ∧
  (s.is Reg.HIF_OWN_STATUS_OFFER = true → s.owner = port + 1 → t.rd Reg.HIF_OWN_STATUS_OFFER = 0 ∧ t.rd Reg.HIF_OWN_STATUS_ABANDONED = 1))) ∧
(∀ (s : State) (fn : PciFn),
  (fn.idx ≠ 0 → s.does (.flr fn) (fun t => t.fnState (fnCode fn) = { flr := true } ∧ (∀ q, t.rd Reg.HIF_PORT_STATUS_LAST_RESET q = s.rd Reg.HIF_PORT_STATUS_LAST_RESET q) ∧
    (∀ c, c ≠ fnCode fn → t.fnState c = s.fnState c) ∧
    ∀ r < 4096, s.is Reg.RCB_ASSIGN_VALID r = true → s.ringFn r = fnCode fn → t.ringMode r = 0 ∧ t.ringKind r = 0)) ∧
  (fn.idx = 0 → s.does (.flr fn) (fun t => (∀ i ≤ 16, t.fnState (32 * fn.port + i) = { flr := true }) ∧ t.rd Reg.HIF_PORT_STATUS_LAST_RESET fn.port = 4 ∧
    ∀ r < 4096, s.is Reg.RCB_ASSIGN_VALID r = true → s.ringFn r / 32 = fn.port → s.ringFn r % 32 ≤ 16 → t.ringMode r = 0)) ∧
  (∀ cfg : FnConfig, ((s.fnState (fnCode fn)).flr = true → s.does (.flrComplete fn cfg) (fun t =>
      t.fnState (fnCode fn) = { memory := cfg.memory, ats := cfg.ats, pri := cfg.pri } ∧ s.sameBut t [.host] [])) ∧
    ((s.fnState (fnCode fn)).flr = false → s.does (.flrComplete fn cfg) (fun t => t = s))) ∧
  s.does (.d3hotEntry fn) (fun t => (∀ c, t.fnState c = s.fnState c) ∧
    ∀ r < 4096, s.is Reg.RCB_ASSIGN_VALID r = true → s.ringFn r = fnCode fn → s.ringActive r = true → hostProducer (s.ringKind r) = true →
      t.ringMode r = 2 ∨ t.ringMode r = 3)) ∧
(∀ (s : State) (port : Fin 2) (rate : Fin 6) (width : Fin 17) (ide : Bool) (cfg : PortConfig), rate ≠ 0 → width ≠ 0 → s.board.powered = true →
  s.does (.pcieLinkUp port rate width ide cfg) (fun t => t.rd Reg.HIF_PORT_STATUS_RATE port = rate ∧ t.rd Reg.HIF_PORT_STATUS_WIDTH port = width ∧
    t.rd Reg.HIF_PORT_STATUS_DL_UP port = 1 ∧ t.rd Reg.HIF_PORT_STATUS_DEGRADED port = (decide (rate.val < 5) || decide (width.val < 16)).toNat ∧
    t.rd Reg.HIF_PORT_STATUS_IDE port = ide.toNat ∧ bit (t.rd Reg.TRM_CLKIN_PCIE_OK) port = true ∧ (t.portState port).bar4 = cfg.bar4 ∧
    ∀ i ≤ 16, t.fnState (32 * port + i) = { memory := cfg.memory.getLsbD i, ats := cfg.ats.getLsbD i, pri := cfg.pri.getLsbD i, flr := (s.fnState (32 * port + i)).flr }))

/-- R269 for the claim, R271 for the handover, R272 for the reclaim. -/
def Obligations.OwnershipPasses : Prop :=
  (∀ (s : State) (who : Requester) (p : Nat) (nonce : W32), s.reaches who 0x20 = true → pfPort who = some p → nonce ≠ 0 →
  (s.owner = 0 → s.is Reg.HIF_OWN_STATUS_OFFER = false → s.claimBarred p = false → s.does (.ownClaim who nonce) (fun t => t.owner = p + 1 ∧
    t.rd Reg.HIF_OWN_NONCE_NONCE = nonce.toNat ∧ t.rd Reg.HIF_OWN_STATUS_RECLAIMED = 0 ∧
    s.sameBut t [] [Reg.HIF_OWN_STATUS_OWNER, Reg.HIF_OWN_NONCE_NONCE, Reg.HIF_OWN_STATUS_RECLAIMED])) ∧
  (s.owner ≠ 0 → s.does (.ownClaim who nonce) (fun t => t = s)) ∧
  (s.owner = 0 → s.is Reg.HIF_OWN_STATUS_OFFER = false → s.claimBarred p = true → s.does (.ownClaim who nonce) (fun t => t.owner = 0 ∧
    s.counts t Reg.HIF_NOW_CNT_NONOWNER))) ∧
(∀ (s : State) (who : Requester), s.reaches who 0x2C = true → isVf who = false →
  (s.mayRwo who = true → s.owner ≠ 0 → s.is Reg.HIF_OWN_STATUS_OFFER = false → s.does (.handoverOffer who) (fun t => t.rd Reg.HIF_OWN_STATUS_OFFER = 1 ∧
    t.host.offerTime = s.time ∧ t.owner = s.owner ∧ t.rd Reg.HIF_OWN_STATUS_ABANDONED = 0)) ∧
  (s.mayRwo who = false → s.does (.handoverOffer who) (fun t => s.counts t Reg.HIF_NOW_CNT_NONOWNER ∧ s.sameBut t [.out] Reg.discard))) ∧
(∀ (s : State) (who : Requester) (p : Nat) (nonce : W32), s.reaches who 0x30 = true → pfPort who = some p → nonce ≠ 0 → s.is Reg.HIF_OWN_STATUS_OFFER = true →
  (s.offerExpired = false → s.owner ≠ p + 1 → s.does (.handoverAccept who nonce) (fun t => t.owner = p + 1 ∧ t.rd Reg.HIF_OWN_NONCE_NONCE = nonce.toNat ∧
    t.rd Reg.HIF_OWN_STATUS_OFFER = 0 ∧ t.rd Reg.HIF_OWN_STATUS_ABANDONED = 0 ∧ t.rd Reg.SEC_TP_STATUS_STATE = 0 ∧
    (s.rd Reg.SEC_TP_STATUS_STATE ≠ 0 → t.rd Reg.SEC_TP_STATUS_ERR = 9 ∧ t.sec.entries = []))) ∧
  (s.offerExpired = true → s.does (.handoverAccept who nonce) (fun t => t.owner = s.owner ∧ t.rd Reg.HIF_OWN_STATUS_OFFER = 0 ∧
    t.rd Reg.HIF_OWN_STATUS_ABANDONED = 1))) ∧
(∀ (s : State), (s.is Reg.HIF_OWN_STATUS_OFFER = true → s.offerExpired = true → s.does .handoverExpiry (fun t => t.rd Reg.HIF_OWN_STATUS_OFFER = 0 ∧
    t.rd Reg.HIF_OWN_STATUS_ABANDONED = 1 ∧ s.sameBut t [] Reg.offer)) ∧
  (s.is Reg.HIF_OWN_STATUS_OFFER = false ∨ s.offerExpired = false → s.does .handoverExpiry (fun t => t = s))) ∧
(∀ (s : State) (nonce : W64) (signer : Option (BitVec 256)), s.provisioned = true →
  (s.approverKey signer = true → s.sec.nonces.any (fun e => e.1 == nonce && decide (s.time ≤ e.2 + 10000000000)) = true → s.ownerGone = true →
    s.is Reg.HIF_OWN_POLICY_RECLAIM_EN = true → s.does (.reclaim nonce signer) (fun t => t.owner = 0 ∧ t.rd Reg.HIF_OWN_NONCE_NONCE = 0 ∧
      t.rd Reg.HIF_OWN_STATUS_RECLAIMED = 1 ∧ t.rd Reg.SEC_TP_STATUS_STATE = 0)) ∧
  (s.approverKey signer = false → s.does (.reclaim nonce signer) (fun t => t.owner = s.owner ∧ s.counts t Reg.SEC_TP_STATUS_BAD ∧
    s.sameBut t [.out] [Reg.SEC_TP_STATUS_BAD])))

/-- R279 for ENABLE, R280 and R281 for indices, R283 for interrupts, R284 for STOP. -/
def Obligations.RingsRunAndStop : Prop :=
  (∀ (s : State) (who : Requester) (r : Ring), s.reaches who (0x20004 + 64 * r) = true → s.mayRing who r = true →
  (s.ringMode r = 0 → s.enableCheck r = 0 → hostProducer (s.ringKind r) = true → (s.ringState r).held = [] → (s.fnState (s.ringFn r)).ats = false →
    s.does (.ringEnable who r) (fun t => t.ringMode r = 1 ∧ t.rd Reg.RCB_CFG_ENABLE r = 1 ∧ t.rd Reg.RCB_HEAD_INDEX r = 0 ∧ t.rd Reg.RCB_TAIL_INDEX r = 0 ∧
      t.rd Reg.RCB_STATUS_ERR r = 0 ∧ t.out = s.out ++ [.writeback r (s.rd Reg.RCB_WB_ADDR r) (2 ^ 32)])) ∧
  (∀ e, s.ringMode r = 0 → s.enableCheck r = e → e ≠ 0 → s.does (.ringEnable who r) (fun t => t.rd Reg.RCB_STATUS_ERR r = e ∧
    s.sameBut t [] [Reg.RCB_STATUS_ERR] ∧ s.otherCopies t Reg.RCB_STATUS_ERR r)) ∧
  (s.ringMode r ≠ 0 → s.does (.ringDisable who r) (fun t => t.ringMode r = 0 ∧ t.rd Reg.RCB_CFG_ENABLE r = 0 ∧ t.rd Reg.RCB_STATUS_ARMED r = 0 ∧
    t.rd Reg.RCB_HEAD_INDEX r = s.rd Reg.RCB_HEAD_INDEX r ∧ t.rd Reg.RCB_TAIL_INDEX r = s.rd Reg.RCB_TAIL_INDEX r))) ∧
(∀ (s : State) (who : Requester) (r : Ring), s.reaches who (0x2002C + 64 * r) = true → s.mayRing who r = true → s.writebackOk r = true → (s.fnState (s.ringFn r)).ats = false →
  (s.ringActive r = true → hostProducer (s.ringKind r) = true → (s.ringState r).job = none → s.does (.ringStop who r) (fun t => t.ringMode r = 2 ∧
    s.otherCopies t Reg.RCB_STATUS_STATE r ∧ s.sameBut t [.host, .out] [Reg.RCB_STATUS_STATE])) ∧
  (s.ringMode r = 2 → s.does (.ringResume who r) (fun t => t.ringMode r = 1 ∧ s.sameBut t [.host, .out] [Reg.RCB_STATUS_STATE])) ∧
  (s.ringMode r ≠ 2 → s.does (.ringResume who r) (fun t => t = s))) ∧
(∀ (s : State) (fn : PciFn) (r : Ring) (v : W32), s.reachesDoorbell fn = true →
  (s.is Reg.RCB_ASSIGN_VALID r = true → s.ringFn r = fnCode fn → s.ringActive r = true →
    let n := (v.toNat + 2 ^ 32 - s.rd Reg.RCB_HEAD_INDEX r) % 2 ^ 32
    (hostProducer (s.ringKind r) = true → n ≤ s.ringCap r → s.does (.dbIndex fn r v) (fun t => t.rd Reg.RCB_TAIL_INDEX r = v.toNat ∧ t.ringMode r = 1)) ∧
    (hostProducer (s.ringKind r) = true → s.ringCap r < n → s.does (.dbIndex fn r v) (fun t => t.ringMode r = 3 ∧ t.rd Reg.RCB_STATUS_ERR r = 6 ∧
      t.rd Reg.RCB_TAIL_INDEX r = s.rd Reg.RCB_TAIL_INDEX r)) ∧
    (hostProducer (s.ringKind r) = false → n ≤ s.ringUsed r → s.does (.dbIndex fn r v) (fun t => t.rd Reg.RCB_HEAD_INDEX r = v.toNat)) ∧
    (bit v.toNat 0 = true → s.coalesced r = false → s.does (.dbArm fn r v) (fun t => t.rd Reg.RCB_STATUS_ARMED r = 1 ∧ t.out = s.out)) ∧
    (bit v.toNat 0 = true → s.coalesced r = true → s.is Reg.RCB_INTR_INTR_EN r = true → s.rd Reg.RCB_INTR_VECTOR r < vectorsOf (fnCode fn) →
      s.does (.dbArm fn r v) (fun t => t.rd Reg.RCB_STATUS_ARMED r = 0 ∧ t.out = s.out ++ [.msix (fnCode fn) (s.rd Reg.RCB_INTR_VECTOR r)]))) ∧
  (s.is Reg.RCB_ASSIGN_VALID r = false → s.does (.dbIndex fn r v) (fun t => s.counts t Reg.HIF_NOW_CNT_BADDB ∧ s.sameBut t [] [Reg.HIF_NOW_CNT_BADDB]))) ∧
(∀ (s : State) (r : Ring), s.is Reg.RCB_INTR_INTR_EN r = true → s.is Reg.RCB_STATUS_ARMED r = true → s.rd Reg.RCB_INTR_VECTOR r < vectorsOf (s.ringFn r) →
  (s.coalesced r = true → s.does (.coalesceTimer r) (fun t => t.rd Reg.RCB_STATUS_ARMED r = 0 ∧ (t.ringState r).unsignalled = 0)) ∧
  (s.coalesced r = false → s.does (.coalesceTimer r) (fun t => t = s)))

/-- R286 to R292 for transfers, R289 and R290 for pages, R268 for BAR4. -/
def Obligations.TransfersMoveBytes : Prop :=
  (∀ (s : State) (r : Ring) (d : BitVec 256), s.takes r kindDma = true → (s.ringState r).job = none → s.linkFit (s.ringFn r / 32) = true → dmaBytes d ≠ 0 →
  (s.dmaFieldsOk r d = true →
    (dmaOp d = 1 → s.xlate (s.ringFn r) (dmaHost d) false = .granted → s.does (.copyIn r d) (fun t => (t.ringState r).job =
      some { op := 1, bytes := dmaBytes d, host := dmaHost d, offset := dmaOffset d, cookie := dmaCookie d } ∧ t.stack = s.stack)) ∧
    (dmaOp d = 2 → s.xlate (s.ringFn r) (dmaHost d) true = .granted → s.does (.copyOut r d) (fun t => (t.ringState r).job =
      some { op := 2, bytes := dmaBytes d, host := dmaHost d, offset := dmaOffset d, cookie := dmaCookie d } ∧ t.stack = s.stack)) ∧
    (dmaOp d = 3 → s.does (.zero r d) (fun t => (t.ringState r).job =
      some { op := 3, bytes := dmaBytes d, host := dmaHost d, offset := dmaOffset d, cookie := dmaCookie d } ∧ t.stack = s.stack))) ∧
  (s.dmaFieldsOk r d = false → dmaOp d = 1 → s.does (.copyIn r d) (fun t => (t.ringState r).job = none ∧
    s.gives t (s.rd Reg.RCB_PAIR_CPL r) 32 (dmaCompletion (dmaCookie d) 1 codeInvalid 0 (dmaHost d) s.now)))) ∧
(∀ (s : State) (r : Ring) (j : DmaJob) (data : List Byte), (s.ringState r).job = some j → j.translating = false → j.parked = none → j.ending = none →
  s.linkFit (s.ringFn r / 32) = true → j.done < j.bytes → j.done + pieceLength j = j.bytes → data.length = pieceLength j →
  let a := (s.dataWindow (s.ringPart r)).1 + j.offset + j.done
  a + pieceLength j ≤ stackSize →
  s.does (.dmaPiece r data) (fun t => (t.ringState r).job = none ∧
    s.gives t (s.rd Reg.RCB_PAIR_CPL r) 32 (dmaCompletion j.cookie j.op codeOk j.bytes 0 s.now) ∧
    (j.op = 1 → t.stackRead a (pieceLength j) = data) ∧
    (j.op = 2 → t.stack = s.stack ∧ .hostWrite (s.ringFn r) (j.host + j.done) (s.stackRead a (pieceLength j)) ∈ t.out) ∧
    (j.op = 3 → t.stackRead a (pieceLength j) = List.replicate (pieceLength j) 0) ∧
    ∀ x, x < a ∨ a + pieceLength j ≤ x → SMap.get 0 t.stack x = SMap.get 0 s.stack x)) ∧
(∀ (s : State) (r : Ring) (j : DmaJob) (since : Nat), (s.ringState r).wait = none → (s.ringState r).job = some j → j.parked = some since →
  s.does (.pageRequestResponse r .success) (fun t => (t.ringState r).job = some { j with parked := none, translating := true } ∧
    t.out = s.out ++ [.translationRequest (s.ringFn r) ((j.host + j.done) / 4096)]) ∧
  s.does (.pageRequestResponse r .invalidRequest) (fun t => (t.ringState r).job = none ∧
    s.gives t (s.rd Reg.RCB_PAIR_CPL r) 32 (dmaCompletion j.cookie j.op codeInvalid j.done (j.host + j.done) s.now)) ∧
  s.does (.pageRequestResponse r .responseFailure) (fun t => (t.ringState r).job = none ∧ (t.fnState (s.ringFn r)).priStopped = true) ∧
  (since + s.pageTimeout ≤ s.time → s.does (.pageRequestTimeout r) (fun t => (t.ringState r).job = none ∧
    s.gives t (s.rd Reg.RCB_PAIR_CPL r) 32 (dmaCompletion j.cookie j.op codeTimeout j.done (j.host + j.done) s.now))) ∧
  (s.time < since + s.pageTimeout → s.does (.pageRequestTimeout r) (fun t => t = s))) ∧
(∀ (s : State) (r : Ring) (j : DmaJob) (readable writable : Bool), (s.ringState r).wait = none → (s.ringState r).job = some j → j.translating = true → j.op ≠ 3 →
  j.done < j.bytes → (if j.op = 2 then writable else readable) = true → s.windowOk (s.ringPart r) (s.ringFn r) (j.host + j.done) (pieceLength j) (j.op == 2) = true →
  s.does (.atsTranslationCompletion r readable writable) (fun t => (t.ringState r).job = some { j with translating := false, parked := none } ∧
    ⟨s.ringFn r, (j.host + j.done) / 4096, readable, writable⟩ ∈ (t.portState (s.ringFn r / 32)).atc)) ∧
(∀ (s : State) (port : Fin 2) (page : BitVec 52) (pages : Nat), s.does (.atsInvalidation port page pages) (fun t =>
  s.counts t Reg.DMA_CNT_ATSINV_COUNT ∧ (∀ e ∈ (t.portState port).atc, e.page < page.toNat ∨ page.toNat + pages ≤ e.page) ∧
  ∀ (r : Ring) j, (s.ringState r).job = some j → s.ringFn r / 32 = port → (s.fnState (s.ringFn r)).ats = true → j.op ≠ 3 → page.toNat ≤ (j.host + j.done) / 4096 →
    (j.host + j.done) / 4096 < page.toNat + pages → j.parked = none → j.ending = none → (t.ringState r).job = some { j with translating := true })) ∧
(∀ (s : State) (fn : PciFn) (off : BitVec 36) (data : List Byte), fn.idx = 0 → s.served (.fn fn) = true → s.resting = false → s.blocked (.fn fn) = false →
  (s.inLanding off.toNat data.length = true → s.bar4Address off.toNat + data.length ≤ stackSize → s.does (.bar4Access fn off (.write data)) (fun t =>
    t.stackRead (s.bar4Address off.toNat) data.length = data ∧ s.sameBut t [.stack] [] ∧
    ∀ x, x < s.bar4Address off.toNat ∨ s.bar4Address off.toNat + data.length ≤ x → SMap.get 0 t.stack x = SMap.get 0 s.stack x)) ∧
  (s.inLanding off.toNat data.length = false → s.does (.bar4Access fn off (.write data)) (fun t => s.counts t Reg.HIF_NOW_CNT_NONOWNER ∧ t.stack = s.stack)) ∧
  (∀ n, s.inLanding off.toNat n = true → s.does (.bar4Access fn off (.read n)) (fun t =>
    t.out = s.out ++ [.windowData (fnCode fn) (s.stackRead (s.bar4Address off.toNat) n)] ∧ s.sameBut t [.out] [])))

/-- R297 to R303 for mailboxes, R305 for doorbells, R309 for holds. -/
def Obligations.MailboxesAndHolds : Prop :=
  (∀ (s : State) (who : Requester) (m : Mailbox) (high : W32), s.reaches who (mailOffset m 4) = true →
  (isSender who m = true → s.is Reg.MBX_STATUS_FULL m = false → s.does (.mailboxCommit who m high) (fun t => t.rd Reg.MBX_STATUS_FULL m = 1 ∧
    t.rd Reg.MBX_DATA_WORD m = (s.joinHalves who (mailOffset m 0) (s.rd Reg.MBX_DATA_WORD m) high.toNat).1 % 2 ^ 64 ∧ t.rd Reg.MBX_ACK_VALID m = 0 ∧
    t.rd Reg.MBX_STATUS_TMO m = 0 ∧ t.rd Reg.MBX_STATUS_REJ m = 0 ∧
    (sentByHost m = true → bit t.mail.firmware.toNat m = true) ∧ (sentByHost m = false → bit (t.doorbells (mailPort m)) (m % 16) = true) ∧
    ∀ q, q % 16777216 ≠ m → t.rd Reg.MBX_DATA_WORD q = s.rd Reg.MBX_DATA_WORD q ∧ t.rd Reg.MBX_STATUS_FULL q = s.rd Reg.MBX_STATUS_FULL q)) ∧
  (∀ f, who = .fn f → isSender who m = true → s.is Reg.MBX_STATUS_FULL m = true → s.does (.mailboxCommit who m high) (fun t => t.rd Reg.MBX_STATUS_REJ m = 1 ∧
    s.counts t Reg.MBX_CNT_REJECT ∧ t.out = s.out ++ [.unsupported (fnCode f)] ∧ s.sameBut t [.latches, .out] [Reg.MBX_STATUS_REJ, Reg.MBX_CNT_REJECT]))) ∧
(∀ (s : State) (who : Requester) (m : Mailbox) (code : W16), s.reaches who (mailOffset m 12) = true →
  (isReceiver who m = true → s.is Reg.MBX_STATUS_FULL m = true → sentByHost m = true → s.does (.mailboxAck who m code) (fun t => t.rd Reg.MBX_STATUS_FULL m = 0 ∧
    t.rd Reg.MBX_ACK_CODE m = code.toNat ∧ t.rd Reg.MBX_ACK_VALID m = 1 ∧ bit t.mail.firmware.toNat m = false ∧ bit (t.doorbells (mailPort m)) (16 + m % 16) = true)) ∧
  (isReceiver who m = true → s.is Reg.MBX_STATUS_FULL m = true → sentByHost m = false → SMap.get [] s.mail.backlog m = [] → m ≠ 41 → m ≠ 57 →
    s.does (.mailboxAck who m code) (fun t => t.rd Reg.MBX_STATUS_FULL m = 0 ∧ t.rd Reg.MBX_ACK_CODE m = code.toNat ∧ t.rd Reg.MBX_ACK_VALID m = 1)) ∧
  (∀ w rest, isReceiver who m = true → s.is Reg.MBX_STATUS_FULL m = true → sentByHost m = false → SMap.get [] s.mail.backlog m = w :: rest →
    s.does (.mailboxAck who m code) (fun t => t.rd Reg.MBX_STATUS_FULL m = 1 ∧ t.rd Reg.MBX_DATA_WORD m = w % 2 ^ 64 ∧ SMap.get [] t.mail.backlog m = rest)) ∧
  (isReceiver who m = true → s.is Reg.MBX_STATUS_FULL m = false → s.does (.mailboxAck who m code) (fun t => t = s)) ∧
  (isReceiver who m = false → (pfPort who).isSome → s.does (.mailboxAck who m code) (fun t => s.counts t Reg.MBX_CNT_FOREIGN ∧
    ∀ q, t.rd Reg.MBX_STATUS_FULL q = s.rd Reg.MBX_STATUS_FULL q))) ∧
(∀ (s : State) (who : Requester) (m : Mailbox), s.reaches who (mailOffset m 20) = true → isSender who m = true →
  (s.is Reg.MBX_STATUS_FULL m = true → sentByHost m = true → s.does (.mailboxWithdraw who m) (fun t => t.rd Reg.MBX_STATUS_FULL m = 0 ∧
    t.rd Reg.MBX_STATUS_WD_FAIL m = 0 ∧ bit t.mail.firmware.toNat m = false ∧ t.rd Reg.MBX_ACK_VALID m = s.rd Reg.MBX_ACK_VALID m)) ∧
  (s.is Reg.MBX_STATUS_FULL m = false → s.does (.mailboxWithdraw who m) (fun t => t.rd Reg.MBX_STATUS_WD_FAIL m = 1 ∧
    s.sameBut t [] [Reg.MBX_STATUS_WD_FAIL] ∧ s.otherCopies t Reg.MBX_STATUS_WD_FAIL m))) ∧
(∀ (s : State) (m : Mailbox) (x : MailTimer), SMap.get {} s.mail.timers m = x → s.is Reg.MBX_STATUS_FULL m = true →
  (x.running = true → x.timeout ≠ 0 → x.committed + 1000 * x.timeout ≤ s.time → s.does (.mailboxTimeout m) (fun t => t.rd Reg.MBX_STATUS_TMO m = 1 ∧
    t.rd Reg.MBX_STATUS_FULL m = s.rd Reg.MBX_STATUS_FULL m ∧ (sentByHost m = true → bit (t.doorbells (mailPort m)) (16 + m % 16) = true) ∧
    (sentByHost m = false → bit t.mail.firmware.toNat m = true))) ∧
  (s.time < x.committed + 1000 * x.timeout → s.does (.mailboxTimeout m) (fun t => t = s)) ∧
  (sentByHost m = true → s.rd Reg.MBX_DATA_WORD m >>> 56 = 1 → s.does (.echo m) (fun t => t.rd Reg.MBX_STATUS_FULL m = 0 ∧
    t.rd Reg.MBX_ACK_CODE m = 256 * (s.rd Reg.MBX_DATA_WORD m % 256) ∧ t.rd Reg.MBX_ACK_VALID m = 1))) ∧
(∀ (s : State) (port : Fin 2) (v : W32),
  (s.reaches (.fn ⟨port, 0⟩) 0x10800 = true → s.does (.mbxDbClear port v) (fun t => t.doorbells port = s.doorbells port &&& (2 ^ 32 - 1 - v.toNat) ∧
    s.sameBut t [] [Reg.MBX_DB_IN, Reg.MBX_DB_OUT])) ∧
  (s.reaches (.fn ⟨port, 0⟩) 0x10804 = true →
    (s.doorbells port &&& (2 ^ 32 - 1 - v.toNat) = 0 → s.does (.mbxDbMaskWrite port v) (fun t => t.rd Reg.MBX_DB_MASK_MASK port = v.toNat ∧
      s.sameBut t [] [Reg.MBX_DB_MASK_MASK])) ∧
    (s.doorbells port &&& (2 ^ 32 - 1 - v.toNat) ≠ 0 → s.is Reg.MBX_IRQ_EN port = true → s.rd Reg.MBX_IRQ_VECTOR port < 512 →
      s.does (.mbxDbMaskWrite port v) (fun t => t.rd Reg.MBX_DB_MASK_MASK port = v.toNat ∧ t.out = s.out ++ [.msix (32 * port) (s.rd Reg.MBX_IRQ_VECTOR port)]))) ∧
  (s.reaches (.fn ⟨port, 0⟩) 0x150020 = true →
    (s.is Reg.CLK_KEEP_HOLD port = false → s.does (.clockHold port true) (fun t => t.rd Reg.CLK_KEEP_HOLD port = 1 ∧
      SMap.find? t.mail.holdSince port = some s.time ∧ s.sameBut t [.mail] [Reg.CLK_KEEP_HOLD])) ∧
    s.does (.clockHold port false) (fun t => t.rd Reg.CLK_KEEP_HOLD port = 0 ∧ SMap.find? t.mail.holdSince port = none)) ∧
  (∀ since, SMap.find? s.mail.holdSince port = some since → s.is Reg.CLK_KEEP_HOLD port = true →
    (since + 100000000 ≤ s.time → s.does (.holdLapse port) (fun t => t.rd Reg.CLK_KEEP_HOLD port = 0 ∧ t.rd Reg.CLK_KEEP_LAPSED port = 1)) ∧
    (s.time < since + 100000000 → s.does (.holdLapse port) (fun t => t = s))))

/-- R230 to R232 for GENERATE, R251 and R252 for CANCEL, R250 for PREFIX_DROP. -/
def Obligations.SubmissionsAreTaken : Prop :=
  (∀ (s : State) (r : Ring) (e : BitVec 512), s.takesSubmit r 1 e = true →
  (∀ c n, s.generateCheck (s.ringPart r) e = (c, n) → c ≠ codeOk → s.does (.generate r e) (fun t =>
    s.gives t (s.rd Reg.RCB_PAIR_CPL r) 32 (completionEntry (sbUser e) 0xFFFF c n 0 0 0 0 0xFFFF s.now) ∧
    s.counts t Reg.SRV_CNT_REFUSE_COUNT (s.ringPart r) ∧ t.serving = s.serving)) ∧
  ((s.generateCheck (s.ringPart r) e).1 = codeOk → s.freeEntry? (s.ringPart r) = none → s.does (.generate r e) (fun t =>
    (t.ringState r).stalled = true ∧ s.counts t Reg.SRV_CNT_FULL_COUNT (s.ringPart r) ∧ s.sameBut t [.host] [Reg.SRV_CNT_FULL_COUNT])) ∧
  (∀ i, (s.generateCheck (s.ringPart r) e).1 = codeOk → s.freeEntry? (s.ringPart r) = some i → s.chainWhole (s.ringPart r) = true → sbDlAbort e = false →
    s.does (.generate r e) (fun t => (t.request i).state = .queued ∧ (t.request i).userId = sbUser e ∧ (t.request i).promptLen = sbPromptLen e ∧
      (t.request i).maxNew = sbMaxNew e ∧ (t.request i).part = s.ringPart r ∧ (t.request i).subring = r ∧ (t.request i).epoch = s.currentEpoch (s.ringPart r) ∧
      (t.request i).version = ((s.request i).version + 1) % 65536 ∧ (t.request i).admitTime = s.now ∧ (t.request i).adapter = sbAdapter e ∧
      (t.request i).deadline = sbDeadline e ∧ (t.request i).seed = sbSeed e ∧ s.counts t Reg.SRV_CNT_ADMIT_COUNT (s.ringPart r) ∧
      t.rd Reg.RCB_HEAD_INDEX r = (s.rd Reg.RCB_HEAD_INDEX r + 1) % 2 ^ 32 ∧
      ∀ k, sbDraftLen e = 0 → s.epochSlot? (s.ringPart r) (s.currentEpoch (s.ringPart r)) = some k →
        s.counts t Reg.LDR_EPOCH_REFS (epochKey (s.ringPart r) k)))) ∧
(∀ (s : State) (r : Ring) (e : BitVec 512) (q : Request), s.takesSubmit r 2 e = true → sbOnly e (0xFF + 0xFFFF * 2 ^ 32 + (2 ^ 64 - 1) * 2 ^ 128) = true →
  s.request (sbContext e) = q →
  (liveState q.state = true → q.part = s.ringPart r → q.userId = sbUser e → q.member = false → q.isCompanion = false →
    (q.state = .queued ∨ q.state = .paused → s.does (.cancel r e) (fun t => (t.request (sbContext e)).state = .done ∧
      (t.request (sbContext e)).code = codeCancelled ∧ s.counts t Reg.SRV_CNT_CANCEL_COUNT (s.ringPart r))) ∧
    (runState q.state = true → s.does (.cancel r e) (fun t => (t.request (sbContext e)).state = .cancelling ∧
      (t.request (sbContext e)).cancelCode = codeCancelled ∧ .control (s.ringPart r) 4 (tagOf (s.ringPart r) (sbContext e) 0 q.step 0 0xFFF 4) 0 ∈ t.out))) ∧
  (liveState q.state = false ∨ q.part ≠ s.ringPart r ∨ q.userId ≠ sbUser e → s.does (.cancel r e) (fun t =>
    s.counts t Reg.SRV_CNT_CANCEL_LATE_COUNT (s.ringPart r) ∧ t.serving = s.serving))) ∧
(∀ (s : State) (r : Ring) (e : BitVec 512), s.takesSubmit r 3 e = true → sbOnly e (0xFF + (2 ^ 64 - 1) * 2 ^ 128 + (2 ^ 64 - 1) * 2 ^ 256) = true →
  let answers := fun (t : State) (c : Nat) => s.gives t (s.rd Reg.RCB_PAIR_CPL r) 32 (completionEntry (sbUser e) 0xFFFF c 0 0 0 0 0 0xFFFF s.now)
  (s.prefixEntry? (s.ringPart r) (sbPrefix e) = none → s.does (.prefixDrop r e) (fun t => answers t codePrefixUnknown ∧ t.serving = s.serving)) ∧
  (∀ k x, s.prefixEntry? (s.ringPart r) (sbPrefix e) = some k → s.prefixEntry k = some x →
    (x.refs = 0 → s.does (.prefixDrop r e) (fun t => answers t codeOk ∧ t.prefixEntry k = none)) ∧
    (x.refs ≠ 0 → s.does (.prefixDrop r e) (fun t => answers t codeOk ∧ t.prefixEntry k = some { x with dropped := true }))))

/-- R239 for passes, R233 to R237 for tokens and completions, R243, R246 and R251 for the ends of a request. -/
def Obligations.RequestsRun : Prop :=
  (∀ (s : State) (p : Part), s.admits p = true → s.passIdle p = true →
  (s.passes p = false → s.does (.passFormation p) (fun t => t = s)) ∧
  (s.passes p = true → s.chainWhole p = true →
    let u := s.forEach (s.entriesOf p) (fun s i => (s.tryReserve i).reviewDraft i)
    (u.candidates p = [] → s.does (.passFormation p) (fun t => t = u)) ∧
    (∀ i x, u.candidates p = [(i, x)] → readyRequest (u.request i) = true → (u.request i).prefillPos ≥ (u.request i).promptLen → specOn (u.request i) = false →
      (u.request i).drafts = [] → ((u.setRequest i { u.request i with drafts := [] }).getPages i 1).isSome → s.does (.passFormation p) (fun t => (t.request i).inFlight = true ∧ (t.request i).state = .decode ∧
        (t.request i).ntok = 1 ∧ (t.request i).kvlen = (u.request i).kvlen ∧ (SMap.get [] t.serving.passes p).map (fun x => x.context) = [i])) ∧
    (∀ i x, u.candidates p = [(i, x)] → readyRequest (u.request i) = true → (u.request i).prefillPos < (u.request i).promptLen →
      (∀ lat, (u.getPages i (u.chunkTokens (u.request i).part (u.request i) lat)).isSome) → s.does (.passFormation p) (fun t => (t.request i).inFlight = true ∧
        (t.request i).state = .prefill ∧ ∃ lat, (t.request i).ntok = u.chunkTokens (u.request i).part (u.request i) lat)))) ∧
(∀ (s : State) (c : W16) (r : Request) (x : StepResult), s.request c.toNat = r → r.inFlight = true → r.member = false → r.isCompanion = false → r.state = .decode →
  s.slotRuns r.part c.toNat = false → r.suspectStore = false →
  (x.suspect = false → x.noDistribution = false → r.companion = 0xFFFF →
    let stop : Bool := (x.token.token == r.stop0 && r.stop0 != 0xFFFFFFFF) || (x.token.token == r.stop1 && r.stop1 != 0xFFFFFFFF)
    let last : Bool := stop || decide (r.maxNew ≤ r.gen + 1) || decide (1048576 ≤ r.kvlen + 1)
    s.does (.stepComplete c x) (fun t => (t.request c.toNat).inFlight = false ∧ (t.request c.toNat).step = r.step + 1 ∧ (t.request c.toNat).kvlen = r.kvlen + 1 ∧
      (t.request c.toNat).gen = r.gen + 1 ∧ (t.request c.toNat).lastToken = x.token.token ∧ (t.request c.toNat).state = (if last then .done else .decode) ∧
      (t.request c.toNat).heldTokens = r.heldTokens ++ [markEntry c.toNat (r.kvlen + 1) r.version false,
        tokenEntry x.token.token x.token.logprob last x.degraded false stop])) ∧
  (x.suspect = true → r.aborts + 1 < max 1 (s.rd Reg.FLT_WD_CTRL_RERUN_MAX) → s.does (.stepComplete c x) (fun t => (t.request c.toNat).state = .queued ∧
    (t.request c.toNat).inFlight = false ∧ (t.request c.toNat).kvlen = r.kvlen ∧ (t.request c.toNat).step = r.step + 1)) ∧
  (x.suspect = false → x.noDistribution = true → s.does (.stepComplete c x) (fun t => (t.request c.toNat).state = .faulted ∧
    (t.request c.toNat).code = codeContextReset ∧ s.counts t Reg.SRV_CNT_NONFINITE_COUNT r.part))) ∧
(∀ (s : State) (c : W16) (r : Request), s.request c.toNat = r →
  (r.heldTokens ≠ [] → s.ringRoom (s.tokenRing r) r.heldTokens.length = false → r.state = .decode → s.does (.tokenWrite c) (fun t =>
    (t.request c.toNat).state = .paused ∧ (t.request c.toNat).cause = .ring ∧ (t.request c.toNat).heldTokens = r.heldTokens ∧ t.out = s.out)) ∧
  (r.heldTokens ≠ [] → s.ringKind (s.tokenRing r) = kindToken → s.writesNow (s.tokenRing r) 8 r.heldTokens.length = true → s.does (.tokenWrite c) (fun t =>
    (t.request c.toNat).heldTokens = [] ∧ (t.request c.toNat).state = r.state ∧ ∀ v ∈ r.heldTokens, ∃ i a, .ringEntry (s.tokenRing r) i a 8 v ∈ t.out)) ∧
  (r.heldTokens = [] →
    s.does (.tokenWrite c) (fun t => t = s) ∧
    (r.state = .done ∨ r.state = .faulted → r.member = false → s.ringKind (s.completionRing r) = kindCompletion → (s.ringState (s.completionRing r)).held = [] →
      (s.writesNow (s.completionRing r) 32 1 = true → s.does (.completionWrite c) (fun t => (t.request c.toNat).state = .free ∧
        (t.request c.toNat).version = r.version ∧ ∃ i a, .ringEntry (s.completionRing r) i a 32 (completionEntry r.userId c.toNat
          (finalCode r (r.deadline != 0 && decide (r.deadline < s.now))) 0 r.gen (completionFlags r (r.deadline != 0 && decide (r.deadline < s.now)))
          r.prefillPos r.epoch r.adapter s.now) ∈ t.out)) ∧
      (s.ringRoom (s.completionRing r) 1 = false → s.does (.completionWrite c) (fun t => t = s))) ∧
    (r.state = .paused → s.pauseCleared c.toNat = true → s.does (.pauseResume c) (fun t => (t.request c.toNat).state = .queued ∧ (t.request c.toNat).cause = .none)) ∧
    (r.state = .paused → s.pauseCleared c.toNat = false → s.does (.pauseResume c) (fun t => t = s))) ∧
  (r.dlAbort = true → r.deadline ≠ 0 → r.deadline < s.now → r.member = false →
    (r.state = .queued ∨ r.state = .paused → s.does (.deadlineExpiry c) (fun t => (t.request c.toNat).state = .done ∧ (t.request c.toNat).code = codeTimeout)) ∧
    (runState r.state = true → s.does (.deadlineExpiry c) (fun t => (t.request c.toNat).state = .cancelling ∧ (t.request c.toNat).cancelCode = codeTimeout))) ∧
  (s.now ≤ r.deadline → s.does (.deadlineExpiry c) (fun t => t = s)) ∧
  (r.state = .paused → r.cause = .pages →
    (r.pausedAt + s.rd Reg.SRV_PART_WAIT_PAGEWAIT_MS r.part * 1000000 < s.time → s.does (.pagewaitTimeout c) (fun t =>
      (t.request c.toNat).state = .done ∧ (t.request c.toNat).code = codePages ∧ (t.request c.toNat).pages = [])) ∧
    (s.time ≤ r.pausedAt + s.rd Reg.SRV_PART_WAIT_PAGEWAIT_MS r.part * 1000000 → s.does (.pagewaitTimeout c) (fun t => t = s))) ∧
  (r.state = .cancelling → r.ringless = false → s.does (.cancelDrainComplete c) (fun t => (t.request c.toNat).code = r.cancelCode ∧
    (t.request c.toNat).state = (if r.cancelCode = codeContextReset then .faulted else .done) ∧ (t.request c.toNat).pages = [])))

/-- R226 and R242 for the messages of Table 7.8, R246 for pages. -/
def Obligations.MembersFollow : Prop :=
  (∀ (s : State) (p : Part) (m : BitVec 256), smKind m = 1 → s.admits p = false → s.inSlice p (smContext m) = true → s.does (.admitMessage p m) (fun t =>
  (t.request (smContext m)).state = .queued ∧ (t.request (smContext m)).member = true ∧ (t.request (smContext m)).part = p ∧
  (t.request (smContext m)).epoch = smEpoch m ∧ (t.request (smContext m)).adapter = smAdapter m ∧
  (t.request (smContext m)).version = ((s.request (smContext m)).version + 1) % 65536)) ∧
(∀ (s : State) (p : Part) (m g : BitVec 256), smKind m = 2 → smCount m = 1 → s.admits p = false → bit (s.rd Reg.FLT_PROG_LOST_PART) p = false →
  let x := slotOf g
  let r := s.request x.context
  (r.state ≠ .free → r.part = p → r.member = true →
    ((s.setRequest x.context { r with kvlen := x.kvlen, ntok := x.ntok, epoch := x.epoch, step := x.step }).getPages x.context x.ntok).isSome →
    s.does (.passMessage p m [g]) (fun t => (t.request x.context).kvlen = x.kvlen ∧ (t.request x.context).ntok = x.ntok ∧ (t.request x.context).step = x.step ∧
      (t.request x.context).epoch = x.epoch ∧ (s.passes p = false → SMap.get [] t.serving.waiting p = SMap.get [] s.serving.waiting p ++ [[x]]) ∧
      (s.passes p = true → SMap.get [] s.serving.waiting p = [] → SMap.get [] t.serving.waiting p = [] ∧ SMap.get [] t.serving.passes p = [x]))) ∧
  (r.state = .free → s.does (.passMessage p m [g]) (fun t => t.serving = s.serving ∧ t.cores = s.cores))) ∧
(∀ (s : State) (p : Part) (m : BitVec 256) (r : Request), smKind m = 3 → s.admits p = true → s.request (smContext m) = r → r.part = p → runState r.state = true → r.inFlight = true →
  (s.rd Reg.SRV_PART_WAIT_PAGEWAIT_MS p ≠ 0 → s.rd Reg.SRV_PART_POOL_COUNT_FRAMES p ≠ 0 → s.does (.short p m) (fun t =>
    (t.request (smContext m)).state = .paused ∧ (t.request (smContext m)).cause = .pages ∧ (t.request (smContext m)).inFlight = false ∧
    (t.request (smContext m)).step = r.step + 1 ∧ (t.request (smContext m)).kvlen = r.kvlen ∧ s.counts t Reg.SRV_CNT_PAGEWAIT_COUNT p)) ∧
  (s.rd Reg.SRV_PART_WAIT_PAGEWAIT_MS p = 0 → s.does (.short p m) (fun t => (t.request (smContext m)).state = .done ∧
    (t.request (smContext m)).code = codePages ∧ s.counts t Reg.SRV_CNT_PAGEWAIT_COUNT p))) ∧
(∀ (s : State) (p : Part) (m : BitVec 256) (r : Request), smKind m = 4 → s.request (smContext m) = r → r.state ≠ .free → r.part = p → r.member = true → smPrefix m = 0 →
  s.does (.servingRelease p m) (fun t => (t.request (smContext m)).state = .free ∧ (t.request (smContext m)).version = r.version ∧
    ∀ i, i ≠ smContext m → i ≠ r.companion → (t.request i) = s.request i)) ∧
(∀ (s : State) (p : Part) (m : BitVec 256) (gs : List (BitVec 256)), smKind m = 0 ∨ 5 ≤ smKind m →
  let dropped := fun (t : State) => s.counts t Reg.FLT_CNT_REPORT_COUNT 14 ∧ s.sameBut t [.fault] Reg.reports
  s.does (.admitMessage p m) dropped ∧ s.does (.passMessage p m gs) dropped ∧ s.does (.short p m) dropped ∧ s.does (.servingRelease p m) dropped)

/-- R337 to R339 and R347 for due tiers, R333 for probes, R334 to R336 for readings and slots. -/
def Obligations.PegFindsAndRetunes : Prop :=
  (∀ (s : State) (core : Core) (array : Fin 9) (tier : Fin 128),
  let k := arrayKey core array
  let queue := SMap.get [] s.peg.due k
  let age := fun t : Nat => SMap.get 0 s.peg.lastProbe (128 * k + t)
  (s.probeOlder (128 * k + tier) 1 = false → s.does (.tierDue core array tier) (fun t => t = s)) ∧
  (s.is Reg.CAL_PEG_CTRL_EN = true → s.swept (128 * k + tier) = true → s.probeOlder (128 * k + tier) 1 = true → tier.val ∉ queue →
    tier.val ∉ SMap.get [] s.peg.named k → (∀ j ∈ s.pegJobs k, j.tier ≠ tier) →
    (tier.val ≠ 127 → s.does (.tierDue core array tier) (fun t => s.sameBut t [.peg] [] ∧ (SMap.get [] t.peg.due k).length = queue.length + 1 ∧
      (∀ x, x ∈ SMap.get [] t.peg.due k ↔ x ∈ queue ∨ x = tier.val) ∧
      (queue.Pairwise (fun a b => age a ≤ age b) → (SMap.get [] t.peg.due k).Pairwise (fun a b => age a ≤ age b)))) ∧
    (tier.val = 127 → s.does (.tierDue core array tier) (fun t => s.sameBut t [.peg] [] ∧ t.peg.due = s.peg.due ∧
      t.pegJobs k = s.pegJobs k ++ [newJob 127 allGroups]))) ∧
  (s.swept (tierKey core array tier) = true → s.probeOlder (tierKey core array tier) 2 = true →
    (tierKey core array tier ∉ s.peg.overdue → s.does (.tierOverdue core array tier) (fun t => tierKey core array tier ∈ t.peg.overdue ∧
      s.counts t Reg.CAL_PEG_CNT_DEFER_COUNT (courseOf core) ∧ s.sameBut t [.peg] [Reg.CAL_PEG_CNT_DEFER_COUNT])) ∧
    (tierKey core array tier ∈ s.peg.overdue → s.does (.tierOverdue core array tier) (fun t => t = s)))) ∧
(∀ (s : State) (core : Core) (array : Fin 9) (codes : List (List Nat)) (n : Nat),
  let k := arrayKey core array
  s.nextProbe k = some n → s.swept (128 * k + n) = true →
  (∀ u, s.startUnit k probeUnit false = some u →
    let groups := s.suspectGroups k n codes
    s.does (.probePass core array codes) (fun t => SMap.get 0 t.peg.lastProbe (128 * k + n) = s.time ∧ n ∉ SMap.get [] t.peg.due k ∧ n ∉ SMap.get [] t.peg.named k ∧
      s.counts t Reg.CAL_PEG_CNT_SUSPECT_COUNT (courseOf (k / 9)) groups.length ∧
      (groups = [] → t.pegJobs k = s.pegJobs k) ∧
      (groups ≠ [] → n ∉ SMap.get [] s.peg.named k → t.pegJobs k = s.pegJobs k ++ [newJob n groups]) ∧
      (groups ≠ [] → n ∈ SMap.get [] s.peg.named k → t.pegJobs k = newJob n groups :: s.pegJobs k))) ∧
  (s.startUnit k probeUnit false = none → s.does (.probePass core array codes) (fun t => s.sameBut t [] [Reg.CAL_PEG_CNT_DEFER_COUNT]))) ∧
(∀ (s u : State) (core : Core) (array : Fin 9) (row : Fin 256) (cells : List Int) (j : RetuneJob),
  let k := arrayKey core array
  let tk := 128 * k + j.tier
  let reads := SMap.insert j.reads row cells
  let read := fun r => (SMap.get [] reads r).map (level64 (refReadings (fun r => SMap.get [] reads r)))
  let levels := fun r => ((read r).take 32).map nearestLevel
  let rows := j.groups.flatMap (fun (g : Nat × Nat) => probeRows g.1 g.2)
  (s.pegJobs k).find? (fun x => !x.judged) = some j → row.val ∈ jobRows j → s.startUnit k readUnit false = some u →
  ((∃ r ∈ jobRows j, SMap.find? reads r = none) → s.does (.verifyRead core array row cells) (fun t =>
    (t.pegJobs k).find? (fun x => !x.judged) = some { j with reads := reads } ∧ s.sameBut t [.peg] [])) ∧
  ((∀ r ∈ jobRows j, (SMap.find? reads r).isSome) → j.tier ≠ 127 →
    ((∃ r ∈ rows, ∃ e ∈ cellErrors r (levels r) (read r), 3168 < e) → s.does (.verifyRead core array row cells) (fun t =>
      (∀ x ∈ t.pegJobs k, x.tier ≠ j.tier) ∧ t.rd Reg.CRS_ARR_TFMT_VERIFIED tk = 0 ∧ s.counts t Reg.CAL_PEG_CNT_REPROG_COUNT (courseOf (tk / 128 / 9)))) ∧
    ((∀ r ∈ rows, ∀ e ∈ cellErrors r (levels r) (read r), e ≤ 528) →
      (∀ g ∈ j.groups, ((probeRows g.1 g.2).flatMap levels).sum = bits ((s.signatureWords tk).getD (8 * g.1 + g.2) 0) 0 11) →
      s.does (.verifyRead core array row cells) (fun t => (∀ x ∈ t.pegJobs k, x.tier ≠ j.tier) ∧ t.rd Reg.CRS_ARR_TFMT_PROGRAMMING tk = 0 ∧
        ∀ r ∈ rows, ∀ c v, c < 32 → (levels r)[c]? = some v → t.level tk r c = v)))) ∧
(∀ (s u : State) (core : Core) (array : Fin 9) (row : Fin 256) (cells : List Int) (j : RetuneJob),
  let k := arrayKey core array
  let tk := 128 * k + j.tier
  let inside := ∀ e ∈ cellErrors row (s.rowLevels tk row) cells, e ≤ 528
  (s.pegJobs k).find? (fun x => x.judged) = some j → j.marked.head? = some row.val → s.startUnit k slotUnit true = some u →
  (inside → j.marked = [row.val] → s.does (.retuneSlot core array row cells) (fun t => (∀ x ∈ t.pegJobs k, x.tier ≠ j.tier) ∧
    t.rd Reg.CRS_ARR_TFMT_PROGRAMMING tk = 0)) ∧
  (∀ rest, inside → rest ≠ [] → j.marked = row.val :: rest → s.does (.retuneSlot core array row cells) (fun t =>
    (t.pegJobs k).find? (fun x => x.judged) = some { j with marked := rest, slots := 0 })) ∧
  (¬ inside → j.slots < 5 → s.does (.retuneSlot core array row cells) (fun t => (t.pegJobs k).find? (fun x => x.judged) =
    some { j with slots := j.slots + 1, reads := SMap.insert j.reads row cells })) ∧
  (¬ inside → 5 ≤ j.slots → s.does (.retuneSlot core array row cells) (fun t => (∀ x ∈ t.pegJobs k, x.tier ≠ j.tier) ∧
    t.rd Reg.CRS_ARR_TFMT_VERIFIED tk = 0 ∧ s.counts t Reg.CAL_PEG_CNT_REPROG_COUNT (courseOf (tk / 128 / 9)))))

/-- R340 and R341 for the sweep, R378 for the exit from Rest, R379 and R373 for the end of LIMITED. -/
def Obligations.SweepTreatsEveryTier : Prop :=
  (∀ (s : State) (x : TierReading),
  let tk := tierKey x.core x.array x.tier
  let row := fun r => x.rows.getD r []
  let read := fun r => (row r).map (level64 (refReadings row))
  let levels := fun r => ((read r).take 32).map nearestLevel
  s.board.powered = true → s.thermal.tripped = false → s.recovery.held = false → s.rd Reg.TRM_PSTATE_STATE ≠ 5 → s.peg.sweeping = true →
  (tk ∈ s.peg.treated ∨ s.rd Reg.CRS_ARR_TFMT_WIDTH tk = 0 → s.does (.fullVerifySweep [x]) (fun t => t = s)) ∧
  (tk ∉ s.peg.treated → s.rd Reg.CRS_ARR_TFMT_WIDTH tk ≠ 0 →
    (s.residueWrong tk levels = false → (∀ r < 256, ∀ e ∈ cellErrors r (levels r) (read r), e ≤ 528) → s.does (.fullVerifySweep [x]) (fun t =>
      t.rd Reg.CRS_ARR_TFMT_VERIFIED tk = 1 ∧ t.peg.treated = s.peg.treated ++ [tk] ∧ SMap.get 0 t.peg.lastProbe tk = s.time ∧ tk ∉ t.peg.overdue ∧
      ∀ r c v, r < 256 → c < 32 → (levels r)[c]? = some v → t.level tk r c = v)) ∧
    ((∃ r < 256, ∃ e ∈ cellErrors r (levels r) (read r), 3168 < e) → s.does (.fullVerifySweep [x]) (fun t =>
      t.rd Reg.CRS_ARR_TFMT_VERIFIED tk = 0 ∧ t.peg.treated = s.peg.treated ++ [tk] ∧ s.counts t Reg.CAL_PEG_CNT_REPROG_COUNT (courseOf x.core))))) ∧
(∀ (s : State), s.board.powered = true → s.thermal.tripped = false → s.recovery.held = false → s.rd Reg.TRM_PSTATE_STATE = 5 → s.does (.fullVerifySweep []) (fun t =>
  t.rd Reg.TRM_PSTATE_STATE = 0 ∧ t.rd Reg.HIF_DEV_STATE_STATE = 1 ∧ t.rd Reg.HIF_DEV_STATE_VERIFY = 1 ∧ t.peg.sweeping = true ∧ t.peg.treated = [])) ∧
(∀ (s : State), s.peg.sweeping = true →
  ((∃ k ∈ s.formatted, k ∉ s.peg.treated) → s.does .sweepComplete (fun t => t = s)) ∧
  ((∀ k ∈ s.formatted, k ∈ s.peg.treated) → s.mail.deferred = [] → s.does .sweepComplete (fun t => t.peg.sweeping = false ∧ t.peg.treated = [] ∧
    t.rd Reg.HIF_DEV_STATE_VERIFY = 0 ∧ t.rd Reg.HIF_DEV_STATE_STATE =
      (if s.rd Reg.HIF_DEV_STATE_STATE = 1 ∧ s.rd Reg.TRM_TRIP_STATUS_UNACK = 0 then 2 else s.rd Reg.HIF_DEV_STATE_STATE))))

/-- R353 for the sequence and its codes, R349 for the reference, R351 for the set, R352 for recalibration. -/
def Obligations.CalibrationRuns : Prop :=
  (∀ (s : State) (who : Requester) (temp arrays : Bool), s.reachesOwned who 0x100040 = true →
  s.does (.calStart who temp arrays) (fun t => t.rd Reg.CAL_CMD_TEMP = temp.toNat ∧ t.rd Reg.CAL_CMD_ARRAYS = arrays.toNat ∧ t.rd Reg.CAL_STATUS_STATE = 1 ∧
    (s.rd Reg.CAL_STATUS_STATE = 1 → s.sameBut t [] [Reg.CAL_CMD_TEMP, Reg.CAL_CMD_ARRAYS]) ∧
    (s.rd Reg.CAL_STATUS_STATE ≠ 1 → t.rd Reg.CAL_STATUS_STEP = 1 ∧ t.rd Reg.CAL_STATUS_ERR = 0 ∧ t.cal.staged = [] ∧ t.cal.aborting = false ∧
      s.sameBut t [.cal] [Reg.CAL_CMD_TEMP, Reg.CAL_CMD_ARRAYS, Reg.CAL_STATUS_STATE, Reg.CAL_STATUS_ERR, Reg.CAL_STATUS_STEP])) ∧
  s.does (.calAbort who) (fun t => (s.rd Reg.CAL_STATUS_STATE = 1 → t.cal.aborting = true ∧ s.sameBut t [.cal] []) ∧ (s.rd Reg.CAL_STATUS_STATE ≠ 1 → t = s))) ∧
(∀ (s : State) (m : CalReadings), s.rd Reg.CAL_STATUS_STATE = 1 →
  let u := if s.rd Reg.CAL_STATUS_STEP = 1 then s.wr Reg.CAL_MCV_EN_EN 0 1 else s
  let fails := fun (n : Nat) => s.does (.calStep m) (fun t => t.rd Reg.CAL_STATUS_STATE = 3 ∧ t.rd Reg.CAL_STATUS_ERR = n ∧ t.rd Reg.CAL_STATUS_STEP = s.rd Reg.CAL_STATUS_STEP ∧
    t.cal.staged = [] ∧ t.cal.pending = s.cal.pending ∧ s.sameBut t [.cal] [Reg.CAL_MCV_EN_EN, Reg.CAL_STATUS_STATE, Reg.CAL_STATUS_ERR])
  (m.mcvOk = false → s.rd Reg.CAL_STATUS_STEP ∈ [1, 2, 3, 4, 5, 6] → fails 8) ∧
  (m.mcvOk = true → u.is Reg.CAL_MCV_EN_EN = true → SMap.find? s.board.excursions 8 = none →
    (s.rd Reg.CAL_STATUS_STEP = 3 → s.rd Reg.CAL_REF_UV_UV = 0 ∨ s.rd Reg.CAL_REF_PPM_PPM = 0 → fails 1) ∧
    (s.rd Reg.CAL_STATUS_STEP = 3 → s.rd Reg.CAL_REF_UV_UV ≠ 0 → s.rd Reg.CAL_REF_PPM_PPM ≠ 0 →
      (s.rd Reg.CAL_REF_UV_UV < 2450000 ∨ 2550000 < s.rd Reg.CAL_REF_UV_UV ∨ m.overRange = true → fails 2) ∧
      (2450000 ≤ s.rd Reg.CAL_REF_UV_UV → s.rd Reg.CAL_REF_UV_UV ≤ 2550000 → m.overRange = false → m.predictedUv < 200 * ((m.refUv : Int) - m.predictedUv).natAbs → fails 3)) ∧
    (s.rd Reg.CAL_STATUS_STEP = 6 → (m.probeNa.length ≠ 100 ∨ ∃ x ∈ m.probeNa, x < 1764 ∨ 1836 < x) → fails 4)) ∧
  (u.stepError m = 0 → s.cal.aborting = true → fails 7) ∧
  (u.stepError m = 0 → s.cal.aborting = false → s.rd Reg.CAL_STATUS_STEP < 9 → s.does (.calStep m) (fun t => t.rd Reg.CAL_STATUS_STATE = 1 ∧
    t.rd Reg.CAL_STATUS_STEP = s.rd Reg.CAL_STATUS_STEP + 1 ∧ t.cal.staged = s.cal.staged ++ [u.stepResult m] ∧ s.sameBut t [.cal] [Reg.CAL_MCV_EN_EN, Reg.CAL_STATUS_STEP])) ∧
  (s.cal.aborting = false → s.rd Reg.CAL_STATUS_STEP = 9 → s.does (.calStep m) (fun t => t.rd Reg.CAL_STATUS_STATE = 2 ∧ t.rd Reg.CAL_STATUS_TRACE = 1 ∧
    t.rd Reg.CAL_LAST_TIME = s.time % 2 ^ 64 ∧ t.rd Reg.SEC_GEN_GEN = (s.rd Reg.SEC_GEN_GEN + 1) % 2 ^ 32 ∧
    ∀ c < 100, c ∈ t.cal.waiting ∧ SMap.get 0 t.cal.times c = s.time))) ∧
(∀ (s : State) (c : Course),
  (s.recalDue c = true → c.val ∉ s.cal.recal → s.does (.recalibrationTrigger c) (fun t => t.cal.recal = s.cal.recal ++ [c.val] ∧ s.sameBut t [.cal] [])) ∧
  (s.recalDue c = false → s.does (.recalibrationTrigger c) (fun t => t = s)) ∧
  (∀ m rest, s.rd Reg.CAL_STATUS_STATE ≠ 1 → s.cal.recal = c.val :: rest → s.does (.calStep m) (fun t => c.val ∈ t.cal.waiting ∧ c.val ∉ t.cal.recal ∧
    SMap.get 0 t.cal.times c = s.time ∧ t.rd Reg.CAL_STATUS_TRACE = s.rd Reg.CAL_STATUS_TRACE)))

/-- R354 to R357 for conversion, R358 for the queue and its reads. -/
def Obligations.MetrologyConverts : Prop :=
  (∀ (s : State) (v : Int) (o : Bool), s.converts = false ∨ s.scanNext s.mcv.entry = none → s.does (.mcvResult v o) (fun t => t = s)) ∧
(∀ (s : State) (v : Int) (o : Bool) (e : Nat), s.converts = true → s.scanNext s.mcv.entry = some e →
  let set := (s.rd Reg.MCV_SCAN_CH e, s.scanSel e, s.scanOrder e, s.scanOsr e, s.is Reg.MCV_CTRL_NOTCH_EN)
  let clamped := clampInt (-8388607) 8388607 v
  let tooHigh := o || decide (clamped ≠ v) || (SMap.find? s.board.excursions 8).isSome
  (s.mcv.setting = some set → s.mcv.settle = 0 →
    (s.mcv.queue.length < 256 → s.does (.mcvResult v o) (fun t => t.mcv.queue = s.mcv.queue ++ [BitVec.ofNat 32 (ofSigned 24 clamped + e * 2 ^ 24 + tooHigh.toNat * 2 ^ 30)] ∧
      t.rd Reg.MCV_QSTAT_COUNT = s.mcv.queue.length + 1 ∧ s.sameBut t [.mcv] [Reg.MCV_QSTAT_COUNT, Reg.TRM_RAIL_MV])) ∧
    (256 ≤ s.mcv.queue.length → s.does (.mcvResult v o) (fun t => t.mcv.queue = s.mcv.queue ∧ s.counts t Reg.MCV_DROP_COUNT ∧
      s.sameBut t [.mcv] [Reg.MCV_DROP_COUNT, Reg.TRM_RAIL_MV])) ∧
    (e = s.mcv.entry → s.mcv.taken + 1 < s.rd Reg.MCV_SCAN_REPEAT e → s.does (.mcvResult v o) (fun t => t.mcv.entry = e ∧ t.mcv.taken = s.mcv.taken + 1)) ∧
    (e = s.mcv.entry → s.rd Reg.MCV_SCAN_REPEAT e ≤ s.mcv.taken + 1 → s.does (.mcvResult v o) (fun t => t.mcv.entry = e + 1 ∧ t.mcv.taken = 0)) ∧
    (4 ≤ set.1 → set.1 ≤ 12 → s.does (.mcvResult v o) (fun t => t.rd Reg.TRM_RAIL_MV (set.1 - 4) = railMillivolts (set.1 - 4) clamped % 2 ^ 16))) ∧
  (∀ old, s.mcv.setting = some old → (old.1 ≠ set.1 ∨ old.2.1 ≠ set.2.1) → s.does (.mcvResult v o) (fun t =>
    t.mcv.settle = s.scanOrder e + (s.is Reg.MCV_CTRL_NOTCH_EN).toNat ∧ t.mcv.setting = some set ∧ t.mcv.entry = e ∧
    (s.is Reg.MCV_CTRL_KEEP_SETTLE = false → t.mcv.queue = s.mcv.queue ∧ s.sameBut t [.mcv] []) ∧
    (s.is Reg.MCV_CTRL_KEEP_SETTLE = true → s.mcv.queue.length < 256 →
      t.mcv.queue = s.mcv.queue ++ [BitVec.ofNat 32 (ofSigned 24 clamped + e * 2 ^ 24 + tooHigh.toNat * 2 ^ 30 + 2 ^ 31)])))) ∧
(∀ (s : State) (who : Requester),
  (s.reaches who 0x110010 = true →
    (∀ w rest, s.mcv.queue = w :: rest → s.does (.mcvResultRead who) (fun t => t.mcv.queue = rest ∧ t.out = s.out ++ [.readData (reqCode who) w.toNat] ∧
      (rest.length < 512 → t.rd Reg.MCV_QSTAT_COUNT = rest.length) ∧ s.sameBut t [.mcv, .out] [Reg.MCV_QSTAT_COUNT])) ∧
    (s.mcv.queue = [] → s.does (.mcvResultRead who) (fun t => t.out = s.out ++ [.readData (reqCode who) (0x3F * 2 ^ 24)] ∧ s.sameBut t [.out] []))) ∧
  (s.reaches who 0x110018 = true → s.does (.mcvDropRead who) (fun t => t.rd Reg.MCV_DROP_COUNT = 0 ∧
    t.out = s.out ++ [.readData (reqCode who) (s.rd Reg.MCV_DROP_COUNT)] ∧ s.sameBut t [.out] [Reg.MCV_DROP_COUNT])))

/-- R360 to R364 for samples, R366 to R369 for the clamp, R370 to R373 for trips, R6 for the peaks. -/
def Obligations.HeatAndPowerClampIssue : Prop :=
  (∀ (s : State) (n : Sensor) (x : Int), s.board.powered = true →
  let v := x + SMap.get 0 s.cal.offsets n
  let u := s.takeReading n v
  s.does (.sensorSample n x) (fun t => (t.sensor n).last = v ∧ (t.sensor n).seen = true ∧ (t.sensor n).time = s.time ∧ t.rd Reg.TRM_SENSOR_TEMP n = ofSigned 16 v ∧
    t.rd Reg.TRM_SENSOR_RATE n = (if v < 1520 then 0 else if v ≤ 1600 then 1 else 2)) ∧
  (s.is Reg.TRM_SENSOR_FAILED n = false → v < -640 ∨ 2400 < v → s.does (.sensorSample n x) (fun t => t.rd Reg.TRM_SENSOR_FAILED n = 1 ∧
    s.counts t Reg.FLT_CNT_REPORT_COUNT 10 ∧ t.sensorUsed n = false)) ∧
  (s.is Reg.TRM_SENSOR_FAILED n = false → u.readingFails n = false → 1840 ≤ v → 1 ≤ (s.sensor n).hot → s.thermal.tripped = false →
    s.does (.sensorSample n x) (fun t => t.thermal.tripped = true ∧ t.rd Reg.TRM_CLAMP_F = 0 ∧ t.rd Reg.TRM_TRIP_STATUS_WRITTEN = 1 ∧ .pldm pldmTrip ∈ t.out ∧
      ∃ r, t.thermal.trips = (r :: s.thermal.trips).take 8 ∧ r.cause = 1 ∧ r.sensor = n ∧ r.temp = v ∧ r.seq = s.thermal.tripNext)) ∧
  (∀ m w, s.is Reg.TRM_SENSOR_FAILED n = true ∨ u.readingFails n = false → u.hottest = some (m, w) → s.does (.sensorSample n x) (fun t =>
    t.rd Reg.TRM_HOT_TEMP = ofSigned 16 w ∧ t.rd Reg.TRM_HOT_SENSOR = m % 2 ^ 8 ∧
    (s.thermal.peakSeen = false ∨ toSigned 16 (s.rd Reg.TRM_PEAK_TEMP) < w → t.rd Reg.TRM_PEAK_TEMP = ofSigned 16 w ∧ t.rd Reg.TRM_PEAK_SENSOR = m % 2 ^ 8) ∧
    (1520 < w → t.is Reg.TRM_STATUS_WARN = true) ∧ (w ≤ 1472 → t.is Reg.TRM_STATUS_WARN = false) ∧
    (1472 < w → w ≤ 1520 → t.is Reg.TRM_STATUS_WARN = s.is Reg.TRM_STATUS_WARN) ∧
    (1600 < w → t.is Reg.TRM_STATUS_THROT = true) ∧ (w ≤ 1552 → t.is Reg.TRM_STATUS_THROT = false) ∧
    (1552 < w → w ≤ 1600 → t.is Reg.TRM_STATUS_THROT = s.is Reg.TRM_STATUS_THROT) ∧
    (ftTarget w < s.thermal.ftFine → t.rd Reg.TRM_CLAMP_F_T = ftTarget w / 125000) ∧
    (s.thermal.ftFine ≤ ftTarget w → t.rd Reg.TRM_CLAMP_F_T = min (ftTarget w) (s.thermal.ftFine + (s.time - s.thermal.ftTime)) / 125000)))) ∧
(∀ (s : State),
  let f := s.rd Reg.TRM_CLAMP_F_P
  let lowered := fun (cap p pu : Nat) => max 32 (f * (cap - pu) / (p - pu)) % 2 ^ 9
  (∀ p pu : W16, s.does (.powerInterval p pu) (fun t =>
    t.rd Reg.TRM_CLAMP_F_P = (if s.powerCap < p.toNat then lowered s.powerCap p.toNat pu.toNat else min 256 (f + 4)) ∧
    t.rd Reg.TRM_STATUS_CAP_UNMET = (decide (s.powerCap < p.toNat) && decide (f = 32)).toNat ∧
    t.rd Reg.TRM_STATUS_CAPPED = (decide (t.rd Reg.TRM_CLAMP_F_P < 256)).toNat ∧
    t.rd Reg.TRM_CLAMP_F = (if s.thermal.tripped = true then 0 else min (s.rd Reg.TRM_CLAMP_F_T) (t.rd Reg.TRM_CLAMP_F_P) % 2 ^ 9) ∧
    t.rd Reg.TRM_POWER_P_U = pu.toNat ∧ t.thermal.powers = (p.toNat :: s.thermal.powers).take 100 ∧
    t.rd Reg.TRM_POWER_P = t.thermal.powers.sum / t.thermal.powers.length % 2 ^ 16)) ∧
  (let cap := 8 * max 300 (min 750 (min (s.rd Reg.TRM_CAP_ALERT_W) (s.rd Reg.TRM_CAP_HOST_W)))
   s.does .capAlert (fun t => t.rd Reg.TRM_STATUS_ALERT = 1 ∧ (∀ p rest, s.thermal.powers = p :: rest →
     t.rd Reg.TRM_CLAMP_F_P = (if cap < p then lowered cap p (s.rd Reg.TRM_POWER_P_U) else f)))) ∧
  s.does .capAlertDeassert (fun t => t.rd Reg.TRM_STATUS_ALERT = 0 ∧ s.sameBut t [] [Reg.TRM_STATUS_ALERT]) ∧
  (∀ watts : BitVec 10, s.does (.trayCapSet true watts) (fun t => t.rd Reg.TRM_CAP_ALERT_W = watts.toNat ∧ s.sameBut t [] [Reg.TRM_CAP_ALERT_W]) ∧
    s.does (.trayCapSet false watts) (fun t => t.rd Reg.TRM_CAP_TRAY_W = watts.toNat ∧ s.sameBut t [] [Reg.TRM_CAP_TRAY_W]))) ∧
(∀ (s : State) (n : Sensor),
  (s.sensorUsed n = false ∨ s.time < (s.sensor n).time + 10000000 → s.does (.scanStall n) (fun t => t = s)) ∧
  (s.sensorUsed n = true → (s.sensor n).time + 10000000 ≤ s.time → s.thermal.tripped = false → s.does (.scanStall n) (fun t => t.thermal.tripped = true ∧
    t.rd Reg.TRM_CLAMP_F = 0 ∧ t.rd Reg.TRM_TRIP_STATUS_UNACK = min 8 (s.rd Reg.TRM_TRIP_STATUS_UNACK + 1) ∧ ∃ r, t.thermal.trips = (r :: s.thermal.trips).take 8 ∧ r.cause = 2 ∧ r.sensor = n))) ∧
(∀ (s : State) (who : Requester) (seq : W32), s.reachesOwned who 0x120068 = true →
  let left := (s.thermal.trips.filter (fun r => decide (seq.toNat < r.seq) && decide (s.rd Reg.TRM_TRIP_ACK_SEQ < r.seq))).length
  s.does (.tripAck who seq) (fun t => t.rd Reg.TRM_TRIP_STATUS_UNACK = left % 16 ∧ (left = 0 → t.rd Reg.HIF_DEV_STATE_TRIP_REC = 0) ∧
    (left = 0 → s.rd Reg.HIF_DEV_STATE_STATE = 1 → s.is Reg.HIF_DEV_STATE_VERIFY = false → t.rd Reg.HIF_DEV_STATE_STATE = 2))) ∧
(∀ (s : State) (who : Requester),
  (s.reaches who 0x12000C = true → s.does (.peakRead who) (fun t => t.out = s.out ++ [.readData (reqCode who) (s.rd Reg.TRM_PEAK_TEMP + s.rd Reg.TRM_PEAK_SENSOR * 65536)] ∧
    t.thermal.peakSeen = false ∧ t.rd Reg.TRM_PEAK_TEMP = 0 ∧ t.rd Reg.TRM_PEAK_SENSOR = 0 ∧ s.sameBut t [.thermal, .out] [Reg.TRM_PEAK_TEMP, Reg.TRM_PEAK_SENSOR])) ∧
  (s.reaches who 0xC003C = true → s.does (.barMaxRead who) (fun t => t.out = s.out ++ [.readData (reqCode who) (s.rd Reg.NOC_BAR_MAX_CLOCKS)] ∧
    t.rd Reg.NOC_BAR_MAX_CLOCKS = 0 ∧ s.sameBut t [.out] [Reg.NOC_BAR_MAX_CLOCKS])))

/-- R376 for idle courses, R377 and R380 for Nap, R378 and R449 for Rest, R309 for deferred stops. -/
def Obligations.PowerStatesChange : Prop :=
  (∀ (s : State) (c : Course),
  let busy := s.cores.any (fun e => e.2.running && courseOf e.1 == c.val)
  (s.rd Reg.TRM_IDLE_US ≠ 0 → busy = false → s.courseNapped c = false → c.val ∉ s.thermal.gated → SMap.get 0 s.thermal.lastPass c + 1000 * s.rd Reg.TRM_IDLE_US ≤ s.time →
    s.does (.idleGate c) (fun t => t.thermal.gated = s.thermal.gated ++ [c.val] ∧ s.sameBut t [.thermal] [])) ∧
  (s.rd Reg.TRM_IDLE_US = 0 ∨ busy = true ∨ s.time < SMap.get 0 s.thermal.lastPass c + 1000 * s.rd Reg.TRM_IDLE_US → s.does (.idleGate c) (fun t => t = s)) ∧
  (∀ who, s.reachesOwned who (0x120048 + 4 * (c.val / 32)) = true →
    (s.clockHeld = true ∨ s.rungBusy = true → s.does (.courseNap who c true) (fun t => c.val ∈ t.mail.deferred ∧ s.sameBut t [.mail] [])) ∧
    (s.clockHeld = false → s.rungBusy = false →
      (s.coursePart c = none → s.does (.courseNap who c true) (fun t => bit (t.rd Reg.TRM_NAP_MASK_COURSE (c.val / 32)) (c.val % 32) = true ∧
        (∀ i < 32, i ≠ c.val % 32 → bit (t.rd Reg.TRM_NAP_MASK_COURSE (c.val / 32)) i = bit (s.rd Reg.TRM_NAP_MASK_COURSE (c.val / 32)) i) ∧ s.sameBut t [] [Reg.TRM_NAP_MASK_COURSE])) ∧
      (s.coursePart c ≠ none → s.does (.courseNap who c true) (fun t => t = s))) ∧
    s.does (.courseNap who c false) (fun t => bit (t.rd Reg.TRM_NAP_MASK_COURSE (c.val / 32)) (c.val % 32) = false ∧ c.val ∉ t.mail.deferred ∧
      s.sameBut t [.mail] [Reg.TRM_NAP_MASK_COURSE]))) ∧
(∀ (s : State) (who : Requester) (auto : Bool), s.reachesOwned who 0x120040 = true →
  let writes := fun (t : State) (n : Nat) => t.rd Reg.TRM_PSTATE_CMD_TARGET = n ∧ t.rd Reg.TRM_PSTATE_CMD_AUTOWAKE = auto.toNat
  (s.clockHeld = true ∨ s.rungBusy = true → s.does (.pstateNap who auto) (fun t => writes t 1 ∧ stopNap ∈ t.mail.deferred ∧ t.rd Reg.TRM_PSTATE_STATE = s.rd Reg.TRM_PSTATE_STATE)) ∧
  (s.clockHeld = false → s.rungBusy = false → s.does (.pstateNap who auto) (fun t => writes t 1 ∧ t.mail = s.mail ∧ t.rd Reg.TRM_PSTATE_STATE =
    (if s.rd Reg.TRM_NAP_SAVE_FRAME ≠ 0 ∧ s.rd Reg.TRM_PSTATE_STATE = 0 ∧ s.rd Reg.HIF_DEV_STATE_STATE ≠ 0 ∧ s.rd Reg.HIF_DEV_STATE_STATE ≠ 4 then 1 else s.rd Reg.TRM_PSTATE_STATE)))) ∧
(∀ (s : State) (cmd : Commander) (auto : Bool), (∀ who, cmd = .register who → s.reachesOwned who 0x120040 = true) →
  (s.rungBusy = true → s.does (.pstateRest cmd auto) (fun t => stopRest ∈ t.mail.deferred ∧ t.rd Reg.HIF_DEV_STATE_STATE = s.rd Reg.HIF_DEV_STATE_STATE)) ∧
  (s.rungBusy = false → s.does (.pstateRest cmd auto) (fun t => t.rd Reg.TRM_PSTATE_CMD_TARGET = 2 ∧ t.rd Reg.HIF_DEV_STATE_STATE =
    (if s.rd Reg.HIF_DEV_STATE_STATE = 2 then 3 else s.rd Reg.HIF_DEV_STATE_STATE))) ∧
  (s.rd Reg.TRM_PSTATE_STATE = 1 → s.does (.pstateActive cmd auto) (fun t => t.thermal.wake = true ∧ t.rd Reg.TRM_PSTATE_STATE = 1)) ∧
  (s.rd Reg.TRM_PSTATE_STATE = 2 → s.does (.pstateActive cmd auto) (fun t => t.rd Reg.TRM_PSTATE_STATE = 3)) ∧
  (s.rd Reg.TRM_PSTATE_STATE = 4 → s.does (.pstateActive cmd auto) (fun t => t.rd Reg.TRM_PSTATE_STATE = 5 ∧ t.rd Reg.HIF_DEV_STATE_STATE = 4 ∧ t.board.stkEn = true ∧ t.board.stkRise = some s.time)) ∧
  (s.rd Reg.TRM_PSTATE_STATE = 0 → s.does (.pstateActive cmd auto) (fun t => stopNap ∉ t.mail.deferred ∧ stopRest ∉ t.mail.deferred ∧
    t.rd Reg.HIF_DEV_STATE_STATE = (if s.rd Reg.HIF_DEV_STATE_STATE = 3 then 2 else s.rd Reg.HIF_DEV_STATE_STATE)))) ∧
(∀ (s : State),
  (s.rd Reg.TRM_PSTATE_STATE = 1 → s.cores.all (fun e => !e.2.running) = true → s.does .napEntryComplete (fun t => t.rd Reg.TRM_PSTATE_STATE = (if s.thermal.wake = true then 3 else 2) ∧
    t.thermal.napSince = some s.time ∧ t.thermal.wake = false ∧ s.sameBut t [.thermal] [Reg.TRM_PSTATE_STATE])) ∧
  (s.rd Reg.TRM_PSTATE_STATE ≠ 1 ∨ s.cores.any (fun e => e.2.running) = true → s.does .napEntryComplete (fun t => t = s)) ∧
  (s.rd Reg.TRM_PSTATE_STATE = 3 → s.does .napExitComplete (fun t => t.rd Reg.TRM_PSTATE_STATE = 0 ∧ t.thermal.napSince = none ∧
    (∀ n, s.thermal.napSince = some n → n + 3600000000000 < s.time → t.peg.sweeping = true ∧ t.rd Reg.HIF_DEV_STATE_VERIFY = 1 ∧ t.rd Reg.HIF_DEV_STATE_STATE = 1 ∧
      ∀ k, t.rd Reg.CRS_ARR_TFMT_VERIFIED k = 0) ∧
    (∀ n, s.thermal.napSince = some n → s.time ≤ n + 3600000000000 → t.rd Reg.HIF_DEV_STATE_STATE = s.rd Reg.HIF_DEV_STATE_STATE ∧ t.peg.sweeping = s.peg.sweeping))) ∧
  (s.rd Reg.TRM_PSTATE_STATE ≠ 3 → s.does .napExitComplete (fun t => t = s)) ∧
  (s.rd Reg.HIF_DEV_STATE_STATE = 3 → s.serving.requests.all (fun e => e.2.state == .free) = true → s.clockHeld = false → s.rungBusy = false → s.rd Reg.TRM_PSTATE_STATE = 0 →
    s.does .restEntry (fun t => t.rd Reg.HIF_DEV_STATE_STATE = 4 ∧ t.rd Reg.TRM_PSTATE_STATE = 4 ∧ t.stack = [] ∧ t.board.stkEn = false)) ∧
  (s.rd Reg.HIF_DEV_STATE_STATE ≠ 3 ∨ s.clockHeld = true ∨ s.rungBusy = true ∨ s.serving.requests.any (fun e => e.2.state != .free) = true → s.does .restEntry (fun t => t = s)))

/-- R386 and Table 13.2 for errors, R387 and R388 for the comparison, R418 for a late copy. -/
def Obligations.ErrorsAreScrubbedAndCompared : Prop :=
  (∀ (s : State) (a : BitVec 39),
  (stackSize ≤ a.toNat ∨ s.resting = true ∨ s.board.powered = false → ∀ o, s.does (.patrolScrub a o) (fun t => t = s)) ∧
  s.does (.patrolScrub a .clean) (fun t => t = s) ∧
  (a.toNat < stackSize → s.resting = false → s.board.powered = true →
    s.does (.patrolScrub a .corrected) (fun t => s.counts t Reg.FLT_CNT_REPORT_COUNT 1 ∧ s.sameBut t [.fault] [Reg.FLT_CNT_REPORT_COUNT, Reg.FLT_CNT_RECORD_COUNT]) ∧
    (let frame := a.toNat / 65536
     let sig := 65536 * s.rd Reg.CAL_SIG_BASE_FRAME
     let word := 4 * (a.toNat / 4)
     (s.poolOf? frame = none → (frame < s.rd Reg.FLT_LOG_BASE_FRAME ∨ s.rd Reg.FLT_LOG_BASE_FRAME + 531 ≤ frame) → sig ≤ a.toNat → a.toNat < sig + 80000 * 127 * 256 →
       s.does (.patrolScrub a .uncorrectable) (fun t => s.counts t Reg.FLT_CNT_REPORT_COUNT 2 ∧
         leNat (t.stackRead word 4) = setBit (leNat (s.stackRead word 4)) 31 false ∧ ∀ x, x < word ∨ word + 4 ≤ x → SMap.get 0 t.stack x = SMap.get 0 s.stack x)) ∧
     (∀ i, (s.poolOf? frame).isSome = true → s.serving.prefixes = [] →
       (s.serving.requests.filter (fun e => e.2.state != .free && e.2.pages.any (fun p => p.2.frame == frame))).map Prod.fst = [i] →
       (s.request i).state = .queued → (s.request i).member = false → (s.request i).isCompanion = false → (s.request i).companion = 0xFFFF →
       s.does (.patrolScrub a .uncorrectable) (fun t => (t.request i).state = .faulted ∧ (t.request i).code = codeContextReset))))) ∧
(∀ (s p q : State) (core : Core) (chan : Fin 4096) (producer twin : W32) (analog : Bool) (i j n m : Nat) (w x : W128),
  s.streamCopy core chan false = some (p, i, n, w) → s.streamCopy core chan true = some (q, j, m, x) →
  let agree := (p.received core n w).length = (q.received core n w).length ∧
    ∀ e ∈ (p.received core n w).zip (q.received core n w), agrees (s.bandOf core n w) e.1 e.2 = true
  (agree → s.does (.redundancyCompare core chan producer twin analog) (fun t => (t.core core).park = none ∧ (t.core core).pc = (p.core core).pc + 1 ∧ t.dsram = p.dsram ∧
    (∀ k ∈ (t.core core).packets, k.channel = chan → p.stepMatches core k.tag = false) ∧ (∀ k ∈ (t.core core).reductions, k.channel = chan → p.stepMatches core k.tag = false))) ∧
  (¬ agree → s.does (.redundancyCompare core chan producer twin analog) (fun t => s.counts t Reg.FLT_CNT_REPORT_COUNT (if analog = true then 3 else 4)))) ∧
(∀ (s : State) (core : Core) (chan : Fin 4096), s.streamCopy core chan false = none ∨ s.streamCopy core chan true = none →
  ∀ producer twin analog, s.does (.redundancyCompare core chan producer twin analog) (fun t => t = s)) ∧
(∀ (s p : State) (core late : Core) (chan : Fin 4096) (since n : Nat) (w : W128) (twin : Bool),
  s.streamCopy core chan twin = some (p, since, n, w) → s.streamCopy core chan (!twin) = none →
  let key := 100 * (s.core core).part + courseOf late
  (key ∈ s.fault.absent → s.does (.twinWaitExpiry core chan late) (fun t => (t.core core).park = none ∧ (t.core core).pc = (p.core core).pc + 1 ∧ t.dsram = p.dsram ∧ t.fault = p.fault)) ∧
  (key ∉ s.fault.absent → s.time < since + s.twinWait → s.does (.twinWaitExpiry core chan late) (fun t => t = s)) ∧
  (key ∉ s.fault.absent → since + s.twinWait ≤ s.time → s.does (.twinWaitExpiry core chan late) (fun t => (t.core core).park = none ∧ t.dsram = p.dsram ∧
    key ∈ t.fault.absent ∧ p.counts t Reg.FLT_CNT_REPORT_COUNT 6)))

/-- R389 to R391 for audits, R393 for what a failed one names and for rollback, R396 and R397 for quarantine. -/
def Obligations.AuditsJudgeAndRollBack : Prop :=
  (∀ (s : State) (core : Core) (instr : Fin 2048) (expected : List Nat) (x : AuditSample), s.auditSample core instr = x →
  let age := s.passNow core
  let judged := auditPasses (s.band (x.tier / 128) x.gain) x.conversions x.codes (s.expectedCodes core x expected)
  (x.waiting = false ∨ s.sampling core instr = true ∨ x.pass + 64 < age → s.does (.auditComparison core instr expected) (fun t => t = s)) ∧
  (x.waiting = false ∨ age < x.pass + 64 → s.does (.auditAbandon core instr) (fun t => t = s)) ∧
  (x.waiting = true → x.pass + 64 ≤ age → s.does (.auditAbandon core instr) (fun t => (t.auditSample core instr).waiting = false ∧ (t.auditSample core instr).resample = true ∧
    s.counts t Reg.FLT_AUDIT_ABANDON_COUNT ∧ s.sameBut t [.fault] [Reg.FLT_AUDIT_ABANDON_COUNT])) ∧
  (x.waiting = true → s.sampling core instr = false → age ≤ x.pass + 64 →
    (judged = true → s.does (.auditComparison core instr expected) (fun t => (t.auditSample core instr).lastPass = x.pass ∧ (t.auditSample core instr).waiting = false ∧
      s.counts t Reg.FLT_AUDIT_SAMPLE_COUNT ∧ s.sameBut t [.fault] [Reg.FLT_AUDIT_SAMPLE_COUNT])) ∧
    (judged = false → x.tier / 128 / 9 = core.val → s.does (.auditComparison core instr expected) (fun t => s.counts t Reg.FLT_AUDIT_SAMPLE_COUNT ∧ s.counts t Reg.FLT_AUDIT_FAIL_COUNT ∧
      t.rd Reg.CRS_ARR_STATUS_STATE (x.tier / 128) = 2 ∧ ∀ e ∈ s.windowContexts ((s.corePart core).getD 0) (x.lastPass + 1),
        .auditName ((s.corePart core).getD 0) e.1 e.2 (x.lastPass + 1) (unitTier core (x.tier / 128 % 9) (x.tier % 128)) ∈ t.out)))) ∧
(∀ (s : State) (core : Core) (instr : Fin 2048) (codes expected : List Nat) (k n : Nat),
  (if (s.auditSample core instr).conversions = 0 then s.instrTier core instr
    else some ((s.auditSample core instr).tier / 128, (s.auditSample core instr).tier % 128)) = some (k, n) →
  let gain := gainOf (s.rd Reg.CRS_ARR_TFMT_GAIN (128 * k + n))
  (s.tierReady core (k % 9) n = false → s.does (.standAloneAudit core instr codes expected) (fun t => t = s)) ∧
  (∀ u, s.tierReady core (k % 9) n = true → s.startUnit k (10 * (4 * (codes.length / 32) + 24)) false = some u →
    auditPasses (s.band k gain) (codes.length / 32) codes expected = true → s.does (.standAloneAudit core instr codes expected) (fun t =>
      (t.auditSample core instr).lastPass = s.passNow core ∧ s.counts t Reg.FLT_AUDIT_SAMPLE_COUNT ∧ s.sameBut t [.fault, .peg] [Reg.FLT_AUDIT_SAMPLE_COUNT]))) ∧
(∀ (s : State) (p : Part) (ctx ver : W16) (window : Nat) (unit : W32) (r : Request), s.request ctx.toNat = r → s.serving.prefixes = [] →
  (s.checkpoint p ctx.toNat ver.toNat window = none → s.does (.auditRollback p ctx ver window unit) (fun t =>
    s.counts t Reg.FLT_CNT_REPORT_COUNT 5 ∧ s.sameBut t [.fault] [Reg.FLT_CNT_REPORT_COUNT, Reg.FLT_CNT_RECORD_COUNT])) ∧
  (∀ ck, s.checkpoint p ctx.toNat ver.toNat window = some ck →
    (r.state = .free ∨ r.version ≠ ver.toNat → s.does (.auditRollback p ctx ver window unit) (fun t => s.counts t Reg.FLT_CNT_REPORT_COUNT 5 ∧ t.serving = s.serving)) ∧
    (r.version = ver.toNat → r.part = p.val → r.member = false →
      (r.state = .cancelling → s.does (.auditRollback p ctx ver window unit) (fun t => t.request ctx.toNat = { r with rolledBack := true } ∧ s.sameBut t [.serving] [])) ∧
      (r.state = .faulted → s.does (.auditRollback p ctx ver window unit) (fun t => t = s)) ∧
      (liveState r.state = true → r.rolledBack = false → r.inFlight = false → r.companion = 0xFFFF → r.pfxEntry = 0xFFFF →
        (ck.prefillPos < r.promptLen → r.prefillPos = r.promptLen → s.does (.auditRollback p ctx ver window unit) (fun t =>
          (t.request ctx.toNat).state = .faulted ∧ (t.request ctx.toNat).code = codeContextReset)) ∧
        (r.promptLen ≤ ck.prefillPos ∨ r.prefillPos ≠ r.promptLen → s.does (.auditRollback p ctx ver window unit) (fun t =>
          (t.request ctx.toNat).kvlen = ck.kvlen ∧ (t.request ctx.toNat).gen = ck.gen ∧ (t.request ctx.toNat).prefillPos = ck.prefillPos ∧
          (t.request ctx.toNat).lastToken = BitVec.ofNat 32 ck.token ∧ (t.request ctx.toNat).rolledBack = true ∧ (t.request ctx.toNat).drafts = [] ∧ s.counts t Reg.FLT_AUDIT_RB_COUNT)))))) ∧
(∀ (s : State) (core : Core) (array : Option (Fin 9)) (passed : Bool),
  let a := array.map (fun x => x.val)
  (s.quarantinedUnit core a = none ∨ s.replaced core a = false → s.does (.confirmation core array passed) (fun t => t = s)) ∧
  (∀ u c, s.quarantinedUnit core a = some (u, c) → s.replaced core a = true →
    s.does (.confirmation core array passed) (fun t => SMap.find? t.fault.quarantined u.toNat = none ∧ s.counts t Reg.FLT_CNT_REPORT_COUNT c ∧
      (passed = true → s.counts t Reg.FLT_QUAR_CNT_CONFIRMED) ∧ (passed = false → s.counts t Reg.FLT_QUAR_CNT_ESCALATED))))

/-- R399 for the test, R396 for the quarantine of what fails in it. -/
def Obligations.FieldTestsRun : Prop :=
  (∀ (s : State) (who : Requester) (value : W32), s.reachesOwned who 0x130060 = true →
  let course := bits value.toNat 0 7
  let settings := [Reg.FLT_FT_CMD_COURSE, Reg.FLT_FT_CMD_VOLT, Reg.FLT_FT_CMD_CLK, Reg.FLT_FT_CMD_HEAT, Reg.FLT_FT_CMD_PASSES]
  let refused := fun (n : Nat) => s.does (.fieldTestStart who value) (fun t => t.rd Reg.FLT_FT_STATUS_STATE = 0 ∧ t.rd Reg.FLT_FT_STATUS_REFUSE = n ∧ t.fault.fieldTest = none ∧
    s.sameBut t [] (Reg.FLT_FT_STATUS_STATE :: Reg.FLT_FT_STATUS_REFUSE :: settings))
  (bit value.toNat 8 = false →
    (∀ x, s.fault.fieldTest = some x → s.does (.fieldTestStart who value) (fun t => t.rd Reg.FLT_FT_CMD_COURSE = course ∧ s.sameBut t [] settings)) ∧
    (s.fault.fieldTest = none →
      (100 ≤ course → refused 2) ∧
      (∀ l, course < 100 → s.logicalOf course = some l → course ∉ s.recovery.courses → s.is Reg.NOC_COURSE_MAP_OUT l = false →
        (∀ p, s.coursePart course = some p → s.is Reg.PRT_PCTRL_REDUNDANT p = false → refused 1) ∧
        (s.coursePart course = none → s.does (.fieldTestStart who value) (fun t => t.rd Reg.FLT_FT_STATUS_STATE = 1 ∧ t.rd Reg.FLT_FT_STATUS_REFUSE = 0 ∧
          t.fault.fieldTest = some { course := course } ∧ t.rd Reg.FLT_FT_CMD_COURSE = course ∧
          ∀ (c : Core) (a : Fin 9), courseOf c = course → s.rd Reg.CRS_ARR_STATUS_STATE (arrayKey c a) = 0 → t.rd Reg.CRS_ARR_STATUS_STATE (arrayKey c a) = 3))))) ∧
  (bit value.toNat 7 = false → s.does (.fieldTestAbort who value) (fun t => t.fault.fieldTest = s.fault.fieldTest.map (fun x => { x with aborting := true }) ∧
    t.rd Reg.FLT_FT_CMD_COURSE = course ∧ s.sameBut t [.fault] settings))) ∧
(∀ (s : State) (failures : List (Core × Fin 9)), s.fault.fieldTest = none → s.does (.fieldTestDone failures) (fun t => t = s)) ∧
(∀ (s : State) (x : FieldTest), s.fault.fieldTest = some x →
  s.does (.fieldTestDone []) (fun t => t.fault.fieldTest = none ∧ t.rd Reg.FLT_FT_STATUS_STATE = (if x.aborting = true then 0 else 2) ∧ t.rd Reg.FLT_FT_STATUS_FAILS = 0 ∧
    (∀ (c : Core) (a : Fin 9), courseOf c = x.course → s.rd Reg.CRS_ARR_STATUS_STATE (arrayKey c a) = 3 → t.rd Reg.CRS_ARR_STATUS_STATE (arrayKey c a) = 0) ∧
    (∀ k ∈ t.fault.absent, k % 100 ≠ x.course)) ∧
  (∀ (c : Core) (a : Fin 9), courseOf c = x.course → s.rd Reg.CRS_ARR_STATUS_STATE (arrayKey c a) = 3 → s.does (.fieldTestDone [(c, a)]) (fun t =>
    t.fault.fieldTest = none ∧ t.rd Reg.FLT_FT_STATUS_STATE = 3 ∧ t.rd Reg.FLT_FT_STATUS_FAILS = 1 ∧ t.rd Reg.CRS_ARR_STATUS_STATE (arrayKey c a) = 2 ∧
    s.counts t Reg.FLT_QUAR_CNT_QUAR ∧ s.counts t Reg.FLT_QUAR_CNT_CONFIRMED ∧ s.counts t Reg.FLT_CNT_REPORT_COUNT 3)))

/-- R400 to R403 for reports and records, R404 and R405 for the queues and the log, R338 and R409 for what follows some. -/
def Obligations.ReportsBecomeRecords : Prop :=
  (∀ (s : State) (sender unit : W32) (cls : Fin 16) (tag : W64),
  let r : Report := { sender := sender, unit := unit, cls := cls, tag := tag }
  let a := aggregatorOf r
  let g := SMap.get {} s.fault.aggs a
  s.does (.faultReport sender unit cls tag) (fun t => s.counts t Reg.FLT_CNT_REPORT_COUNT cls ∧
    (s.chipResetting = true → t.fault = s.fault ∧ s.sameBut t [.peg] [Reg.FLT_CNT_REPORT_COUNT]) ∧
    (s.chipResetting = false → g.records = [] → g.units = [] → (SMap.get {} t.fault.aggs a).records = [recordOf r s.time a] ∧ s.counts t Reg.FLT_CNT_RECORD_COUNT cls) ∧
    (∀ c, s.chipResetting = false → g.records = [c] → c.unit = unit → c.cls = cls → auditCompleted c = false → s.time ≤ c.time + s.aggWindow →
      (SMap.get {} t.fault.aggs a).records = [{ c with count := min (c.count + 1) 65535 }] ∧ s.sameBut t [.fault, .peg] [Reg.FLT_CNT_REPORT_COUNT]))) ∧
(∀ (s : State) (sender : W32) (tag : W64) (core : Core) (array : Fin 9) (tier : Fin 128),
  (∀ j ∈ s.pegJobs (arrayKey core array), j.tier ≠ tier) → tier.val ∉ SMap.get [] s.peg.named (arrayKey core array) →
  s.does (.faultReport sender (unitTier core array tier) 3 tag) (fun t => SMap.get [] t.peg.named (arrayKey core array) = SMap.get [] s.peg.named (arrayKey core array) ++ [tier.val] ∧
    tier.val ∉ SMap.get [] t.peg.due (arrayKey core array))) ∧
(∀ (s : State) (a : Fin 101), a.val < 100 →
  let due := (SMap.get {} s.fault.aggs a).records.filter (fun c => decide (c.time + s.aggWindow ≤ s.time))
  let q := SMap.get [] s.fault.queues a
  s.does (.aggregationWindowClose a) (fun t => (SMap.get {} t.fault.aggs a).records = (SMap.get {} s.fault.aggs a).records.filter (fun c => decide (s.time < c.time + s.aggWindow)) ∧
    (q.length + due.length ≤ 64 → SMap.get [] t.fault.queues a = q ++ due ∧ s.sameBut t [.fault] []) ∧
    (∀ c, due = [c] → 64 ≤ q.length → SMap.get [] t.fault.queues a = q ∧ s.counts t Reg.FLT_CNT_LOST_COUNT c.cls ∧ t.rd Reg.FLT_STATUS_OVERFLOW = 1))) ∧
(∀ (s : State),
  (∀ a c, earliestQueue s.fault.queues = some (a, c) → s.fault.held = [] → s.fault.dieUnits = [] → s.does .dieLogWrite (fun t =>
    t.fault.held = [(s.time, c)] ∧ SMap.get [] t.fault.queues a = (SMap.get [] s.fault.queues a).drop 1 ∧ s.sameBut t [.fault] [])) ∧
  (earliestQueue s.fault.queues = none →
    (s.fault.held.find? (fun e => decide (e.1 + s.aggWindow ≤ s.time)) = none → s.does .dieLogWrite (fun t => t = s)) ∧
    (∀ e, s.fault.held.find? (fun e => decide (e.1 + s.aggWindow ≤ s.time)) = some e →
      s.does .dieLogWrite (fun t => t.fault.held = s.fault.held.erase e ∧ t.fault.seqNext = s.fault.seqNext + 1 ∧
        (e.2.cls = 14 → e.2.unit = 0 → t.fabric.selfTest = true) ∧
        (s.logHeld = 4096 → s.counts t Reg.FLT_CNT_LOST_COUNT e.2.cls ∧ t.rd Reg.FLT_STATUS_OVERFLOW = 1 ∧ t.stack = s.stack) ∧
        (s.logHeld ≠ 4096 → t.rd Reg.FLT_LOG_WR_INDEX = (s.rd Reg.FLT_LOG_WR_INDEX + 1) % 2 ^ 32 ∧
          (s.logAddress (s.rd Reg.FLT_LOG_WR_INDEX) + 32 ≤ stackSize → t.stackRead (s.logAddress (s.rd Reg.FLT_LOG_WR_INDEX)) 32 = recordBytes { e.2 with seq := s.fault.seqNext }) ∧
          ∀ x, x < s.logAddress (s.rd Reg.FLT_LOG_WR_INDEX) ∨ s.logAddress (s.rd Reg.FLT_LOG_WR_INDEX) + 32 ≤ x → SMap.get 0 t.stack x = SMap.get 0 s.stack x))))) ∧
(∀ (s : State) (who : Requester),
  (∀ index : W32, s.reachesOwned who 0x130008 = true →
    let moved := (index.toNat + 2 ^ 32 - s.rd Reg.FLT_LOG_RD_INDEX) % 2 ^ 32
    (moved ≤ s.logHeld → s.does (.logRdWrite who index) (fun t => t.rd Reg.FLT_LOG_RD_INDEX = index.toNat ∧ s.sameBut t [] [Reg.FLT_LOG_RD_INDEX])) ∧
    (s.logHeld < moved → s.does (.logRdWrite who index) (fun t => t = s))) ∧
  (s.reachesOwned who 0x13002C = true → s.does (.ffcClear who) (fun t => t.fault.ffc = [] ∧ t.fault.ffcLast = none ∧ t.rd Reg.FLT_STATUS_FFC_COUNT = 0 ∧ t.rd Reg.FLT_STATUS_FFC_LAST = 0 ∧
    s.sameBut t [.fault] [Reg.FLT_STATUS_FFC_COUNT, Reg.FLT_STATUS_FFC_LAST])))

/-- R408, R410 and R424 for context resets, R406 and R411 for courses, R413 for notices. -/
def Obligations.ContextAndCourseResets : Prop :=
  (∀ (s : State) (p : Part) (ctx : W16) (cause : Fin 16) (r : Request), s.request ctx.toNat = r →
  (r.part ≠ p.val ∨ s.absorbed r.part = true ∨ (liveState r.state = false ∧ r.member = false) → s.does (.contextReset p ctx cause) (fun t => t = s)) ∧
  (r.part = p.val → s.absorbed r.part = false → r.member = false → r.ringless = false →
    (r.state = .queued ∨ r.state = .paused → s.does (.contextReset p ctx cause) (fun t => (t.request ctx.toNat).state = .faulted ∧ (t.request ctx.toNat).code = codeContextReset ∧
      s.counts t Reg.FLT_RST_CNT_CTX_COUNT ∧ t.rd Reg.FLT_RST_STATUS_KIND = 1 ∧ t.rd Reg.FLT_RST_STATUS_CAUSE = cause ∧ t.rd Reg.FLT_RST_STATUS_PARTITION = p)) ∧
    (runState r.state = true → s.does (.contextReset p ctx cause) (fun t => (t.request ctx.toNat).state = .cancelling ∧ (t.request ctx.toNat).cancelCode = codeContextReset ∧
      s.counts t Reg.FLT_RST_CNT_CTX_COUNT ∧ t.rungAt 0 (65536 * p.val + ctx.toNat) = true)))) ∧
(∀ (s : State) (c : Course) (cause : Fin 16),
  (s.mayResetCourse c = false → s.does (.courseReset c cause) (fun t => t = s)) ∧
  (s.mayResetCourse c = true → s.does (.courseReset c cause) (fun t => c.val ∈ t.recovery.courses ∧ t.rungAt 1 c = true ∧ s.counts t Reg.FLT_RST_CNT_COURSE_COUNT ∧ t.cells = s.cells ∧
    (∀ k a, courseOf k = c → a < dataSize → SMap.get 0 t.dsram (dataSize * k + a) = 0) ∧ (∀ k, courseOf (k / 9) = c → (t.array k).mvm = none) ∧
    (s.cores.any (fun e => courseOf e.1 == c.val && e.2.running) = false → t.rd Reg.FLT_RST_STATUS_KIND = 2 ∧ t.rd Reg.FLT_RST_STATUS_CAUSE = cause ∧ t.rd Reg.FLT_RST_STATUS_COURSE = c))) ∧
  (let busy := s.cores.any (fun e => e.2.running && courseOf e.1 == c.val)
   (busy = false ∨ s.courseNapped c = true ∨ c.val ∈ s.recovery.courses → s.does (.courseHeartbeatMiss c) (fun t => t = s)) ∧
   (busy = true → s.courseNapped c = false → c.val ∉ s.thermal.gated → s.mayResetCourse c = true → s.does (.courseHeartbeatMiss c) (fun t =>
     t.rd Reg.FLT_HB_STATUS_COURSE = c ∧ c.val ∈ t.recovery.courses ∧ s.counts t Reg.FLT_RST_CNT_COURSE_COUNT))) ∧
  (c.val ∉ s.recovery.courses → s.does (.courseResetComplete c) (fun t => t = s)) ∧
  (c.val ∈ s.recovery.courses → s.does (.courseResetComplete c) (fun t => c.val ∉ t.recovery.courses ∧ t.rungAt 1 c = false ∧ t.cells = s.cells ∧ ∀ k ∈ t.fault.absent, k % 100 ≠ c.val))) ∧
(∀ (s : State) (p : Part) (n : W128),
  (noticeScope n = 1 → (s.request (noticeContext n)).part = p.val → (s.request (noticeContext n)).isCompanion = false →
    (s.admits p = true → liveState (s.request (noticeContext n)).state = true → (s.request (noticeContext n)).member = false → s.does (.resetNotice p n) (fun t =>
      (t.request (noticeContext n)).state = .faulted ∧ (t.request (noticeContext n)).code = codeContextReset)) ∧
    (s.admits p = false → (s.request (noticeContext n)).member = true → s.does (.resetNotice p n) (fun t => (t.request (noticeContext n)).state = .free ∧
      (t.request (noticeContext n)).version = (s.request (noticeContext n)).version))) ∧
  (2 ≤ noticeScope n → s.does (.resetNotice p n) (fun t => s.counts t Reg.FLT_CNT_REPORT_COUNT 14 ∧ s.sameBut t [.fault] [Reg.FLT_CNT_REPORT_COUNT, Reg.FLT_CNT_RECORD_COUNT])))

/-- R412 for partitions, R414, R425 and R453 for the chip, R406 and R426 for the firmware watchdog, R408 and R409 for the ladder. -/
def Obligations.PartitionAndChipResets : Prop :=
  (∀ (s : State) (p : Part) (cause : Fin 16),
  (s.absorbed p = true → s.does (.partitionReset p cause) (fun t => t = s)) ∧
  (s.absorbed p = false → s.does (.partitionReset p cause) (fun t => s.counts t Reg.FLT_RST_CNT_PART_COUNT ∧ t.cells = s.cells ∧
      (∀ i ∈ s.entriesOf p, (s.request i).member = false → (s.request i).isCompanion = false → (t.request i).state = .faulted ∧ (t.request i).code = codePartitionReset) ∧
      (SMap.sorted s.serving.requests = true → ∀ i ∈ s.entriesOf p, (s.request i).member = true → (t.request i).state = .free) ∧
      (s.physCoursesOf p ≠ [] → t.rungAt 2 p = true ∧ ∀ c ∈ s.physCoursesOf p, c ∈ t.recovery.courses)) ∧
    (s.physCoursesOf p ≠ [] → s.does (.partitionHeartbeatMiss p) (fun t => bit (t.rd Reg.FLT_HB_STATUS_PART_LATE) p = true ∧ t.rungAt 2 p = true ∧
      s.counts t Reg.FLT_RST_CNT_PART_COUNT ∧ ∀ i ∈ s.entriesOf p, (s.request i).member = false → (s.request i).isCompanion = false → (t.request i).state = .faulted)))) ∧
(∀ (s : State),
  let chipReset := fun (t : State) (cause : Nat) => s.counts t Reg.FLT_RST_CNT_CHIP_COUNT ∧ t.rd Reg.FLT_RST_STATUS_KIND = 4 ∧ t.rd Reg.FLT_RST_STATUS_CAUSE = cause ∧
    t.serving = {} ∧ t.recovery.courses = [] ∧ t.rungAt 3 0 = true ∧ t.cells = s.cells ∧ t.stack = s.stack
  let boots := fun (t : State) => (∀ i, s.bootImage = some i → s.thermal.cooling = false → t.rd Reg.HIF_DEV_STATE_STATE = 1 ∧ t.rd Reg.HIF_DEV_STATE_VERIFY = 1 ∧ t.peg.sweeping = true ∧
      t.rd Reg.SEC_FW_STATUS_RUNNING = i % 2) ∧
    (s.bootImage = none → t.rd Reg.HIF_DEV_STATE_STATE = 0 ∧ t.recovery.powerCycle = true)
  (s.recovery.held = true ∨ s.thermal.tripped = true ∨ s.board.powered = false → ∀ cause, s.does (.chipReset cause) (fun t => t = s)) ∧
  (s.recovery.held = false → s.thermal.tripped = false → s.board.powered = true →
    (∀ cause : Fin 16, s.does (.chipReset cause) (fun t => chipReset t cause ∧ boots t)) ∧
    s.does .devReset (fun t => chipReset t 7 ∧ t.recovery.held = true ∧ t.recovery.devLow = true) ∧
    s.does .firmwareWatchdog (fun t => chipReset t 6 ∧ (s.sec.trial = true → s.rd Reg.SEC_FW_STATUS_RUNNING = 0 → s.rd Reg.SEC_FW_STATUS_ACTIVE = 0 → t.rd Reg.SEC_FW_STATUS_FAIL_A = 1)) ∧
    (s.fabric.selfTest = true → s.does (.fabricSelfTestDone false []) (fun t => chipReset t 10 ∧ t.fabric.selfTest = false))) ∧
  (s.recovery.held = true → s.does .devReset (fun t => t.recovery.held = true ∧ t.recovery.devLow = true ∧ s.sameBut t [.recovery] []) ∧
    s.does .firmwareWatchdog (fun t => t.rd Reg.FLT_HB_STATUS_FW_LATE = 1 ∧ t.recovery = s.recovery ∧ s.counts t Reg.FLT_CNT_REPORT_COUNT 6)) ∧
  (s.recovery.refLost = true → s.does .devResetRelease (fun t => t.recovery.held = s.recovery.held ∧ t.recovery.devLow = false ∧ t.recovery.released = some s.time ∧ s.sameBut t [.recovery] [])) ∧
  (s.recovery.refLost = false → s.recovery.held = true → s.thermal.tripped = false → s.board.powered = true → s.does .devResetRelease (fun t =>
    t.recovery.held = false ∧ t.recovery.released = some s.time ∧ boots t)) ∧
  (s.fabric.selfTest = false → ∀ done failed, s.does (.fabricSelfTestDone done failed) (fun t => t = s)) ∧
  (s.fabric.selfTest = true → s.does (.fabricSelfTestDone true []) (fun t => t.fabric.selfTest = false ∧ s.sameBut t [.fabric] []) ∧
    ∀ r : Fin 11100, r.val < 11000 → s.does (.fabricSelfTestDone true [(r, .north)]) (fun t => t.fabric.selfTest = false ∧ bit (t.rd Reg.NOC_FAIL_LINK r) (portCode .north) = true ∧
      t.rd Reg.NOC_MAP_GEN_PENDING = 1)) ∧
  (∀ (p : Part) g, s.recovery.rungs.find? (fun h => h.level == 2 && h.target == p.val) = some g →
    (s.time < g.start + g.bound → s.does (.resetOverrun (.partition p)) (fun t => t = s)) ∧
    (g.start + g.bound ≤ s.time → s.recovery.held = false → s.thermal.tripped = false → s.board.powered = true → s.does (.resetOverrun (.partition p)) (fun t =>
      chipReset t 8 ∧ t.rd Reg.FLT_RST_STATUS_OVERRUN = 1))) ∧
  (∀ g, s.recovery.rungs.find? (fun h => h.level == 3 && h.target == 0) = some g →
    (s.time < g.start + g.bound → s.does (.resetOverrun .chip) (fun t => t = s)) ∧
    (g.start + g.bound ≤ s.time → s.does (.resetOverrun .chip) (fun t => t.recovery.powerCycle = true ∧ .pldm pldmCycle ∈ t.out ∧ t.rd Reg.FLT_RST_STATUS_OVERRUN = 1 ∧
      t.rungAt 3 0 = false))) ∧
  (∀ (c : Course) g p, s.recovery.rungs.find? (fun h => h.level == 1 && h.target == c.val) = some g → g.start + g.bound ≤ s.time → s.coursePart c = some p → s.absorbed p = false →
    s.does (.resetOverrun (.course c)) (fun t => s.counts t Reg.FLT_RST_CNT_PART_COUNT ∧ t.rd Reg.FLT_RST_STATUS_OVERRUN = 1)))

/-- R420, R439 and R451 to R452 for power, R449 and R450 for rails, R455 for clocks, R459 for the sideband. -/
def Obligations.PowerRailsAndClocks : Prop :=
  (∀ (s : State), s.does .aonPowerOnReset (fun t => t.board.powered = false ∧ t.time = 0 ∧ t.cells = s.cells ∧ t.stack = [] ∧ t.dsram = [] ∧ t.serving = {} ∧ t.thermal.trips = s.thermal.trips ∧
  ∀ f ∈ Reg.table, f.survives ≠ .nv → ∀ i, t.rd f i = f.resetAt i)) ∧
(∀ (s : State) (f : BootFacts),
  s.does (.powerUp f) (fun t => t.board.powered = true ∧ t.board.straps = f.straps ∧ t.time = 0 ∧ t.cells = s.cells ∧ t.stack = [] ∧ t.serving = {} ∧
    (f.copyA = false → f.copyB = false → t.recovery.powerCycle = true ∧ t.rd Reg.HIF_DEV_STATE_STATE = 0 ∧ s.counts t Reg.FLT_RST_CNT_PWR_COUNT)) ∧
  (f.copyA = true → f.copyB = true → (∀ e ∈ s.sec.current.fields, keyIsConfig e.1 = true) →
    s.does (.powerUp f) (fun t => s.counts t Reg.FLT_RST_CNT_PWR_COUNT ∧ t.rd Reg.FLT_RST_STATUS_KIND = 5 ∧ t.rd Reg.FLT_RST_STATUS_CAUSE = 11 ∧
      t.rd Reg.TRM_CLKIN_XTAL_OK = 1 ∧ t.rd Reg.TRM_CLKIN_REFSYS_OK = 1 ∧
      (f.imageA = true → s.rd Reg.SEC_FW_STATUS_ACTIVE = 0 → s.is Reg.SEC_FW_STATUS_FAIL_A = false → s.rd Reg.SEC_FW_STATUS_MIN_SVN ≤ s.sec.imageA.svn →
        t.rd Reg.SEC_FW_STATUS_RUNNING = 0 ∧
        (s.rd Reg.TRM_TRIP_STATUS_UNACK = 0 → t.rd Reg.HIF_DEV_STATE_STATE = 1 ∧ t.rd Reg.HIF_DEV_STATE_VERIFY = 1 ∧ t.peg.sweeping = true) ∧
        (s.rd Reg.TRM_TRIP_STATUS_UNACK ≠ 0 → t.rd Reg.HIF_DEV_STATE_STATE = 0 ∧ t.thermal.cooling = true))))) ∧
(∀ (s : State) (rail : Rail) (tooHigh : Bool),
  (s.railArmed rail = false → s.does (.railExcursion rail tooHigh) (fun t => t = s)) ∧
  (s.railArmed rail = true →
    s.does (.railExcursion rail tooHigh) (fun t => SMap.find? t.board.excursions rail = some s.time ∧ s.counts t Reg.FLT_CNT_REPORT_COUNT 11 ∧
      s.counts t (if tooHigh = true then Reg.TRM_RAIL_CNT_OV else Reg.TRM_RAIL_CNT_UV) rail ∧ t.rd (if tooHigh = true then Reg.TRM_RAIL_OV else Reg.TRM_RAIL_UV) rail = 1 ∧
      (rail = 2 → s.sameBut t [.fault, .board] [Reg.TRM_RAIL_CNT_OV, Reg.TRM_RAIL_CNT_UV, Reg.TRM_RAIL_OV, Reg.TRM_RAIL_UV, Reg.FLT_CNT_REPORT_COUNT, Reg.FLT_CNT_RECORD_COUNT]) ∧
      (rail = 6 → ∀ p < 2, t.rd Reg.HIF_PORT_STATUS_DL_UP p = 0 ∧ t.rd Reg.HIF_PORT_STATUS_LAST_RESET p = 3) ∧
      (rail = 8 → s.rd Reg.CAL_STATUS_STATE = 1 → t.rd Reg.CAL_STATUS_STATE = 3 ∧ t.rd Reg.CAL_STATUS_ERR = 8))) ∧
  (SMap.find? s.board.excursions rail = none → s.does (.railRecovery rail) (fun t => t = s) ∧ s.does (.railExcursionTimeout rail) (fun t => t = s)) ∧
  (∀ x, SMap.find? s.board.excursions rail = some x →
    (s.time < x + 100000 → s.does (.railRecovery rail) (fun t => t = s)) ∧
    (x + 100000 ≤ s.time → s.does (.railRecovery rail) (fun t => SMap.find? t.board.excursions rail = none ∧ t.rd Reg.TRM_RAIL_UV rail = 0 ∧ t.rd Reg.TRM_RAIL_OV rail = 0 ∧
      s.sameBut t [.board] [Reg.TRM_RAIL_UV, Reg.TRM_RAIL_OV])) ∧
    (s.time ≤ x + 10000000 → s.does (.railExcursionTimeout rail) (fun t => t = s)) ∧
    (x + 10000000 < s.time → s.does (.railExcursionTimeout rail) (fun t => t.recovery.powerCycle = true ∧ t.out = s.out ++ [.pldm pldmCycle] ∧ s.sameBut t [.recovery, .out] [])))) ∧
(∀ (s : State),
  (s.board.stkRise = none → s.does .stackRailTimeout (fun t => t = s)) ∧
  (∀ x, s.board.stkRise = some x → s.rd Reg.TRM_PSTATE_STATE = 5 → x + 20000000 ≤ s.time → s.does .stackRailTimeout (fun t => t.rd Reg.TRM_PSTATE_STATE = 4 ∧ t.board.stkEn = false ∧
    t.board.stkRise = none ∧ s.counts t Reg.FLT_CNT_REPORT_COUNT 11)) ∧
  (s.board.powered = false → s.does .crystalLoss (fun t => t = s) ∧ s.does .crystalReturn (fun t => t = s)) ∧
  (s.board.powered = true →
    s.does .crystalLoss (fun t => t.rd Reg.TRM_CLKIN_XTAL_OK = 0 ∧ t.rd Reg.TRM_CLKIN_FALLBACK = 1 ∧ s.counts t Reg.FLT_CNT_REPORT_COUNT 11) ∧
    s.does .crystalReturn (fun t => t.rd Reg.TRM_CLKIN_XTAL_OK = 1 ∧ s.sameBut t [] [Reg.TRM_CLKIN_XTAL_OK]) ∧
    (s.recovery.refLost = false → s.does .refclkSysLoss (fun t => t.recovery.refLost = true ∧ t.recovery.held = true ∧
      (s.recovery.held = false → s.thermal.tripped = false → s.counts t Reg.FLT_RST_CNT_CHIP_COUNT ∧ t.rd Reg.FLT_RST_STATUS_KIND = 4 ∧ t.serving = {} ∧ t.cells = s.cells))) ∧
    (∀ p : Fin 2, s.does (.pcieRefclkLoss p) (fun t => bit (t.rd Reg.TRM_CLKIN_PCIE_OK) p = false ∧ t.rd Reg.HIF_PORT_STATUS_DL_UP p = 0 ∧ t.rd Reg.HIF_PORT_STATUS_LAST_RESET p = 3))) ∧
  (s.recovery.refLost = false → s.does .refclkSysRestore (fun t => t = s)) ∧
  (s.recovery.refLost = true →
    (s.recovery.devLow = true → s.does .refclkSysRestore (fun t => t.recovery.held = s.recovery.held ∧ t.recovery.refLost = false ∧ t.rd Reg.TRM_CLKIN_REFSYS_OK = 1)) ∧
    (s.recovery.devLow = false → s.recovery.held = true → s.thermal.tripped = false → s.board.powered = true → s.thermal.cooling = false → ∀ i, s.bootImage = some i →
      s.does .refclkSysRestore (fun t => t.recovery.held = false ∧ t.rd Reg.TRM_CLKIN_REFSYS_OK = 1 ∧ t.rd Reg.HIF_DEV_STATE_STATE = 1 ∧ t.peg.sweeping = true))) ∧
  (s.board.powered = true → (∀ a, s.does (.dynamicAddressAssignment (some a)) (fun t => t.board.dynamic = some a ∧ s.sameBut t [.board] [])) ∧
    s.does (.dynamicAddressAssignment none) (fun t => t.board.dynamic = some (BitVec.ofNat 7 (0x20 + s.board.straps.toNat)) ∧ s.sameBut t [.board] [])))

/-- R433 and R428 for staging, R434 for the seal, R435 to R437 for approval, R439 to R441 for generations and rollback. -/
def Obligations.StagesGatherAndCommit : Prop :=
  (∀ (s : State) (who : Requester) (v : W32), s.reachesOwned who 0x34 = true → isVf who = false →
  let e : StagedEntry := { offset := 0x34, selector := 0, value := v }
  let same := fun q : StagedEntry => q.offset == 0x34 && q.selector == 0
  (s.stageClosed = true → s.does (.stagedWrite who 0x34 v) (fun t => t.rd Reg.SEC_TP_STATUS_LATE = 1 ∧ s.sameBut t [] [Reg.SEC_TP_STATUS_LATE])) ∧
  (s.stageClosed = false → s.does (.stagedWrite who 0x34 v) (fun t => t.rd Reg.SEC_TP_STATUS_STATE = 1 ∧
    s.sameBut t [.sec] [Reg.SEC_TP_STATUS_STATE, Reg.SEC_TP_STATUS_OVER, Reg.SEC_TP_STATUS_LATE, Reg.SEC_TP_STATUS_ENTRIES] ∧
    (s.sec.entries.any same = true → t.sec.entries = s.sec.entries.map (fun q => if same q then e else q)) ∧
    (s.sec.entries.any same = false → s.sec.entries.length < 1024 → t.sec.entries = s.sec.entries ++ [e] ∧ t.rd Reg.SEC_TP_STATUS_ENTRIES = s.sec.entries.length + 1) ∧
    (s.sec.entries.any same = false → 1024 ≤ s.sec.entries.length → t.sec.entries = s.sec.entries ∧ t.rd Reg.SEC_TP_STATUS_OVER = 1)))) ∧
(∀ (s : State) (who : Requester) (v : W32) (readable : Bool), s.reachesOwned who 0x1400A0 = true →
  let slot := bits v.toNat 0 4
  let roles := bits v.toNat 4 4
  let off := s.rd Reg.SEC_KEY_ADDR_OFFSET
  (s.stageClosed = true → s.does (.keyStage who v readable) (fun t => t.rd Reg.SEC_TP_STATUS_LATE = 1 ∧ s.sameBut t [] [Reg.SEC_TP_STATUS_LATE])) ∧
  (s.stageClosed = false → s.sec.keys.all (fun k => k.slot != slot) = true → s.sec.keys.length < 4 →
    (bit v.toNat 8 = true → s.does (.keyStage who v readable) (fun t => t.rd Reg.SEC_TP_STATUS_STATE = 1 ∧
      t.sec.keys = s.sec.keys ++ [{ slot := slot, roles := roles, op := 1, digest := s.keyDigest slot, whole := true }])) ∧
    (bit v.toNat 8 = false → roles ≠ 0 → readable = true → s.inLanding off 1793 = true → s.does (.keyStage who v readable) (fun t => t.rd Reg.SEC_TP_STATUS_STATE = 1 ∧
      t.sec.keys = s.sec.keys ++ [{ slot := slot, roles := roles, op := 0, digest := Config.shake256 (s.stackRead (s.bar4Address off) 1793), whole := true }])) ∧
    (bit v.toNat 8 = false → roles = 0 → s.does (.keyStage who v readable) (fun t => t = s))) ∧
  (s.stageClosed = false → s.sec.keys.all (fun k => k.slot != slot) = true → 4 ≤ s.sec.keys.length → bit v.toNat 8 = true → s.does (.keyStage who v readable) (fun t =>
    t.sec.keys = s.sec.keys ∧ t.rd Reg.SEC_TP_STATUS_OVER = 1))) ∧
(∀ (s : State) (who : Requester), s.reachesOwned who 0x140030 = true →
  let emptied := fun (t : State) (err : Nat) => t.rd Reg.SEC_TP_STATUS_STATE = 0 ∧ t.rd Reg.SEC_TP_STATUS_ERR = err ∧ t.rd Reg.SEC_TP_STATUS_ENTRIES = 0 ∧ t.sec.entries = [] ∧ t.sec.keys = [] ∧
    t.sec.rollback = false ∧ s.sameBut t [.sec] Reg.stageEnd
  (s.rd Reg.SEC_TP_STATUS_STATE ≠ 1 → s.does (.seal who) (fun t => t = s)) ∧
  (s.rd Reg.SEC_TP_STATUS_STATE = 1 → s.does (.seal who) (fun t => t.rd Reg.SEC_TP_STATUS_STATE = 2 ∧ t.rd Reg.SEC_TP_NONCE_NONCE = (Config.fresh64 s.fresh).toNat ∧
    t.sec.record = s.stageRecord (Config.fresh64 s.fresh) ∧ t.stageDigest = Config.shake256 t.sec.record ∧ t.sec.sealedGen = s.rd Reg.SEC_GEN_GEN ∧ t.sec.sealedAt = s.time ∧
    t.sec.entries = s.sec.entries ∧ t.sec.keys = s.sec.keys)) ∧
  (s.rd Reg.SEC_TP_STATUS_STATE = 0 → s.does (.stageAbort who) (fun t => t = s)) ∧ (s.rd Reg.SEC_TP_STATUS_STATE ≠ 0 → s.does (.stageAbort who) (fun t => emptied t 8)) ∧
  (s.rd Reg.SEC_TP_STATUS_STATE ≠ 0 → s.does (.configRollback who) (fun t => t = s)) ∧
  (s.rd Reg.SEC_TP_STATUS_STATE = 0 → (∀ c, s.sec.other = some c → c.valid = true → s.does (.configRollback who) (fun t => t.rd Reg.SEC_TP_STATUS_STATE = 1 ∧ t.sec.rollback = true ∧
    t.sec.previous = copyDigest c)) ∧
    (s.sec.other = none → s.does (.configRollback who) (fun t => t.rd Reg.SEC_TP_STATUS_ERR = 5 ∧ s.sameBut t [] [Reg.SEC_TP_STATUS_ERR])))) ∧
(∀ (s : State),
  let due := s.sec.sealedAt + 1000000000 * max 1 (s.rd Reg.SEC_TP_CTRL_TIMEOUT_S)
  (s.rd Reg.SEC_TP_STATUS_STATE ≠ 2 ∨ s.time < due → s.does .stageTimeout (fun t => t = s)) ∧
  (s.rd Reg.SEC_TP_STATUS_STATE = 2 → due ≤ s.time → s.does .stageTimeout (fun t => t.rd Reg.SEC_TP_STATUS_STATE = 0 ∧ t.rd Reg.SEC_TP_STATUS_ERR = 7 ∧ t.sec.entries = [] ∧ t.sec.keys = [])) ∧
  (s.sec.dirty = none → s.does .generationRecord (fun t => t = s)) ∧
  (∀ x, s.sec.dirty = some x → s.does .generationRecord (fun t => t.rd Reg.SEC_GEN_GEN = (s.rd Reg.SEC_GEN_GEN + 1) % 2 ^ 32 ∧ t.sec.dirty = none ∧ t.sec.other = some s.sec.current ∧
    t.rd Reg.SEC_GEN_STATUS_TWO_PARTY = 0 ∧ s.sameBut t [.sec] [Reg.SEC_GEN_GEN, Reg.SEC_GEN_STATUS_COPY, Reg.SEC_GEN_STATUS_PREV_VALID, Reg.SEC_GEN_STATUS_TWO_PARTY]))) ∧
(∀ (s : State) (ch : SpdmChannel) (a : Approval),
  (s.approveChannel ch = false ∨ s.rd Reg.SEC_TP_STATUS_STATE ≠ 2 ∨ s.approvesStage a = false ∨ (s.provisioned = true ∧ s.approverKey a.signer = false) →
    s.does (.approve ch a) (fun t => s.counts t Reg.SEC_TP_STATUS_BAD ∧ t.out = s.out ++ [.message (channelCode ch) spdmVendor [1]] ∧ s.sameBut t [.out] [Reg.SEC_TP_STATUS_BAD])) ∧
  (s.approveChannel ch = true → s.rd Reg.SEC_TP_STATUS_STATE = 2 → s.approvesStage a = true →
    (s.provisioned = false → s.stagedApprovers = [] → s.does (.approve ch a) (fun t => t.rd Reg.SEC_TP_STATUS_STATE = 0 ∧ t.rd Reg.SEC_TP_STATUS_ERR = 10 ∧ t.sec.keys = [] ∧
      ∀ f ∈ Reg.table, isConfig f = true → ∀ i, t.rd f i = s.rd f i)) ∧
    ((s.provisioned = true ∧ s.approverKey a.signer = true) ∨ (s.provisioned = false ∧ s.stagedApprovers ≠ [] ∧ s.approvalVerifies a = true) →
      (s.stageError ≠ 0 → s.does (.approve ch a) (fun t => t.rd Reg.SEC_TP_STATUS_STATE = 0 ∧ t.rd Reg.SEC_TP_STATUS_ERR = s.stageError ∧ t.rd Reg.SEC_GEN_GEN = s.rd Reg.SEC_GEN_GEN ∧
        ∀ f ∈ Reg.table, isConfig f = true → ∀ i, t.rd f i = s.rd f i)) ∧
      (s.stageError = 0 → (∀ e ∈ s.cal.boundary, keyIsConfig e.1 = true) → (∀ c, s.sec.other = some c → ∀ e ∈ c.fields, keyIsConfig e.1 = true) →
        s.does (.approve ch a) (fun t => .message (channelCode ch) spdmVendor [0] ∈ t.out ∧ t.rd Reg.SEC_TP_STATUS_STATE = 0 ∧ t.rd Reg.SEC_TP_STATUS_ERR = 0 ∧
          t.rd Reg.SEC_GEN_GEN = (s.rd Reg.SEC_GEN_GEN + 1) % 2 ^ 32 ∧ t.rd Reg.SEC_GEN_STATUS_TWO_PARTY = 1 ∧ t.sec.entries = [] ∧ t.sec.keys = [] ∧ t.sec.rollback = false ∧
          (∀ v, s.sec.entries = [{ offset := 0x34, selector := 0, value := v }] → s.sec.keys = [] → s.sec.rollback = false → t.rd Reg.HIF_OWN_POLICY_CLAIM_PORTS = v.toNat % 4 ∧
            t.rd Reg.HIF_OWN_POLICY_RECLAIM_EN = v.toNat / 4 % 2))))))

/-- R426 for firmware, R435 and R438 for the stage record and nonces, R429 to R431 for SPDM. -/
def Obligations.FirmwareAndAttestation : Prop :=
  (∀ (s : State) (who : Requester), s.reachesOwned who 0x140008 = true →
  (∀ svn, s.does (.firmwareInstall who false svn) (fun t => t.rd Reg.SEC_FW_CMD_RESULT = 2 ∧ s.sameBut t [] [Reg.SEC_FW_CMD_RESULT])) ∧
  (∀ svn : BitVec 12, svn.toNat < s.rd Reg.SEC_FW_STATUS_MIN_SVN → s.does (.firmwareInstall who true svn) (fun t => t.rd Reg.SEC_FW_CMD_RESULT = 3 ∧ s.sameBut t [] [Reg.SEC_FW_CMD_RESULT])) ∧
  (∀ svn : BitVec 12, s.rd Reg.SEC_FW_STATUS_MIN_SVN ≤ svn.toNat →
    (s.rd Reg.SEC_FW_STATUS_RUNNING = 0 → s.does (.firmwareInstall who true svn) (fun t => t.rd Reg.SEC_FW_CMD_RESULT = 1 ∧ t.sec = { s.sec with imageB := ⟨true, svn.toNat⟩, trial := true } ∧
      t.rd Reg.SEC_FW_STATUS_ACTIVE = 1 ∧ t.rd Reg.SEC_FW_STATUS_FAIL_B = 0 ∧ s.sameBut t [.sec] [Reg.SEC_FW_CMD_RESULT, Reg.SEC_FW_STATUS_ACTIVE, Reg.SEC_FW_STATUS_FAIL_B])) ∧
    (s.rd Reg.SEC_FW_STATUS_RUNNING = 1 → s.does (.firmwareInstall who true svn) (fun t => t.rd Reg.SEC_FW_CMD_RESULT = 1 ∧ t.sec = { s.sec with imageA := ⟨true, svn.toNat⟩, trial := true } ∧
      t.rd Reg.SEC_FW_STATUS_ACTIVE = 0 ∧ t.rd Reg.SEC_FW_STATUS_FAIL_A = 0 ∧ s.sameBut t [.sec] [Reg.SEC_FW_CMD_RESULT, Reg.SEC_FW_STATUS_ACTIVE, Reg.SEC_FW_STATUS_FAIL_A]))) ∧
  (s.rd Reg.SEC_FW_STATUS_RUNNING = 0 →
    (s.is Reg.SEC_FW_STATUS_FAIL_B = false → s.sec.imageB.svn < s.rd Reg.SEC_FW_STATUS_SVN → s.does (.commitSvn who) (fun t => t.rd Reg.SEC_FW_CMD_RESULT = 3 ∧ s.sameBut t [] [Reg.SEC_FW_CMD_RESULT])) ∧
    (s.is Reg.SEC_FW_STATUS_FAIL_B = true ∨ s.rd Reg.SEC_FW_STATUS_SVN ≤ s.sec.imageB.svn → s.does (.commitSvn who) (fun t => t.rd Reg.SEC_FW_CMD_RESULT = 1 ∧
      t.rd Reg.SEC_FW_STATUS_MIN_SVN = max (s.rd Reg.SEC_FW_STATUS_MIN_SVN) (s.rd Reg.SEC_FW_STATUS_SVN) % 2 ^ 12 ∧ s.sameBut t [] [Reg.SEC_FW_CMD_RESULT, Reg.SEC_FW_STATUS_MIN_SVN])))) ∧
(∀ (s : State) (ch : SpdmChannel),
  let n := Config.fresh64 s.fresh
  let sends := fun (t : State) (code : Nat) (data : List Byte) => t.out = s.out ++ [.message (channelCode ch) code data]
  let fails := fun (c : Instr) (e : Byte) => s.does c (fun t => sends t spdmError [e] ∧ s.sameBut t [.out] [])
  (∀ off : W32, (s.rd Reg.SEC_TP_STATUS_STATE = 2 → s.does (.getStage ch off) (fun t =>
      sends t spdmVendor ([0] ++ ((s.sec.record.drop off.toNat).take 1024 ++ leBytes 4 s.sec.record.length)) ∧ s.sameBut t [.out] [])) ∧
    (s.rd Reg.SEC_TP_STATUS_STATE ≠ 2 → s.does (.getStage ch off) (fun t => sends t spdmVendor [1] ∧ s.sameBut t [.out] []))) ∧
  s.does (.getNonce ch) (fun t => sends t spdmVendor ([0] ++ leBytes 8 n.toNat) ∧ (n, s.time) ∈ t.sec.nonces ∧ t.fresh = s.fresh + 1 ∧
    (∀ e ∈ s.sec.nonces, s.time ≤ e.2 + 10000000000 → e ∈ t.sec.nonces) ∧ s.sameBut t [.out, .sec, .fresh] []) ∧
  fails (.negotiateAlgorithms ch false) 1 ∧
  s.does (.negotiateAlgorithms ch true) (fun t => (t.spdm ch).negotiated = true ∧ sends t spdmAlgorithms (leBytes 2 Config.vendorId.toNat ++ leBytes 2 1) ∧ s.sameBut t [.out, .sec] []) ∧
  ((s.spdm ch).negotiated = false → (∀ i x g, fails (.getMeasurements ch i x g) 4) ∧ (∀ sl o l, fails (.getCertificate ch sl o l) 4) ∧ (∀ sl x, fails (.challenge ch sl x) 4) ∧
    (∀ sl i x, fails (.keyExchange ch sl i x) 4)) ∧
  ((s.spdm ch).negotiated = true →
    (∀ (i : Byte) (x : BitVec 256), i.toNat ∈ measurementIndices →
      let data := [(1 : Byte)] ++ (leBytes 1 i.toNat ++ leBytes 32 (s.measurement i.toNat).toNat)
      s.does (.getMeasurements ch i x false) (fun t => sends t spdmMeasurements data ∧ (t.spdm ch).transcript = (s.spdm ch).transcript ++ leBytes 1 i.toNat ++ data ∧ s.sameBut t [.out, .sec] []) ∧
      s.does (.getMeasurements ch i x true) (fun t => (t.spdm ch).transcript = [] ∧ sends t spdmMeasurements (data ++ leBytes 32 x.toNat ++
        paddedSignature ((s.spdm ch).transcript ++ (leBytes 1 i.toNat ++ leBytes 32 x.toNat) ++ (data ++ leBytes 32 x.toNat))))) ∧
    (∀ (i : Byte) x g, i.toNat ∉ measurementIndices → i ≠ 0 → i ≠ 255 → fails (.getMeasurements ch i x g) 1) ∧
    (∀ o l : W16, let portion := (Config.certificateChain.drop o.toNat).take l.toNat
      s.does (.getCertificate ch 0 o l) (fun t => sends t spdmCertificate (portion ++ leBytes 2 (Config.certificateChain.length - o.toNat - portion.length)) ∧ s.sameBut t [.out, .sec] [])) ∧
    (∀ x : BitVec 256, s.does (.challenge ch 0 x) (fun t => (t.spdm ch).transcript = [] ∧ sends t spdmChallengeAuth (leBytes 32 (Config.shake256 Config.certificateChain).toNat ++
      paddedSignature ((s.spdm ch).transcript ++ (leBytes 1 0 ++ leBytes 32 x.toNat) ++ leBytes 32 (Config.shake256 Config.certificateChain).toNat)))) ∧
    (∀ (i : W16) (x : List Byte), s.does (.keyExchange ch 0 i x) (fun t => (t.spdm ch).sessions = (s.spdm ch).sessions ++ [i.toNat + 65536 * (n.toNat % 65536)] ∧ (t.spdm ch).transcript = [] ∧
      t.fresh = s.fresh + 1 ∧ s.sameBut t [.out, .sec, .fresh] [])) ∧
    (∀ sl : Byte, sl ≠ 0 → (∀ o l, fails (.getCertificate ch sl o l) 1) ∧ (∀ x, fails (.challenge ch sl x) 1) ∧ (∀ i x, fails (.keyExchange ch sl i x) 1))))
end

