-- ==== Sys2Proof/Laws/SMap.lean ====
section
/-! SUPPORT. Laws/SMap.lean: sparse maps: what reading after writing gives, and that every operation keeps the canonical form. -/
set_option Elab.async false
set_option linter.all false
namespace Sys2Proof.SMap
variable {α : Type}

@[simp] theorem find?_nil (k : Nat) : find? ([] : SMap α) k = none := rfl
@[simp] theorem get_nil (d : α) (k : Nat) : get d ([] : SMap α) k = d := rfl

theorem find?_insert_self (m : SMap α) (k : Nat) (v : α) : find? (insert m k v) k = some v := by
  induction m with
  | nil => simp [insert, find?]
  | cons e m ih =>
    obtain ⟨q, w⟩ := e
    unfold insert
    split
    · simp [find?]
    · split
      · simp [find?]
      · rename_i h1 h2
        have : ¬ q = k := fun h => h2 h.symm
        simp [find?, this, ih]

theorem find?_insert_ne (m : SMap α) {k q : Nat} (v : α) (h : k ≠ q) : find? (insert m k v) q = find? m q := by
  induction m with
  | nil => simp [insert, find?, h]
  | cons e m ih =>
    obtain ⟨r, w⟩ := e
    unfold insert
    split
    · simp [find?, h]
    · split
      · rename_i h1 h2; subst h2; simp [find?, h]
      · simp only [find?, ih]

theorem find?_erase_self (m : SMap α) (k : Nat) : find? (erase m k) k = none := by
  induction m with
  | nil => rfl
  | cons e m ih =>
    obtain ⟨r, w⟩ := e
    unfold erase at *
    by_cases h : r = k
    · simp [h, ih]
    · simp [h, find?, ih]

theorem find?_erase_ne (m : SMap α) {k q : Nat} (h : k ≠ q) : find? (erase m k) q = find? m q := by
  induction m with
  | nil => rfl
  | cons e m ih =>
    obtain ⟨r, w⟩ := e
    unfold erase at *
    by_cases hr : r = k
    · have : ¬ r = q := fun x => h (hr ▸ x)
      simp [hr, find?, ih, h]
    · simp [hr, find?, ih]

variable [DecidableEq α]

theorem get_put_self (d : α) (m : SMap α) (k : Nat) (v : α) : get d (put d m k v) k = v := by
  unfold get put
  split
  · rename_i h; simp [find?_erase_self, h]
  · simp [find?_insert_self]

theorem get_put_ne (d : α) (m : SMap α) {k q : Nat} (v : α) (h : k ≠ q) : get d (put d m k v) q = get d m q := by
  unfold get put
  split
  · rw [find?_erase_ne m h]
  · rw [find?_insert_ne m v h]

/-- Writing under one key leaves the value of another, whatever each map's default. -/
theorem get_put_ne' (c d : α) (m : SMap α) {k q : Nat} (v : α) (h : k ≠ q) : get c (put d m k v) q = get c m q := by
  unfold get put
  split
  · rw [find?_erase_ne m h]
  · rw [find?_insert_ne m v h]

omit [DecidableEq α] in
theorem find?_filter_of {m : SMap α} {k : Nat} (p : Nat × α → Bool) (h : ∀ v, p (k, v) = true) : find? (m.filter p) k = find? m k := by
  induction m with
  | nil => rfl
  | cons e m ih =>
    obtain ⟨q, w⟩ := e
    rw [List.filter_cons]
    split
    · simp only [find?, ih]
    · rename_i hp
      have : ¬ q = k := fun e => hp (e ▸ h w)
      simp [find?, this, ih]

omit [DecidableEq α] in
theorem get_filter_of {d : α} {m : SMap α} {k : Nat} (p : Nat × α → Bool) (h : ∀ v, p (k, v) = true) :
    get d (m.filter p) k = get d m k := by
  unfold get
  rw [find?_filter_of p h]

/-! Canonical form -/

/-- Every key of a map is above a bound. -/
def above (b : Nat) (m : SMap α) : Bool := m.all (fun e => decide (b < e.1))

omit [DecidableEq α] in
theorem sorted_cons (e : Nat × α) (m : SMap α) : sorted (e :: m) = (above e.1 m && sorted m) := by
  induction m generalizing e with
  | nil => simp [sorted, above]
  | cons x m ih =>
    obtain ⟨a, v⟩ := e
    obtain ⟨b, w⟩ := x
    simp only [sorted, above, List.all_cons]
    rw [ih]
    rw [Bool.eq_iff_iff]
    simp only [above, Bool.and_eq_true, decide_eq_true_eq, List.all_eq_true]
    constructor
    · rintro ⟨h, h1, h2⟩; exact ⟨⟨h, fun x hx => Nat.lt_trans h (h1 x hx)⟩, h1, h2⟩
    · rintro ⟨⟨h, _⟩, h1, h2⟩; exact ⟨h, h1, h2⟩

omit [DecidableEq α] in
theorem above_insert {b : Nat} {m : SMap α} {k : Nat} {v : α} (h : above b m = true) (hk : b < k) : above b (insert m k v) = true := by
  induction m with
  | nil => simp [insert, above, hk]
  | cons e m ih =>
    obtain ⟨q, w⟩ := e
    simp only [above, List.all_cons, Bool.and_eq_true, decide_eq_true_eq] at h
    unfold insert
    split
    · simp only [above, List.all_cons, Bool.and_eq_true, decide_eq_true_eq]; exact ⟨hk, h.1, h.2⟩
    · split
      · simp only [above, List.all_cons, Bool.and_eq_true, decide_eq_true_eq]; exact ⟨hk, h.2⟩
      · simp only [above, List.all_cons, Bool.and_eq_true, decide_eq_true_eq]; exact ⟨h.1, ih h.2⟩

omit [DecidableEq α] in
theorem sorted_insert {m : SMap α} (k : Nat) (v : α) (h : sorted m = true) : sorted (insert m k v) = true := by
  induction m with
  | nil => rfl
  | cons e m ih =>
    obtain ⟨q, w⟩ := e
    have h' := h
    rw [sorted_cons, Bool.and_eq_true] at h'
    unfold insert
    split
    · rename_i hk
      rw [sorted_cons, Bool.and_eq_true]
      refine ⟨?_, h⟩
      simp only [above, List.all_cons, Bool.and_eq_true, decide_eq_true_eq]
      refine ⟨hk, ?_⟩
      have := h'.1
      simp only [above, List.all_eq_true, decide_eq_true_eq] at this ⊢
      exact fun x hx => Nat.lt_trans hk (this x hx)
    · split
      · rename_i h1 h2
        subst h2
        rw [sorted_cons, Bool.and_eq_true]; exact h'
      · rename_i h1 h2
        rw [sorted_cons, Bool.and_eq_true]
        exact ⟨above_insert h'.1 (by show q < k; omega), ih h'.2⟩

omit [DecidableEq α] in
theorem sorted_filter {m : SMap α} (p : Nat × α → Bool) (h : sorted m = true) : sorted (m.filter p) = true := by
  induction m with
  | nil => rfl
  | cons e m ih =>
    rw [sorted_cons, Bool.and_eq_true] at h
    rw [List.filter_cons]
    split
    · rw [sorted_cons, Bool.and_eq_true]
      refine ⟨?_, ih h.2⟩
      have := h.1
      simp only [above, List.all_eq_true, decide_eq_true_eq] at this ⊢
      exact fun x hx => this x ((List.mem_filter.1 hx).1)
    · exact ih h.2

omit [DecidableEq α] in
theorem sorted_erase {m : SMap α} (k : Nat) (h : sorted m = true) : sorted (erase m k) = true := sorted_filter _ h

theorem sorted_put {m : SMap α} (d : α) (k : Nat) (v : α) (h : sorted m = true) : sorted (put d m k v) = true := by
  unfold put; split
  · exact sorted_erase k h
  · exact sorted_insert k v h

theorem wf_filter {d : α} {m : SMap α} (p : Nat × α → Bool) (h : wf d m = true) : wf d (m.filter p) = true := by
  unfold wf at *
  rw [Bool.and_eq_true] at *
  refine ⟨sorted_filter p h.1, ?_⟩
  rw [List.all_eq_true] at *
  exact fun x hx => h.2 x ((List.mem_filter.1 hx).1)

omit [DecidableEq α] in
theorem mem_insert {m : SMap α} {k : Nat} {v : α} {e : Nat × α} (h : e ∈ insert m k v) : e = (k, v) ∨ e ∈ m := by
  induction m with
  | nil => left; simpa [insert] using h
  | cons x m ih =>
    obtain ⟨q, w⟩ := x
    unfold insert at h
    split at h
    · simpa using h
    · split at h
      · rcases List.mem_cons.1 h with h | h
        · exact .inl h
        · exact .inr (List.mem_cons_of_mem _ h)
      · rcases List.mem_cons.1 h with h | h
        · right; rw [h]; exact List.mem_cons_self
        · rcases ih h with h | h
          · exact .inl h
          · exact .inr (List.mem_cons_of_mem _ h)

omit [DecidableEq α] in
theorem sorted_inserts {l : List (Nat × α)} {m : SMap α} (h : sorted m = true) :
    sorted (l.foldl (fun m e => insert m e.1 e.2) m) = true := by
  induction l generalizing m with
  | nil => exact h
  | cons e l ih => exact ih (sorted_insert e.1 e.2 h)

/-- Writing a value keeps the canonical form. -/
theorem wf_put {d : α} {m : SMap α} (k : Nat) (v : α) (h : wf d m = true) : wf d (put d m k v) = true := by
  unfold put
  split
  · exact wf_filter _ h
  · rename_i hv
    unfold wf at *
    rw [Bool.and_eq_true] at *
    refine ⟨sorted_insert k v h.1, ?_⟩
    rw [List.all_eq_true] at *
    intro e he
    rcases mem_insert he with rfl | he
    · simpa using hv
    · exact h.2 e he

end Sys2Proof.SMap
end

