-- ==== Sys2Proof/Laws/Footprint.lean ====
section
/-! SUPPORT. Laws/Footprint.lean: masks: which parts of the state and which register fields an operation may change. Bits 0 to 24 of a
mask stand for the parts of the state in the order of `Keeps`, bit 32 + n for the register field whose place in `Reg.table` is n. -/
set_option Elab.async false
set_option linter.all false
namespace Sys2Proof.Machine

/-- Everything a mask names is named by another. -/
def Within (m W : Nat) : Prop := m &&& W = m

/-- The mask of one register field, of a list of them, of every field, and of the fields a reset of a strength returns. -/
def wrMask (f : Field) : Nat := 1 <<< (32 + f.id)
def listMask (fs : List Field) : Nat := fs.foldr (fun f m => wrMask f ||| m) 0
@[irreducible] def lowMask (k : Nat) : Nat := (2 ^ k - 1) <<< 32
def topMask : Nat := lowMask 1024
def resetMask (n : Nat) : Nat := listMask (Reg.table.filter (fun f => decide (f.survives.rank < n)))

theorem within_iff {m W : Nat} : Within m W ↔ ∀ i, m.testBit i = true → W.testBit i = true := by
  constructor
  · intro h i hi
    have : (m &&& W).testBit i = true := by rw [h]; exact hi
    rw [Nat.testBit_and, Bool.and_eq_true] at this
    exact this.2
  · intro h
    refine Nat.eq_of_testBit_eq (fun i => ?_)
    rw [Nat.testBit_and]
    cases e : m.testBit i with
    | false => rfl
    | true => rw [h i e]; rfl
theorem within_trans {a b c : Nat} (h : Within a b) (g : Within b c) : Within a c :=
  within_iff.2 (fun i hi => within_iff.1 g i (within_iff.1 h i hi))
theorem within_of {m X W : Nat} (h : (m &&& X == m) = true) (w : Within X W) : Within m W := within_trans (by simpa [Within] using h) w
theorem within_bit {m W n : Nat} (h : m.testBit n = true) (w : Within m W) : W.testBit n = true := within_iff.1 w n h
theorem within_wr {f : Field} {W : Nat} (w : Within (wrMask f) W) : W.testBit (32 + f.id) = true :=
  within_bit (by rw [wrMask, Nat.testBit_shiftLeft]; simp) w
theorem testBit_lowMask {k n : Nat} (h : n < k) : (lowMask k).testBit (32 + n) = true := by
  unfold lowMask; rw [Nat.testBit_shiftLeft, Nat.testBit_two_pow_sub_one]; simp [h]
theorem within_top {W n : Nat} (w : Within topMask W) (h : n < 1024) : W.testBit (32 + n) = true :=
  within_bit (m := lowMask 1024) (testBit_lowMask h) w
theorem listMask_head (f : Field) (fs : List Field) : Within (wrMask f) (listMask (f :: fs)) :=
  within_iff.2 (fun i hi => by rw [listMask, List.foldr_cons, Nat.testBit_or, hi]; rfl)
theorem listMask_tail (f : Field) (fs : List Field) : Within (listMask fs) (listMask (f :: fs)) :=
  within_iff.2 (fun i hi => by rw [listMask, List.foldr_cons, Nat.testBit_or]; unfold listMask at hi; rw [hi, Bool.or_true])
theorem listMask_mem {f : Field} {fs : List Field} (h : f ∈ fs) : Within (wrMask f) (listMask fs) := by
  induction fs with
  | nil => cases h
  | cons g fs ih =>
    rcases List.mem_cons.1 h with rfl | h
    · exact listMask_head _ _
    · exact within_trans (ih h) (listMask_tail _ _)
theorem within_reset {n W : Nat} {f : Field} (w : Within (resetMask n) W) (h : f ∈ Reg.table) (hr : f.survives.rank < n) :
    W.testBit (32 + f.id) = true :=
  within_wr (within_trans (listMask_mem (List.mem_filter.2 ⟨h, by simp [hr]⟩)) w)

/-! Keys -/

theorem Field.key_div (f : Field) (i : Nat) : f.key i / 16777216 = f.id := by unfold Field.key; omega
theorem Field.key_ne {f g : Field} (h : f.id ≠ g.id) (i j : Nat) : f.key i ≠ g.key j := fun e =>
  h (by rw [← Field.key_div f i, ← Field.key_div g j, e])
theorem fieldOfKey_some {k : Nat} {f : Field} (h : fieldOfKey k = some f) : f ∈ Reg.table ∧ f.id = k / 16777216 := by
  unfold fieldOfKey at h
  have a := List.mem_of_find?_eq_some h
  have b := List.find?_some h
  exact ⟨a, by simpa using b⟩

theorem within_reset_hit {n W k : Nat} {p : Field → Nat → Bool} (w : Within (resetMask n) W) (h : resetHits n p k = true) :
    W.testBit (32 + k / 16777216) = true := by
  unfold resetHits at h
  split at h
  · rename_i f e
    have hm := fieldOfKey_some e
    rw [Bool.and_eq_true, decide_eq_true_eq] at h
    rw [← hm.2]
    exact within_reset w hm.1 h.1
  · cases h

/-- A store into one field leaves every other as it was. -/
theorem State.rd_wr_ne {s : State} {f g : Field} {i j v : Nat} (h : f.id ≠ g.id) : (s.wr f i v).rd g j = s.rd g j :=
  SMap.get_put_ne' _ _ _ _ (Field.key_ne h i j)

end Sys2Proof.Machine
end

