-- ==== Sys2Proof/Laws/Memory.lean ====
section
/-! SUPPORT. Laws/Memory.lean: the memories: reading after writing, and that every memory operation keeps the canonical form. -/
set_option Elab.async false
set_option linter.all false
namespace Sys2Proof.Machine

theorem memWrite_wf (bs : List Byte) (m : List Host.Cell) (a : Nat) (h : memoryOk m = true) : memoryOk (memWrite m a bs) = true := by
  induction bs generalizing m a with
  | nil => exact h
  | cons b bs ih => exact ih _ _ (SMap.wf_put a b h)

theorem memZero_wf (m : List Host.Cell) (a n : Nat) (h : memoryOk m = true) : memoryOk (memZero m a n) = true := SMap.wf_filter _ h

theorem memoryOk_filter (m : List Host.Cell) (p : Host.Cell → Bool) (h : memoryOk m = true) : memoryOk (m.filter p) = true := SMap.wf_filter p h

theorem memoryOk_nil {m : List Host.Cell} (_ : memoryOk m = true) : memoryOk [] = true := rfl

/-- A byte outside the bytes written reads as before. -/
theorem memWrite_get_outside (bs : List Byte) (m : List Host.Cell) (a x : Nat) (h : x < a ∨ a + bs.length ≤ x) :
    SMap.get 0 (memWrite m a bs) x = SMap.get 0 m x := by
  induction bs generalizing m a with
  | nil => rfl
  | cons b bs ih =>
    simp only [List.length_cons] at h
    show SMap.get 0 (memWrite (SMap.put 0 m a b) (a + 1) bs) x = _
    rw [ih (SMap.put 0 m a b) (a + 1) (by omega), SMap.get_put_ne 0 m b (by omega)]

/-- A byte written reads as written. -/
theorem memWrite_get_inside (bs : List Byte) (m : List Host.Cell) (a i : Nat) (b : Byte) (h : bs[i]? = some b) :
    SMap.get 0 (memWrite m a bs) (a + i) = b := by
  induction bs generalizing m a i with
  | nil => simp at h
  | cons c bs ih =>
    show SMap.get 0 (memWrite (SMap.put 0 m a c) (a + 1) bs) (a + i) = b
    cases i with
    | zero =>
      simp only [List.getElem?_cons_zero, Option.some.injEq] at h
      rw [memWrite_get_outside bs _ (a + 1) (a + 0) (by omega), Nat.add_zero, SMap.get_put_self, h]
    | succ i =>
      simp only [List.getElem?_cons_succ] at h
      have := ih (SMap.put 0 m a c) (a + 1) i h
      rw [show a + (i + 1) = a + 1 + i by omega]
      exact this

/-- The memories after reset are in canonical form. -/
theorem reset_memoriesOk : State.reset.memoriesOk = true := by decide

end Sys2Proof.Machine
end

