-- ==== Sys2Proof/Laws/Keeps.lean ====
section
/-! SUPPORT. Laws/Keeps.lean: what an operation of the machine changes and what it keeps: the parts of the state and the register
fields outside its mask, the queue, the count of free values drawn, what was sent out, and the canonical forms; one lemma per
operation, each citing those of the operations it calls. -/
set_option Elab.async false
set_option linter.all false
namespace Sys2Proof.Machine

/-- `t` follows from `s` by operations that change only what the mask `W` names (Laws/Footprint.lean). -/
structure Keeps (W : Nat) (s t : State) : Prop where
  pending : t.pending = s.pending
  drawn : s.fresh ≤ t.fresh
  sent : s.out <+: t.out
  good : s.good = true → t.good = true
  rd : ∀ f i, f.id < 1024 → W.testBit (32 + f.id) = false → t.rd f i = s.rd f i
  time : W.testBit 0 = false → t.time = s.time
  latches : W.testBit 1 = false → t.latches = s.latches
  snapshots : W.testBit 2 = false → t.snapshots = s.snapshots
  fault : W.testBit 3 = false → t.fault = s.fault
  host : W.testBit 4 = false → t.host = s.host
  mail : W.testBit 5 = false → t.mail = s.mail
  serving : W.testBit 6 = false → t.serving = s.serving
  loader : W.testBit 7 = false → t.loader = s.loader
  arrays : W.testBit 8 = false → t.arrays = s.arrays
  cells : W.testBit 9 = false → t.cells = s.cells
  cores : W.testBit 10 = false → t.cores = s.cores
  fabric : W.testBit 11 = false → t.fabric = s.fabric
  link : W.testBit 12 = false → t.link = s.link
  peg : W.testBit 13 = false → t.peg = s.peg
  cal : W.testBit 14 = false → t.cal = s.cal
  mcv : W.testBit 15 = false → t.mcv = s.mcv
  thermal : W.testBit 16 = false → t.thermal = s.thermal
  recovery : W.testBit 17 = false → t.recovery = s.recovery
  sec : W.testBit 18 = false → t.sec = s.sec
  board : W.testBit 19 = false → t.board = s.board
  stack : W.testBit 20 = false → t.stack = s.stack
  dsram : W.testBit 21 = false → t.dsram = s.dsram
  tsram : W.testBit 22 = false → t.tsram = s.tsram
  out : W.testBit 23 = false → t.out = s.out
  fresh : W.testBit 24 = false → t.fresh = s.fresh

/-- The same of an operation that may answer nothing, or answers something beside the state. -/
structure KeepsN (W : Nat) (s : State) (o : Host.Outcome State Fault Refusal) : Prop where
  keeps : ∀ t, o = .next t → Keeps W s t
structure KeepsO (W : Nat) (s : State) (o : Option State) : Prop where
  keeps : ∀ t, o = some t → Keeps W s t
def KeepsF {α : Type} (W : Nat) (s : State) (p : State × α) : Prop := Keeps W s p.1
def KeepsS {α : Type} (W : Nat) (s : State) (p : α × State) : Prop := Keeps W s p.2
structure KeepsOF {α : Type} (W : Nat) (s : State) (o : Option (State × α)) : Prop where
  keeps : ∀ t a, o = some (t, a) → Keeps W s t
structure KeepsOS {α : Type} (W : Nat) (s : State) (o : Option (α × State)) : Prop where
  keeps : ∀ t a, o = some (a, t) → Keeps W s t

variable {W : Nat} {s0 s t : State}

theorem Keeps.refl (W : Nat) (s : State) : Keeps W s s :=
  ⟨rfl, Nat.le_refl _, List.prefix_refl _, id, fun _ _ _ _ => rfl, fun _ => rfl, fun _ => rfl, fun _ => rfl, fun _ => rfl, fun _ => rfl, fun _ => rfl, fun _ => rfl, fun _ => rfl, fun _ => rfl, fun _ => rfl, fun _ => rfl, fun _ => rfl, fun _ => rfl, fun _ => rfl, fun _ => rfl, fun _ => rfl, fun _ => rfl, fun _ => rfl, fun _ => rfl, fun _ => rfl, fun _ => rfl, fun _ => rfl, fun _ => rfl, fun _ => rfl, fun _ => rfl⟩
theorem Keeps.trans {a b c : State} (h : Keeps W a b) (g : Keeps W b c) : Keeps W a c where
  pending := g.pending.trans h.pending
  drawn := Nat.le_trans h.drawn g.drawn
  sent := h.sent.trans g.sent
  good := g.good ∘ h.good
  rd := fun f i hf w => (g.rd f i hf w).trans (h.rd f i hf w)
  time := fun w => (g.time w).trans (h.time w)
  latches := fun w => (g.latches w).trans (h.latches w)
  snapshots := fun w => (g.snapshots w).trans (h.snapshots w)
  fault := fun w => (g.fault w).trans (h.fault w)
  host := fun w => (g.host w).trans (h.host w)
  mail := fun w => (g.mail w).trans (h.mail w)
  serving := fun w => (g.serving w).trans (h.serving w)
  loader := fun w => (g.loader w).trans (h.loader w)
  arrays := fun w => (g.arrays w).trans (h.arrays w)
  cells := fun w => (g.cells w).trans (h.cells w)
  cores := fun w => (g.cores w).trans (h.cores w)
  fabric := fun w => (g.fabric w).trans (h.fabric w)
  link := fun w => (g.link w).trans (h.link w)
  peg := fun w => (g.peg w).trans (h.peg w)
  cal := fun w => (g.cal w).trans (h.cal w)
  mcv := fun w => (g.mcv w).trans (h.mcv w)
  thermal := fun w => (g.thermal w).trans (h.thermal w)
  recovery := fun w => (g.recovery w).trans (h.recovery w)
  sec := fun w => (g.sec w).trans (h.sec w)
  board := fun w => (g.board w).trans (h.board w)
  stack := fun w => (g.stack w).trans (h.stack w)
  dsram := fun w => (g.dsram w).trans (h.dsram w)
  tsram := fun w => (g.tsram w).trans (h.tsram w)
  out := fun w => (g.out w).trans (h.out w)
  fresh := fun w => (g.fresh w).trans (h.fresh w)

theorem keeps_or {α : Type} {a b : α} {n : Nat} (h : a = b ∨ W.testBit n = true) (w : W.testBit n = false) : a = b :=
  h.resolve_right (by rw [w]; exact Bool.false_ne_true)

theorem keepsN_next (h : Keeps W s0 t) : KeepsN W s0 (.next t) :=
  ⟨fun u e => by injection e with e; exact e ▸ h⟩
theorem keepsO_none : KeepsO W s0 none := ⟨fun u e => by cases e⟩
theorem keepsO_some (h : Keeps W s0 t) : KeepsO W s0 (some t) := ⟨fun u e => by cases e; exact h⟩
theorem keepsO_mapState {f : State → State} {o : Option State} (h : KeepsO W s0 o) (g : ∀ u, Keeps W s0 u → Keeps W s0 (f u)) :
    KeepsO W s0 (o.map f) := by
  cases o with
  | none => exact keepsO_none
  | some a => exact keepsO_some (g a (h.keeps a rfl))
theorem keepsO_map {α : Type} {f : α → State} {o : Option α} (h : ∀ a, Keeps W s0 (f a)) : KeepsO W s0 (o.map f) := by
  cases o with
  | none => exact keepsO_none
  | some a => exact keepsO_some (h a)
theorem keepsF_mk_iff {α : Type} {a : α} : KeepsF W s0 (t, a) ↔ Keeps W s0 t := .rfl
theorem keepsS_mk_iff {α : Type} {a : α} : KeepsS W s0 (a, t) ↔ Keeps W s0 t := .rfl
theorem keepsOF_none {α : Type} : KeepsOF W s0 (none : Option (State × α)) := ⟨fun u a e => by cases e⟩
theorem keepsOF_some {α : Type} {a : α} (h : Keeps W s0 t) : KeepsOF W s0 (some (t, a)) := ⟨fun u b e => by cases e; exact h⟩
theorem keepsOS_none {α : Type} : KeepsOS W s0 (none : Option (α × State)) := ⟨fun u a e => by cases e⟩
theorem keepsOS_some {α : Type} {a : α} (h : Keeps W s0 t) : KeepsOS W s0 (some (a, t)) := ⟨fun u b e => by cases e; exact h⟩

theorem keepsOF_map {α β : Type} {f : α → State × β} {o : Option α} (h : ∀ a, KeepsF W s0 (f a)) : KeepsOF W s0 (o.map f) := by
  cases o with
  | none => exact keepsOF_none
  | some a =>
    refine ⟨fun u b e => ?_⟩
    have e : f a = (u, b) := Option.some.inj e
    have := h a
    rw [e] at this
    exact this
theorem keepsOS_map {α β : Type} {f : α → β × State} {o : Option α} (h : ∀ a, KeepsS W s0 (f a)) : KeepsOS W s0 (o.map f) := by
  cases o with
  | none => exact keepsOS_none
  | some a =>
    refine ⟨fun u b e => ?_⟩
    have e : f a = (b, u) := Option.some.inj e
    have := h a
    rw [e] at this
    exact this
theorem keeps_of_some {o : Option State} (e : o = some t) (h : KeepsO W s0 o) : Keeps W s0 t := h.keeps t e
theorem keeps_of_pair {α : Type} {p : State × α} {a : α} (e : p = (t, a)) (h : KeepsF W s0 p) : Keeps W s0 t := by subst e; exact h
theorem keeps_of_snd {α : Type} {p : α × State} {a : α} (e : p = (a, t)) (h : KeepsS W s0 p) : Keeps W s0 t := by subst e; exact h
theorem keeps_of_somePair {α : Type} {o : Option (State × α)} {a : α} (e : o = some (t, a)) (h : KeepsOF W s0 o) : Keeps W s0 t := h.keeps t a e
theorem keeps_of_someSnd {α : Type} {o : Option (α × State)} {a : α} (e : o = some (a, t)) (h : KeepsOS W s0 o) : Keeps W s0 t := h.keeps t a e
theorem keeps_fst_iff {α : Type} {p : State × α} : Keeps W s0 p.1 ↔ KeepsF W s0 p := .rfl
theorem keeps_snd_iff {α : Type} {p : α × State} : Keeps W s0 p.2 ↔ KeepsS W s0 p := .rfl
theorem keeps_getD {o : Option State} (h : KeepsO W s0 o) (g : Keeps W s0 t) : Keeps W s0 (o.getD t) := by
  cases o with
  | none => exact g
  | some u => exact h.keeps u rfl

/-- A record update, marked as one. -/
def KeepsMk (W : Nat) (s0 : State) (x_pending : List Instr) (x_time : Nat) (x_fresh : Nat) (x_out : List Output) (x_regs : SMap Nat) (x_latches : SMap Nat) (x_snapshots : SMap Nat) (x_fault : FaultState) (x_host : HostState) (x_mail : MailState) (x_serving : ServingState) (x_loader : LoaderState) (x_arrays : SMap ArrayState) (x_cells : SMap Nat) (x_cores : SMap CoreState) (x_fabric : FabricState) (x_link : LinkState) (x_peg : PegState) (x_cal : CalState) (x_mcv : McvState) (x_thermal : ThermalState) (x_recovery : RecoveryState) (x_sec : SecState) (x_board : BoardState) (x_stack : List Host.Cell) (x_dsram : List Host.Cell) (x_tsram : List Host.Cell) : Prop :=
  Keeps W s0 ⟨x_pending, x_time, x_fresh, x_out, x_regs, x_latches, x_snapshots, x_fault, x_host, x_mail, x_serving, x_loader, x_arrays, x_cells, x_cores, x_fabric, x_link, x_peg, x_cal, x_mcv, x_thermal, x_recovery, x_sec, x_board, x_stack, x_dsram, x_tsram⟩
theorem keepsMk_iff {x_pending : List Instr} {x_time : Nat} {x_fresh : Nat} {x_out : List Output} {x_regs : SMap Nat} {x_latches : SMap Nat} {x_snapshots : SMap Nat} {x_fault : FaultState} {x_host : HostState} {x_mail : MailState} {x_serving : ServingState} {x_loader : LoaderState} {x_arrays : SMap ArrayState} {x_cells : SMap Nat} {x_cores : SMap CoreState} {x_fabric : FabricState} {x_link : LinkState} {x_peg : PegState} {x_cal : CalState} {x_mcv : McvState} {x_thermal : ThermalState} {x_recovery : RecoveryState} {x_sec : SecState} {x_board : BoardState} {x_stack : List Host.Cell} {x_dsram : List Host.Cell} {x_tsram : List Host.Cell} :
    Keeps W s0 (State.mk x_pending x_time x_fresh x_out x_regs x_latches x_snapshots x_fault x_host x_mail x_serving x_loader x_arrays x_cells x_cores x_fabric x_link x_peg x_cal x_mcv x_thermal x_recovery x_sec x_board x_stack x_dsram x_tsram) ↔ KeepsMk W s0 x_pending x_time x_fresh x_out x_regs x_latches x_snapshots x_fault x_host x_mail x_serving x_loader x_arrays x_cells x_cores x_fabric x_link x_peg x_cal x_mcv x_thermal x_recovery x_sec x_board x_stack x_dsram x_tsram := .rfl

/-- A record update that leaves registers, memories, the queue, the trace and the count of free values alone. -/
theorem keeps_mk {x_time : Nat} {x_latches : SMap Nat} {x_snapshots : SMap Nat} {x_fault : FaultState} {x_host : HostState} {x_mail : MailState} {x_serving : ServingState} {x_loader : LoaderState} {x_arrays : SMap ArrayState} {x_cells : SMap Nat} {x_cores : SMap CoreState} {x_fabric : FabricState} {x_link : LinkState} {x_peg : PegState} {x_cal : CalState} {x_mcv : McvState} {x_thermal : ThermalState} {x_recovery : RecoveryState} {x_sec : SecState} {x_board : BoardState} (h : Keeps W s0 t)
    (h_time : x_time = t.time ∨ W.testBit 0 = true)
    (h_latches : x_latches = t.latches ∨ W.testBit 1 = true)
    (h_snapshots : x_snapshots = t.snapshots ∨ W.testBit 2 = true)
    (h_fault : x_fault = t.fault ∨ W.testBit 3 = true)
    (h_host : x_host = t.host ∨ W.testBit 4 = true)
    (h_mail : x_mail = t.mail ∨ W.testBit 5 = true)
    (h_serving : x_serving = t.serving ∨ W.testBit 6 = true)
    (h_loader : x_loader = t.loader ∨ W.testBit 7 = true)
    (h_arrays : x_arrays = t.arrays ∨ W.testBit 8 = true)
    (h_cells : x_cells = t.cells ∨ W.testBit 9 = true)
    (h_cores : x_cores = t.cores ∨ W.testBit 10 = true)
    (h_fabric : x_fabric = t.fabric ∨ W.testBit 11 = true)
    (h_link : x_link = t.link ∨ W.testBit 12 = true)
    (h_peg : x_peg = t.peg ∨ W.testBit 13 = true)
    (h_cal : x_cal = t.cal ∨ W.testBit 14 = true)
    (h_mcv : x_mcv = t.mcv ∨ W.testBit 15 = true)
    (h_thermal : x_thermal = t.thermal ∨ W.testBit 16 = true)
    (h_recovery : x_recovery = t.recovery ∨ W.testBit 17 = true)
    (h_sec : x_sec = t.sec ∨ W.testBit 18 = true)
    (h_board : x_board = t.board ∨ W.testBit 19 = true)
    : KeepsMk W s0 t.pending x_time t.fresh t.out t.regs x_latches x_snapshots x_fault x_host x_mail x_serving x_loader x_arrays x_cells x_cores x_fabric x_link x_peg x_cal x_mcv x_thermal x_recovery x_sec x_board t.stack t.dsram t.tsram :=
  h.trans ⟨rfl, Nat.le_refl _, List.prefix_refl _, id, fun _ _ _ _ => rfl, keeps_or h_time, keeps_or h_latches, keeps_or h_snapshots, keeps_or h_fault, keeps_or h_host, keeps_or h_mail, keeps_or h_serving, keeps_or h_loader, keeps_or h_arrays, keeps_or h_cells, keeps_or h_cores, keeps_or h_fabric, keeps_or h_link, keeps_or h_peg, keeps_or h_cal, keeps_or h_mcv, keeps_or h_thermal, keeps_or h_recovery, keeps_or h_sec, keeps_or h_board, fun _ => rfl, fun _ => rfl, fun _ => rfl, fun _ => rfl, fun _ => rfl⟩

/-- A record update that changes registers and memories within the canonical form. -/
theorem keeps_store {x_regs : SMap Nat} {x_time : Nat} {x_latches : SMap Nat} {x_snapshots : SMap Nat} {x_fault : FaultState} {x_host : HostState} {x_mail : MailState} {x_serving : ServingState} {x_loader : LoaderState} {x_arrays : SMap ArrayState} {x_cells : SMap Nat} {x_cores : SMap CoreState} {x_fabric : FabricState} {x_link : LinkState} {x_peg : PegState} {x_cal : CalState} {x_mcv : McvState} {x_thermal : ThermalState} {x_recovery : RecoveryState} {x_sec : SecState} {x_board : BoardState} {x_stack : List Host.Cell} {x_dsram : List Host.Cell} {x_tsram : List Host.Cell} (h : Keeps W s0 t)
    (h_regs : SMap.sorted t.regs = true → SMap.sorted x_regs = true) (h_stackOk : memoryOk t.stack = true → memoryOk x_stack = true)
    (h_dsramOk : memoryOk t.dsram = true → memoryOk x_dsram = true) (h_tsramOk : memoryOk t.tsram = true → memoryOk x_tsram = true)
    (h_rd : ∀ f : Field, f.id < 1024 → W.testBit (32 + f.id) = false → ∀ i, SMap.get (f.resetAt i) x_regs (f.key i) = t.rd f i)
    (h_time : x_time = t.time ∨ W.testBit 0 = true)
    (h_latches : x_latches = t.latches ∨ W.testBit 1 = true)
    (h_snapshots : x_snapshots = t.snapshots ∨ W.testBit 2 = true)
    (h_fault : x_fault = t.fault ∨ W.testBit 3 = true)
    (h_host : x_host = t.host ∨ W.testBit 4 = true)
    (h_mail : x_mail = t.mail ∨ W.testBit 5 = true)
    (h_serving : x_serving = t.serving ∨ W.testBit 6 = true)
    (h_loader : x_loader = t.loader ∨ W.testBit 7 = true)
    (h_arrays : x_arrays = t.arrays ∨ W.testBit 8 = true)
    (h_cells : x_cells = t.cells ∨ W.testBit 9 = true)
    (h_cores : x_cores = t.cores ∨ W.testBit 10 = true)
    (h_fabric : x_fabric = t.fabric ∨ W.testBit 11 = true)
    (h_link : x_link = t.link ∨ W.testBit 12 = true)
    (h_peg : x_peg = t.peg ∨ W.testBit 13 = true)
    (h_cal : x_cal = t.cal ∨ W.testBit 14 = true)
    (h_mcv : x_mcv = t.mcv ∨ W.testBit 15 = true)
    (h_thermal : x_thermal = t.thermal ∨ W.testBit 16 = true)
    (h_recovery : x_recovery = t.recovery ∨ W.testBit 17 = true)
    (h_sec : x_sec = t.sec ∨ W.testBit 18 = true)
    (h_board : x_board = t.board ∨ W.testBit 19 = true)
    (h_stack : x_stack = t.stack ∨ W.testBit 20 = true)
    (h_dsram : x_dsram = t.dsram ∨ W.testBit 21 = true)
    (h_tsram : x_tsram = t.tsram ∨ W.testBit 22 = true)
    : KeepsMk W s0 t.pending x_time t.fresh t.out x_regs x_latches x_snapshots x_fault x_host x_mail x_serving x_loader x_arrays x_cells x_cores x_fabric x_link x_peg x_cal x_mcv x_thermal x_recovery x_sec x_board x_stack x_dsram x_tsram :=
  h.trans ⟨rfl, Nat.le_refl _, List.prefix_refl _, fun g => by
    simp only [State.good, State.memoriesOk, State.regsSorted, Bool.and_eq_true] at g ⊢
    exact ⟨⟨⟨h_stackOk g.1.1.1, h_dsramOk g.1.1.2⟩, h_tsramOk g.1.2⟩, h_regs g.2⟩, fun f i hf w => h_rd f hf w i, keeps_or h_time, keeps_or h_latches, keeps_or h_snapshots, keeps_or h_fault, keeps_or h_host, keeps_or h_mail, keeps_or h_serving, keeps_or h_loader, keeps_or h_arrays, keeps_or h_cells, keeps_or h_cores, keeps_or h_fabric, keeps_or h_link, keeps_or h_peg, keeps_or h_cal, keeps_or h_mcv, keeps_or h_thermal, keeps_or h_recovery, keeps_or h_sec, keeps_or h_board, keeps_or h_stack, keeps_or h_dsram, keeps_or h_tsram, fun _ => rfl, fun _ => rfl⟩

/-- A record update that draws free values. -/
theorem keeps_draw {n : Nat} (h : Keeps W s0 t) (w : W.testBit 24 = true) :
    KeepsMk W s0 t.pending t.time (t.fresh + n) t.out t.regs t.latches t.snapshots t.fault t.host t.mail t.serving t.loader t.arrays t.cells t.cores t.fabric t.link t.peg t.cal t.mcv t.thermal t.recovery t.sec t.board t.stack t.dsram t.tsram :=
  h.trans ⟨rfl, Nat.le_add_right _ _, List.prefix_refl _, id, fun _ _ _ _ => rfl, fun _ => rfl, fun _ => rfl, fun _ => rfl, fun _ => rfl, fun _ => rfl, fun _ => rfl, fun _ => rfl, fun _ => rfl, fun _ => rfl, fun _ => rfl, fun _ => rfl, fun _ => rfl, fun _ => rfl, fun _ => rfl, fun _ => rfl, fun _ => rfl, fun _ => rfl, fun _ => rfl, fun _ => rfl, fun _ => rfl, fun _ => rfl, fun _ => rfl, fun _ => rfl, fun _ => rfl, (fun x => by rw [w] at x; cases x)⟩

theorem keeps_id (h : Keeps W s0 s) : Keeps W s0 (id s) := h

theorem keeps_foldl {α : Type} {f : State → α → State} {l : List α} (hf : ∀ u a, Keeps W s0 u → Keeps W s0 (f u a)) (h : Keeps W s0 s) :
    Keeps W s0 (l.foldl f s) := by
  induction l generalizing s with
  | nil => exact h
  | cons a l ih => exact ih (hf s a h)

theorem keepsF_foldl {α β : Type} {f : State × β → α → State × β} {l : List α} {p : State × β}
    (hf : ∀ u a, KeepsF W s0 u → KeepsF W s0 (f u a)) (h : KeepsF W s0 p) : KeepsF W s0 (l.foldl f p) := by
  induction l generalizing p with
  | nil => exact h
  | cons a l ih => exact ih (hf p a h)

theorem keepsS_foldl {α β : Type} {f : β × State → α → β × State} {l : List α} {p : β × State}
    (hf : ∀ u a, KeepsS W s0 u → KeepsS W s0 (f u a)) (h : KeepsS W s0 p) : KeepsS W s0 (l.foldl f p) := by
  induction l generalizing p with
  | nil => exact h
  | cons a l ih => exact ih (hf p a h)

theorem keepsO_foldl {α : Type} {f : Option State → α → Option State} {l : List α} {p : Option State}
    (hf : ∀ u a, KeepsO W s0 u → KeepsO W s0 (f u a)) (h : KeepsO W s0 p) : KeepsO W s0 (l.foldl f p) := by
  induction l generalizing p with
  | nil => exact h
  | cons a l ih => exact ih (hf p a h)

/-- A fact shown first of a state named on the way. -/
theorem keeps_then {a : State} {Q : Prop} (ha : Keeps W s0 a) (h : Keeps W s0 a → Q) : Q := h ha

/-- Registers filtered by their keys. -/
theorem keeps_filter {p : Nat → Bool} (h : Keeps W s0 t)
    (hp : ∀ f : Field, f.id < 1024 → W.testBit (32 + f.id) = false → ∀ i, p (f.key i) = true) :
    Keeps W s0 { t with regs := t.regs.filter (fun e => p e.1) } :=
  keeps_store (t := t) h (SMap.sorted_filter _) id id id (fun g hg x j => SMap.get_filter_of _ (fun _ => hp g hg x j)) (.inl rfl) (.inl rfl) (.inl rfl) (.inl rfl) (.inl rfl) (.inl rfl) (.inl rfl) (.inl rfl) (.inl rfl) (.inl rfl) (.inl rfl) (.inl rfl) (.inl rfl) (.inl rfl) (.inl rfl) (.inl rfl) (.inl rfl) (.inl rfl) (.inl rfl) (.inl rfl) (.inl rfl) (.inl rfl) (.inl rfl) 
theorem keeps_rd_refl : ∀ f : Field, f.id < 1024 → W.testBit (32 + f.id) = false → ∀ i, SMap.get (f.resetAt i) t.regs (f.key i) = t.rd f i :=
  fun _ _ _ _ => rfl

/-! The operations of Machine/Ops.lean -/

theorem State.wr_keeps {f : Field} {i v : Nat} (h : Keeps W s0 s) (w : Within (wrMask f) W) : Keeps W s0 (s.wr f i v) :=
  keeps_store (t := s) h (SMap.sorted_put _ _ _) id id id (fun g hg x j => State.rd_wr_ne (fun e => by
    have := within_wr w; rw [e] at this; rw [this] at x; cases x)) (.inl rfl) (.inl rfl) (.inl rfl) (.inl rfl) (.inl rfl) (.inl rfl) (.inl rfl) (.inl rfl) (.inl rfl) (.inl rfl) (.inl rfl) (.inl rfl) (.inl rfl) (.inl rfl) (.inl rfl) (.inl rfl) (.inl rfl) (.inl rfl) (.inl rfl) (.inl rfl) (.inl rfl) (.inl rfl) (.inl rfl) 
theorem State.wr_top {f : Field} {i v : Nat} (h : Keeps W s0 s) (w : Within topMask W) : Keeps W s0 (s.wr f i v) :=
  keeps_store (t := s) h (SMap.sorted_put _ _ _) id id id (fun g hg x j => by
    have := within_top w hg; rw [this] at x; cases x) (.inl rfl) (.inl rfl) (.inl rfl) (.inl rfl) (.inl rfl) (.inl rfl) (.inl rfl) (.inl rfl) (.inl rfl) (.inl rfl) (.inl rfl) (.inl rfl) (.inl rfl) (.inl rfl) (.inl rfl) (.inl rfl) (.inl rfl) (.inl rfl) (.inl rfl) (.inl rfl) (.inl rfl) (.inl rfl) (.inl rfl) 
theorem State.bump_keeps {f : Field} {i n : Nat} (h : Keeps W s0 s) (w : Within (wrMask f) W) : Keeps W s0 (s.bump f i n) := State.wr_keeps h w
theorem State.clearFields_keeps {fs : List Field} {i : Nat} (h : Keeps W s0 s) (w : Within (listMask fs) W) : Keeps W s0 (s.clearFields fs i) := by
  unfold State.clearFields
  induction fs generalizing s with
  | nil => exact h
  | cons f fs ih => exact ih (State.wr_keeps h (within_trans (listMask_head f fs) w)) (within_trans (listMask_tail f fs) w)
theorem State.resetFields_keeps {n : Nat} {p : Field → Nat → Bool} (h : Keeps W s0 s) (w : Within (resetMask n) W) : Keeps W s0 (s.resetFields n p) :=
  keeps_store (t := s) h (SMap.sorted_filter _) id id id (fun g hg x j => by
    refine SMap.get_filter_of _ (fun v => ?_)
    cases e : resetHits n p (g.key j) with
    | false => rfl
    | true =>
      have := within_reset_hit w e
      rw [Field.key_div, x] at this; cases this) (.inl rfl) (.inl rfl) (.inl rfl) (.inl rfl) (.inl rfl) (.inl rfl) (.inl rfl) (.inl rfl) (.inl rfl) (.inl rfl) (.inl rfl) (.inl rfl) (.inl rfl) (.inl rfl) (.inl rfl) (.inl rfl) (.inl rfl) (.inl rfl) (.inl rfl) (.inl rfl) (.inl rfl) (.inl rfl) (.inl rfl) 
theorem State.emit_keeps {o : Output} (h : Keeps W s0 s) (w : W.testBit 23 = true) : Keeps W s0 (s.emit o) :=
  h.trans ⟨rfl, Nat.le_refl _, List.prefix_append _ _, id, fun _ _ _ _ => rfl, fun _ => rfl, fun _ => rfl, fun _ => rfl, fun _ => rfl, fun _ => rfl, fun _ => rfl, fun _ => rfl, fun _ => rfl, fun _ => rfl, fun _ => rfl, fun _ => rfl, fun _ => rfl, fun _ => rfl, fun _ => rfl, fun _ => rfl, fun _ => rfl, fun _ => rfl, fun _ => rfl, fun _ => rfl, fun _ => rfl, fun _ => rfl, fun _ => rfl, fun _ => rfl, (fun x => by rw [w] at x; cases x), fun _ => rfl⟩
theorem State.draw_keeps (h : Keeps W s0 s) (w : W.testBit 24 = true) : KeepsS W s0 s.draw := keeps_draw h w
theorem State.stackWrite_keeps {a : Nat} {bs : List Byte} (h : Keeps W s0 s) (w : W.testBit 20 = true) : Keeps W s0 (s.stackWrite a bs) :=
  keeps_store (t := s) h id (memWrite_wf _ _ _) id id (fun _ _ _ _ => rfl) (.inl rfl) (.inl rfl) (.inl rfl) (.inl rfl) (.inl rfl) (.inl rfl) (.inl rfl) (.inl rfl) (.inl rfl) (.inl rfl) (.inl rfl) (.inl rfl) (.inl rfl) (.inl rfl) (.inl rfl) (.inl rfl) (.inl rfl) (.inl rfl) (.inl rfl) (.inl rfl) (.inr w) (.inl rfl) (.inl rfl)
theorem State.stackZero_keeps {a n : Nat} (h : Keeps W s0 s) (w : W.testBit 20 = true) : Keeps W s0 (s.stackZero a n) :=
  keeps_store (t := s) h id (memZero_wf _ _ _) id id (fun _ _ _ _ => rfl) (.inl rfl) (.inl rfl) (.inl rfl) (.inl rfl) (.inl rfl) (.inl rfl) (.inl rfl) (.inl rfl) (.inl rfl) (.inl rfl) (.inl rfl) (.inl rfl) (.inl rfl) (.inl rfl) (.inl rfl) (.inl rfl) (.inl rfl) (.inl rfl) (.inl rfl) (.inl rfl) (.inr w) (.inl rfl) (.inl rfl)
theorem State.dataWrite_keeps {c a : Nat} {bs : List Byte} (h : Keeps W s0 s) (w : W.testBit 21 = true) : Keeps W s0 (s.dataWrite c a bs) :=
  keeps_store (t := s) h id id (memWrite_wf _ _ _) id (fun _ _ _ _ => rfl) (.inl rfl) (.inl rfl) (.inl rfl) (.inl rfl) (.inl rfl) (.inl rfl) (.inl rfl) (.inl rfl) (.inl rfl) (.inl rfl) (.inl rfl) (.inl rfl) (.inl rfl) (.inl rfl) (.inl rfl) (.inl rfl) (.inl rfl) (.inl rfl) (.inl rfl) (.inl rfl) (.inl rfl) (.inr w) (.inl rfl)
theorem State.tabWrite_keeps {c a : Nat} {bs : List Byte} (h : Keeps W s0 s) (w : W.testBit 22 = true) : Keeps W s0 (s.tabWrite c a bs) :=
  keeps_store (t := s) h id id id (memWrite_wf _ _ _) (fun _ _ _ _ => rfl) (.inl rfl) (.inl rfl) (.inl rfl) (.inl rfl) (.inl rfl) (.inl rfl) (.inl rfl) (.inl rfl) (.inl rfl) (.inl rfl) (.inl rfl) (.inl rfl) (.inl rfl) (.inl rfl) (.inl rfl) (.inl rfl) (.inl rfl) (.inl rfl) (.inl rfl) (.inl rfl) (.inl rfl) (.inl rfl) (.inr w)
theorem State.clearData_keeps {c : Nat} (h : Keeps W s0 s) (w : W.testBit 21 = true) : Keeps W s0 (s.clearData c) :=
  keeps_store (t := s) h id id (memZero_wf _ _ _) id (fun _ _ _ _ => rfl) (.inl rfl) (.inl rfl) (.inl rfl) (.inl rfl) (.inl rfl) (.inl rfl) (.inl rfl) (.inl rfl) (.inl rfl) (.inl rfl) (.inl rfl) (.inl rfl) (.inl rfl) (.inl rfl) (.inl rfl) (.inl rfl) (.inl rfl) (.inl rfl) (.inl rfl) (.inl rfl) (.inl rfl) (.inr w) (.inl rfl)
theorem State.clearTab_keeps {c : Nat} (h : Keeps W s0 s) (w : W.testBit 22 = true) : Keeps W s0 (s.clearTab c) :=
  keeps_store (t := s) h id id id (memZero_wf _ _ _) (fun _ _ _ _ => rfl) (.inl rfl) (.inl rfl) (.inl rfl) (.inl rfl) (.inl rfl) (.inl rfl) (.inl rfl) (.inl rfl) (.inl rfl) (.inl rfl) (.inl rfl) (.inl rfl) (.inl rfl) (.inl rfl) (.inl rfl) (.inl rfl) (.inl rfl) (.inl rfl) (.inl rfl) (.inl rfl) (.inl rfl) (.inl rfl) (.inr w)
theorem State.forEach_keeps {α : Type} {l : List α} {f : State → α → State} (h : Keeps W s0 s) (hf : ∀ u a, Keeps W s0 u → Keeps W s0 (f u a)) :
    Keeps W s0 (s.forEach l f) := keeps_foldl hf h

end Sys2Proof.Machine
end

