-- ==== Sys2Proof/Laws/Keeps/Ops.lean ====
section
/-! SUPPORT. Laws/Keeps/Ops.lean: what every operation of Machine/Ops.lean keeps (the relation of Laws/Keeps.lean). -/
set_option Elab.async false
set_option linter.all false
set_option linter.unusedSimpArgs false
set_option linter.tactic.unusedName false
namespace Sys2Proof.Machine
variable {W : Nat} {s0 s : State}

theorem State.setArray_keeps {a1 a2} (h : Keeps W s0 s) (w : Within 0x100 W) :
    Keeps W s0 (State.setArray s a1 a2) := by
  unfold State.setArray
  with_reducible repeat' first | assumption | exact within_of (by decide +kernel) w | exact within_bit (by decide +kernel) w | exact .inr (within_bit (by decide +kernel) w) | exact .inl rfl | simp -zeta only [keepsMk_iff] | apply keeps_mk | apply keeps_foldl | (intro u; first | (refine keeps_then (W := W) (s0 := s0) (a := u) ?_ ?_; subst u; rotate_left; intro _) | subst u | skip) | lift_lets -underBinder | dsimp -zeta only | split

theorem State.setCore_keeps {a1 a2} (h : Keeps W s0 s) (w : Within 0x400 W) :
    Keeps W s0 (State.setCore s a1 a2) := by
  unfold State.setCore
  with_reducible repeat' first | assumption | exact within_of (by decide +kernel) w | exact within_bit (by decide +kernel) w | exact .inr (within_bit (by decide +kernel) w) | exact .inl rfl | simp -zeta only [keepsMk_iff] | apply keeps_mk | apply keeps_foldl | (intro u; first | (refine keeps_then (W := W) (s0 := s0) (a := u) ?_ ?_; subst u; rotate_left; intro _) | subst u | skip) | lift_lets -underBinder | dsimp -zeta only | split

theorem State.setRouter_keeps {a1 a2} (h : Keeps W s0 s) (w : Within 0x800 W) :
    Keeps W s0 (State.setRouter s a1 a2) := by
  unfold State.setRouter
  with_reducible repeat' first | assumption | exact within_of (by decide +kernel) w | exact within_bit (by decide +kernel) w | exact .inr (within_bit (by decide +kernel) w) | exact .inl rfl | simp -zeta only [keepsMk_iff] | apply keeps_mk | apply keeps_foldl | (intro u; first | (refine keeps_then (W := W) (s0 := s0) (a := u) ?_ ?_; subst u; rotate_left; intro _) | subst u | skip) | lift_lets -underBinder | dsimp -zeta only | split

theorem State.setRequest_keeps {a1 a2} (h : Keeps W s0 s) (w : Within 0x40 W) :
    Keeps W s0 (State.setRequest s a1 a2) := by
  unfold State.setRequest
  with_reducible repeat' first | assumption | exact within_of (by decide +kernel) w | exact within_bit (by decide +kernel) w | exact .inr (within_bit (by decide +kernel) w) | exact .inl rfl | simp -zeta only [keepsMk_iff] | apply keeps_mk | apply keeps_foldl | (intro u; first | (refine keeps_then (W := W) (s0 := s0) (a := u) ?_ ?_; subst u; rotate_left; intro _) | subst u | skip) | lift_lets -underBinder | dsimp -zeta only | split

theorem State.setRingState_keeps {a1 a2} (h : Keeps W s0 s) (w : Within 0x10 W) :
    Keeps W s0 (State.setRingState s a1 a2) := by
  unfold State.setRingState
  with_reducible repeat' first | assumption | exact within_of (by decide +kernel) w | exact within_bit (by decide +kernel) w | exact .inr (within_bit (by decide +kernel) w) | exact .inl rfl | simp -zeta only [keepsMk_iff] | apply keeps_mk | apply keeps_foldl | (intro u; first | (refine keeps_then (W := W) (s0 := s0) (a := u) ?_ ?_; subst u; rotate_left; intro _) | subst u | skip) | lift_lets -underBinder | dsimp -zeta only | split

theorem State.setFnState_keeps {a1 a2} (h : Keeps W s0 s) (w : Within 0x10 W) :
    Keeps W s0 (State.setFnState s a1 a2) := by
  unfold State.setFnState
  with_reducible repeat' first | assumption | exact within_of (by decide +kernel) w | exact within_bit (by decide +kernel) w | exact .inr (within_bit (by decide +kernel) w) | exact .inl rfl | simp -zeta only [keepsMk_iff] | apply keeps_mk | apply keeps_foldl | (intro u; first | (refine keeps_then (W := W) (s0 := s0) (a := u) ?_ ?_; subst u; rotate_left; intro _) | subst u | skip) | lift_lets -underBinder | dsimp -zeta only | split

theorem State.setPortState_keeps {a1 a2} (h : Keeps W s0 s) (w : Within 0x10 W) :
    Keeps W s0 (State.setPortState s a1 a2) := by
  unfold State.setPortState
  with_reducible repeat' first | assumption | exact within_of (by decide +kernel) w | exact within_bit (by decide +kernel) w | exact .inr (within_bit (by decide +kernel) w) | exact .inl rfl | simp -zeta only [keepsMk_iff] | apply keeps_mk | apply keeps_foldl | (intro u; first | (refine keeps_then (W := W) (s0 := s0) (a := u) ?_ ?_; subst u; rotate_left; intro _) | subst u | skip) | lift_lets -underBinder | dsimp -zeta only | split

theorem State.setZl_keeps {a1 a2} (h : Keeps W s0 s) (w : Within 0x1000 W) :
    Keeps W s0 (State.setZl s a1 a2) := by
  unfold State.setZl
  with_reducible repeat' first | assumption | exact within_of (by decide +kernel) w | exact within_bit (by decide +kernel) w | exact .inr (within_bit (by decide +kernel) w) | exact .inl rfl | simp -zeta only [keepsMk_iff] | apply keeps_mk | apply keeps_foldl | (intro u; first | (refine keeps_then (W := W) (s0 := s0) (a := u) ?_ ?_; subst u; rotate_left; intro _) | subst u | skip) | lift_lets -underBinder | dsimp -zeta only | split

theorem State.setSensor_keeps {a1 a2} (h : Keeps W s0 s) (w : Within 0x10000 W) :
    Keeps W s0 (State.setSensor s a1 a2) := by
  unfold State.setSensor
  with_reducible repeat' first | assumption | exact within_of (by decide +kernel) w | exact within_bit (by decide +kernel) w | exact .inr (within_bit (by decide +kernel) w) | exact .inl rfl | simp -zeta only [keepsMk_iff] | apply keeps_mk | apply keeps_foldl | (intro u; first | (refine keeps_then (W := W) (s0 := s0) (a := u) ?_ ?_; subst u; rotate_left; intro _) | subst u | skip) | lift_lets -underBinder | dsimp -zeta only | split

theorem State.setEpochInfo_keeps {a1 a2} (h : Keeps W s0 s) (w : Within 0x80 W) :
    Keeps W s0 (State.setEpochInfo s a1 a2) := by
  unfold State.setEpochInfo
  with_reducible repeat' first | assumption | exact within_of (by decide +kernel) w | exact within_bit (by decide +kernel) w | exact .inr (within_bit (by decide +kernel) w) | exact .inl rfl | simp -zeta only [keepsMk_iff] | apply keeps_mk | apply keeps_foldl | (intro u; first | (refine keeps_then (W := W) (s0 := s0) (a := u) ?_ ?_; subst u; rotate_left; intro _) | subst u | skip) | lift_lets -underBinder | dsimp -zeta only | split

theorem State.setLoad_keeps {a1 a2} (h : Keeps W s0 s) (w : Within 0x80 W) :
    Keeps W s0 (State.setLoad s a1 a2) := by
  unfold State.setLoad
  with_reducible repeat' first | assumption | exact within_of (by decide +kernel) w | exact within_bit (by decide +kernel) w | exact .inr (within_bit (by decide +kernel) w) | exact .inl rfl | simp -zeta only [keepsMk_iff] | apply keeps_mk | apply keeps_foldl | (intro u; first | (refine keeps_then (W := W) (s0 := s0) (a := u) ?_ ?_; subst u; rotate_left; intro _) | subst u | skip) | lift_lets -underBinder | dsimp -zeta only | split

end Sys2Proof.Machine
end

