-- ==== Sys2Proof/Laws/Keeps/Operands.lean ====
section
/-! SUPPORT. Laws/Keeps/Operands.lean: what every operation of Machine/Operands.lean keeps (the relation of Laws/Keeps.lean). -/
set_option Elab.async false
set_option linter.all false
set_option linter.unusedSimpArgs false
set_option linter.tactic.unusedName false
namespace Sys2Proof.Machine
variable {W : Nat} {s0 s : State}

theorem State.setIx_keeps {a1 a2 a3} (h : Keeps W s0 s) (w : Within 0x400 W) :
    Keeps W s0 (State.setIx s a1 a2 a3) := by
  unfold State.setIx
  with_reducible repeat' first | assumption | apply State.setCore_keeps | exact within_of (by decide +kernel) w | exact within_bit (by decide +kernel) w | apply keeps_foldl | (intro u; first | (refine keeps_then (W := W) (s0 := s0) (a := u) ?_ ?_; subst u; rotate_left; intro _) | subst u | skip) | lift_lets -underBinder | dsimp -zeta only | split

theorem State.sramWrite_keeps {a1 a2 a3} (h : Keeps W s0 s) (w : Within 0x200000 W) :
    Keeps W s0 (State.sramWrite s a1 a2 a3) := by
  unfold State.sramWrite
  with_reducible repeat' first | assumption | apply State.dataWrite_keeps | exact within_of (by decide +kernel) w | exact within_bit (by decide +kernel) w | apply keeps_foldl | (intro u; first | (refine keeps_then (W := W) (s0 := s0) (a := u) ?_ ?_; subst u; rotate_left; intro _) | subst u | skip) | lift_lets -underBinder | dsimp -zeta only | split

theorem State.granWrite_keeps {a1 a2 a3} (h : Keeps W s0 s) (w : Within 0x200000 W) :
    Keeps W s0 (State.granWrite s a1 a2 a3) := by
  unfold State.granWrite
  with_reducible repeat' first | assumption | apply State.sramWrite_keeps | exact within_of (by decide +kernel) w | exact within_bit (by decide +kernel) w | apply keeps_foldl | (intro u; first | (refine keeps_then (W := W) (s0 := s0) (a := u) ?_ ?_; subst u; rotate_left; intro _) | subst u | skip) | lift_lets -underBinder | dsimp -zeta only | split

theorem State.setElem_keeps {a1 a2 a3 a4 a5 a6} (h : Keeps W s0 s) (w : Within 0x200000 W) :
    Keeps W s0 (State.setElem s a1 a2 a3 a4 a5 a6) := by
  unfold State.setElem
  with_reducible repeat' first | assumption | apply State.sramWrite_keeps | exact within_of (by decide +kernel) w | exact within_bit (by decide +kernel) w | apply keeps_foldl | (intro u; first | (refine keeps_then (W := W) (s0 := s0) (a := u) ?_ ?_; subst u; rotate_left; intro _) | subst u | skip) | lift_lets -underBinder | dsimp -zeta only | split

theorem State.writeRow_keeps {a1 a2 a3 a4 a5} (h : Keeps W s0 s) (w : Within 0x200000 W) :
    KeepsF W s0 (State.writeRow s a1 a2 a3 a4 a5) := by
  unfold State.writeRow
  with_reducible repeat' first | assumption | apply State.setElem_keeps | apply State.sramWrite_keeps | exact within_of (by decide +kernel) w | exact within_bit (by decide +kernel) w | simp -zeta only [keepsF_mk_iff, keeps_fst_iff] | apply keepsF_foldl | apply keeps_foldl | (intro u; first | (refine keeps_then (W := W) (s0 := s0) (a := u) ?_ ?_; subst u; rotate_left; intro _) | subst u | skip) | lift_lets -underBinder | dsimp -zeta only | split

theorem State.writeOperand_keeps {a1 a2 a3 a4} (h : Keeps W s0 s) (w : Within 0x1c00000000000000200400 W) :
    Keeps W s0 (State.writeOperand s a1 a2 a3 a4) := by
  unfold State.writeOperand
  with_reducible repeat' first | assumption | apply State.writeRow_keeps | apply State.bump_keeps | apply State.setCore_keeps | refine keeps_of_pair (by assumption) ?_ | exact within_of (by decide +kernel) w | exact within_bit (by decide +kernel) w | simp -zeta only [keepsF_mk_iff, keeps_fst_iff] | apply keepsF_foldl | apply keeps_foldl | (intro u; first | (refine keeps_then (W := W) (s0 := s0) (a := u) ?_ ?_; subst u; rotate_left; intro _) | subst u | skip) | lift_lets -underBinder | dsimp -zeta only | split

theorem State.writeWords_keeps {a1 a2 a3} (h : Keeps W s0 s) (w : Within 0x200000 W) :
    Keeps W s0 (State.writeWords s a1 a2 a3) := by
  unfold State.writeWords
  with_reducible repeat' first | assumption | apply State.granWrite_keeps | exact within_of (by decide +kernel) w | exact within_bit (by decide +kernel) w | apply keeps_foldl | (intro u; first | (refine keeps_then (W := W) (s0 := s0) (a := u) ?_ ?_; subst u; rotate_left; intro _) | subst u | skip) | lift_lets -underBinder | dsimp -zeta only | split

end Sys2Proof.Machine
end

