-- ==== Sys2Proof/Laws/Keeps/Flags.lean ====
section
/-! SUPPORT. Laws/Keeps/Flags.lean: what every operation of Machine/Flags.lean keeps (the relation of Laws/Keeps.lean). -/
set_option Elab.async false
set_option linter.all false
set_option linter.unusedSimpArgs false
set_option linter.tactic.unusedName false
namespace Sys2Proof.Machine
variable {W : Nat} {s0 s : State}

theorem State.msix_keeps {a1 a2} (h : Keeps W s0 s) (w : Within 0x800000 W) :
    Keeps W s0 (State.msix s a1 a2) := by
  unfold State.msix
  with_reducible repeat' first | assumption | apply State.emit_keeps | exact within_of (by decide +kernel) w | exact within_bit (by decide +kernel) w | apply keeps_foldl | (intro u; first | (refine keeps_then (W := W) (s0 := s0) (a := u) ?_ ?_; subst u; rotate_left; intro _) | subst u | skip) | lift_lets -underBinder | dsimp -zeta only | split

theorem State.noteDiscard_keeps {a1 a2 a3} (h : Keeps W s0 s) (w : Within 0x3c000000000000000000000000000000000000000000000000000000000800000 W) :
    Keeps W s0 (State.noteDiscard s a1 a2 a3) := by
  unfold State.noteDiscard
  with_reducible repeat' first | assumption | apply State.emit_keeps | apply State.wr_keeps | exact within_of (by decide +kernel) w | exact within_bit (by decide +kernel) w | apply keeps_foldl | (intro u; first | (refine keeps_then (W := W) (s0 := s0) (a := u) ?_ ?_; subst u; rotate_left; intro _) | subst u | skip) | lift_lets -underBinder | dsimp -zeta only | split

theorem State.notOwner_keeps {a1 a2 a3} (h : Keeps W s0 s) (w : Within 0x3d000000000000000000000000000000000000000000000000000000000800000 W) :
    Keeps W s0 (State.notOwner s a1 a2 a3) := by
  unfold State.notOwner
  with_reducible repeat' first | assumption | apply State.noteDiscard_keeps | apply State.bump_keeps | exact within_of (by decide +kernel) w | exact within_bit (by decide +kernel) w | apply keeps_foldl | (intro u; first | (refine keeps_then (W := W) (s0 := s0) (a := u) ?_ ?_; subst u; rotate_left; intro _) | subst u | skip) | lift_lets -underBinder | dsimp -zeta only | split

theorem State.owned_keeps {a1 a2 a3} (h : Keeps W s0 s) (w : Within 0x3d000000000000000000000000000000000000000000000000000000000800000 W) (h3 : ∀ a, Keeps W s0 a → Keeps W s0 (a3 a)) :
    Keeps W s0 (State.owned s a1 a2 a3) := by
  unfold State.owned
  with_reducible repeat' first | assumption | apply h3 | apply State.notOwner_keeps | exact within_of (by decide +kernel) w | exact within_bit (by decide +kernel) w | apply keeps_foldl | (intro u; first | (refine keeps_then (W := W) (s0 := s0) (a := u) ?_ ?_; subst u; rotate_left; intro _) | subst u | skip) | lift_lets -underBinder | dsimp -zeta only | split

theorem State.doorbellIrq_keeps {a1} (h : Keeps W s0 s) (w : Within 0x800000 W) :
    Keeps W s0 (State.doorbellIrq s a1) := by
  unfold State.doorbellIrq
  with_reducible repeat' first | assumption | apply State.msix_keeps | exact within_of (by decide +kernel) w | exact within_bit (by decide +kernel) w | apply keeps_foldl | (intro u; first | (refine keeps_then (W := W) (s0 := s0) (a := u) ?_ ?_; subst u; rotate_left; intro _) | subst u | skip) | lift_lets -underBinder | dsimp -zeta only | split

theorem State.setDoorbells_keeps {a1 a2} (h : Keeps W s0 s) (w : Within 0xc0000000000000000000000000000000000000000000000000000000000000000000000000000 W) :
    Keeps W s0 (State.setDoorbells s a1 a2) := by
  unfold State.setDoorbells
  with_reducible repeat' first | assumption | apply State.wr_keeps | exact within_of (by decide +kernel) w | exact within_bit (by decide +kernel) w | apply keeps_foldl | (intro u; first | (refine keeps_then (W := W) (s0 := s0) (a := u) ?_ ?_; subst u; rotate_left; intro _) | subst u | skip) | lift_lets -underBinder | dsimp -zeta only | split

theorem State.ring_keeps {a1 a2} (h : Keeps W s0 s) (w : Within 0xc0000000000000000000000000000000000000000000000000000000000000000000000800000 W) :
    Keeps W s0 (State.ring s a1 a2) := by
  unfold State.ring
  with_reducible repeat' first | assumption | apply State.setDoorbells_keeps | apply State.doorbellIrq_keeps | exact within_of (by decide +kernel) w | exact within_bit (by decide +kernel) w | apply keeps_foldl | (intro u; first | (refine keeps_then (W := W) (s0 := s0) (a := u) ?_ ?_; subst u; rotate_left; intro _) | subst u | skip) | lift_lets -underBinder | dsimp -zeta only | split

theorem State.unring_keeps {a1 a2} (h : Keeps W s0 s) (w : Within 0xc0000000000000000000000000000000000000000000000000000000000000000000000000000 W) :
    Keeps W s0 (State.unring s a1 a2) := by
  unfold State.unring
  with_reducible repeat' first | assumption | apply State.setDoorbells_keeps | exact within_of (by decide +kernel) w | exact within_bit (by decide +kernel) w | apply keeps_foldl | (intro u; first | (refine keeps_then (W := W) (s0 := s0) (a := u) ?_ ?_; subst u; rotate_left; intro _) | subst u | skip) | lift_lets -underBinder | dsimp -zeta only | split

theorem State.setFirmware_keeps {a1 a2} (h : Keeps W s0 s) (w : Within 0x20 W) :
    Keeps W s0 (State.setFirmware s a1 a2) := by
  unfold State.setFirmware
  with_reducible repeat' first | assumption | exact within_of (by decide +kernel) w | exact within_bit (by decide +kernel) w | exact .inr (within_bit (by decide +kernel) w) | exact .inl rfl | simp -zeta only [keepsMk_iff] | apply keeps_mk | apply keeps_foldl | (intro u; first | (refine keeps_then (W := W) (s0 := s0) (a := u) ?_ ?_; subst u; rotate_left; intro _) | subst u | skip) | lift_lets -underBinder | dsimp -zeta only | split

theorem State.receiverBell_keeps {a1 a2} (h : Keeps W s0 s) (w : Within 0xc0000000000000000000000000000000000000000000000000000000000000000000000800020 W) :
    Keeps W s0 (State.receiverBell s a1 a2) := by
  unfold State.receiverBell
  with_reducible repeat' first | assumption | apply State.setFirmware_keeps | apply State.ring_keeps | apply State.unring_keeps | exact within_of (by decide +kernel) w | exact within_bit (by decide +kernel) w | apply keeps_foldl | (intro u; first | (refine keeps_then (W := W) (s0 := s0) (a := u) ?_ ?_; subst u; rotate_left; intro _) | subst u | skip) | lift_lets -underBinder | dsimp -zeta only | split

theorem State.senderBell_keeps {a1} (h : Keeps W s0 s) (w : Within 0xc0000000000000000000000000000000000000000000000000000000000000000000000800020 W) :
    Keeps W s0 (State.senderBell s a1) := by
  unfold State.senderBell
  with_reducible repeat' first | assumption | apply State.ring_keeps | apply State.setFirmware_keeps | exact within_of (by decide +kernel) w | exact within_bit (by decide +kernel) w | apply keeps_foldl | (intro u; first | (refine keeps_then (W := W) (s0 := s0) (a := u) ?_ ?_; subst u; rotate_left; intro _) | subst u | skip) | lift_lets -underBinder | dsimp -zeta only | split

theorem State.setTimer_keeps {a1 a2} (h : Keeps W s0 s) (w : Within 0x20 W) :
    Keeps W s0 (State.setTimer s a1 a2) := by
  unfold State.setTimer
  with_reducible repeat' first | assumption | exact within_of (by decide +kernel) w | exact within_bit (by decide +kernel) w | exact .inr (within_bit (by decide +kernel) w) | exact .inl rfl | simp -zeta only [keepsMk_iff] | apply keeps_mk | apply keeps_foldl | (intro u; first | (refine keeps_then (W := W) (s0 := s0) (a := u) ?_ ?_; subst u; rotate_left; intro _) | subst u | skip) | lift_lets -underBinder | dsimp -zeta only | split

theorem State.mailCommit_keeps {a1 a2} (h : Keeps W s0 s) (w : Within 0xcae00000000000000000000000000000000000000000000000000000000000000000000800020 W) :
    Keeps W s0 (State.mailCommit s a1 a2) := by
  unfold State.mailCommit
  with_reducible repeat' first | assumption | apply State.wr_keeps | apply State.receiverBell_keeps | apply State.setTimer_keeps | exact within_of (by decide +kernel) w | exact within_bit (by decide +kernel) w | apply keeps_foldl | (intro u; first | (refine keeps_then (W := W) (s0 := s0) (a := u) ?_ ?_; subst u; rotate_left; intro _) | subst u | skip) | lift_lets -underBinder | dsimp -zeta only | split

theorem State.post_keeps {a1 a2 a3} (h : Keeps W s0 s) (w : Within 0xcae00000000000000000000000000000000000000000000000000000000000000000000800020 W) :
    Keeps W s0 (State.post s a1 a2 a3) := by
  unfold State.post
  with_reducible repeat' first | assumption | apply State.mailCommit_keeps | exact within_of (by decide +kernel) w | exact within_bit (by decide +kernel) w | exact .inr (within_bit (by decide +kernel) w) | exact .inl rfl | simp -zeta only [keepsMk_iff] | apply keeps_mk | apply keeps_foldl | (intro u; first | (refine keeps_then (W := W) (s0 := s0) (a := u) ?_ ?_; subst u; rotate_left; intro _) | subst u | skip) | lift_lets -underBinder | dsimp -zeta only | split

theorem State.postBoth_keeps {a1 a2 a3 a4} (h : Keeps W s0 s) (w : Within 0xcae00000000000000000000000000000000000000000000000000000000000000000000800020 W) :
    Keeps W s0 (State.postBoth s a1 a2 a3 a4) := by
  unfold State.postBoth
  with_reducible repeat' first | assumption | apply State.post_keeps | exact within_of (by decide +kernel) w | exact within_bit (by decide +kernel) w | apply keeps_foldl | (intro u; first | (refine keeps_then (W := W) (s0 := s0) (a := u) ?_ ?_; subst u; rotate_left; intro _) | subst u | skip) | lift_lets -underBinder | dsimp -zeta only | split

theorem State.postFault_keeps {a1} (h : Keeps W s0 s) (w : Within 0xcae00000000000000000000000000000000000000000000000000000000000000000000800028 W) :
    Keeps W s0 (State.postFault s a1) := by
  unfold State.postFault
  with_reducible repeat' first | assumption | apply State.mailCommit_keeps | exact within_of (by decide +kernel) w | exact within_bit (by decide +kernel) w | exact .inr (within_bit (by decide +kernel) w) | exact .inl rfl | simp -zeta only [keepsMk_iff] | apply keeps_mk | apply keeps_foldl | (intro u; first | (refine keeps_then (W := W) (s0 := s0) (a := u) ?_ ?_; subst u; rotate_left; intro _) | subst u | skip) | lift_lets -underBinder | dsimp -zeta only | split

theorem State.mailFreed_keeps {a1} (h : Keeps W s0 s) (w : Within 0xcae00000000000000000000000000000000000000000000000000000000000000000000800028 W) :
    Keeps W s0 (State.mailFreed s a1) := by
  unfold State.mailFreed
  with_reducible repeat' first | assumption | apply State.mailCommit_keeps | apply State.postFault_keeps | exact within_of (by decide +kernel) w | exact within_bit (by decide +kernel) w | exact .inr (within_bit (by decide +kernel) w) | exact .inl rfl | simp -zeta only [keepsMk_iff] | apply keeps_mk | apply keeps_foldl | (intro u; first | (refine keeps_then (W := W) (s0 := s0) (a := u) ?_ ?_; subst u; rotate_left; intro _) | subst u | skip) | lift_lets -underBinder | dsimp -zeta only | split

theorem State.setAgg_keeps {a1 a2} (h : Keeps W s0 s) (w : Within 0x8 W) :
    Keeps W s0 (State.setAgg s a1 a2) := by
  unfold State.setAgg
  with_reducible repeat' first | assumption | exact within_of (by decide +kernel) w | exact within_bit (by decide +kernel) w | exact .inr (within_bit (by decide +kernel) w) | exact .inl rfl | simp -zeta only [keepsMk_iff] | apply keeps_mk | apply keeps_foldl | (intro u; first | (refine keeps_then (W := W) (s0 := s0) (a := u) ?_ ?_; subst u; rotate_left; intro _) | subst u | skip) | lift_lets -underBinder | dsimp -zeta only | split

theorem State.report_keeps {a1} (h : Keeps W s0 s) (w : Within 0x600000000000000000000000000000000000000000000000000000000000000000000000000000000000000000000000000000000000000000008 W) :
    Keeps W s0 (State.report s a1) := by
  unfold State.report
  with_reducible repeat' first | assumption | apply State.bump_keeps | apply State.setAgg_keeps | exact within_of (by decide +kernel) w | exact within_bit (by decide +kernel) w | apply keeps_foldl | (intro u; first | (refine keeps_then (W := W) (s0 := s0) (a := u) ?_ ?_; subst u; rotate_left; intro _) | subst u | skip) | lift_lets -underBinder | dsimp -zeta only | split

theorem State.takeSeq_keeps {a1} (h : Keeps W s0 s) (w : Within 0x30000000000000000000000000000000000000000000000000000000000000000000000000000000000000000000000000000000000000000008 W) :
    KeepsS W s0 (State.takeSeq s a1) := by
  unfold State.takeSeq
  with_reducible repeat' first | assumption | apply State.wr_keeps | apply State.bump_keeps | exact within_of (by decide +kernel) w | exact within_bit (by decide +kernel) w | exact .inr (within_bit (by decide +kernel) w) | exact .inl rfl | simp -zeta only [keepsMk_iff, keepsS_mk_iff, keeps_snd_iff] | apply keeps_mk | apply keepsS_foldl | apply keeps_foldl | (intro u; first | (refine keeps_then (W := W) (s0 := s0) (a := u) ?_ ?_; subst u; rotate_left; intro _) | subst u | skip) | lift_lets -underBinder | dsimp -zeta only | split

theorem State.dropRecord_keeps {a1} (h : Keeps W s0 s) (w : Within 0x834000000000000000000000000000000000000000000000000000000000000000000000000000000000000000000000000000000000000000008 W) :
    Keeps W s0 (State.dropRecord s a1) := by
  unfold State.dropRecord
  with_reducible repeat' first | assumption | apply State.wr_keeps | apply State.bump_keeps | apply State.takeSeq_keeps | refine keeps_of_snd (by assumption) ?_ | exact within_of (by decide +kernel) w | exact within_bit (by decide +kernel) w | simp -zeta only [keepsS_mk_iff, keeps_snd_iff] | apply keepsS_foldl | apply keeps_foldl | (intro u; first | (refine keeps_then (W := W) (s0 := s0) (a := u) ?_ ?_; subst u; rotate_left; intro _) | subst u | skip) | lift_lets -underBinder | dsimp -zeta only | split

theorem State.logRecord_keeps {a1} (h : Keeps W s0 s) (w : Within 0x8350000000000000000000000000000000000000cae00000000000000000000000000000000000000000000000000000000000000000000900028 W) :
    Keeps W s0 (State.logRecord s a1) := by
  unfold State.logRecord
  with_reducible repeat' first | assumption | apply State.dropRecord_keeps | apply State.takeSeq_keeps | apply State.stackWrite_keeps | apply State.wr_keeps | apply State.postFault_keeps | refine keeps_of_snd (by assumption) ?_ | exact within_of (by decide +kernel) w | exact within_bit (by decide +kernel) w | simp -zeta only [keepsS_mk_iff, keeps_snd_iff] | apply keepsS_foldl | apply keeps_foldl | (intro u; first | (refine keeps_then (W := W) (s0 := s0) (a := u) ?_ ?_; subst u; rotate_left; intro _) | subst u | skip) | lift_lets -underBinder | dsimp -zeta only | split

end Sys2Proof.Machine
end

