-- ==== Sys2Proof/Laws/Keeps/Rings.lean ====
section
/-! SUPPORT. Laws/Keeps/Rings.lean: what every operation of Machine/Rings.lean keeps (the relation of Laws/Keeps.lean). -/
set_option Elab.async false
set_option linter.all false
set_option linter.unusedSimpArgs false
set_option linter.tactic.unusedName false
namespace Sys2Proof.Machine
variable {W : Nat} {s0 s : State}

theorem State.ringVector_keeps {a1} (h : Keeps W s0 s) (w : Within 0x800000 W) :
    Keeps W s0 (State.ringVector s a1) := by
  unfold State.ringVector
  with_reducible repeat' first | assumption | apply State.msix_keeps | exact within_of (by decide +kernel) w | exact within_bit (by decide +kernel) w | apply keeps_foldl | (intro u; first | (refine keeps_then (W := W) (s0 := s0) (a := u) ?_ ?_; subst u; rotate_left; intro _) | subst u | skip) | lift_lets -underBinder | dsimp -zeta only | split

theorem State.ringSignal_keeps {a1} (h : Keeps W s0 s) (w : Within 0x2000000000000000000000000000000000000000000000000000000000000000800010 W) :
    Keeps W s0 (State.ringSignal s a1) := by
  unfold State.ringSignal
  with_reducible repeat' first | assumption | apply State.wr_keeps | apply State.ringVector_keeps | apply State.setRingState_keeps | exact within_of (by decide +kernel) w | exact within_bit (by decide +kernel) w | apply keeps_foldl | (intro u; first | (refine keeps_then (W := W) (s0 := s0) (a := u) ?_ ?_; subst u; rotate_left; intro _) | subst u | skip) | lift_lets -underBinder | dsimp -zeta only | split

theorem State.faultFailed_keeps {a1} (h : Keeps W s0 s) (w : Within 0x600000000000000000000000000000000000000000080000000000000000000000000000000000000000000000000000000000000000000000008 W) :
    Keeps W s0 (State.faultFailed s a1) := by
  unfold State.faultFailed
  with_reducible repeat' first | assumption | apply State.report_keeps | apply State.bump_keeps | exact within_of (by decide +kernel) w | exact within_bit (by decide +kernel) w | apply keeps_foldl | (intro u; first | (refine keeps_then (W := W) (s0 := s0) (a := u) ?_ ?_; subst u; rotate_left; intro _) | subst u | skip) | lift_lets -underBinder | dsimp -zeta only | split

theorem State.requestPage_keeps {a1 a2} (h : Keeps W s0 s) (w : Within 0x40004000000000000000000000000000000000000000000000000000000000000000800000 W) :
    KeepsO W s0 (State.requestPage s a1 a2) := by
  unfold State.requestPage
  with_reducible repeat' first | assumption | apply keepsO_none | apply keepsO_some | apply State.wr_keeps | apply State.emit_keeps | apply State.bump_keeps | exact within_of (by decide +kernel) w | exact within_bit (by decide +kernel) w | apply keepsO_foldl | apply keepsO_mapState | apply keepsO_map | apply keeps_foldl | (intro u; first | (refine keeps_then (W := W) (s0 := s0) (a := u) ?_ ?_; subst u; rotate_left; intro _) | subst u | skip) | lift_lets -underBinder | dsimp -zeta only | split

theorem State.setWait_keeps {a1 a2} (h : Keeps W s0 s) (w : Within 0x10 W) :
    Keeps W s0 (State.setWait s a1 a2) := by
  unfold State.setWait
  with_reducible repeat' first | assumption | apply State.setRingState_keeps | exact within_of (by decide +kernel) w | exact within_bit (by decide +kernel) w | apply keeps_foldl | (intro u; first | (refine keeps_then (W := W) (s0 := s0) (a := u) ?_ ?_; subst u; rotate_left; intro _) | subst u | skip) | lift_lets -underBinder | dsimp -zeta only | split

theorem State.askPage_keeps {a1 a2 a3} (h : Keeps W s0 s) (w : Within 0x800010 W) :
    Keeps W s0 (State.askPage s a1 a2 a3) := by
  unfold State.askPage
  with_reducible repeat' first | assumption | apply State.setWait_keeps | apply State.emit_keeps | exact within_of (by decide +kernel) w | exact within_bit (by decide +kernel) w | apply keeps_foldl | (intro u; first | (refine keeps_then (W := W) (s0 := s0) (a := u) ?_ ?_; subst u; rotate_left; intro _) | subst u | skip) | lift_lets -underBinder | dsimp -zeta only | split

theorem State.parkPage_keeps {a1 a2 a3} (h : Keeps W s0 s) (w : Within 0x40004000000000000000000000000000000000000000000000000000000000000000800010 W) :
    Keeps W s0 (State.parkPage s a1 a2 a3) := by
  unfold State.parkPage
  with_reducible repeat' first | assumption | apply keepsO_some | apply keepsO_none | apply State.requestPage_keeps | apply State.setWait_keeps | refine keeps_of_some (by assumption) ?_ | exact keeps_of_some rfl (by assumption) | apply keeps_getD | exact within_of (by decide +kernel) w | exact within_bit (by decide +kernel) w | apply keeps_foldl | (intro u; first | (refine keeps_then (W := W) (s0 := s0) (a := u) ?_ ?_; subst u; rotate_left; intro _) | subst u | skip) | lift_lets -underBinder | dsimp -zeta only | split

theorem State.writebackOut_keeps {a1} (h : Keeps W s0 s) (w : Within 0x40004000000000000000000000000000000000000000000000000000000000000000800010 W) :
    Keeps W s0 (State.writebackOut s a1) := by
  unfold State.writebackOut
  with_reducible repeat' first | assumption | apply State.setRingState_keeps | apply State.emit_keeps | apply State.askPage_keeps | apply State.parkPage_keeps | exact within_of (by decide +kernel) w | exact within_bit (by decide +kernel) w | apply keeps_foldl | (intro u; first | (refine keeps_then (W := W) (s0 := s0) (a := u) ?_ ?_; subst u; rotate_left; intro _) | subst u | skip) | lift_lets -underBinder | dsimp -zeta only | split

theorem State.ringError_keeps {a1 a2} (h : Keeps W s0 s) (w : Within 0x40005800000000000000000000000000000000000000000000000000000000000000800010 W) :
    Keeps W s0 (State.ringError s a1 a2) := by
  unfold State.ringError
  with_reducible repeat' first | assumption | apply State.wr_keeps | apply State.ringVector_keeps | apply State.writebackOut_keeps | apply State.setWait_keeps | exact within_of (by decide +kernel) w | exact within_bit (by decide +kernel) w | apply keeps_foldl | (intro u; first | (refine keeps_then (W := W) (s0 := s0) (a := u) ?_ ?_; subst u; rotate_left; intro _) | subst u | skip) | lift_lets -underBinder | dsimp -zeta only | split

theorem State.ringFault_keeps {a1} (h : Keeps W s0 s) (w : Within 0x6000000000000000000000000000000000000000000c0005800000000000000000000000000000000000000000000000000000000000000800018 W) :
    Keeps W s0 (State.ringFault s a1) := by
  unfold State.ringFault
  with_reducible repeat' first | assumption | apply State.ringError_keeps | apply State.faultFailed_keeps | exact within_of (by decide +kernel) w | exact within_bit (by decide +kernel) w | apply keeps_foldl | (intro u; first | (refine keeps_then (W := W) (s0 := s0) (a := u) ?_ ?_; subst u; rotate_left; intro _) | subst u | skip) | lift_lets -underBinder | dsimp -zeta only | split

theorem State.writeback_keeps {a1} (h : Keeps W s0 s) (w : Within 0x6000000000000000000000000000000000000000000c0005800000000000000000000000000000000000000000000000000000000000000800018 W) :
    Keeps W s0 (State.writeback s a1) := by
  unfold State.writeback
  with_reducible repeat' first | assumption | apply State.ringError_keeps | apply State.ringFault_keeps | apply State.writebackOut_keeps | exact within_of (by decide +kernel) w | exact within_bit (by decide +kernel) w | apply keeps_foldl | (intro u; first | (refine keeps_then (W := W) (s0 := s0) (a := u) ?_ ?_; subst u; rotate_left; intro _) | subst u | skip) | lift_lets -underBinder | dsimp -zeta only | split

theorem State.ringReach_keeps {a1 a2 a3} (h : Keeps W s0 s) (w : Within 0x6000000000000000000000000000000000000000000c0005800000000000000000000000000000000000000000000000000000000000000800018 W) :
    KeepsS W s0 (State.ringReach s a1 a2 a3) := by
  unfold State.ringReach
  with_reducible repeat' first | assumption | apply State.askPage_keeps | apply State.parkPage_keeps | apply State.ringFault_keeps | exact within_of (by decide +kernel) w | exact within_bit (by decide +kernel) w | simp -zeta only [keepsS_mk_iff, keeps_snd_iff] | apply keepsS_foldl | apply keeps_foldl | (intro u; first | (refine keeps_then (W := W) (s0 := s0) (a := u) ?_ ?_; subst u; rotate_left; intro _) | subst u | skip) | lift_lets -underBinder | dsimp -zeta only | split

theorem State.ringWrite_keeps {a1 a2 a3} (h : Keeps W s0 s) (w : Within 0x6000000000000000000000000000000000000000000c0025c00000000000000000000000000000000000000000000000000000000000000800018 W) :
    KeepsS W s0 (State.ringWrite s a1 a2 a3) := by
  unfold State.ringWrite
  with_reducible repeat' first | assumption | apply State.ringError_keeps | apply State.ringReach_keeps | apply State.wr_keeps | apply State.emit_keeps | apply State.setRingState_keeps | refine keeps_of_snd (by assumption) ?_ | exact within_of (by decide +kernel) w | exact within_bit (by decide +kernel) w | simp -zeta only [keepsS_mk_iff, keeps_snd_iff] | apply keepsS_foldl | apply keeps_foldl | (intro u; first | (refine keeps_then (W := W) (s0 := s0) (a := u) ?_ ?_; subst u; rotate_left; intro _) | subst u | skip) | lift_lets -underBinder | dsimp -zeta only | split

theorem State.ringWriteList_keeps {a1 a2 a3} (h : Keeps W s0 s) (w : Within 0x6000000000000000000000000000000000000000000c0025c00000000000000000000000000000000000000000000000000000000000000800018 W) : KeepsS W s0 (State.ringWriteList s a1 a2 a3) := by
  induction a3 generalizing s with
  | nil => exact h
  | cons v vs ih =>
    unfold State.ringWriteList
    split
    · exact h
    · have := State.ringWrite_keeps (a1 := a1) (a2 := a2) (a3 := v) h (within_of (by decide +kernel) w)
      split
      · exact ih (keeps_of_snd ‹_› this)
      · exact keeps_of_snd ‹_› this

theorem State.ringTry_keeps {a1 a2 a3} (h : Keeps W s0 s) (w : Within 0x6000000000000000000000000000000000000000000c0027c00000000000000000000000000000000000000000000000000000000000000800018 W) :
    KeepsS W s0 (State.ringTry s a1 a2 a3) := by
  unfold State.ringTry
  with_reducible repeat' first | assumption | apply State.ringWriteList_keeps | apply State.ringSignal_keeps | apply State.writeback_keeps | refine keeps_of_snd (by assumption) ?_ | exact within_of (by decide +kernel) w | exact within_bit (by decide +kernel) w | simp -zeta only [keepsS_mk_iff, keeps_snd_iff] | apply keepsS_foldl | apply keeps_foldl | (intro u; first | (refine keeps_then (W := W) (s0 := s0) (a := u) ?_ ?_; subst u; rotate_left; intro _) | subst u | skip) | lift_lets -underBinder | dsimp -zeta only | split

theorem State.ringPush_keeps {a1 a2 a3} (h : Keeps W s0 s) (w : Within 0x6000000000000000000000000000000000000000000c0027c00000000000000000000000000000000000000000000000000000000000000800018 W) :
    Keeps W s0 (State.ringPush s a1 a2 a3) := by
  unfold State.ringPush
  with_reducible repeat' first | assumption | apply State.ringTry_keeps | apply State.setRingState_keeps | refine keeps_of_snd (by assumption) ?_ | exact within_of (by decide +kernel) w | exact within_bit (by decide +kernel) w | simp -zeta only [keepsS_mk_iff, keeps_snd_iff] | apply keepsS_foldl | apply keeps_foldl | (intro u; first | (refine keeps_then (W := W) (s0 := s0) (a := u) ?_ ?_; subst u; rotate_left; intro _) | subst u | skip) | lift_lets -underBinder | dsimp -zeta only | split

theorem State.ringFlush_keeps {a1} (h : Keeps W s0 s) (w : Within 0x6000000000000000000000000000000000000000000c0027c00000000000000000000000000000000000000000000000000000000000000800018 W) :
    Keeps W s0 (State.ringFlush s a1) := by
  unfold State.ringFlush
  with_reducible repeat' first | assumption | apply State.ringTry_keeps | apply State.setRingState_keeps | refine keeps_of_snd (by assumption) ?_ | exact within_of (by decide +kernel) w | exact within_bit (by decide +kernel) w | simp -zeta only [keepsS_mk_iff, keeps_snd_iff] | apply keepsS_foldl | apply keeps_foldl | (intro u; first | (refine keeps_then (W := W) (s0 := s0) (a := u) ?_ ?_; subst u; rotate_left; intro _) | subst u | skip) | lift_lets -underBinder | dsimp -zeta only | split

theorem State.ringRetry_keeps {a1} (h : Keeps W s0 s) (w : Within 0x6000000000000000000000000000000000000000000c0027c00000000000000000000000000000000000000000000000000000000000000800018 W) :
    Keeps W s0 (State.ringRetry s a1) := by
  unfold State.ringRetry
  with_reducible repeat' first | assumption | apply State.writeback_keeps | apply State.ringFlush_keeps | exact within_of (by decide +kernel) w | exact within_bit (by decide +kernel) w | apply keeps_foldl | (intro u; first | (refine keeps_then (W := W) (s0 := s0) (a := u) ?_ ?_; subst u; rotate_left; intro _) | subst u | skip) | lift_lets -underBinder | dsimp -zeta only | split

theorem State.consume_keeps {a1} (h : Keeps W s0 s) (w : Within 0x6000000000000000000000000000000000000000000c0025a00000000000000000000000000000000000000000000000000000000000000800018 W) :
    Keeps W s0 (State.consume s a1) := by
  unfold State.consume
  with_reducible repeat' first | assumption | apply State.writeback_keeps | apply State.wr_keeps | exact within_of (by decide +kernel) w | exact within_bit (by decide +kernel) w | apply keeps_foldl | (intro u; first | (refine keeps_then (W := W) (s0 := s0) (a := u) ?_ ?_; subst u; rotate_left; intro _) | subst u | skip) | lift_lets -underBinder | dsimp -zeta only | split

theorem State.fetched_keeps {a1} (h : Keeps W s0 s) (w : Within 0x6000000000000000000000000000000000000000000c0005800000000000000000000000000000000000000000000000000000000000000800018 W) :
    KeepsS W s0 (State.fetched s a1) := by
  unfold State.fetched
  with_reducible repeat' first | assumption | apply State.ringReach_keeps | apply State.ringError_keeps | refine keeps_of_snd (by assumption) ?_ | exact within_of (by decide +kernel) w | exact within_bit (by decide +kernel) w | simp -zeta only [keepsS_mk_iff, keeps_snd_iff] | apply keepsS_foldl | apply keeps_foldl | (intro u; first | (refine keeps_then (W := W) (s0 := s0) (a := u) ?_ ?_; subst u; rotate_left; intro _) | subst u | skip) | lift_lets -underBinder | dsimp -zeta only | split

theorem State.fetch_keeps {a1 a2 a3} (h : Keeps W s0 s) (w : Within 0x6000000000000000000000000000000000000000000c0025a00000000000000000000000000000000000000000000000000000000000000800018 W) (h3 : ∀ a, Keeps W s0 a → Keeps W s0 (a3 a)) :
    Keeps W s0 (State.fetch s a1 a2 a3) := by
  unfold State.fetch
  with_reducible repeat' first | assumption | apply h3 | apply State.fetched_keeps | apply State.consume_keeps | refine keeps_of_snd (by assumption) ?_ | exact within_of (by decide +kernel) w | exact within_bit (by decide +kernel) w | simp -zeta only [keepsS_mk_iff, keeps_snd_iff] | apply keepsS_foldl | apply keeps_foldl | (intro u; first | (refine keeps_then (W := W) (s0 := s0) (a := u) ?_ ?_; subst u; rotate_left; intro _) | subst u | skip) | lift_lets -underBinder | dsimp -zeta only | split

theorem State.enableRing_keeps {a1} (h : Keeps W s0 s) (w : Within 0x6000000000000000000000000000000000000000000c0027e01000000000000000000000000000000000000000000000000000000000000800018 W) :
    Keeps W s0 (State.enableRing s a1) := by
  unfold State.enableRing
  with_reducible repeat' first | assumption | apply State.wr_keeps | apply State.setRingState_keeps | apply State.ringFlush_keeps | apply State.writeback_keeps | exact within_of (by decide +kernel) w | exact within_bit (by decide +kernel) w | apply keeps_foldl | (intro u; first | (refine keeps_then (W := W) (s0 := s0) (a := u) ?_ ?_; subst u; rotate_left; intro _) | subst u | skip) | lift_lets -underBinder | dsimp -zeta only | split

theorem State.showWait_keeps {a1} (h : Keeps W s0 s) (w : Within 0x4000000000000000000000000000000000000000000000000000000000000000000000 W) :
    Keeps W s0 (State.showWait s a1) := by
  unfold State.showWait
  with_reducible repeat' first | assumption | apply State.wr_keeps | exact within_of (by decide +kernel) w | exact within_bit (by decide +kernel) w | apply keeps_foldl | (intro u; first | (refine keeps_then (W := W) (s0 := s0) (a := u) ?_ ?_; subst u; rotate_left; intro _) | subst u | skip) | lift_lets -underBinder | dsimp -zeta only | split

theorem State.dmaEnd_keeps {a1 a2} (h : Keeps W s0 s) (w : Within 0x6000000000000000000000000000000000000000000c0027c00000000000000000000000000000000000000000000000000000000000000800018 W) :
    Keeps W s0 (State.dmaEnd s a1 a2) := by
  unfold State.dmaEnd
  with_reducible repeat' first | assumption | apply State.showWait_keeps | apply State.setRingState_keeps | apply State.ringPush_keeps | exact within_of (by decide +kernel) w | exact within_bit (by decide +kernel) w | apply keeps_foldl | (intro u; first | (refine keeps_then (W := W) (s0 := s0) (a := u) ?_ ?_; subst u; rotate_left; intro _) | subst u | skip) | lift_lets -underBinder | dsimp -zeta only | split

theorem State.dmaStop_keeps {a1 a2} (h : Keeps W s0 s) (w : Within 0x6000000000000000000000000000000000000000000c0027c00000000000000000000000000000000000000000000000000000000000000800018 W) :
    Keeps W s0 (State.dmaStop s a1 a2) := by
  unfold State.dmaStop
  with_reducible repeat' first | assumption | apply State.dmaEnd_keeps | apply State.setRingState_keeps | exact within_of (by decide +kernel) w | exact within_bit (by decide +kernel) w | apply keeps_foldl | (intro u; first | (refine keeps_then (W := W) (s0 := s0) (a := u) ?_ ?_; subst u; rotate_left; intro _) | subst u | skip) | lift_lets -underBinder | dsimp -zeta only | split

theorem State.dmaForget_keeps {a1} (h : Keeps W s0 s) (w : Within 0x4000000000000000000000000000000000000000000000000000000000000000000010 W) :
    Keeps W s0 (State.dmaForget s a1) := by
  unfold State.dmaForget
  with_reducible repeat' first | assumption | apply State.showWait_keeps | apply State.setRingState_keeps | exact within_of (by decide +kernel) w | exact within_bit (by decide +kernel) w | apply keeps_foldl | (intro u; first | (refine keeps_then (W := W) (s0 := s0) (a := u) ?_ ?_; subst u; rotate_left; intro _) | subst u | skip) | lift_lets -underBinder | dsimp -zeta only | split

theorem State.disableRing_keeps {a1} (h : Keeps W s0 s) (w : Within 0x40006801000000000000000000000000000000000000000000000000000000000000800010 W) :
    Keeps W s0 (State.disableRing s a1) := by
  unfold State.disableRing
  with_reducible repeat' first | assumption | apply State.wr_keeps | apply State.writebackOut_keeps | apply State.setRingState_keeps | exact within_of (by decide +kernel) w | exact within_bit (by decide +kernel) w | apply keeps_foldl | (intro u; first | (refine keeps_then (W := W) (s0 := s0) (a := u) ?_ ?_; subst u; rotate_left; intro _) | subst u | skip) | lift_lets -underBinder | dsimp -zeta only | split

theorem State.stopRing_keeps {a1} (h : Keeps W s0 s) (w : Within 0x6000000000000000000000000000000000000000000c0027c00000000000000000000000000000000000000000000000000000000000000800018 W) :
    Keeps W s0 (State.stopRing s a1) := by
  unfold State.stopRing
  with_reducible repeat' first | assumption | apply State.writeback_keeps | apply State.dmaStop_keeps | apply State.wr_keeps | exact within_of (by decide +kernel) w | exact within_bit (by decide +kernel) w | apply keeps_foldl | (intro u; first | (refine keeps_then (W := W) (s0 := s0) (a := u) ?_ ?_; subst u; rotate_left; intro _) | subst u | skip) | lift_lets -underBinder | dsimp -zeta only | split

theorem State.resumeRing_keeps {a1} (h : Keeps W s0 s) (w : Within 0x6000000000000000000000000000000000000000000c0005800000000000000000000000000000000000000000000000000000000000000800018 W) :
    Keeps W s0 (State.resumeRing s a1) := by
  unfold State.resumeRing
  with_reducible repeat' first | assumption | apply State.writeback_keeps | apply State.wr_keeps | exact within_of (by decide +kernel) w | exact within_bit (by decide +kernel) w | apply keeps_foldl | (intro u; first | (refine keeps_then (W := W) (s0 := s0) (a := u) ?_ ?_; subst u; rotate_left; intro _) | subst u | skip) | lift_lets -underBinder | dsimp -zeta only | split

end Sys2Proof.Machine
end

