-- ==== Sys2Proof/Laws/Keeps/ZlOps.lean ====
section
/-! SUPPORT. Laws/Keeps/ZlOps.lean: what every operation of Machine/ZlOps.lean keeps (the relation of Laws/Keeps.lean). -/
set_option Elab.async false
set_option linter.all false
set_option linter.unusedSimpArgs false
set_option linter.tactic.unusedName false
namespace Sys2Proof.Machine
variable {W : Nat} {s0 s : State}

theorem State.zlStamp_keeps {a1 a2 a3 a4 a5} (h : Keeps W s0 s) (w : Within 0x40000000000000000000000000000000000000000000000000000000000000000000000000000000000001000 W) :
    Keeps W s0 (State.zlStamp s a1 a2 a3 a4 a5) := by
  unfold State.zlStamp
  with_reducible repeat' first | assumption | apply State.bump_keeps | apply State.setZl_keeps | exact within_of (by decide +kernel) w | exact within_bit (by decide +kernel) w | apply keeps_foldl | (intro u; first | (refine keeps_then (W := W) (s0 := s0) (a := u) ?_ ?_; subst u; rotate_left; intro _) | subst u | skip) | lift_lets -underBinder | dsimp -zeta only | split

theorem State.zlSend_keeps {a1 a2 a3 a4 a5} (h : Keeps W s0 s) (w : Within 0x40000000000000000000000000000000000000000000000000000000000000000000000000000000000801000 W) :
    Keeps W s0 (State.zlSend s a1 a2 a3 a4 a5) := by
  unfold State.zlSend
  with_reducible repeat' first | assumption | apply State.emit_keeps | apply State.zlStamp_keeps | exact within_of (by decide +kernel) w | exact within_bit (by decide +kernel) w | apply keeps_foldl | (intro u; first | (refine keeps_then (W := W) (s0 := s0) (a := u) ?_ ?_; subst u; rotate_left; intro _) | subst u | skip) | lift_lets -underBinder | dsimp -zeta only | split

theorem State.zlDrain_keeps {a0 a2} (h : Keeps W s0 s) (w : Within 0x40000000000000000000000000000000000000000000000000000000000000000000000000000000000801000 W) :
    Keeps W s0 (State.zlDrain a0 s a2) := by
  induction a0 generalizing s with
  | zero => exact h
  | succ n ih =>
    unfold State.zlDrain
    with_reducible repeat' first | assumption | apply ih | apply State.setZl_keeps | apply State.zlSend_keeps | exact within_of (by decide +kernel) w | exact within_bit (by decide +kernel) w | exact .inr (within_bit (by decide +kernel) w) | exact .inl rfl | simp -zeta only [keepsMk_iff] | apply keeps_mk | apply keeps_foldl | (intro u; first | (refine keeps_then (W := W) (s0 := s0) (a := u) ?_ ?_; subst u; rotate_left; intro _) | subst u | skip) | lift_lets -underBinder | dsimp -zeta only | split

theorem State.zlMsg_keeps {a1 a2 a3 a4 a5} (h : Keeps W s0 s) (w : Within 0x40000000000000000000000000000000000000000000000000000000000000000000000000000000000801000 W) :
    Keeps W s0 (State.zlMsg s a1 a2 a3 a4 a5) := by
  unfold State.zlMsg
  with_reducible repeat' first | assumption | apply State.setZl_keeps | apply State.zlDrain_keeps | exact within_of (by decide +kernel) w | exact within_bit (by decide +kernel) w | apply keeps_foldl | (intro u; first | (refine keeps_then (W := W) (s0 := s0) (a := u) ?_ ?_; subst u; rotate_left; intro _) | subst u | skip) | lift_lets -underBinder | dsimp -zeta only | split

theorem State.zlLink_keeps {a1 a2 a3 a4} (h : Keeps W s0 s) (w : Within 0x40000000000000000000000000000000000000000000000000000000000000000000000000000000000801000 W) :
    Keeps W s0 (State.zlLink s a1 a2 a3 a4) := by
  unfold State.zlLink
  with_reducible repeat' first | assumption | apply State.zlSend_keeps | exact within_of (by decide +kernel) w | exact within_bit (by decide +kernel) w | apply keeps_foldl | (intro u; first | (refine keeps_then (W := W) (s0 := s0) (a := u) ?_ ?_; subst u; rotate_left; intro _) | subst u | skip) | lift_lets -underBinder | dsimp -zeta only | split

theorem State.chainSendAll_keeps {a1 a2 a3 a4} (h : Keeps W s0 s) (w : Within 0x40000000000000000000000000000000000000000000000000000000000000000000000000000000000801000 W) :
    Keeps W s0 (State.chainSendAll s a1 a2 a3 a4) := by
  unfold State.chainSendAll
  with_reducible repeat' first | assumption | apply State.forEach_keeps | apply State.zlMsg_keeps | exact within_of (by decide +kernel) w | exact within_bit (by decide +kernel) w | apply keeps_foldl | (intro u; first | (refine keeps_then (W := W) (s0 := s0) (a := u) ?_ ?_; subst u; rotate_left; intro _) | subst u | skip) | lift_lets -underBinder | dsimp -zeta only | split

theorem State.chainSend_keeps {a1 a2 a3} (h : Keeps W s0 s) (w : Within 0x40000000000000000000000000000000000000000000000000000000000000000000000000000000000801000 W) :
    Keeps W s0 (State.chainSend s a1 a2 a3) := by
  unfold State.chainSend
  with_reducible repeat' first | assumption | apply State.chainSendAll_keeps | exact within_of (by decide +kernel) w | exact within_bit (by decide +kernel) w | apply keeps_foldl | (intro u; first | (refine keeps_then (W := W) (s0 := s0) (a := u) ?_ ?_; subst u; rotate_left; intro _) | subst u | skip) | lift_lets -underBinder | dsimp -zeta only | split

end Sys2Proof.Machine
end

