-- ==== Sys2Proof/Laws/Keeps/ServingOps.lean ====
section
/-! SUPPORT. Laws/Keeps/ServingOps.lean: what every operation of Machine/ServingOps.lean keeps (the relation of Laws/Keeps.lean). -/
set_option Elab.async false
set_option linter.all false
set_option linter.unusedSimpArgs false
set_option linter.tactic.unusedName false
namespace Sys2Proof.Machine
variable {W : Nat} {s0 s : State}

theorem State.emptyTier_keeps {a1} (h : Keeps W s0 s) (w : Within 0x7e000002080 W) :
    Keeps W s0 (State.emptyTier s a1) := by
  unfold State.emptyTier
  with_reducible repeat' first | assumption | apply State.wr_keeps | exact within_of (by decide +kernel) w | exact within_bit (by decide +kernel) w | exact .inr (within_bit (by decide +kernel) w) | exact .inl rfl | simp -zeta only [keepsMk_iff] | apply keeps_mk | apply keeps_foldl | (intro u; first | (refine keeps_then (W := W) (s0 := s0) (a := u) ?_ ?_; subst u; rotate_left; intro _) | subst u | skip) | lift_lets -underBinder | dsimp -zeta only | split

theorem State.freeEpoch_keeps {a1 a2} (h : Keeps W s0 s) (w : Within 0x78000000000000000000000000000007e000002080 W) :
    Keeps W s0 (State.freeEpoch s a1 a2) := by
  unfold State.freeEpoch
  with_reducible repeat' first | assumption | apply State.clearFields_keeps | apply State.setEpochInfo_keeps | apply State.emptyTier_keeps | exact within_of (by decide +kernel) w | exact within_bit (by decide +kernel) w | exact .inr (within_bit (by decide +kernel) w) | exact .inl rfl | simp -zeta only [keepsMk_iff] | apply keeps_mk | apply keeps_foldl | (intro u; first | (refine keeps_then (W := W) (s0 := s0) (a := u) ?_ ?_; subst u; rotate_left; intro _) | subst u | skip) | lift_lets -underBinder | dsimp -zeta only | split

theorem State.retire_keeps {a1 a2} (h : Keeps W s0 s) (w : Within 0x4000000000000000000000000000000000000000000000078000000000000000000000000000007e000803080 W) :
    Keeps W s0 (State.retire s a1 a2) := by
  unfold State.retire
  with_reducible repeat' first | assumption | apply State.chainSend_keeps | apply State.freeEpoch_keeps | exact within_of (by decide +kernel) w | exact within_bit (by decide +kernel) w | apply keeps_foldl | (intro u; first | (refine keeps_then (W := W) (s0 := s0) (a := u) ?_ ?_; subst u; rotate_left; intro _) | subst u | skip) | lift_lets -underBinder | dsimp -zeta only | split

theorem State.epochRef_keeps {a1 a2} (h : Keeps W s0 s) (w : Within 0x400000000000000000000000000000000000000000 W) :
    Keeps W s0 (State.epochRef s a1 a2) := by
  unfold State.epochRef
  with_reducible repeat' first | assumption | apply State.bump_keeps | exact within_of (by decide +kernel) w | exact within_bit (by decide +kernel) w | apply keeps_foldl | (intro u; first | (refine keeps_then (W := W) (s0 := s0) (a := u) ?_ ?_; subst u; rotate_left; intro _) | subst u | skip) | lift_lets -underBinder | dsimp -zeta only | split

theorem State.epochUnref_keeps {a1 a2} (h : Keeps W s0 s) (w : Within 0x4000000000000000000000000000000000000000000000078000000000000000000000000000007e000803080 W) :
    Keeps W s0 (State.epochUnref s a1 a2) := by
  unfold State.epochUnref
  with_reducible repeat' first | assumption | apply State.retire_keeps | apply State.wr_keeps | exact within_of (by decide +kernel) w | exact within_bit (by decide +kernel) w | apply keeps_foldl | (intro u; first | (refine keeps_then (W := W) (s0 := s0) (a := u) ?_ ?_; subst u; rotate_left; intro _) | subst u | skip) | lift_lets -underBinder | dsimp -zeta only | split

theorem State.adapterSettle_keeps {a1} (h : Keeps W s0 s) (w : Within 0x700000000000000000000000000000000000000000080 W) :
    Keeps W s0 (State.adapterSettle s a1) := by
  unfold State.adapterSettle
  with_reducible repeat' first | assumption | apply State.wr_keeps | exact within_of (by decide +kernel) w | exact within_bit (by decide +kernel) w | exact .inr (within_bit (by decide +kernel) w) | exact .inl rfl | simp -zeta only [keepsMk_iff] | apply keeps_mk | apply keeps_foldl | (intro u; first | (refine keeps_then (W := W) (s0 := s0) (a := u) ?_ ?_; subst u; rotate_left; intro _) | subst u | skip) | lift_lets -underBinder | dsimp -zeta only | split

theorem State.adapterRef_keeps {a1} (h : Keeps W s0 s) (w : Within 0x800000000000000000000000000000000000000000000 W) :
    Keeps W s0 (State.adapterRef s a1) := by
  unfold State.adapterRef
  with_reducible repeat' first | assumption | apply State.bump_keeps | exact within_of (by decide +kernel) w | exact within_bit (by decide +kernel) w | apply keeps_foldl | (intro u; first | (refine keeps_then (W := W) (s0 := s0) (a := u) ?_ ?_; subst u; rotate_left; intro _) | subst u | skip) | lift_lets -underBinder | dsimp -zeta only | split

theorem State.adapterUnref_keeps {a1} (h : Keeps W s0 s) (w : Within 0xf00000000000000000000000000000000000000000080 W) :
    Keeps W s0 (State.adapterUnref s a1) := by
  unfold State.adapterUnref
  with_reducible repeat' first | assumption | apply State.adapterSettle_keeps | apply State.wr_keeps | exact within_of (by decide +kernel) w | exact within_bit (by decide +kernel) w | apply keeps_foldl | (intro u; first | (refine keeps_then (W := W) (s0 := s0) (a := u) ?_ ?_; subst u; rotate_left; intro _) | subst u | skip) | lift_lets -underBinder | dsimp -zeta only | split

theorem State.placePages_keeps {a1 a2} (h : Keeps W s0 s) (w : Within 0x100040 W) :
    Keeps W s0 (State.placePages s a1 a2) := by
  induction a2 generalizing s with
  | nil => exact h
  | cons x rest ih =>
    unfold State.placePages
    with_reducible repeat' first | assumption | apply ih | apply State.setRequest_keeps | apply State.stackWrite_keeps | exact within_of (by decide +kernel) w | exact within_bit (by decide +kernel) w | exact .inr (within_bit (by decide +kernel) w) | exact .inl rfl | simp -zeta only [keepsMk_iff] | apply keeps_mk | apply keeps_foldl | (intro u; first | (refine keeps_then (W := W) (s0 := s0) (a := u) ?_ ?_; subst u; rotate_left; intro _) | subst u | skip) | lift_lets -underBinder | dsimp -zeta only | split

theorem State.getPages_keeps {a1 a2} (h : Keeps W s0 s) (w : Within 0x1100040 W) :
    KeepsO W s0 (State.getPages s a1 a2) := by
  unfold State.getPages
  with_reducible repeat' first | assumption | apply keepsO_none | apply keepsO_some | apply State.setRequest_keeps | apply State.placePages_keeps | refine keeps_draw ?_ ?_ | exact within_of (by decide +kernel) w | exact within_bit (by decide +kernel) w | exact .inr (within_bit (by decide +kernel) w) | exact .inl rfl | simp -zeta only [keepsMk_iff] | apply keeps_mk | apply keepsO_foldl | apply keepsO_mapState | apply keepsO_map | apply keeps_foldl | (intro u; first | (refine keeps_then (W := W) (s0 := s0) (a := u) ?_ ?_; subst u; rotate_left; intro _) | subst u | skip) | lift_lets -underBinder | dsimp -zeta only | split

theorem State.trimPages_keeps {a1} (h : Keeps W s0 s) (w : Within 0x40 W) :
    Keeps W s0 (State.trimPages s a1) := by
  unfold State.trimPages
  with_reducible repeat' first | assumption | apply State.setRequest_keeps | exact within_of (by decide +kernel) w | exact within_bit (by decide +kernel) w | apply keeps_foldl | (intro u; first | (refine keeps_then (W := W) (s0 := s0) (a := u) ?_ ?_; subst u; rotate_left; intro _) | subst u | skip) | lift_lets -underBinder | dsimp -zeta only | split

theorem State.tryReserve_keeps {a1} (h : Keeps W s0 s) (w : Within 0x40 W) :
    Keeps W s0 (State.tryReserve s a1) := by
  unfold State.tryReserve
  with_reducible repeat' first | assumption | apply State.setRequest_keeps | exact within_of (by decide +kernel) w | exact within_bit (by decide +kernel) w | apply keeps_foldl | (intro u; first | (refine keeps_then (W := W) (s0 := s0) (a := u) ?_ ?_; subst u; rotate_left; intro _) | subst u | skip) | lift_lets -underBinder | dsimp -zeta only | split

theorem State.setPrefix_keeps {a1 a2} (h : Keeps W s0 s) (w : Within 0x40 W) :
    Keeps W s0 (State.setPrefix s a1 a2) := by
  unfold State.setPrefix
  with_reducible repeat' first | assumption | exact within_of (by decide +kernel) w | exact within_bit (by decide +kernel) w | exact .inr (within_bit (by decide +kernel) w) | exact .inl rfl | simp -zeta only [keepsMk_iff] | apply keeps_mk | apply keeps_foldl | (intro u; first | (refine keeps_then (W := W) (s0 := s0) (a := u) ?_ ?_; subst u; rotate_left; intro _) | subst u | skip) | lift_lets -underBinder | dsimp -zeta only | split

theorem State.prefixUnref_keeps {a0 a2} (h : Keeps W s0 s) (w : Within 0x40 W) :
    Keeps W s0 (State.prefixUnref a0 s a2) := by
  induction a0 generalizing s a2 with
  | zero => exact h
  | succ n ih =>
    unfold State.prefixUnref
    with_reducible repeat' first | assumption | apply ih | apply State.setPrefix_keeps | exact within_of (by decide +kernel) w | exact within_bit (by decide +kernel) w | exact .inr (within_bit (by decide +kernel) w) | exact .inl rfl | simp -zeta only [keepsMk_iff] | apply keeps_mk | apply keeps_foldl | (intro u; first | (refine keeps_then (W := W) (s0 := s0) (a := u) ?_ ?_; subst u; rotate_left; intro _) | subst u | skip) | lift_lets -underBinder | dsimp -zeta only | split

theorem State.prefixDropAt_keeps {a1} (h : Keeps W s0 s) (w : Within 0x40 W) :
    Keeps W s0 (State.prefixDropAt s a1) := by
  unfold State.prefixDropAt
  with_reducible repeat' first | assumption | apply State.setPrefix_keeps | apply State.prefixUnref_keeps | exact within_of (by decide +kernel) w | exact within_bit (by decide +kernel) w | apply keeps_foldl | (intro u; first | (refine keeps_then (W := W) (s0 := s0) (a := u) ?_ ?_; subst u; rotate_left; intro _) | subst u | skip) | lift_lets -underBinder | dsimp -zeta only | split

theorem State.retired_keeps {a1} (h : Keeps W s0 s) (w : Within 0x20000000000000000000000400 W) :
    Keeps W s0 (State.retired s a1) := by
  unfold State.retired
  with_reducible repeat' first | assumption | apply State.setCore_keeps | apply State.bump_keeps | exact within_of (by decide +kernel) w | exact within_bit (by decide +kernel) w | apply keeps_foldl | (intro u; first | (refine keeps_then (W := W) (s0 := s0) (a := u) ?_ ?_; subst u; rotate_left; intro _) | subst u | skip) | lift_lets -underBinder | dsimp -zeta only | split

theorem State.landed_keeps {a1 a2} (h : Keeps W s0 s) (w : Within 0x400 W) :
    Keeps W s0 (State.landed s a1 a2) := by
  unfold State.landed
  with_reducible repeat' first | assumption | apply State.setCore_keeps | exact within_of (by decide +kernel) w | exact within_bit (by decide +kernel) w | apply keeps_foldl | (intro u; first | (refine keeps_then (W := W) (s0 := s0) (a := u) ?_ ?_; subst u; rotate_left; intro _) | subst u | skip) | lift_lets -underBinder | dsimp -zeta only | split

theorem State.abortMvm_keeps {a1} (h : Keeps W s0 s) (w : Within 0x500 W) :
    Keeps W s0 (State.abortMvm s a1) := by
  unfold State.abortMvm
  with_reducible repeat' first | assumption | apply State.landed_keeps | apply State.setArray_keeps | exact within_of (by decide +kernel) w | exact within_bit (by decide +kernel) w | apply keeps_foldl | (intro u; first | (refine keeps_then (W := W) (s0 := s0) (a := u) ?_ ?_; subst u; rotate_left; intro _) | subst u | skip) | lift_lets -underBinder | dsimp -zeta only | split

theorem State.settlePass_keeps {a1} (h : Keeps W s0 s) (w : Within 0x400 W) :
    Keeps W s0 (State.settlePass s a1) := by
  unfold State.settlePass
  with_reducible repeat' first | assumption | apply State.setCore_keeps | exact within_of (by decide +kernel) w | exact within_bit (by decide +kernel) w | apply keeps_foldl | (intro u; first | (refine keeps_then (W := W) (s0 := s0) (a := u) ?_ ?_; subst u; rotate_left; intro _) | subst u | skip) | lift_lets -underBinder | dsimp -zeta only | split

theorem State.dropCore_keeps {a1 a2 a3 a4} (h : Keeps W s0 s) (w : Within 0x420000000000000000000000500 W) :
    Keeps W s0 (State.dropCore s a1 a2 a3 a4) := by
  unfold State.dropCore
  with_reducible repeat' first | assumption | apply State.forEach_keeps | apply State.abortMvm_keeps | apply State.landed_keeps | apply State.setCore_keeps | apply State.bump_keeps | apply State.settlePass_keeps | apply State.retired_keeps | exact within_of (by decide +kernel) w | exact within_bit (by decide +kernel) w | apply keeps_foldl | (intro u; first | (refine keeps_then (W := W) (s0 := s0) (a := u) ?_ ?_; subst u; rotate_left; intro _) | subst u | skip) | lift_lets -underBinder | dsimp -zeta only | split

theorem State.dropWork_keeps {a1 a2 a3} (h : Keeps W s0 s) (w : Within 0x420000000000000000000001d00 W) :
    Keeps W s0 (State.dropWork s a1 a2 a3) := by
  unfold State.dropWork
  with_reducible repeat' first | assumption | apply State.forEach_keeps | apply State.dropCore_keeps | exact within_of (by decide +kernel) w | exact within_bit (by decide +kernel) w | exact .inr (within_bit (by decide +kernel) w) | exact .inl rfl | simp -zeta only [keepsMk_iff] | apply keeps_mk | apply keeps_foldl | (intro u; first | (refine keeps_then (W := W) (s0 := s0) (a := u) ?_ ?_; subst u; rotate_left; intro _) | subst u | skip) | lift_lets -underBinder | dsimp -zeta only | split

theorem State.leavePass_keeps {a1 a2} (h : Keeps W s0 s) (w : Within 0x40 W) :
    Keeps W s0 (State.leavePass s a1 a2) := by
  unfold State.leavePass
  with_reducible repeat' first | assumption | exact within_of (by decide +kernel) w | exact within_bit (by decide +kernel) w | exact .inr (within_bit (by decide +kernel) w) | exact .inl rfl | simp -zeta only [keepsMk_iff] | apply keeps_mk | apply keeps_foldl | (intro u; first | (refine keeps_then (W := W) (s0 := s0) (a := u) ?_ ?_; subst u; rotate_left; intro _) | subst u | skip) | lift_lets -underBinder | dsimp -zeta only | split

theorem State.broadcastCancel_keeps {a1 a2 a3 a4} (h : Keeps W s0 s) (w : Within 0x40000000000000000000000000000000000000000000000000000000000000000000000000000000000801000 W) :
    Keeps W s0 (State.broadcastCancel s a1 a2 a3 a4) := by
  unfold State.broadcastCancel
  with_reducible repeat' first | assumption | apply State.chainSendAll_keeps | apply State.emit_keeps | exact within_of (by decide +kernel) w | exact within_bit (by decide +kernel) w | apply keeps_foldl | (intro u; first | (refine keeps_then (W := W) (s0 := s0) (a := u) ?_ ?_; subst u; rotate_left; intro _) | subst u | skip) | lift_lets -underBinder | dsimp -zeta only | split

theorem State.freePages_keeps {a1} (h : Keeps W s0 s) (w : Within 0x40 W) :
    Keeps W s0 (State.freePages s a1) := by
  unfold State.freePages
  with_reducible repeat' first | assumption | apply State.setRequest_keeps | exact within_of (by decide +kernel) w | exact within_bit (by decide +kernel) w | apply keeps_foldl | (intro u; first | (refine keeps_then (W := W) (s0 := s0) (a := u) ?_ ?_; subst u; rotate_left; intro _) | subst u | skip) | lift_lets -underBinder | dsimp -zeta only | split

theorem State.dropCompanion_keeps {a1} (h : Keeps W s0 s) (w : Within 0x4000000000000000000000000000000000000000000000078000000000000042000000000000007e000803dc0 W) :
    Keeps W s0 (State.dropCompanion s a1) := by
  unfold State.dropCompanion
  with_reducible repeat' first | assumption | apply State.epochUnref_keeps | apply State.dropWork_keeps | apply State.leavePass_keeps | apply State.setRequest_keeps | exact within_of (by decide +kernel) w | exact within_bit (by decide +kernel) w | apply keeps_foldl | (intro u; first | (refine keeps_then (W := W) (s0 := s0) (a := u) ?_ ?_; subst u; rotate_left; intro _) | subst u | skip) | lift_lets -underBinder | dsimp -zeta only | split

theorem State.finish_keeps {a1 a2 a3} (h : Keeps W s0 s) (w : Within 0x4000000000000000000000000000000000000000000000078000000000000042000000000000007e000803dc0 W) :
    Keeps W s0 (State.finish s a1 a2 a3) := by
  unfold State.finish
  with_reducible repeat' first | assumption | apply State.dropWork_keeps | apply State.leavePass_keeps | apply State.freePages_keeps | apply State.dropCompanion_keeps | apply State.setRequest_keeps | apply State.epochUnref_keeps | exact within_of (by decide +kernel) w | exact within_bit (by decide +kernel) w | apply keeps_foldl | (intro u; first | (refine keeps_then (W := W) (s0 := s0) (a := u) ?_ ?_; subst u; rotate_left; intro _) | subst u | skip) | lift_lets -underBinder | dsimp -zeta only | split

theorem State.release_keeps {a1 a2} (h : Keeps W s0 s) (w : Within 0x40000000000000000000000000000000000000000000f000000000000000000000000000000000000008010c0 W) :
    Keeps W s0 (State.release s a1 a2) := by
  unfold State.release
  with_reducible repeat' first | assumption | apply State.adapterUnref_keeps | apply State.prefixUnref_keeps | apply State.chainSend_keeps | apply State.setRequest_keeps | exact within_of (by decide +kernel) w | exact within_bit (by decide +kernel) w | apply keeps_foldl | (intro u; first | (refine keeps_then (W := W) (s0 := s0) (a := u) ?_ ?_; subst u; rotate_left; intro _) | subst u | skip) | lift_lets -underBinder | dsimp -zeta only | split

theorem State.faultRequest_keeps {a1 a2} (h : Keeps W s0 s) (w : Within 0x4000000000000000000000000000000000000000000000078000000000000042000000000000007e000803dc0 W) :
    Keeps W s0 (State.faultRequest s a1 a2) := by
  unfold State.faultRequest
  with_reducible repeat' first | assumption | apply State.finish_keeps | exact within_of (by decide +kernel) w | exact within_bit (by decide +kernel) w | apply keeps_foldl | (intro u; first | (refine keeps_then (W := W) (s0 := s0) (a := u) ?_ ?_; subst u; rotate_left; intro _) | subst u | skip) | lift_lets -underBinder | dsimp -zeta only | split

theorem State.pause_keeps {a1 a2} (h : Keeps W s0 s) (w : Within 0x1000000000000000000000000000000000000000000000000000040 W) :
    Keeps W s0 (State.pause s a1 a2) := by
  unfold State.pause
  with_reducible repeat' first | assumption | apply State.bump_keeps | apply State.leavePass_keeps | apply State.setRequest_keeps | exact within_of (by decide +kernel) w | exact within_bit (by decide +kernel) w | apply keeps_foldl | (intro u; first | (refine keeps_then (W := W) (s0 := s0) (a := u) ?_ ?_; subst u; rotate_left; intro _) | subst u | skip) | lift_lets -underBinder | dsimp -zeta only | split

theorem State.shortOfPages_keeps {a1} (h : Keeps W s0 s) (w : Within 0x4000000000000000000000000000000000100000000000078000000000000042000000000000007e000803dc0 W) :
    Keeps W s0 (State.shortOfPages s a1) := by
  unfold State.shortOfPages
  with_reducible repeat' first | assumption | apply State.bump_keeps | apply State.finish_keeps | apply State.setRequest_keeps | apply State.pause_keeps | exact within_of (by decide +kernel) w | exact within_bit (by decide +kernel) w | apply keeps_foldl | (intro u; first | (refine keeps_then (W := W) (s0 := s0) (a := u) ?_ ?_; subst u; rotate_left; intro _) | subst u | skip) | lift_lets -underBinder | dsimp -zeta only | split

theorem State.noteRung_keeps {a1 a2 a3 a4} (h : Keeps W s0 s) (w : Within 0x7b00000000000000000000000000000000000000000000000000000000000000000000000000000000000000000000000000000000000000000000000000000 W) :
    Keeps W s0 (State.noteRung s a1 a2 a3 a4) := by
  unfold State.noteRung
  with_reducible repeat' first | assumption | apply State.wr_keeps | exact within_of (by decide +kernel) w | exact within_bit (by decide +kernel) w | apply keeps_foldl | (intro u; first | (refine keeps_then (W := W) (s0 := s0) (a := u) ?_ ?_; subst u; rotate_left; intro _) | subst u | skip) | lift_lets -underBinder | dsimp -zeta only | split

theorem State.addRung_keeps {a1 a2 a3} (h : Keeps W s0 s) (w : Within 0x20000 W) :
    Keeps W s0 (State.addRung s a1 a2 a3) := by
  unfold State.addRung
  with_reducible repeat' first | assumption | exact within_of (by decide +kernel) w | exact within_bit (by decide +kernel) w | exact .inr (within_bit (by decide +kernel) w) | exact .inl rfl | simp -zeta only [keepsMk_iff] | apply keeps_mk | apply keeps_foldl | (intro u; first | (refine keeps_then (W := W) (s0 := s0) (a := u) ?_ ?_; subst u; rotate_left; intro _) | subst u | skip) | lift_lets -underBinder | dsimp -zeta only | split

theorem State.endRung_keeps {a1 a2} (h : Keeps W s0 s) (w : Within 0x20000 W) :
    Keeps W s0 (State.endRung s a1 a2) := by
  unfold State.endRung
  with_reducible repeat' first | assumption | exact within_of (by decide +kernel) w | exact within_bit (by decide +kernel) w | exact .inr (within_bit (by decide +kernel) w) | exact .inl rfl | simp -zeta only [keepsMk_iff] | apply keeps_mk | apply keeps_foldl | (intro u; first | (refine keeps_then (W := W) (s0 := s0) (a := u) ?_ ?_; subst u; rotate_left; intro _) | subst u | skip) | lift_lets -underBinder | dsimp -zeta only | split

theorem State.drained_keeps {a1} (h : Keeps W s0 s) (w : Within 0x40000000000000000000000000000000000000000000f0078000000000000042000000000000007e000823dc0 W) :
    Keeps W s0 (State.drained s a1) := by
  unfold State.drained
  with_reducible repeat' first | assumption | apply State.endRung_keeps | apply State.release_keeps | apply State.finish_keeps | exact within_of (by decide +kernel) w | exact within_bit (by decide +kernel) w | apply keeps_foldl | (intro u; first | (refine keeps_then (W := W) (s0 := s0) (a := u) ?_ ?_; subst u; rotate_left; intro _) | subst u | skip) | lift_lets -underBinder | dsimp -zeta only | split

theorem State.startCancel_keeps {a1 a2 a3} (h : Keeps W s0 s) (w : Within 0x40000000000000000000000000000000000000000000f0078000000000000042000000000000007e000823dc0 W) :
    Keeps W s0 (State.startCancel s a1 a2 a3) := by
  unfold State.startCancel
  with_reducible repeat' first | assumption | apply State.setRequest_keeps | apply State.broadcastCancel_keeps | apply State.dropWork_keeps | apply State.leavePass_keeps | apply State.drained_keeps | exact within_of (by decide +kernel) w | exact within_bit (by decide +kernel) w | apply keeps_foldl | (intro u; first | (refine keeps_then (W := W) (s0 := s0) (a := u) ?_ ?_; subst u; rotate_left; intro _) | subst u | skip) | lift_lets -underBinder | dsimp -zeta only | split

theorem State.cancelRequest_keeps {a1 a2 a3} (h : Keeps W s0 s) (w : Within 0x40000000000000000000000000000000000200000000f0078000000000000042000000000000007e000823dc0 W) :
    Keeps W s0 (State.cancelRequest s a1 a2 a3) := by
  unfold State.cancelRequest
  with_reducible repeat' first | assumption | apply State.startCancel_keeps | apply State.bump_keeps | exact within_of (by decide +kernel) w | exact within_bit (by decide +kernel) w | apply keeps_foldl | (intro u; first | (refine keeps_then (W := W) (s0 := s0) (a := u) ?_ ?_; subst u; rotate_left; intro _) | subst u | skip) | lift_lets -underBinder | dsimp -zeta only | split

theorem State.resetContext_keeps {a1} (h : Keeps W s0 s) (w : Within 0x40000000000000000000000000000000000000000000f0078000000000000042000000000000007e000823dc0 W) :
    Keeps W s0 (State.resetContext s a1) := by
  unfold State.resetContext
  with_reducible repeat' first | assumption | apply State.dropWork_keeps | apply State.leavePass_keeps | apply State.broadcastCancel_keeps | apply State.freePages_keeps | apply State.startCancel_keeps | exact within_of (by decide +kernel) w | exact within_bit (by decide +kernel) w | apply keeps_foldl | (intro u; first | (refine keeps_then (W := W) (s0 := s0) (a := u) ?_ ?_; subst u; rotate_left; intro _) | subst u | skip) | lift_lets -underBinder | dsimp -zeta only | split

theorem State.contextReset_keeps {a1 a2} (h : Keeps W s0 s) (w : Within 0xfb00000000000000000000000000000000000040000000000000000000000000000000000000000000f0078000000000000042000000000000007e000823dc0 W) :
    Keeps W s0 (State.contextReset s a1 a2) := by
  unfold State.contextReset
  with_reducible repeat' first | assumption | apply State.resetContext_keeps | apply State.bump_keeps | apply State.noteRung_keeps | apply State.addRung_keeps | exact within_of (by decide +kernel) w | exact within_bit (by decide +kernel) w | apply keeps_foldl | (intro u; first | (refine keeps_then (W := W) (s0 := s0) (a := u) ?_ ?_; subst u; rotate_left; intro _) | subst u | skip) | lift_lets -underBinder | dsimp -zeta only | split

theorem State.abortRequest_keeps {a1} (h : Keeps W s0 s) (w : Within 0xfb00000000000000000000000000000000000040000000000000000000000000000000000000000000f0078000000000000042000000000000007e000823dc0 W) :
    Keeps W s0 (State.abortRequest s a1) := by
  unfold State.abortRequest
  with_reducible repeat' first | assumption | apply State.leavePass_keeps | apply State.setRequest_keeps | apply State.trimPages_keeps | apply State.contextReset_keeps | apply State.forEach_keeps | exact within_of (by decide +kernel) w | exact within_bit (by decide +kernel) w | apply keeps_foldl | (intro u; first | (refine keeps_then (W := W) (s0 := s0) (a := u) ?_ ?_; subst u; rotate_left; intro _) | subst u | skip) | lift_lets -underBinder | dsimp -zeta only | split

theorem State.stepAbortOf_keeps {a1 a2 a3} (h : Keeps W s0 s) (w : Within 0xfb00000000000000000000000000000000000040000000000000000000000000000000000000000000f0078000000000000042000000000000007e000823dc0 W) :
    Keeps W s0 (State.stepAbortOf s a1 a2 a3) := by
  unfold State.stepAbortOf
  with_reducible repeat' first | assumption | apply State.dropWork_keeps | apply State.broadcastCancel_keeps | apply State.abortRequest_keeps | exact within_of (by decide +kernel) w | exact within_bit (by decide +kernel) w | apply keeps_foldl | (intro u; first | (refine keeps_then (W := W) (s0 := s0) (a := u) ?_ ?_; subst u; rotate_left; intro _) | subst u | skip) | lift_lets -underBinder | dsimp -zeta only | split

theorem State.tierNotReady_keeps {a1 a2 a3} (h : Keeps W s0 s) (w : Within 0xfb00000000000000000000000000000000000040000000000000000000000000000000001000000000f0078000000000000042000000000000007e000823dc0 W) :
    Keeps W s0 (State.tierNotReady s a1 a2 a3) := by
  unfold State.tierNotReady
  with_reducible repeat' first | assumption | apply State.stepAbortOf_keeps | apply State.pause_keeps | apply State.forEach_keeps | apply State.setRequest_keeps | exact within_of (by decide +kernel) w | exact within_bit (by decide +kernel) w | apply keeps_foldl | (intro u; first | (refine keeps_then (W := W) (s0 := s0) (a := u) ?_ ?_; subst u; rotate_left; intro _) | subst u | skip) | lift_lets -underBinder | dsimp -zeta only | split

theorem State.flushTokens_keeps {a1} (h : Keeps W s0 s) (w : Within 0x6000000000000000000000000000000000000000000c0027c00000000000000000000000000000000000000000000000000000000000000800058 W) :
    Keeps W s0 (State.flushTokens s a1) := by
  unfold State.flushTokens
  with_reducible repeat' first | assumption | apply State.ringTry_keeps | apply State.setRequest_keeps | refine keeps_of_snd (by assumption) ?_ | exact within_of (by decide +kernel) w | exact within_bit (by decide +kernel) w | simp -zeta only [keepsS_mk_iff, keeps_snd_iff] | apply keepsS_foldl | apply keeps_foldl | (intro u; first | (refine keeps_then (W := W) (s0 := s0) (a := u) ?_ ?_; subst u; rotate_left; intro _) | subst u | skip) | lift_lets -underBinder | dsimp -zeta only | split

theorem State.refuse_keeps {a1 a2 a3 a4} (h : Keeps W s0 s) (w : Within 0x6000000000000000000000000000000000000000000c0027c00000000000000080000000000000000000000000000000000000000000000800018 W) :
    Keeps W s0 (State.refuse s a1 a2 a3 a4) := by
  unfold State.refuse
  with_reducible repeat' first | assumption | apply State.bump_keeps | apply State.ringPush_keeps | exact within_of (by decide +kernel) w | exact within_bit (by decide +kernel) w | apply keeps_foldl | (intro u; first | (refine keeps_then (W := W) (s0 := s0) (a := u) ?_ ?_; subst u; rotate_left; intro _) | subst u | skip) | lift_lets -underBinder | dsimp -zeta only | split

theorem State.complete_keeps {a1} (h : Keeps W s0 s) (w : Within 0x6000000000000000000000000000400000000000000c0027c00000000000000000000000f000000000000000000000000000000000000008010d8 W) :
    Keeps W s0 (State.complete s a1) := by
  unfold State.complete
  with_reducible repeat' first | assumption | apply State.flushTokens_keeps | apply State.ringTry_keeps | apply State.release_keeps | refine keeps_of_snd (by assumption) ?_ | exact within_of (by decide +kernel) w | exact within_bit (by decide +kernel) w | simp -zeta only [keepsS_mk_iff, keeps_snd_iff] | apply keepsS_foldl | apply keeps_foldl | (intro u; first | (refine keeps_then (W := W) (s0 := s0) (a := u) ?_ ?_; subst u; rotate_left; intro _) | subst u | skip) | lift_lets -underBinder | dsimp -zeta only | split

theorem State.ringFreed_keeps {a1} (h : Keeps W s0 s) (w : Within 0x6000000000000000000000000000000000000000000c0027c00000000000000000000000000000000000000000000000000000000000000800058 W) :
    Keeps W s0 (State.ringFreed s a1) := by
  unfold State.ringFreed
  with_reducible repeat' first | assumption | apply State.ringFlush_keeps | apply State.forEach_keeps | apply State.flushTokens_keeps | apply State.setRequest_keeps | exact within_of (by decide +kernel) w | exact within_bit (by decide +kernel) w | apply keeps_foldl | (intro u; first | (refine keeps_then (W := W) (s0 := s0) (a := u) ?_ ?_; subst u; rotate_left; intro _) | subst u | skip) | lift_lets -underBinder | dsimp -zeta only | split

end Sys2Proof.Machine
end

