-- ==== Sys2Proof/Laws/Keeps/CoreOps.lean ====
section
/-! SUPPORT. Laws/Keeps/CoreOps.lean: what every operation of Machine/CoreOps.lean keeps (the relation of Laws/Keeps.lean). -/
set_option Elab.async false
set_option linter.all false
set_option linter.unusedSimpArgs false
set_option linter.tactic.unusedName false
namespace Sys2Proof.Machine
variable {W : Nat} {s0 s : State}

theorem State.countLive_keeps {a1} (h : Keeps W s0 s) (w : Within 0x10000000000000000000000000 W) :
    Keeps W s0 (State.countLive s a1) := by
  unfold State.countLive
  with_reducible repeat' first | assumption | apply State.wr_keeps | exact within_of (by decide +kernel) w | exact within_bit (by decide +kernel) w | apply keeps_foldl | (intro u; first | (refine keeps_then (W := W) (s0 := s0) (a := u) ?_ ?_; subst u; rotate_left; intro _) | subst u | skip) | lift_lets -underBinder | dsimp -zeta only | split

theorem State.loadIx_keeps {a1 a2 a3} (h : Keeps W s0 s) (w : Within 0x400 W) :
    Keeps W s0 (State.loadIx s a1 a2 a3) := by
  unfold State.loadIx
  with_reducible repeat' first | assumption | apply State.setIx_keeps | exact within_of (by decide +kernel) w | exact within_bit (by decide +kernel) w | apply keeps_foldl | (intro u; first | (refine keeps_then (W := W) (s0 := s0) (a := u) ?_ ?_; subst u; rotate_left; intro _) | subst u | skip) | lift_lets -underBinder | dsimp -zeta only | split

theorem State.noteCoreFault_keeps {a1 a2} (h : Keeps W s0 s) (w : Within 0x1e000000000000000000000000000 W) :
    Keeps W s0 (State.noteCoreFault s a1 a2) := by
  unfold State.noteCoreFault
  with_reducible repeat' first | assumption | apply State.wr_keeps | exact within_of (by decide +kernel) w | exact within_bit (by decide +kernel) w | apply keeps_foldl | (intro u; first | (refine keeps_then (W := W) (s0 := s0) (a := u) ?_ ?_; subst u; rotate_left; intro _) | subst u | skip) | lift_lets -underBinder | dsimp -zeta only | split

theorem State.abortSlots_keeps {a1} (h : Keeps W s0 s) (w : Within 0xfb00000000000000000000000000000000000040000000000000000000000000000000000000000000f0078000000000000042000000000000007e000823dc0 W) :
    Keeps W s0 (State.abortSlots s a1) := by
  unfold State.abortSlots
  with_reducible repeat' first | assumption | apply State.forEach_keeps | apply State.stepAbortOf_keeps | exact within_of (by decide +kernel) w | exact within_bit (by decide +kernel) w | apply keeps_foldl | (intro u; first | (refine keeps_then (W := W) (s0 := s0) (a := u) ?_ ?_; subst u; rotate_left; intro _) | subst u | skip) | lift_lets -underBinder | dsimp -zeta only | split

theorem State.tabUncorrectable_keeps {a1 a2} (h : Keeps W s0 s) (w : Within 0xfb00000000600000000000000000000000000040000000000000000000000000000000000000000000f0078000000000001e62002000000000007e000823dc8 W) :
    Keeps W s0 (State.tabUncorrectable s a1 a2) := by
  unfold State.tabUncorrectable
  with_reducible repeat' first | assumption | apply State.noteCoreFault_keeps | apply State.bump_keeps | apply State.report_keeps | apply State.setCore_keeps | apply State.wr_keeps | apply State.abortSlots_keeps | exact within_of (by decide +kernel) w | exact within_bit (by decide +kernel) w | apply keeps_foldl | (intro u; first | (refine keeps_then (W := W) (s0 := s0) (a := u) ?_ ?_; subst u; rotate_left; intro _) | subst u | skip) | lift_lets -underBinder | dsimp -zeta only | split

theorem State.beginPass_keeps {a1 a2 a3 a4} (h : Keeps W s0 s) (w : Within 0x18000000000000000000200400 W) :
    Keeps W s0 (State.beginPass s a1 a2 a3 a4) := by
  unfold State.beginPass
  with_reducible repeat' first | assumption | apply State.dataWrite_keeps | apply State.setCore_keeps | apply State.countLive_keeps | apply State.wr_keeps | exact within_of (by decide +kernel) w | exact within_bit (by decide +kernel) w | apply keeps_foldl | (intro u; first | (refine keeps_then (W := W) (s0 := s0) (a := u) ?_ ?_; subst u; rotate_left; intro _) | subst u | skip) | lift_lets -underBinder | dsimp -zeta only | split

theorem State.logPass_keeps {a1 a2} (h : Keeps W s0 s) (w : Within 0x8 W) :
    Keeps W s0 (State.logPass s a1 a2) := by
  unfold State.logPass
  with_reducible repeat' first | assumption | exact within_of (by decide +kernel) w | exact within_bit (by decide +kernel) w | exact .inr (within_bit (by decide +kernel) w) | exact .inl rfl | simp -zeta only [keepsMk_iff] | apply keeps_mk | apply keeps_foldl | (intro u; first | (refine keeps_then (W := W) (s0 := s0) (a := u) ?_ ?_; subst u; rotate_left; intro _) | subst u | skip) | lift_lets -underBinder | dsimp -zeta only | split

theorem State.startPass_keeps {a1 a2} (h : Keeps W s0 s) (w : Within 0x18000000000000000000214448 W) :
    Keeps W s0 (State.startPass s a1 a2) := by
  unfold State.startPass
  with_reducible repeat' first | assumption | apply State.logPass_keeps | apply State.forEach_keeps | apply State.beginPass_keeps | exact within_of (by decide +kernel) w | exact within_bit (by decide +kernel) w | exact .inr (within_bit (by decide +kernel) w) | exact .inl rfl | simp -zeta only [keepsMk_iff] | apply keeps_mk | apply keeps_foldl | (intro u; first | (refine keeps_then (W := W) (s0 := s0) (a := u) ?_ ?_; subst u; rotate_left; intro _) | subst u | skip) | lift_lets -underBinder | dsimp -zeta only | split

theorem State.advance_keeps {a1} (h : Keeps W s0 s) (w : Within 0x400 W) :
    Keeps W s0 (State.advance s a1) := by
  unfold State.advance
  with_reducible repeat' first | assumption | apply State.setCore_keeps | exact within_of (by decide +kernel) w | exact within_bit (by decide +kernel) w | apply keeps_foldl | (intro u; first | (refine keeps_then (W := W) (s0 := s0) (a := u) ?_ ?_; subst u; rotate_left; intro _) | subst u | skip) | lift_lets -underBinder | dsimp -zeta only | split

theorem State.branch_keeps {a1 a2} (h : Keeps W s0 s) (w : Within 0x400 W) :
    Keeps W s0 (State.branch s a1 a2) := by
  unfold State.branch
  with_reducible repeat' first | assumption | apply State.setCore_keeps | exact within_of (by decide +kernel) w | exact within_bit (by decide +kernel) w | apply keeps_foldl | (intro u; first | (refine keeps_then (W := W) (s0 := s0) (a := u) ?_ ?_; subst u; rotate_left; intro _) | subst u | skip) | lift_lets -underBinder | dsimp -zeta only | split

theorem State.stepHalt_keeps {a1} (h : Keeps W s0 s) (w : Within 0x20000000000000000000000 W) :
    Keeps W s0 (State.stepHalt s a1) := by
  unfold State.stepHalt
  with_reducible repeat' first | assumption | apply State.wr_keeps | exact within_of (by decide +kernel) w | exact within_bit (by decide +kernel) w | apply keeps_foldl | (intro u; first | (refine keeps_then (W := W) (s0 := s0) (a := u) ?_ ?_; subst u; rotate_left; intro _) | subst u | skip) | lift_lets -underBinder | dsimp -zeta only | split

theorem State.issue_keeps {a1 a2 a3 a4 a5} (h : Keeps W s0 s) (w : Within 0xfb00000000600000000000000000000000000040000000000000000000000000000000000000000000f0078000000000001e62002000000000007e000823dc8 W) (h5 : ∀ a, Keeps W s0 a → KeepsOF W s0 (a5 a)) :
    Keeps W s0 (State.issue s a1 a2 a3 a4 a5) := by
  unfold State.issue
  with_reducible repeat' first | assumption | apply h5 | apply keepsOF_some | apply keepsOF_none | apply State.tabUncorrectable_keeps | apply State.advance_keeps | apply State.stepHalt_keeps | apply State.retired_keeps | refine keeps_of_somePair (by assumption) ?_ | exact within_of (by decide +kernel) w | exact within_bit (by decide +kernel) w | apply keeps_foldl | (intro u; first | (refine keeps_then (W := W) (s0 := s0) (a := u) ?_ ?_; subst u; rotate_left; intro _) | subst u | skip) | lift_lets -underBinder | dsimp -zeta only | split

theorem done_keeps {a0} (h : Keeps W s0 s) (h0 : ∀ a, Keeps W s0 a → Keeps W s0 (a0 a)) :
    KeepsOF W s0 (done a0 s) := by
  unfold done
  with_reducible repeat' first | assumption | apply h0 | apply keepsOF_none | apply keepsOF_some | simp -zeta only [keepsF_mk_iff, keeps_fst_iff] | apply keepsOF_map | apply keeps_foldl | (intro u; first | (refine keeps_then (W := W) (s0 := s0) (a := u) ?_ ?_; subst u; rotate_left; intro _) | subst u | skip) | lift_lets -underBinder | dsimp -zeta only | split

theorem State.sendMessage_keeps {a1 a2 a3 a4} (h : Keeps W s0 s) (w : Within 0x800000 W) :
    Keeps W s0 (State.sendMessage s a1 a2 a3 a4) := by
  unfold State.sendMessage
  with_reducible repeat' first | assumption | apply State.emit_keeps | exact within_of (by decide +kernel) w | exact within_bit (by decide +kernel) w | apply keeps_foldl | (intro u; first | (refine keeps_then (W := W) (s0 := s0) (a := u) ?_ ?_; subst u; rotate_left; intro _) | subst u | skip) | lift_lets -underBinder | dsimp -zeta only | split

theorem State.sendReduction_keeps {a1 a2 a3 a4 a5 a6} (h : Keeps W s0 s) (w : Within 0x800000 W) :
    Keeps W s0 (State.sendReduction s a1 a2 a3 a4 a5 a6) := by
  unfold State.sendReduction
  with_reducible repeat' first | assumption | apply State.emit_keeps | exact within_of (by decide +kernel) w | exact within_bit (by decide +kernel) w | apply keeps_foldl | (intro u; first | (refine keeps_then (W := W) (s0 := s0) (a := u) ?_ ?_; subst u; rotate_left; intro _) | subst u | skip) | lift_lets -underBinder | dsimp -zeta only | split

theorem State.sendControl_keeps {a1 a2 a3 a4 a5} (h : Keeps W s0 s) (w : Within 0x800000 W) :
    Keeps W s0 (State.sendControl s a1 a2 a3 a4 a5) := by
  unfold State.sendControl
  with_reducible repeat' first | assumption | apply State.emit_keeps | exact within_of (by decide +kernel) w | exact within_bit (by decide +kernel) w | apply keeps_foldl | (intro u; first | (refine keeps_then (W := W) (s0 := s0) (a := u) ?_ ?_; subst u; rotate_left; intro _) | subst u | skip) | lift_lets -underBinder | dsimp -zeta only | split

end Sys2Proof.Machine
end

