-- ==== Sys2Proof/Laws/Keeps/FaultOps.lean ====
section
/-! SUPPORT. Laws/Keeps/FaultOps.lean: what every operation of Machine/FaultOps.lean keeps (the relation of Laws/Keeps.lean). -/
set_option Elab.async false
set_option linter.all false
set_option linter.unusedSimpArgs false
set_option linter.tactic.unusedName false
namespace Sys2Proof.Machine
variable {W : Nat} {s0 s : State}

theorem State.awaitConfirm_keeps {a1 a2} (h : Keeps W s0 s) (w : Within 0x8 W) :
    Keeps W s0 (State.awaitConfirm s a1 a2) := by
  unfold State.awaitConfirm
  with_reducible repeat' first | assumption | exact within_of (by decide +kernel) w | exact within_bit (by decide +kernel) w | exact .inr (within_bit (by decide +kernel) w) | exact .inl rfl | simp -zeta only [keepsMk_iff] | apply keeps_mk | apply keeps_foldl | (intro u; first | (refine keeps_then (W := W) (s0 := s0) (a := u) ?_ ?_; subst u; rotate_left; intro _) | subst u | skip) | lift_lets -underBinder | dsimp -zeta only | split

theorem State.quarantineArray_keeps {a1 a2 a3 a4 a5} (h : Keeps W s0 s) (w : Within 0x60600000000000000000000000000000000000000000000000000000000000000000000000000000000000000000000000000000000080000000508 W) :
    Keeps W s0 (State.quarantineArray s a1 a2 a3 a4 a5) := by
  unfold State.quarantineArray
  with_reducible repeat' first | assumption | apply State.bump_keeps | apply State.abortMvm_keeps | apply State.wr_keeps | apply State.awaitConfirm_keeps | apply State.report_keeps | exact within_of (by decide +kernel) w | exact within_bit (by decide +kernel) w | apply keeps_foldl | (intro u; first | (refine keeps_then (W := W) (s0 := s0) (a := u) ?_ ?_; subst u; rotate_left; intro _) | subst u | skip) | lift_lets -underBinder | dsimp -zeta only | split

theorem State.quarantineCore_keeps {a1 a2 a3 a4} (h : Keeps W s0 s) (w : Within 0x20600000000000000000000000000000000000000000000000000000000000000000000000000000000000000000000020000000000000000000408 W) :
    Keeps W s0 (State.quarantineCore s a1 a2 a3 a4) := by
  unfold State.quarantineCore
  with_reducible repeat' first | assumption | apply State.bump_keeps | apply State.wr_keeps | apply State.setCore_keeps | apply State.awaitConfirm_keeps | apply State.report_keeps | exact within_of (by decide +kernel) w | exact within_bit (by decide +kernel) w | apply keeps_foldl | (intro u; first | (refine keeps_then (W := W) (s0 := s0) (a := u) ?_ ?_; subst u; rotate_left; intro _) | subst u | skip) | lift_lets -underBinder | dsimp -zeta only | split

theorem State.countFailure_keeps {a1 a2 a3} (h : Keeps W s0 s) (w : Within 0x8 W) :
    KeepsF W s0 (State.countFailure s a1 a2 a3) := by
  unfold State.countFailure
  with_reducible repeat' first | assumption | exact within_of (by decide +kernel) w | exact within_bit (by decide +kernel) w | exact .inr (within_bit (by decide +kernel) w) | exact .inl rfl | simp -zeta only [keepsMk_iff, keepsF_mk_iff, keeps_fst_iff] | apply keeps_mk | apply keepsF_foldl | apply keeps_foldl | (intro u; first | (refine keeps_then (W := W) (s0 := s0) (a := u) ?_ ?_; subst u; rotate_left; intro _) | subst u | skip) | lift_lets -underBinder | dsimp -zeta only | split

theorem State.arrayFailure_keeps {a1 a2 a3} (h : Keeps W s0 s) (w : Within 0x60600000000000000000000000000000000000000000000000000000000000000000000000000000000000000000000000000000000080000000508 W) :
    Keeps W s0 (State.arrayFailure s a1 a2 a3) := by
  unfold State.arrayFailure
  with_reducible repeat' first | assumption | apply State.countFailure_keeps | apply State.quarantineArray_keeps | refine keeps_of_pair (by assumption) ?_ | exact within_of (by decide +kernel) w | exact within_bit (by decide +kernel) w | simp -zeta only [keepsF_mk_iff, keeps_fst_iff] | apply keepsF_foldl | apply keeps_foldl | (intro u; first | (refine keeps_then (W := W) (s0 := s0) (a := u) ?_ ?_; subst u; rotate_left; intro _) | subst u | skip) | lift_lets -underBinder | dsimp -zeta only | split

theorem State.dtuFailure_keeps {a1 a2} (h : Keeps W s0 s) (w : Within 0x20600000000000000000000000000000000000000000000000000000000000000000000000000000000000000000000020000000000000000000408 W) :
    Keeps W s0 (State.dtuFailure s a1 a2) := by
  unfold State.dtuFailure
  with_reducible repeat' first | assumption | apply State.countFailure_keeps | apply State.quarantineCore_keeps | refine keeps_of_pair (by assumption) ?_ | exact within_of (by decide +kernel) w | exact within_bit (by decide +kernel) w | simp -zeta only [keepsF_mk_iff, keeps_fst_iff] | apply keepsF_foldl | apply keeps_foldl | (intro u; first | (refine keeps_then (W := W) (s0 := s0) (a := u) ?_ ?_; subst u; rotate_left; intro _) | subst u | skip) | lift_lets -underBinder | dsimp -zeta only | split

end Sys2Proof.Machine
end

