-- ==== Sys2Proof/Laws/Keeps/ArrayOps.lean ====
section
/-! SUPPORT. Laws/Keeps/ArrayOps.lean: what every operation of Machine/ArrayOps.lean keeps (the relation of Laws/Keeps.lean). -/
set_option Elab.async false
set_option linter.all false
set_option linter.unusedSimpArgs false
set_option linter.tactic.unusedName false
namespace Sys2Proof.Machine
variable {W : Nat} {s0 s : State}

theorem State.startPart_keeps {a1 a2 a3 a4} (h : Keeps W s0 s) (w : Within 0x80000000000100 W) :
    Keeps W s0 (State.startPart s a1 a2 a3 a4) := by
  unfold State.startPart
  with_reducible repeat' first | assumption | apply State.setArray_keeps | apply State.bump_keeps | exact within_of (by decide +kernel) w | exact within_bit (by decide +kernel) w | apply keeps_foldl | (intro u; first | (refine keeps_then (W := W) (s0 := s0) (a := u) ?_ ?_; subst u; rotate_left; intro _) | subst u | skip) | lift_lets -underBinder | dsimp -zeta only | split

theorem State.dropSample_keeps {a1 a2} (h : Keeps W s0 s) (w : Within 0x8 W) :
    Keeps W s0 (State.dropSample s a1 a2) := by
  unfold State.dropSample
  with_reducible repeat' first | assumption | exact within_of (by decide +kernel) w | exact within_bit (by decide +kernel) w | exact .inr (within_bit (by decide +kernel) w) | exact .inl rfl | simp -zeta only [keepsMk_iff] | apply keeps_mk | apply keeps_foldl | (intro u; first | (refine keeps_then (W := W) (s0 := s0) (a := u) ?_ ?_; subst u; rotate_left; intro _) | subst u | skip) | lift_lets -underBinder | dsimp -zeta only | split

theorem State.startAttempt_keeps {a1 a2} (h : Keeps W s0 s) (w : Within 0x80000000000108 W) :
    Keeps W s0 (State.startAttempt s a1 a2) := by
  unfold State.startAttempt
  with_reducible repeat' first | assumption | apply State.dropSample_keeps | apply State.startPart_keeps | exact within_of (by decide +kernel) w | exact within_bit (by decide +kernel) w | apply keeps_foldl | (intro u; first | (refine keeps_then (W := W) (s0 := s0) (a := u) ?_ ?_; subst u; rotate_left; intro _) | subst u | skip) | lift_lets -underBinder | dsimp -zeta only | split

theorem State.requestReemit_keeps {a1 a2 a3} (h : Keeps W s0 s) (w : Within 0x800100 W) :
    Keeps W s0 (State.requestReemit s a1 a2 a3) := by
  unfold State.requestReemit
  with_reducible repeat' first | assumption | apply State.setArray_keeps | apply State.sendControl_keeps | exact within_of (by decide +kernel) w | exact within_bit (by decide +kernel) w | apply keeps_foldl | (intro u; first | (refine keeps_then (W := W) (s0 := s0) (a := u) ?_ ?_; subst u; rotate_left; intro _) | subst u | skip) | lift_lets -underBinder | dsimp -zeta only | split

theorem State.judge_keeps {a1 a2 a3} (h : Keeps W s0 s) (w : Within 0x60000080000000800108 W) :
    Keeps W s0 (State.judge s a1 a2 a3) := by
  unfold State.judge
  with_reducible repeat' first | assumption | apply State.bump_keeps | apply State.startAttempt_keeps | apply State.requestReemit_keeps | exact within_of (by decide +kernel) w | exact within_bit (by decide +kernel) w | apply keeps_foldl | (intro u; first | (refine keeps_then (W := W) (s0 := s0) (a := u) ?_ ?_; subst u; rotate_left; intro _) | subst u | skip) | lift_lets -underBinder | dsimp -zeta only | split

theorem State.assemble_keeps {a1 a2 a3 a4} (h : Keeps W s0 s) (w : Within 0x60000080000000800108 W) :
    Keeps W s0 (State.assemble s a1 a2 a3 a4) := by
  unfold State.assemble
  with_reducible repeat' first | assumption | apply State.judge_keeps | exact within_of (by decide +kernel) w | exact within_bit (by decide +kernel) w | apply keeps_foldl | (intro u; first | (refine keeps_then (W := W) (s0 := s0) (a := u) ?_ ?_; subst u; rotate_left; intro _) | subst u | skip) | lift_lets -underBinder | dsimp -zeta only | split

theorem State.mvmSend_keeps {a1 a2 a3 a4 a5} (h : Keeps W s0 s) (w : Within 0x800000 W) :
    Keeps W s0 (State.mvmSend s a1 a2 a3 a4 a5) := by
  unfold State.mvmSend
  with_reducible repeat' first | assumption | apply State.sendReduction_keeps | apply State.sendMessage_keeps | exact within_of (by decide +kernel) w | exact within_bit (by decide +kernel) w | apply keeps_foldl | (intro u; first | (refine keeps_then (W := W) (s0 := s0) (a := u) ?_ ?_; subst u; rotate_left; intro _) | subst u | skip) | lift_lets -underBinder | dsimp -zeta only | split

theorem State.suspectSlot_keeps {a1 a2} (h : Keeps W s0 s) (w : Within 0x400 W) :
    Keeps W s0 (State.suspectSlot s a1 a2) := by
  unfold State.suspectSlot
  with_reducible repeat' first | assumption | apply State.setCore_keeps | exact within_of (by decide +kernel) w | exact within_bit (by decide +kernel) w | apply keeps_foldl | (intro u; first | (refine keeps_then (W := W) (s0 := s0) (a := u) ?_ ?_; subst u; rotate_left; intro _) | subst u | skip) | lift_lets -underBinder | dsimp -zeta only | split

theorem State.mvmOutput_keeps {a1 a2 a3 a4} (h : Keeps W s0 s) (w : Within 0x1c00000000000000a00400 W) :
    Keeps W s0 (State.mvmOutput s a1 a2 a3 a4) := by
  unfold State.mvmOutput
  with_reducible repeat' first | assumption | apply State.mvmSend_keeps | apply State.setCore_keeps | apply State.writeOperand_keeps | exact within_of (by decide +kernel) w | exact within_bit (by decide +kernel) w | apply keeps_foldl | (intro u; first | (refine keeps_then (W := W) (s0 := s0) (a := u) ?_ ?_; subst u; rotate_left; intro _) | subst u | skip) | lift_lets -underBinder | dsimp -zeta only | split

theorem State.finalOutput_keeps {a1 a2 a3 a4} (h : Keeps W s0 s) (w : Within 0x1c00000000000000a00500 W) :
    Keeps W s0 (State.finalOutput s a1 a2 a3 a4) := by
  unfold State.finalOutput
  with_reducible repeat' first | assumption | apply State.mvmOutput_keeps | apply State.setArray_keeps | exact within_of (by decide +kernel) w | exact within_bit (by decide +kernel) w | apply keeps_foldl | (intro u; first | (refine keeps_then (W := W) (s0 := s0) (a := u) ?_ ?_; subst u; rotate_left; intro _) | subst u | skip) | lift_lets -underBinder | dsimp -zeta only | split

theorem State.partialOutput_keeps {a1 a2 a3 a4 a5 a6} (h : Keeps W s0 s) (w : Within 0xa00000 W) :
    Keeps W s0 (State.partialOutput s a1 a2 a3 a4 a5 a6) := by
  unfold State.partialOutput
  with_reducible repeat' first | assumption | apply State.mvmSend_keeps | apply State.writeWords_keeps | exact within_of (by decide +kernel) w | exact within_bit (by decide +kernel) w | apply keeps_foldl | (intro u; first | (refine keeps_then (W := W) (s0 := s0) (a := u) ?_ ?_; subst u; rotate_left; intro _) | subst u | skip) | lift_lets -underBinder | dsimp -zeta only | split

theorem State.noteQuiet_keeps {a1 a2} (h : Keeps W s0 s) (w : Within 0x2000 W) :
    Keeps W s0 (State.noteQuiet s a1 a2) := by
  unfold State.noteQuiet
  with_reducible repeat' first | assumption | exact within_of (by decide +kernel) w | exact within_bit (by decide +kernel) w | exact .inr (within_bit (by decide +kernel) w) | exact .inl rfl | simp -zeta only [keepsMk_iff] | apply keeps_mk | apply keeps_foldl | (intro u; first | (refine keeps_then (W := W) (s0 := s0) (a := u) ?_ ?_; subst u; rotate_left; intro _) | subst u | skip) | lift_lets -underBinder | dsimp -zeta only | split

theorem State.intrude_keeps {a1 a2} (h : Keeps W s0 s) (w : Within 0x10000000000000000000000000000000000000000000000000000000000000000000000000000000000000000002000 W) :
    Keeps W s0 (State.intrude s a1 a2) := by
  unfold State.intrude
  with_reducible repeat' first | assumption | apply State.bump_keeps | exact within_of (by decide +kernel) w | exact within_bit (by decide +kernel) w | exact .inr (within_bit (by decide +kernel) w) | exact .inl rfl | simp -zeta only [keepsMk_iff] | apply keeps_mk | apply keeps_foldl | (intro u; first | (refine keeps_then (W := W) (s0 := s0) (a := u) ?_ ?_; subst u; rotate_left; intro _) | subst u | skip) | lift_lets -underBinder | dsimp -zeta only | split

theorem State.nameTier_keeps {a1 a2} (h : Keeps W s0 s) (w : Within 0x2000 W) :
    Keeps W s0 (State.nameTier s a1 a2) := by
  unfold State.nameTier
  with_reducible repeat' first | assumption | exact within_of (by decide +kernel) w | exact within_bit (by decide +kernel) w | exact .inr (within_bit (by decide +kernel) w) | exact .inl rfl | simp -zeta only [keepsMk_iff] | apply keeps_mk | apply keeps_foldl | (intro u; first | (refine keeps_then (W := W) (s0 := s0) (a := u) ?_ ?_; subst u; rotate_left; intro _) | subst u | skip) | lift_lets -underBinder | dsimp -zeta only | split

theorem State.mvmDone_keeps {a1 a2} (h : Keeps W s0 s) (w : Within 0x20000000000000000000002500 W) :
    Keeps W s0 (State.mvmDone s a1 a2) := by
  unfold State.mvmDone
  with_reducible repeat' first | assumption | apply State.noteQuiet_keeps | apply State.settlePass_keeps | apply State.retired_keeps | apply State.landed_keeps | apply State.setArray_keeps | exact within_of (by decide +kernel) w | exact within_bit (by decide +kernel) w | apply keeps_foldl | (intro u; first | (refine keeps_then (W := W) (s0 := s0) (a := u) ?_ ?_; subst u; rotate_left; intro _) | subst u | skip) | lift_lets -underBinder | dsimp -zeta only | split

theorem State.commitMvm_keeps {a1 a2 a3} (h : Keeps W s0 s) (w : Within 0x20001c00000000000000a02500 W) :
    Keeps W s0 (State.commitMvm s a1 a2 a3) := by
  unfold State.commitMvm
  with_reducible repeat' first | assumption | apply State.suspectSlot_keeps | apply State.partialOutput_keeps | apply State.finalOutput_keeps | apply State.mvmDone_keeps | exact within_of (by decide +kernel) w | exact within_bit (by decide +kernel) w | apply keeps_foldl | (intro u; first | (refine keeps_then (W := W) (s0 := s0) (a := u) ?_ ?_; subst u; rotate_left; intro _) | subst u | skip) | lift_lets -underBinder | dsimp -zeta only | split

theorem State.degradedMvm_keeps {a1 a2 a3 a4} (h : Keeps W s0 s) (w : Within 0x600000000000000000000000000000000000000000000000000000000000000000000000000000000000000000020001f00000000000000a02548 W) :
    Keeps W s0 (State.degradedMvm s a1 a2 a3 a4) := by
  unfold State.degradedMvm
  with_reducible repeat' first | assumption | apply State.bump_keeps | apply State.report_keeps | apply State.setRequest_keeps | apply State.commitMvm_keeps | exact within_of (by decide +kernel) w | exact within_bit (by decide +kernel) w | apply keeps_foldl | (intro u; first | (refine keeps_then (W := W) (s0 := s0) (a := u) ?_ ?_; subst u; rotate_left; intro _) | subst u | skip) | lift_lets -underBinder | dsimp -zeta only | split

theorem State.finishMvm_keeps {a1 a2 a3 a4} (h : Keeps W s0 s) (w : Within 0x600000000000000000000000000000000000000000000000000000000000000000000000000000000000000000020001f50000080000000a02548 W) :
    Keeps W s0 (State.finishMvm s a1 a2 a3 a4) := by
  unfold State.finishMvm
  with_reducible repeat' first | assumption | apply State.bump_keeps | apply State.degradedMvm_keeps | apply State.commitMvm_keeps | apply State.requestReemit_keeps | apply State.startAttempt_keeps | exact within_of (by decide +kernel) w | exact within_bit (by decide +kernel) w | apply keeps_foldl | (intro u; first | (refine keeps_then (W := W) (s0 := s0) (a := u) ?_ ?_; subst u; rotate_left; intro _) | subst u | skip) | lift_lets -underBinder | dsimp -zeta only | split

theorem State.capture_keeps {a1 a2 a3 a4 a5} (h : Keeps W s0 s) (w : Within 0x1000000000000000000000000000000000000000000000000000000000000000000000000000000000000000000000000000000000007000000000000108 W) :
    Keeps W s0 (State.capture s a1 a2 a3 a4 a5) := by
  unfold State.capture
  with_reducible repeat' first | assumption | apply State.setArray_keeps | apply State.wr_keeps | apply State.bump_keeps | exact within_of (by decide +kernel) w | exact within_bit (by decide +kernel) w | exact .inr (within_bit (by decide +kernel) w) | exact .inl rfl | simp -zeta only [keepsMk_iff] | apply keeps_mk | apply keeps_foldl | (intro u; first | (refine keeps_then (W := W) (s0 := s0) (a := u) ?_ ?_; subst u; rotate_left; intro _) | subst u | skip) | lift_lets -underBinder | dsimp -zeta only | split

theorem State.checkFailed_keeps {a1 a2 a3 a4} (h : Keeps W s0 s) (w : Within 0x1000060600000000000000000000000000000000000000000000000000000000000000000000000000000000000000000000000000007018080000002508 W) :
    Keeps W s0 (State.checkFailed s a1 a2 a3 a4) := by
  unfold State.checkFailed
  with_reducible repeat' first | assumption | apply State.bump_keeps | apply State.report_keeps | apply State.nameTier_keeps | apply State.capture_keeps | apply State.arrayFailure_keeps | exact within_of (by decide +kernel) w | exact within_bit (by decide +kernel) w | apply keeps_foldl | (intro u; first | (refine keeps_then (W := W) (s0 := s0) (a := u) ?_ ?_; subst u; rotate_left; intro _) | subst u | skip) | lift_lets -underBinder | dsimp -zeta only | split

theorem State.abortTag_keeps {a1 a2} (h : Keeps W s0 s) (w : Within 0xfb00000000000000000000000000000000000040000000000000000000000000000000000000000000f0078000000000000042000000000000007e000823dc0 W) :
    Keeps W s0 (State.abortTag s a1 a2) := by
  unfold State.abortTag
  with_reducible repeat' first | assumption | apply State.stepAbortOf_keeps | exact within_of (by decide +kernel) w | exact within_bit (by decide +kernel) w | apply keeps_foldl | (intro u; first | (refine keeps_then (W := W) (s0 := s0) (a := u) ?_ ?_; subst u; rotate_left; intro _) | subst u | skip) | lift_lets -underBinder | dsimp -zeta only | split

theorem State.afterCheckFailure_keeps {a1 a2 a3} (h : Keeps W s0 s) (w : Within 0xfb00001000000000000000000000000000000040000000000000000000000000000000000000000000f0078000000000000042000000000008007e000823dc8 W) :
    Keeps W s0 (State.afterCheckFailure s a1 a2 a3) := by
  unfold State.afterCheckFailure
  with_reducible repeat' first | assumption | apply State.abortTag_keeps | apply State.setArray_keeps | apply State.bump_keeps | apply State.dropSample_keeps | apply State.startPart_keeps | apply State.mvmDone_keeps | exact within_of (by decide +kernel) w | exact within_bit (by decide +kernel) w | apply keeps_foldl | (intro u; first | (refine keeps_then (W := W) (s0 := s0) (a := u) ?_ ?_; subst u; rotate_left; intro _) | subst u | skip) | lift_lets -underBinder | dsimp -zeta only | split

theorem State.completePart_keeps {a1 a2 a3 a4} (h : Keeps W s0 s) (w : Within 0xfb01001060600000000000000000000000000040000000000000000000000000000000000000000000f00780000000000000420001f500070980fe000a23dc8 W) :
    Keeps W s0 (State.completePart s a1 a2 a3 a4) := by
  unfold State.completePart
  with_reducible repeat' first | assumption | apply State.afterCheckFailure_keeps | apply State.checkFailed_keeps | apply State.setArray_keeps | apply State.startPart_keeps | apply State.finishMvm_keeps | exact within_of (by decide +kernel) w | exact within_bit (by decide +kernel) w | apply keeps_foldl | (intro u; first | (refine keeps_then (W := W) (s0 := s0) (a := u) ?_ ?_; subst u; rotate_left; intro _) | subst u | skip) | lift_lets -underBinder | dsimp -zeta only | split

end Sys2Proof.Machine
end

