-- ==== Sys2Proof/Laws/Keeps/CrossOps.lean ====
section
/-! SUPPORT. Laws/Keeps/CrossOps.lean: what every operation of Machine/CrossOps.lean keeps (the relation of Laws/Keeps.lean). -/
set_option Elab.async false
set_option linter.all false
set_option linter.unusedSimpArgs false
set_option linter.tactic.unusedName false
namespace Sys2Proof.Machine
variable {W : Nat} {s0 s : State}

theorem State.setHeld_keeps {a1 a2} (h : Keeps W s0 s) (w : Within 0x20 W) :
    Keeps W s0 (State.setHeld s a1 a2) := by
  unfold State.setHeld
  with_reducible repeat' first | assumption | exact within_of (by decide +kernel) w | exact within_bit (by decide +kernel) w | exact .inr (within_bit (by decide +kernel) w) | exact .inl rfl | simp -zeta only [keepsMk_iff] | apply keeps_mk | apply keeps_foldl | (intro u; first | (refine keeps_then (W := W) (s0 := s0) (a := u) ?_ ?_; subst u; rotate_left; intro _) | subst u | skip) | lift_lets -underBinder | dsimp -zeta only | split

theorem State.hold_keeps {a1} (h : Keeps W s0 s) (w : Within 0x1800000000000000000000000000000000000000000000000000000000000000000000000000000020 W) :
    Keeps W s0 (State.hold s a1) := by
  unfold State.hold
  with_reducible repeat' first | assumption | apply State.setHeld_keeps | apply State.wr_keeps | apply State.bump_keeps | exact within_of (by decide +kernel) w | exact within_bit (by decide +kernel) w | apply keeps_foldl | (intro u; first | (refine keeps_then (W := W) (s0 := s0) (a := u) ?_ ?_; subst u; rotate_left; intro _) | subst u | skip) | lift_lets -underBinder | dsimp -zeta only | split

theorem State.ungate_keeps {a1} (h : Keeps W s0 s) (w : Within 0x10000 W) :
    Keeps W s0 (State.ungate s a1) := by
  unfold State.ungate
  with_reducible repeat' first | assumption | exact within_of (by decide +kernel) w | exact within_bit (by decide +kernel) w | exact .inr (within_bit (by decide +kernel) w) | exact .inl rfl | simp -zeta only [keepsMk_iff] | apply keeps_mk | apply keeps_foldl | (intro u; first | (refine keeps_then (W := W) (s0 := s0) (a := u) ?_ ?_; subst u; rotate_left; intro _) | subst u | skip) | lift_lets -underBinder | dsimp -zeta only | split

theorem State.access_keeps {a1 a2 a3 a4} (h : Keeps W s0 s) (w : Within 0x1800000000000000000000000000000000000000000000000000000000000000000000000000810020 W) (h4 : ∀ a, Keeps W s0 a → Keeps W s0 (a4 a)) :
    Keeps W s0 (State.access s a1 a2 a3 a4) := by
  unfold State.access
  with_reducible repeat' first | assumption | apply h4 | apply State.emit_keeps | apply State.hold_keeps | apply State.ungate_keeps | exact within_of (by decide +kernel) w | exact within_bit (by decide +kernel) w | apply keeps_foldl | (intro u; first | (refine keeps_then (W := W) (s0 := s0) (a := u) ?_ ?_; subst u; rotate_left; intro _) | subst u | skip) | lift_lets -underBinder | dsimp -zeta only | split

theorem State.doorbellAccess_keeps {a1 a2 a3 a4} (h : Keeps W s0 s) (w : Within 0x1800000000000000000000000000000000000000000000000000000000000000000000000000000020 W) (h4 : ∀ a, Keeps W s0 a → Keeps W s0 (a4 a)) :
    Keeps W s0 (State.doorbellAccess s a1 a2 a3 a4) := by
  unfold State.doorbellAccess
  with_reducible repeat' first | assumption | apply h4 | apply State.hold_keeps | exact within_of (by decide +kernel) w | exact within_bit (by decide +kernel) w | apply keeps_foldl | (intro u; first | (refine keeps_then (W := W) (s0 := s0) (a := u) ?_ ?_; subst u; rotate_left; intro _) | subst u | skip) | lift_lets -underBinder | dsimp -zeta only | split

theorem State.ownedAccess_keeps {a1 a2 a3 a4} (h : Keeps W s0 s) (w : Within 0x180000000000000003d000000000000000000000000000000000000000000000000000000000810020 W) (h4 : ∀ a, Keeps W s0 a → Keeps W s0 (a4 a)) :
    Keeps W s0 (State.ownedAccess s a1 a2 a3 a4) := by
  unfold State.ownedAccess
  with_reducible repeat' first | assumption | apply h4 | apply State.access_keeps | apply State.owned_keeps | exact within_of (by decide +kernel) w | exact within_bit (by decide +kernel) w | apply keeps_foldl | (intro u; first | (refine keeps_then (W := W) (s0 := s0) (a := u) ?_ ?_; subst u; rotate_left; intro _) | subst u | skip) | lift_lets -underBinder | dsimp -zeta only | split

theorem State.noteNv_keeps (h : Keeps W s0 s) (w : Within 0x40000 W) :
    Keeps W s0 (State.noteNv s) := by
  unfold State.noteNv
  with_reducible repeat' first | assumption | exact within_of (by decide +kernel) w | exact within_bit (by decide +kernel) w | exact .inr (within_bit (by decide +kernel) w) | exact .inl rfl | simp -zeta only [keepsMk_iff] | apply keeps_mk | apply keeps_foldl | (intro u; first | (refine keeps_then (W := W) (s0 := s0) (a := u) ?_ ?_; subst u; rotate_left; intro _) | subst u | skip) | lift_lets -underBinder | dsimp -zeta only | split

theorem State.autowake_keeps (h : Keeps W s0 s) (w : Within 0x8000000000000000000000000000000000000000000000000000000000000000000000000000000000000000000000000000000000010000 W) :
    Keeps W s0 (State.autowake s) := by
  unfold State.autowake
  with_reducible repeat' first | assumption | apply State.wr_keeps | exact within_of (by decide +kernel) w | exact within_bit (by decide +kernel) w | exact .inr (within_bit (by decide +kernel) w) | exact .inl rfl | simp -zeta only [keepsMk_iff] | apply keeps_mk | apply keeps_foldl | (intro u; first | (refine keeps_then (W := W) (s0 := s0) (a := u) ?_ ?_; subst u; rotate_left; intro _) | subst u | skip) | lift_lets -underBinder | dsimp -zeta only | split

end Sys2Proof.Machine
end

