-- ==== Sys2Proof/Laws/Keeps/Arrays.lean ====
section
/-! SUPPORT. Laws/Keeps/Arrays.lean: what every operation of Machine/Arrays.lean keeps (the relation of Laws/Keeps.lean). -/
set_option Elab.async false
set_option linter.all false
set_option linter.unusedSimpArgs false
set_option linter.tactic.unusedName false
namespace Sys2Proof.Machine
variable {W : Nat} {s0 s : State}

theorem State.openSample_keeps {a1 a2 a3 a4} (h : Keeps W s0 s) (w : Within 0x8 W) :
    Keeps W s0 (State.openSample s a1 a2 a3 a4) := by
  unfold State.openSample
  with_reducible repeat' first | assumption | exact within_of (by decide +kernel) w | exact within_bit (by decide +kernel) w | exact .inr (within_bit (by decide +kernel) w) | exact .inl rfl | simp -zeta only [keepsMk_iff] | apply keeps_mk | apply keeps_foldl | (intro u; first | (refine keeps_then (W := W) (s0 := s0) (a := u) ?_ ?_; subst u; rotate_left; intro _) | subst u | skip) | lift_lets -underBinder | dsimp -zeta only | split

theorem State.tierMissing_keeps {a1 a2} (h : Keeps W s0 s) (w : Within 0xfb00000000000000000000000000000000000040000000000000000000000000000000001000000000f00780000000000000c2000000000000007e000823dc0 W) :
    Keeps W s0 (State.tierMissing s a1 a2) := by
  unfold State.tierMissing
  with_reducible repeat' first | assumption | apply State.tierNotReady_keeps | apply State.advance_keeps | apply State.bump_keeps | exact within_of (by decide +kernel) w | exact within_bit (by decide +kernel) w | apply keeps_foldl | (intro u; first | (refine keeps_then (W := W) (s0 := s0) (a := u) ?_ ?_; subst u; rotate_left; intro _) | subst u | skip) | lift_lets -underBinder | dsimp -zeta only | split

theorem State.beginMvm_keeps {a1 a2 a3 a4 a5} (h : Keeps W s0 s) (w : Within 0x60000080000000800508 W) :
    Keeps W s0 (State.beginMvm s a1 a2 a3 a4 a5) := by
  unfold State.beginMvm
  with_reducible repeat' first | assumption | apply State.openSample_keeps | apply State.setCore_keeps | apply State.startAttempt_keeps | apply State.assemble_keeps | apply State.requestReemit_keeps | exact within_of (by decide +kernel) w | exact within_bit (by decide +kernel) w | apply keeps_foldl | (intro u; first | (refine keeps_then (W := W) (s0 := s0) (a := u) ?_ ?_; subst u; rotate_left; intro _) | subst u | skip) | lift_lets -underBinder | dsimp -zeta only | split

theorem execTierMvm_keeps {a0 a1 a2} (h : Keeps W s0 s) (w : Within 0xfb00000000600000000000000000000010000040000000000000000000000000000000001000000000f0078000000000001ee2002006000008007e000823dc8 W) :
    KeepsN W s0 (execTierMvm a0 a1 a2 s) := by
  unfold execTierMvm
  with_reducible repeat' first | assumption | apply keepsOF_some | apply keepsOF_none | apply keepsN_next | apply State.issue_keeps | apply State.tierMissing_keeps | apply State.beginMvm_keeps | apply State.intrude_keeps | exact within_of (by decide +kernel) w | exact within_bit (by decide +kernel) w | apply keeps_foldl | (intro u; first | (refine keeps_then (W := W) (s0 := s0) (a := u) ?_ ?_; subst u; rotate_left; intro _) | subst u | skip) | lift_lets -underBinder | dsimp -zeta only | split

theorem State.sampleCodes_keeps {a1 a2 a3 a4} (h : Keeps W s0 s) (w : Within 0x8 W) :
    Keeps W s0 (State.sampleCodes s a1 a2 a3 a4) := by
  unfold State.sampleCodes
  with_reducible repeat' first | assumption | exact within_of (by decide +kernel) w | exact within_bit (by decide +kernel) w | exact .inr (within_bit (by decide +kernel) w) | exact .inl rfl | simp -zeta only [keepsMk_iff] | apply keeps_mk | apply keeps_foldl | (intro u; first | (refine keeps_then (W := W) (s0 := s0) (a := u) ?_ ?_; subst u; rotate_left; intro _) | subst u | skip) | lift_lets -underBinder | dsimp -zeta only | split

theorem execConversion_keeps {a0 a1} (h : Keeps W s0 s) (w : Within 0x60000001000108 W) :
    KeepsN W s0 (execConversion a0 a1 s) := by
  unfold execConversion
  with_reducible repeat' first | assumption | apply keepsN_next | apply State.bump_keeps | apply State.sampleCodes_keeps | apply State.setArray_keeps | refine keeps_draw ?_ ?_ | exact within_of (by decide +kernel) w | exact within_bit (by decide +kernel) w | exact .inr (within_bit (by decide +kernel) w) | exact .inl rfl | simp -zeta only [keepsMk_iff] | apply keeps_mk | apply keeps_foldl | (intro u; first | (refine keeps_then (W := W) (s0 := s0) (a := u) ?_ ?_; subst u; rotate_left; intro _) | subst u | skip) | lift_lets -underBinder | dsimp -zeta only | split

theorem execTierMvmComplete_keeps {a0 a1 a2} (h : Keeps W s0 s) (w : Within 0xfb01001060600000000000000000000000000040000000000000000000000000000000000000000000f00780000000000000420001f500070980fe000a23dc8 W) :
    KeepsN W s0 (execTierMvmComplete a0 a1 a2 s) := by
  unfold execTierMvmComplete
  with_reducible repeat' first | assumption | apply keepsN_next | apply State.completePart_keeps | exact within_of (by decide +kernel) w | exact within_bit (by decide +kernel) w | apply keeps_foldl | (intro u; first | (refine keeps_then (W := W) (s0 := s0) (a := u) ?_ ?_; subst u; rotate_left; intro _) | subst u | skip) | lift_lets -underBinder | dsimp -zeta only | split

theorem execTmvmAbort_keeps {a0 a1} (h : Keeps W s0 s) (w : Within 0x500 W) :
    KeepsN W s0 (execTmvmAbort a0 a1 s) := by
  unfold execTmvmAbort
  with_reducible repeat' first | assumption | apply keepsN_next | apply State.settlePass_keeps | apply State.abortMvm_keeps | exact within_of (by decide +kernel) w | exact within_bit (by decide +kernel) w | apply keeps_foldl | (intro u; first | (refine keeps_then (W := W) (s0 := s0) (a := u) ?_ ?_; subst u; rotate_left; intro _) | subst u | skip) | lift_lets -underBinder | dsimp -zeta only | split

theorem State.reemitAt_keeps {a1 a2 a3 a4} (h : Keeps W s0 s) (w : Within 0x800400 W) :
    Keeps W s0 (State.reemitAt s a1 a2 a3 a4) := by
  unfold State.reemitAt
  with_reducible repeat' first | assumption | apply State.setCore_keeps | apply State.sendMessage_keeps | exact within_of (by decide +kernel) w | exact within_bit (by decide +kernel) w | apply keeps_foldl | (intro u; first | (refine keeps_then (W := W) (s0 := s0) (a := u) ?_ ?_; subst u; rotate_left; intro _) | subst u | skip) | lift_lets -underBinder | dsimp -zeta only | split

theorem execReemit_keeps {a0 a1 a2 a3} (h : Keeps W s0 s) (w : Within 0x800400 W) :
    KeepsN W s0 (execReemit a0 a1 a2 a3 s) := by
  unfold execReemit
  with_reducible repeat' first | assumption | apply keepsN_next | apply State.reemitAt_keeps | exact within_of (by decide +kernel) w | exact within_bit (by decide +kernel) w | apply keeps_foldl | (intro u; first | (refine keeps_then (W := W) (s0 := s0) (a := u) ?_ ?_; subst u; rotate_left; intro _) | subst u | skip) | lift_lets -underBinder | dsimp -zeta only | split

theorem execReplayBlocksArrive_keeps {a0 a1 a2 a3} (h : Keeps W s0 s) (w : Within 0x60000080000000800108 W) :
    KeepsN W s0 (execReplayBlocksArrive a0 a1 a2 a3 s) := by
  unfold execReplayBlocksArrive
  with_reducible repeat' first | assumption | apply keepsN_next | apply State.assemble_keeps | exact within_of (by decide +kernel) w | exact within_bit (by decide +kernel) w | apply keeps_foldl | (intro u; first | (refine keeps_then (W := W) (s0 := s0) (a := u) ?_ ?_; subst u; rotate_left; intro _) | subst u | skip) | lift_lets -underBinder | dsimp -zeta only | split

theorem execRecoveryPass_keeps {a0 a1 a2} (h : Keeps W s0 s) (w : Within 0x80000080000000000108 W) :
    KeepsN W s0 (execRecoveryPass a0 a1 a2 s) := by
  unfold execRecoveryPass
  with_reducible repeat' first | assumption | apply keepsN_next | apply State.startAttempt_keeps | apply State.bump_keeps | exact within_of (by decide +kernel) w | exact within_bit (by decide +kernel) w | apply keeps_foldl | (intro u; first | (refine keeps_then (W := W) (s0 := s0) (a := u) ?_ ?_; subst u; rotate_left; intro _) | subst u | skip) | lift_lets -underBinder | dsimp -zeta only | split

theorem State.clearCaptures_keeps {a1} (h : Keeps W s0 s) (w : Within 0x7000000000000100 W) :
    Keeps W s0 (State.clearCaptures s a1) := by
  unfold State.clearCaptures
  with_reducible repeat' first | assumption | apply State.wr_keeps | apply State.setArray_keeps | exact within_of (by decide +kernel) w | exact within_bit (by decide +kernel) w | apply keeps_foldl | (intro u; first | (refine keeps_then (W := W) (s0 := s0) (a := u) ?_ ?_; subst u; rotate_left; intro _) | subst u | skip) | lift_lets -underBinder | dsimp -zeta only | split

theorem State.capClear_keeps {a1 a2} (h : Keeps W s0 s) (w : Within 0x7000000000000100 W) :
    Keeps W s0 (State.capClear s a1 a2) := by
  unfold State.capClear
  with_reducible repeat' first | assumption | apply State.clearCaptures_keeps | exact within_of (by decide +kernel) w | exact within_bit (by decide +kernel) w | apply keeps_foldl | (intro u; first | (refine keeps_then (W := W) (s0 := s0) (a := u) ?_ ?_; subst u; rotate_left; intro _) | subst u | skip) | lift_lets -underBinder | dsimp -zeta only | split

theorem execCapClear_keeps {a0 a1} (h : Keeps W s0 s) (w : Within 0x1800000000000000000000000000000000000000000000000000000000000000007000000000810120 W) :
    KeepsN W s0 (execCapClear a0 a1 s) := by
  unfold execCapClear
  with_reducible repeat' first | assumption | apply keepsN_next | apply State.access_keeps | apply State.capClear_keeps | exact within_of (by decide +kernel) w | exact within_bit (by decide +kernel) w | apply keeps_foldl | (intro u; first | (refine keeps_then (W := W) (s0 := s0) (a := u) ?_ ?_; subst u; rotate_left; intro _) | subst u | skip) | lift_lets -underBinder | dsimp -zeta only | split

end Sys2Proof.Machine
end

