-- ==== Sys2Proof/Laws/Keeps/LinkOps.lean ====
section
/-! SUPPORT. Laws/Keeps/LinkOps.lean: what every operation of Machine/LinkOps.lean keeps (the relation of Laws/Keeps.lean). -/
set_option Elab.async false
set_option linter.all false
set_option linter.unusedSimpArgs false
set_option linter.tactic.unusedName false
namespace Sys2Proof.Machine
variable {W : Nat} {s0 s : State}

theorem State.linkEvent_keeps {a1 a2} (h : Keeps W s0 s) (w : Within 0xcae00000000000000000000000000000000000000000000000000000000000000000000800020 W) :
    Keeps W s0 (State.linkEvent s a1 a2) := by
  unfold State.linkEvent
  with_reducible repeat' first | assumption | apply State.postBoth_keeps | exact within_of (by decide +kernel) w | exact within_bit (by decide +kernel) w | apply keeps_foldl | (intro u; first | (refine keeps_then (W := W) (s0 := s0) (a := u) ?_ ?_; subst u; rotate_left; intro _) | subst u | skip) | lift_lets -underBinder | dsimp -zeta only | split

theorem State.setZlMode_keeps {a1 a2 a3} (h : Keeps W s0 s) (w : Within 0x2400000cae00000000000000000000000000000000000000000000000000000000000000000000801020 W) :
    Keeps W s0 (State.setZlMode s a1 a2 a3) := by
  unfold State.setZlMode
  with_reducible repeat' first | assumption | apply State.bump_keeps | apply State.wr_keeps | apply State.setZl_keeps | apply State.linkEvent_keeps | exact within_of (by decide +kernel) w | exact within_bit (by decide +kernel) w | apply keeps_foldl | (intro u; first | (refine keeps_then (W := W) (s0 := s0) (a := u) ?_ ?_; subst u; rotate_left; intro _) | subst u | skip) | lift_lets -underBinder | dsimp -zeta only | split

theorem State.zlDown_keeps {a1 a2 a3} (h : Keeps W s0 s) (w : Within 0x3c00000cae00000000000000000000000000000000000000000000000000000000000000000000801020 W) :
    Keeps W s0 (State.zlDown s a1 a2 a3) := by
  unfold State.zlDown
  with_reducible repeat' first | assumption | apply State.wr_keeps | apply State.setZl_keeps | apply State.setZlMode_keeps | exact within_of (by decide +kernel) w | exact within_bit (by decide +kernel) w | apply keeps_foldl | (intro u; first | (refine keeps_then (W := W) (s0 := s0) (a := u) ?_ ?_; subst u; rotate_left; intro _) | subst u | skip) | lift_lets -underBinder | dsimp -zeta only | split

theorem State.reportLinkDown_keeps {a1} (h : Keeps W s0 s) (w : Within 0x600000000000000000000000000000000000000000000000000000000000000000000000000000000000000000000000000000000000000000008 W) :
    Keeps W s0 (State.reportLinkDown s a1) := by
  unfold State.reportLinkDown
  with_reducible repeat' first | assumption | apply State.report_keeps | exact within_of (by decide +kernel) w | exact within_bit (by decide +kernel) w | apply keeps_foldl | (intro u; first | (refine keeps_then (W := W) (s0 := s0) (a := u) ?_ ?_; subst u; rotate_left; intro _) | subst u | skip) | lift_lets -underBinder | dsimp -zeta only | split

theorem State.abortPartition_keeps {a1} (h : Keeps W s0 s) (w : Within 0xfb00000000000000000000000000000000000040000000000000000000000000000000000000000000f0078000000000000042000000000000007e000823dc0 W) :
    Keeps W s0 (State.abortPartition s a1) := by
  unfold State.abortPartition
  with_reducible repeat' first | assumption | apply State.forEach_keeps | apply State.stepAbortOf_keeps | exact within_of (by decide +kernel) w | exact within_bit (by decide +kernel) w | apply keeps_foldl | (intro u; first | (refine keeps_then (W := W) (s0 := s0) (a := u) ?_ ?_; subst u; rotate_left; intro _) | subst u | skip) | lift_lets -underBinder | dsimp -zeta only | split

theorem State.chainExpire_keeps {a1} (h : Keeps W s0 s) (w : Within 0x4000000000000000000000000000000000000000000000078000000000000042000000000000007e000803dc0 W) :
    Keeps W s0 (State.chainExpire s a1) := by
  unfold State.chainExpire
  with_reducible repeat' first | assumption | apply State.forEach_keeps | apply State.faultRequest_keeps | exact within_of (by decide +kernel) w | exact within_bit (by decide +kernel) w | apply keeps_foldl | (intro u; first | (refine keeps_then (W := W) (s0 := s0) (a := u) ?_ ?_; subst u; rotate_left; intro _) | subst u | skip) | lift_lets -underBinder | dsimp -zeta only | split

theorem State.chainBroken_keeps {a1} (h : Keeps W s0 s) (w : Within 0x4000000000000000000000000000000000000000000000078000000000000042000000000000007e000803dc0 W) :
    Keeps W s0 (State.chainBroken s a1) := by
  unfold State.chainBroken
  with_reducible repeat' first | assumption | apply State.forEach_keeps | apply State.setRequest_keeps | apply State.chainExpire_keeps | exact within_of (by decide +kernel) w | exact within_bit (by decide +kernel) w | apply keeps_foldl | (intro u; first | (refine keeps_then (W := W) (s0 := s0) (a := u) ?_ ?_; subst u; rotate_left; intro _) | subst u | skip) | lift_lets -underBinder | dsimp -zeta only | split

theorem State.severPort_keeps {a1} (h : Keeps W s0 s) (w : Within 0xfb00000000000000000000000000000000000040000000000000000000000000000000000000000000f0078000000000000042000000000000007e000823dc0 W) :
    Keeps W s0 (State.severPort s a1) := by
  unfold State.severPort
  with_reducible repeat' first | assumption | apply State.abortPartition_keeps | apply State.chainBroken_keeps | exact within_of (by decide +kernel) w | exact within_bit (by decide +kernel) w | exact .inr (within_bit (by decide +kernel) w) | exact .inl rfl | simp -zeta only [keepsMk_iff] | apply keeps_mk | apply keeps_foldl | (intro u; first | (refine keeps_then (W := W) (s0 := s0) (a := u) ?_ ?_; subst u; rotate_left; intro _) | subst u | skip) | lift_lets -underBinder | dsimp -zeta only | split

theorem State.loseLink_keeps {a1 a2 a3 a4} (h : Keeps W s0 s) (w : Within 0xfb000000006000000000000000000000000000400003c00000cae00000000000000000000000000000f0078000000000000042000000000000007e000823de8 W) :
    Keeps W s0 (State.loseLink s a1 a2 a3 a4) := by
  unfold State.loseLink
  with_reducible repeat' first | assumption | apply State.reportLinkDown_keeps | apply State.setZl_keeps | apply State.severPort_keeps | apply State.zlDown_keeps | exact within_of (by decide +kernel) w | exact within_bit (by decide +kernel) w | apply keeps_foldl | (intro u; first | (refine keeps_then (W := W) (s0 := s0) (a := u) ?_ ?_; subst u; rotate_left; intro _) | subst u | skip) | lift_lets -underBinder | dsimp -zeta only | split

theorem State.retrainPort_keeps {a1} (h : Keeps W s0 s) (w : Within 0x400006400000cae0000000000000000000000000000000078000000000000042000000000000007e000803de0 W) :
    Keeps W s0 (State.retrainPort s a1) := by
  unfold State.retrainPort
  with_reducible repeat' first | assumption | apply State.setZl_keeps | apply State.wr_keeps | apply State.setZlMode_keeps | apply State.chainBroken_keeps | exact within_of (by decide +kernel) w | exact within_bit (by decide +kernel) w | apply keeps_foldl | (intro u; first | (refine keeps_then (W := W) (s0 := s0) (a := u) ?_ ?_; subst u; rotate_left; intro _) | subst u | skip) | lift_lets -underBinder | dsimp -zeta only | split

theorem State.sendFullHello_keeps {a1} (h : Keeps W s0 s) (w : Within 0x40000000000000000000000000000000000000000000000000000000000000000000000000000000001801000 W) :
    Keeps W s0 (State.sendFullHello s a1) := by
  unfold State.sendFullHello
  with_reducible repeat' first | assumption | apply State.draw_keeps | apply State.setZl_keeps | apply State.emit_keeps | apply State.zlStamp_keeps | refine keeps_of_snd (by assumption) ?_ | exact within_of (by decide +kernel) w | exact within_bit (by decide +kernel) w | simp -zeta only [keepsS_mk_iff, keeps_snd_iff] | apply keepsS_foldl | apply keeps_foldl | (intro u; first | (refine keeps_then (W := W) (s0 := s0) (a := u) ?_ ?_; subst u; rotate_left; intro _) | subst u | skip) | lift_lets -underBinder | dsimp -zeta only | split

theorem State.sendShortHello_keeps {a1 a2} (h : Keeps W s0 s) (w : Within 0x40000000000000000000000000000000000000000000000000000000000000000000000000000000000801000 W) :
    Keeps W s0 (State.sendShortHello s a1 a2) := by
  unfold State.sendShortHello
  with_reducible repeat' first | assumption | apply State.emit_keeps | apply State.zlStamp_keeps | apply State.setZl_keeps | exact within_of (by decide +kernel) w | exact within_bit (by decide +kernel) w | apply keeps_foldl | (intro u; first | (refine keeps_then (W := W) (s0 := s0) (a := u) ?_ ?_; subst u; rotate_left; intro _) | subst u | skip) | lift_lets -underBinder | dsimp -zeta only | split

theorem State.zlTake_keeps {a1} (h : Keeps W s0 s) (w : Within 0x80000000000000000000000000000000000000000000000000000000000000000000000000000000000001000 W) :
    Keeps W s0 (State.zlTake s a1) := by
  unfold State.zlTake
  with_reducible repeat' first | assumption | apply State.bump_keeps | apply State.setZl_keeps | exact within_of (by decide +kernel) w | exact within_bit (by decide +kernel) w | apply keeps_foldl | (intro u; first | (refine keeps_then (W := W) (s0 := s0) (a := u) ?_ ?_; subst u; rotate_left; intro _) | subst u | skip) | lift_lets -underBinder | dsimp -zeta only | split

theorem State.zlResend_keeps {a1 a2} (h : Keeps W s0 s) (w : Within 0x800000 W) :
    Keeps W s0 (State.zlResend s a1 a2) := by
  unfold State.zlResend
  with_reducible repeat' first | assumption | apply State.emit_keeps | exact within_of (by decide +kernel) w | exact within_bit (by decide +kernel) w | apply keeps_foldl | (intro u; first | (refine keeps_then (W := W) (s0 := s0) (a := u) ?_ ?_; subst u; rotate_left; intro _) | subst u | skip) | lift_lets -underBinder | dsimp -zeta only | split

theorem State.dropLane_keeps {a1 a2} (h : Keeps W s0 s) (w : Within 0xfb000000006000000000000000000000000000400007c00000cae00000000000000000000000000000f0078000000000000042000000000000007e000823de8 W) :
    Keeps W s0 (State.dropLane s a1 a2) := by
  unfold State.dropLane
  with_reducible repeat' first | assumption | apply State.wr_keeps | apply State.report_keeps | apply State.loseLink_keeps | exact within_of (by decide +kernel) w | exact within_bit (by decide +kernel) w | apply keeps_foldl | (intro u; first | (refine keeps_then (W := W) (s0 := s0) (a := u) ?_ ?_; subst u; rotate_left; intro _) | subst u | skip) | lift_lets -underBinder | dsimp -zeta only | split

theorem State.sendNotice_keeps {a1 a2 a3 a4 a5} (h : Keeps W s0 s) (w : Within 0x40000000000000000000000000000000000000000000000000000000000000000000000000000000000801000 W) :
    Keeps W s0 (State.sendNotice s a1 a2 a3 a4 a5) := by
  unfold State.sendNotice
  with_reducible repeat' first | assumption | apply State.chainSend_keeps | exact within_of (by decide +kernel) w | exact within_bit (by decide +kernel) w | apply keeps_foldl | (intro u; first | (refine keeps_then (W := W) (s0 := s0) (a := u) ?_ ?_; subst u; rotate_left; intro _) | subst u | skip) | lift_lets -underBinder | dsimp -zeta only | split

theorem State.payNotice_keeps {a1} (h : Keeps W s0 s) (w : Within 0x40000000000000000000000000000000000000000000000000000000000000000000000000000000000801000 W) :
    Keeps W s0 (State.payNotice s a1) := by
  unfold State.payNotice
  with_reducible repeat' first | assumption | apply State.setZl_keeps | apply State.zlMsg_keeps | exact within_of (by decide +kernel) w | exact within_bit (by decide +kernel) w | apply keeps_foldl | (intro u; first | (refine keeps_then (W := W) (s0 := s0) (a := u) ?_ ?_; subst u; rotate_left; intro _) | subst u | skip) | lift_lets -underBinder | dsimp -zeta only | split

theorem State.chainSettle_keeps {a1} (h : Keeps W s0 s) (w : Within 0x4000000000000000000000000000000000000000000000078000000000000042000000000000007e000803dc0 W) :
    Keeps W s0 (State.chainSettle s a1) := by
  unfold State.chainSettle
  with_reducible repeat' first | assumption | apply State.forEach_keeps | apply State.faultRequest_keeps | apply State.setRequest_keeps | apply State.setZl_keeps | exact within_of (by decide +kernel) w | exact within_bit (by decide +kernel) w | apply keeps_foldl | (intro u; first | (refine keeps_then (W := W) (s0 := s0) (a := u) ?_ ?_; subst u; rotate_left; intro _) | subst u | skip) | lift_lets -underBinder | dsimp -zeta only | split

theorem State.settleTxns_keeps {a1 a2} (h : Keeps W s0 s) (w : Within 0x40000000000000000000000000000000000000000000000000000000000000000000000000000000000801000 W) :
    Keeps W s0 (State.settleTxns s a1 a2) := by
  unfold State.settleTxns
  with_reducible repeat' first | assumption | apply State.forEach_keeps | apply State.chainSend_keeps | exact within_of (by decide +kernel) w | exact within_bit (by decide +kernel) w | apply keeps_foldl | (intro u; first | (refine keeps_then (W := W) (s0 := s0) (a := u) ?_ ?_; subst u; rotate_left; intro _) | subst u | skip) | lift_lets -underBinder | dsimp -zeta only | split

theorem State.acceptHello_keeps {a1 a2} (h : Keeps W s0 s) (w : Within 0x401bc2400000cae0000000000000000000000000000000078000000000000042000000000000007e000803de0 W) :
    Keeps W s0 (State.acceptHello s a1 a2) := by
  unfold State.acceptHello
  with_reducible repeat' first | assumption | apply State.setZl_keeps | apply State.wr_keeps | apply State.payNotice_keeps | apply State.setZlMode_keeps | apply State.chainSettle_keeps | apply State.settleTxns_keeps | exact within_of (by decide +kernel) w | exact within_bit (by decide +kernel) w | apply keeps_foldl | (intro u; first | (refine keeps_then (W := W) (s0 := s0) (a := u) ?_ ?_; subst u; rotate_left; intro _) | subst u | skip) | lift_lets -underBinder | dsimp -zeta only | split

end Sys2Proof.Machine
end

