-- ==== Sys2Proof/Laws/Keeps/MessageOps.lean ====
section
/-! SUPPORT. Laws/Keeps/MessageOps.lean: what every operation of Machine/MessageOps.lean keeps (the relation of Laws/Keeps.lean). -/
set_option Elab.async false
set_option linter.all false
set_option linter.unusedSimpArgs false
set_option linter.tactic.unusedName false
namespace Sys2Proof.Machine
variable {W : Nat} {s0 s : State}

theorem State.taint_keeps {a1 a2} (h : Keeps W s0 s) (w : Within 0x400 W) :
    Keeps W s0 (State.taint s a1 a2) := by
  unfold State.taint
  with_reducible repeat' first | assumption | apply State.setCore_keeps | exact within_of (by decide +kernel) w | exact within_bit (by decide +kernel) w | apply keeps_foldl | (intro u; first | (refine keeps_then (W := W) (s0 := s0) (a := u) ?_ ?_; subst u; rotate_left; intro _) | subst u | skip) | lift_lets -underBinder | dsimp -zeta only | split

theorem State.takePacket_keeps {a1 a2 a3} (h : Keeps W s0 s) (w : Within 0x200400 W) :
    Keeps W s0 (State.takePacket s a1 a2 a3) := by
  unfold State.takePacket
  with_reducible repeat' first | assumption | apply State.setCore_keeps | apply State.writeWords_keeps | apply State.taint_keeps | exact within_of (by decide +kernel) w | exact within_bit (by decide +kernel) w | apply keeps_foldl | (intro u; first | (refine keeps_then (W := W) (s0 := s0) (a := u) ?_ ?_; subst u; rotate_left; intro _) | subst u | skip) | lift_lets -underBinder | dsimp -zeta only | split

theorem State.tryRecv_keeps {a1 a2} (h : Keeps W s0 s) (w : Within 0x200400 W) :
    KeepsO W s0 (State.tryRecv s a1 a2) := by
  unfold State.tryRecv
  with_reducible repeat' first | assumption | apply keepsO_none | apply keepsO_some | apply State.takePacket_keeps | exact within_of (by decide +kernel) w | exact within_bit (by decide +kernel) w | apply keepsO_foldl | apply keepsO_mapState | apply keepsO_map | apply keeps_foldl | (intro u; first | (refine keeps_then (W := W) (s0 := s0) (a := u) ?_ ?_; subst u; rotate_left; intro _) | subst u | skip) | lift_lets -underBinder | dsimp -zeta only | split

theorem State.takeReduction_keeps {a1 a2 a3} (h : Keeps W s0 s) (w : Within 0x200400 W) :
    Keeps W s0 (State.takeReduction s a1 a2 a3) := by
  unfold State.takeReduction
  with_reducible repeat' first | assumption | apply State.setCore_keeps | apply State.writeWords_keeps | apply State.taint_keeps | exact within_of (by decide +kernel) w | exact within_bit (by decide +kernel) w | apply keeps_foldl | (intro u; first | (refine keeps_then (W := W) (s0 := s0) (a := u) ?_ ?_; subst u; rotate_left; intro _) | subst u | skip) | lift_lets -underBinder | dsimp -zeta only | split

theorem State.tryRecvRed_keeps {a1 a2} (h : Keeps W s0 s) (w : Within 0x200400 W) :
    KeepsO W s0 (State.tryRecvRed s a1 a2) := by
  unfold State.tryRecvRed
  with_reducible repeat' first | assumption | apply keepsO_none | apply keepsO_some | apply State.takeReduction_keeps | exact within_of (by decide +kernel) w | exact within_bit (by decide +kernel) w | apply keepsO_foldl | apply keepsO_mapState | apply keepsO_map | apply keeps_foldl | (intro u; first | (refine keeps_then (W := W) (s0 := s0) (a := u) ?_ ?_; subst u; rotate_left; intro _) | subst u | skip) | lift_lets -underBinder | dsimp -zeta only | split

theorem State.tryWait_keeps {a1 a2 a3} (h : Keeps W s0 s) (w : Within 0x400 W) :
    KeepsO W s0 (State.tryWait s a1 a2 a3) := by
  unfold State.tryWait
  with_reducible repeat' first | assumption | apply keepsO_none | apply keepsO_some | apply State.setCore_keeps | exact within_of (by decide +kernel) w | exact within_bit (by decide +kernel) w | apply keepsO_foldl | apply keepsO_mapState | apply keepsO_map | apply keeps_foldl | (intro u; first | (refine keeps_then (W := W) (s0 := s0) (a := u) ?_ ?_; subst u; rotate_left; intro _) | subst u | skip) | lift_lets -underBinder | dsimp -zeta only | split

theorem State.unpark_keeps {a1} (h : Keeps W s0 s) (w : Within 0x20020000000000000000000400 W) :
    Keeps W s0 (State.unpark s a1) := by
  unfold State.unpark
  with_reducible repeat' first | assumption | apply State.stepHalt_keeps | apply State.retired_keeps | apply State.setCore_keeps | exact within_of (by decide +kernel) w | exact within_bit (by decide +kernel) w | apply keeps_foldl | (intro u; first | (refine keeps_then (W := W) (s0 := s0) (a := u) ?_ ?_; subst u; rotate_left; intro _) | subst u | skip) | lift_lets -underBinder | dsimp -zeta only | split

theorem State.wake_keeps {a1} (h : Keeps W s0 s) (w : Within 0x20020000000000000000200400 W) :
    Keeps W s0 (State.wake s a1) := by
  unfold State.wake
  with_reducible repeat' first | assumption | apply keepsO_some | apply keepsO_none | apply State.tryRecv_keeps | apply State.unpark_keeps | apply State.tryRecvRed_keeps | apply State.tryWait_keeps | refine keeps_of_some (by assumption) ?_ | exact keeps_of_some rfl (by assumption) | apply keeps_getD | exact within_of (by decide +kernel) w | exact within_bit (by decide +kernel) w | apply keeps_foldl | (intro u; first | (refine keeps_then (W := W) (s0 := s0) (a := u) ?_ ?_; subst u; rotate_left; intro _) | subst u | skip) | lift_lets -underBinder | dsimp -zeta only | split

theorem State.parkAt_keeps {a1 a2} (h : Keeps W s0 s) (w : Within 0x400 W) :
    Keeps W s0 (State.parkAt s a1 a2) := by
  unfold State.parkAt
  with_reducible repeat' first | assumption | apply State.setCore_keeps | exact within_of (by decide +kernel) w | exact within_bit (by decide +kernel) w | apply keeps_foldl | (intro u; first | (refine keeps_then (W := W) (s0 := s0) (a := u) ?_ ?_; subst u; rotate_left; intro _) | subst u | skip) | lift_lets -underBinder | dsimp -zeta only | split

theorem State.orPark_keeps {a1 a2 a3} (h : Keeps W s0 s) (w : Within 0x400 W) (h3 : KeepsO W s0 a3) :
    KeepsOF W s0 (State.orPark s a1 a2 a3) := by
  unfold State.orPark
  with_reducible repeat' first | assumption | apply keepsO_some | apply keepsO_none | apply keepsOF_none | apply keepsOF_some | apply State.parkAt_keeps | refine keeps_of_some (by assumption) ?_ | exact keeps_of_some rfl (by assumption) | apply keeps_getD | exact within_of (by decide +kernel) w | exact within_bit (by decide +kernel) w | simp -zeta only [keepsF_mk_iff, keeps_fst_iff] | apply keepsOF_map | apply keeps_foldl | (intro u; first | (refine keeps_then (W := W) (s0 := s0) (a := u) ?_ ?_; subst u; rotate_left; intro _) | subst u | skip) | lift_lets -underBinder | dsimp -zeta only | split

end Sys2Proof.Machine
end

