-- ==== Sys2Proof/Laws/Keeps/FabricOps.lean ====
section
/-! SUPPORT. Laws/Keeps/FabricOps.lean: what every operation of Machine/FabricOps.lean keeps (the relation of Laws/Keeps.lean). -/
set_option Elab.async false
set_option linter.all false
set_option linter.unusedSimpArgs false
set_option linter.tactic.unusedName false
namespace Sys2Proof.Machine
variable {W : Nat} {s0 s : State}

theorem State.judgeFallback_keeps {a1} (h : Keeps W s0 s) (w : Within 0x800000000000000000000000000000 W) :
    Keeps W s0 (State.judgeFallback s a1) := by
  unfold State.judgeFallback
  with_reducible repeat' first | assumption | apply State.wr_keeps | exact within_of (by decide +kernel) w | exact within_bit (by decide +kernel) w | apply keeps_foldl | (intro u; first | (refine keeps_then (W := W) (s0 := s0) (a := u) ?_ ?_; subst u; rotate_left; intro _) | subst u | skip) | lift_lets -underBinder | dsimp -zeta only | split

theorem State.adderMismatch_keeps {a1 a2} (h : Keeps W s0 s) (w : Within 0x600000000000000000000000000000000000000000000000000000000000000000000000000000000020000800000000000000000000000000808 W) :
    Keeps W s0 (State.adderMismatch s a1 a2) := by
  unfold State.adderMismatch
  with_reducible repeat' first | assumption | apply State.bump_keeps | apply State.report_keeps | apply State.setRouter_keeps | apply State.judgeFallback_keeps | exact within_of (by decide +kernel) w | exact within_bit (by decide +kernel) w | apply keeps_foldl | (intro u; first | (refine keeps_then (W := W) (s0 := s0) (a := u) ?_ ?_; subst u; rotate_left; intro _) | subst u | skip) | lift_lets -underBinder | dsimp -zeta only | split

theorem State.enqueue_keeps {a1 a2 a3 a4} (h : Keeps W s0 s) (w : Within 0x600000000000000000000000000000000000000000000000000000000000000000000000000000000020000800000000000000000000000000808 W) :
    Keeps W s0 (State.enqueue s a1 a2 a3 a4) := by
  unfold State.enqueue
  with_reducible repeat' first | assumption | apply State.setRouter_keeps | apply State.adderMismatch_keeps | exact within_of (by decide +kernel) w | exact within_bit (by decide +kernel) w | apply keeps_foldl | (intro u; first | (refine keeps_then (W := W) (s0 := s0) (a := u) ?_ ?_; subst u; rotate_left; intro _) | subst u | skip) | lift_lets -underBinder | dsimp -zeta only | split

theorem State.sendSlot_keeps {a1 a2} (h : Keeps W s0 s) (w : Within 0x800800 W) :
    Keeps W s0 (State.sendSlot s a1 a2) := by
  unfold State.sendSlot
  with_reducible repeat' first | assumption | apply State.emit_keeps | apply State.setRouter_keeps | exact within_of (by decide +kernel) w | exact within_bit (by decide +kernel) w | apply keeps_foldl | (intro u; first | (refine keeps_then (W := W) (s0 := s0) (a := u) ?_ ?_; subst u; rotate_left; intro _) | subst u | skip) | lift_lets -underBinder | dsimp -zeta only | split

theorem State.markLink_keeps {a1 a2} (h : Keeps W s0 s) (w : Within 0x9800000000000000000000000000000800 W) :
    Keeps W s0 (State.markLink s a1 a2) := by
  unfold State.markLink
  with_reducible repeat' first | assumption | apply State.wr_keeps | exact within_of (by decide +kernel) w | exact within_bit (by decide +kernel) w | exact .inr (within_bit (by decide +kernel) w) | exact .inl rfl | simp -zeta only [keepsMk_iff] | apply keeps_mk | apply keeps_foldl | (intro u; first | (refine keeps_then (W := W) (s0 := s0) (a := u) ?_ ?_; subst u; rotate_left; intro _) | subst u | skip) | lift_lets -underBinder | dsimp -zeta only | split

theorem State.failLink_keeps {a1 a2 a3} (h : Keeps W s0 s) (w : Within 0x600000000000000000000000000000000000000000000000000000000000000000000000000000000009800000000000000000000000000000808 W) :
    Keeps W s0 (State.failLink s a1 a2 a3) := by
  unfold State.failLink
  with_reducible repeat' first | assumption | apply State.markLink_keeps | apply State.report_keeps | exact within_of (by decide +kernel) w | exact within_bit (by decide +kernel) w | apply keeps_foldl | (intro u; first | (refine keeps_then (W := W) (s0 := s0) (a := u) ?_ ?_; subst u; rotate_left; intro _) | subst u | skip) | lift_lets -underBinder | dsimp -zeta only | split

theorem State.parityError_keeps {a1 a2} (h : Keeps W s0 s) (w : Within 0x600000000000000000000000000000000000000000000000000000000000000000000000000000000019800000000000000000000000000000808 W) :
    Keeps W s0 (State.parityError s a1 a2) := by
  unfold State.parityError
  with_reducible repeat' first | assumption | apply State.report_keeps | apply State.failLink_keeps | apply State.setRouter_keeps | apply State.bump_keeps | exact within_of (by decide +kernel) w | exact within_bit (by decide +kernel) w | apply keeps_foldl | (intro u; first | (refine keeps_then (W := W) (s0 := s0) (a := u) ?_ ?_; subst u; rotate_left; intro _) | subst u | skip) | lift_lets -underBinder | dsimp -zeta only | split

theorem State.sendRelease_keeps {a1 a2 a3 a4} (h : Keeps W s0 s) (w : Within 0x800000 W) :
    Keeps W s0 (State.sendRelease s a1 a2 a3 a4) := by
  unfold State.sendRelease
  with_reducible repeat' first | assumption | apply State.emit_keeps | exact within_of (by decide +kernel) w | exact within_bit (by decide +kernel) w | apply keeps_foldl | (intro u; first | (refine keeps_then (W := W) (s0 := s0) (a := u) ?_ ?_; subst u; rotate_left; intro _) | subst u | skip) | lift_lets -underBinder | dsimp -zeta only | split

theorem State.noteRelease_keeps {a1} (h : Keeps W s0 s) (w : Within 0x800 W) :
    Keeps W s0 (State.noteRelease s a1) := by
  unfold State.noteRelease
  with_reducible repeat' first | assumption | exact within_of (by decide +kernel) w | exact within_bit (by decide +kernel) w | exact .inr (within_bit (by decide +kernel) w) | exact .inl rfl | simp -zeta only [keepsMk_iff] | apply keeps_mk | apply keeps_foldl | (intro u; first | (refine keeps_then (W := W) (s0 := s0) (a := u) ?_ ?_; subst u; rotate_left; intro _) | subst u | skip) | lift_lets -underBinder | dsimp -zeta only | split

theorem State.chainArrive_keeps {a1 a2 a3} (h : Keeps W s0 s) (w : Within 0x40000000000000000000000000000000000000000000000000000000000000000000000000000000000801800 W) :
    Keeps W s0 (State.chainArrive s a1 a2 a3) := by
  unfold State.chainArrive
  with_reducible repeat' first | assumption | apply State.chainSendAll_keeps | apply State.noteRelease_keeps | apply State.sendRelease_keeps | exact within_of (by decide +kernel) w | exact within_bit (by decide +kernel) w | exact .inr (within_bit (by decide +kernel) w) | exact .inl rfl | simp -zeta only [keepsMk_iff] | apply keeps_mk | apply keeps_foldl | (intro u; first | (refine keeps_then (W := W) (s0 := s0) (a := u) ?_ ?_; subst u; rotate_left; intro _) | subst u | skip) | lift_lets -underBinder | dsimp -zeta only | split

theorem State.arriveAtRoot_keeps {a1 a2 a3 a4 a5} (h : Keeps W s0 s) (w : Within 0x40000000000000000000000000000000000000000000000000000000000000000000000000000000000801800 W) :
    Keeps W s0 (State.arriveAtRoot s a1 a2 a3 a4 a5) := by
  unfold State.arriveAtRoot
  with_reducible repeat' first | assumption | apply State.chainArrive_keeps | apply State.chainSendAll_keeps | apply State.sendRelease_keeps | apply State.noteRelease_keeps | exact within_of (by decide +kernel) w | exact within_bit (by decide +kernel) w | exact .inr (within_bit (by decide +kernel) w) | exact .inl rfl | simp -zeta only [keepsMk_iff] | apply keeps_mk | apply keeps_foldl | (intro u; first | (refine keeps_then (W := W) (s0 := s0) (a := u) ?_ ?_; subst u; rotate_left; intro _) | subst u | skip) | lift_lets -underBinder | dsimp -zeta only | split

theorem State.settleReleases_keeps (h : Keeps W s0 s) (w : Within 0x80000000000000000000000000000000800 W) :
    Keeps W s0 (State.settleReleases s) := by
  unfold State.settleReleases
  with_reducible repeat' first | assumption | apply State.wr_keeps | exact within_of (by decide +kernel) w | exact within_bit (by decide +kernel) w | exact .inr (within_bit (by decide +kernel) w) | exact .inl rfl | simp -zeta only [keepsMk_iff] | apply keeps_mk | apply keeps_foldl | (intro u; first | (refine keeps_then (W := W) (s0 := s0) (a := u) ?_ ?_; subst u; rotate_left; intro _) | subst u | skip) | lift_lets -underBinder | dsimp -zeta only | split

theorem State.releaseAt_keeps {a1 a2 a3} (h : Keeps W s0 s) (w : Within 0x80000000020020000000000000000000c00 W) :
    Keeps W s0 (State.releaseAt s a1 a2 a3) := by
  unfold State.releaseAt
  with_reducible repeat' first | assumption | apply State.settleReleases_keeps | apply State.unpark_keeps | exact within_of (by decide +kernel) w | exact within_bit (by decide +kernel) w | apply keeps_foldl | (intro u; first | (refine keeps_then (W := W) (s0 := s0) (a := u) ?_ ?_; subst u; rotate_left; intro _) | subst u | skip) | lift_lets -underBinder | dsimp -zeta only | split

theorem State.dropFlit_keeps {a1 a2} (h : Keeps W s0 s) (w : Within 0x600000000000000000000000000000000000000000000000000000000000000000000000000000000040000000000000000000000000000000008 W) :
    Keeps W s0 (State.dropFlit s a1 a2) := by
  unfold State.dropFlit
  with_reducible repeat' first | assumption | apply State.report_keeps | apply State.bump_keeps | exact within_of (by decide +kernel) w | exact within_bit (by decide +kernel) w | apply keeps_foldl | (intro u; first | (refine keeps_then (W := W) (s0 := s0) (a := u) ?_ ?_; subst u; rotate_left; intro _) | subst u | skip) | lift_lets -underBinder | dsimp -zeta only | split

theorem State.placePacket_keeps {a1 a2} (h : Keeps W s0 s) (w : Within 0x20020000000000000000200400 W) :
    Keeps W s0 (State.placePacket s a1 a2) := by
  unfold State.placePacket
  with_reducible repeat' first | assumption | apply State.wake_keeps | apply State.setCore_keeps | exact within_of (by decide +kernel) w | exact within_bit (by decide +kernel) w | apply keeps_foldl | (intro u; first | (refine keeps_then (W := W) (s0 := s0) (a := u) ?_ ?_; subst u; rotate_left; intro _) | subst u | skip) | lift_lets -underBinder | dsimp -zeta only | split

theorem State.contributeAt_keeps {a1 a2 a3} (h : Keeps W s0 s) (w : Within 0x600000000000000000000000000000000000000000000000000000000000000000000000000000000060000800020020000000000000000200c08 W) :
    Keeps W s0 (State.contributeAt s a1 a2 a3) := by
  unfold State.contributeAt
  with_reducible repeat' first | assumption | apply State.dropFlit_keeps | apply State.adderMismatch_keeps | apply State.wake_keeps | apply State.setCore_keeps | exact within_of (by decide +kernel) w | exact within_bit (by decide +kernel) w | apply keeps_foldl | (intro u; first | (refine keeps_then (W := W) (s0 := s0) (a := u) ?_ ?_; subst u; rotate_left; intro _) | subst u | skip) | lift_lets -underBinder | dsimp -zeta only | split

theorem State.flagAt_keeps {a1 a2 a3} (h : Keeps W s0 s) (w : Within 0x20020000000000000000200400 W) :
    Keeps W s0 (State.flagAt s a1 a2 a3) := by
  unfold State.flagAt
  with_reducible repeat' first | assumption | apply State.wake_keeps | apply State.setCore_keeps | exact within_of (by decide +kernel) w | exact within_bit (by decide +kernel) w | apply keeps_foldl | (intro u; first | (refine keeps_then (W := W) (s0 := s0) (a := u) ?_ ?_; subst u; rotate_left; intro _) | subst u | skip) | lift_lets -underBinder | dsimp -zeta only | split

theorem State.consumePoint_keeps {a1 a2 a3} (h : Keeps W s0 s) (w : Within 0x600000000000000000000000000000000000000000000000000000000000000000000000000000000040000000000000000000000000000000008 W) (h3 : ∀ a, Keeps W s0 a → Keeps W s0 (a3 a)) :
    Keeps W s0 (State.consumePoint s a1 a2 a3) := by
  unfold State.consumePoint
  with_reducible repeat' first | assumption | apply h3 | apply State.dropFlit_keeps | apply State.bump_keeps | exact within_of (by decide +kernel) w | exact within_bit (by decide +kernel) w | apply keeps_foldl | (intro u; first | (refine keeps_then (W := W) (s0 := s0) (a := u) ?_ ?_; subst u; rotate_left; intro _) | subst u | skip) | lift_lets -underBinder | dsimp -zeta only | split

theorem State.controlAt_keeps {a1 a2} (h : Keeps W s0 s) (w : Within 0x80000000420020000000000000000a00d00 W) :
    Keeps W s0 (State.controlAt s a1 a2) := by
  unfold State.controlAt
  with_reducible repeat' first | assumption | apply State.releaseAt_keeps | apply State.flagAt_keeps | apply State.dropCore_keeps | apply State.reemitAt_keeps | exact within_of (by decide +kernel) w | exact within_bit (by decide +kernel) w | apply keeps_foldl | (intro u; first | (refine keeps_then (W := W) (s0 := s0) (a := u) ?_ ?_; subst u; rotate_left; intro _) | subst u | skip) | lift_lets -underBinder | dsimp -zeta only | split

theorem State.deliver_keeps {a1 a2 a3} (h : Keeps W s0 s) (w : Within 0x6000000000000000000000000000000000000000000000000000000000000000000000000000000000e0000800420020000000000000000a00d08 W) :
    Keeps W s0 (State.deliver s a1 a2 a3) := by
  unfold State.deliver
  with_reducible repeat' first | assumption | apply State.consumePoint_keeps | apply State.controlAt_keeps | apply State.contributeAt_keeps | apply State.placePacket_keeps | exact within_of (by decide +kernel) w | exact within_bit (by decide +kernel) w | apply keeps_foldl | (intro u; first | (refine keeps_then (W := W) (s0 := s0) (a := u) ?_ ?_; subst u; rotate_left; intro _) | subst u | skip) | lift_lets -underBinder | dsimp -zeta only | split

theorem State.deliverExpress_keeps {a1 a2} (h : Keeps W s0 s) (w : Within 0x40000000000000000000000000000000000000000000000000000040000000000000000000000000000801800 W) :
    Keeps W s0 (State.deliverExpress s a1 a2) := by
  unfold State.deliverExpress
  with_reducible repeat' first | assumption | apply State.zlMsg_keeps | apply State.emit_keeps | apply State.bump_keeps | apply State.arriveAtRoot_keeps | exact within_of (by decide +kernel) w | exact within_bit (by decide +kernel) w | apply keeps_foldl | (intro u; first | (refine keeps_then (W := W) (s0 := s0) (a := u) ?_ ?_; subst u; rotate_left; intro _) | subst u | skip) | lift_lets -underBinder | dsimp -zeta only | split

theorem State.routeFlit_keeps {a1 a2 a3 a4 a5} (h : Keeps W s0 s) (w : Within 0x6000000000000000000000000000400000000000000000000000000000000000000000000000000000e0000800420020000000000000000a01d08 W) :
    Keeps W s0 (State.routeFlit s a1 a2 a3 a4 a5) := by
  unfold State.routeFlit
  with_reducible repeat' first | assumption | apply State.dropFlit_keeps | apply State.deliver_keeps | apply State.deliverExpress_keeps | apply State.enqueue_keeps | apply State.sendSlot_keeps | exact within_of (by decide +kernel) w | exact within_bit (by decide +kernel) w | apply keeps_foldl | (intro u; first | (refine keeps_then (W := W) (s0 := s0) (a := u) ?_ ?_; subst u; rotate_left; intro _) | subst u | skip) | lift_lets -underBinder | dsimp -zeta only | split

theorem State.fabricTick_keeps (h : Keeps W s0 s) (w : Within 0x800800 W) :
    Keeps W s0 (State.fabricTick s) := by
  unfold State.fabricTick
  with_reducible repeat' first | assumption | apply State.forEach_keeps | apply State.sendSlot_keeps | exact within_of (by decide +kernel) w | exact within_bit (by decide +kernel) w | apply keeps_foldl | (intro u; first | (refine keeps_then (W := W) (s0 := s0) (a := u) ?_ ?_; subst u; rotate_left; intro _) | subst u | skip) | lift_lets -underBinder | dsimp -zeta only | split

end Sys2Proof.Machine
end

