-- ==== Sys2Proof/Laws/Keeps/TabOps.lean ====
section
/-! SUPPORT. Laws/Keeps/TabOps.lean: what every operation of Machine/TabOps.lean keeps (the relation of Laws/Keeps.lean). -/
set_option Elab.async false
set_option linter.all false
set_option linter.unusedSimpArgs false
set_option linter.tactic.unusedName false
namespace Sys2Proof.Machine
variable {W : Nat} {s0 s : State}

theorem State.installTab_keeps {a1 a2 a3} (h : Keeps W s0 s) (w : Within 0x7000000000000000000400080 W) :
    Keeps W s0 (State.installTab s a1 a2 a3) := by
  unfold State.installTab
  with_reducible repeat' first | assumption | apply State.clearTab_keeps | apply State.tabWrite_keeps | apply State.wr_keeps | exact within_of (by decide +kernel) w | exact within_bit (by decide +kernel) w | exact .inr (within_bit (by decide +kernel) w) | exact .inl rfl | simp -zeta only [keepsMk_iff] | apply keeps_mk | apply keeps_foldl | (intro u; first | (refine keeps_then (W := W) (s0 := s0) (a := u) ?_ ?_; subst u; rotate_left; intro _) | subst u | skip) | lift_lets -underBinder | dsimp -zeta only | split

theorem State.installConsts_keeps {a1 a2 a3} (h : Keeps W s0 s) (w : Within 0x200000 W) :
    Keeps W s0 (State.installConsts s a1 a2 a3) := by
  unfold State.installConsts
  with_reducible repeat' first | assumption | apply State.dataWrite_keeps | exact within_of (by decide +kernel) w | exact within_bit (by decide +kernel) w | apply keeps_foldl | (intro u; first | (refine keeps_then (W := W) (s0 := s0) (a := u) ?_ ?_; subst u; rotate_left; intro _) | subst u | skip) | lift_lets -underBinder | dsimp -zeta only | split

theorem State.reloadCore_keeps {a1} (h : Keeps W s0 s) (w : Within 0x7000000000000000000600480 W) :
    Keeps W s0 (State.reloadCore s a1) := by
  unfold State.reloadCore
  with_reducible repeat' first | assumption | apply State.installConsts_keeps | apply State.setCore_keeps | apply State.installTab_keeps | exact within_of (by decide +kernel) w | exact within_bit (by decide +kernel) w | apply keeps_foldl | (intro u; first | (refine keeps_then (W := W) (s0 := s0) (a := u) ?_ ?_; subst u; rotate_left; intro _) | subst u | skip) | lift_lets -underBinder | dsimp -zeta only | split

theorem State.reloadCourse_keeps {a1} (h : Keeps W s0 s) (w : Within 0x7000000000000000000600480 W) :
    Keeps W s0 (State.reloadCourse s a1) := by
  unfold State.reloadCourse
  with_reducible repeat' first | assumption | apply State.forEach_keeps | apply State.reloadCore_keeps | exact within_of (by decide +kernel) w | exact within_bit (by decide +kernel) w | apply keeps_foldl | (intro u; first | (refine keeps_then (W := W) (s0 := s0) (a := u) ?_ ?_; subst u; rotate_left; intro _) | subst u | skip) | lift_lets -underBinder | dsimp -zeta only | split

theorem State.reloadAll_keeps (h : Keeps W s0 s) (w : Within 0x7000000000000000000600480 W) :
    Keeps W s0 (State.reloadAll s) := by
  unfold State.reloadAll
  with_reducible repeat' first | assumption | apply State.forEach_keeps | apply State.reloadCore_keeps | exact within_of (by decide +kernel) w | exact within_bit (by decide +kernel) w | apply keeps_foldl | (intro u; first | (refine keeps_then (W := W) (s0 := s0) (a := u) ?_ ?_; subst u; rotate_left; intro _) | subst u | skip) | lift_lets -underBinder | dsimp -zeta only | split

theorem State.sign_keeps {a1} (h : Keeps W s0 s) (w : Within 0x102000 W) :
    Keeps W s0 (State.sign s a1) := by
  unfold State.sign
  with_reducible repeat' first | assumption | apply State.stackWrite_keeps | exact within_of (by decide +kernel) w | exact within_bit (by decide +kernel) w | exact .inr (within_bit (by decide +kernel) w) | exact .inl rfl | simp -zeta only [keepsMk_iff] | apply keeps_mk | apply keeps_foldl | (intro u; first | (refine keeps_then (W := W) (s0 := s0) (a := u) ?_ ?_; subst u; rotate_left; intro _) | subst u | skip) | lift_lets -underBinder | dsimp -zeta only | split

theorem State.noteWear_keeps {a1 a2} (h : Keeps W s0 s) (w : Within 0x100000000000000 W) :
    Keeps W s0 (State.noteWear s a1 a2) := by
  unfold State.noteWear
  with_reducible repeat' first | assumption | apply State.wr_keeps | exact within_of (by decide +kernel) w | exact within_bit (by decide +kernel) w | apply keeps_foldl | (intro u; first | (refine keeps_then (W := W) (s0 := s0) (a := u) ?_ ?_; subst u; rotate_left; intro _) | subst u | skip) | lift_lets -underBinder | dsimp -zeta only | split

theorem State.askProgram_keeps {a1 a2} (h : Keeps W s0 s) (w : Within 0x20000000080 W) :
    Keeps W s0 (State.askProgram s a1 a2) := by
  unfold State.askProgram
  with_reducible repeat' first | assumption | apply State.wr_keeps | exact within_of (by decide +kernel) w | exact within_bit (by decide +kernel) w | exact .inr (within_bit (by decide +kernel) w) | exact .inl rfl | simp -zeta only [keepsMk_iff] | apply keeps_mk | apply keeps_foldl | (intro u; first | (refine keeps_then (W := W) (s0 := s0) (a := u) ?_ ?_; subst u; rotate_left; intro _) | subst u | skip) | lift_lets -underBinder | dsimp -zeta only | split

theorem State.fullReprogram_keeps {a1} (h : Keeps W s0 s) (w : Within 0x600000000000000000000004000000000000000000000000000000000000000000000000000000000000000000000000000000000020000000088 W) :
    Keeps W s0 (State.fullReprogram s a1) := by
  unfold State.fullReprogram
  with_reducible repeat' first | assumption | apply State.askProgram_keeps | apply State.wr_keeps | apply State.bump_keeps | apply State.report_keeps | exact within_of (by decide +kernel) w | exact within_bit (by decide +kernel) w | apply keeps_foldl | (intro u; first | (refine keeps_then (W := W) (s0 := s0) (a := u) ?_ ?_; subst u; rotate_left; intro _) | subst u | skip) | lift_lets -underBinder | dsimp -zeta only | split

theorem State.moveTiers_keeps {a1 a2} (h : Keeps W s0 s) (w : Within 0x20000000080 W) :
    Keeps W s0 (State.moveTiers s a1 a2) := by
  unfold State.moveTiers
  with_reducible repeat' first | assumption | apply State.forEach_keeps | apply State.askProgram_keeps | exact within_of (by decide +kernel) w | exact within_bit (by decide +kernel) w | exact .inr (within_bit (by decide +kernel) w) | exact .inl rfl | simp -zeta only [keepsMk_iff] | apply keeps_mk | apply keeps_foldl | (intro u; first | (refine keeps_then (W := W) (s0 := s0) (a := u) ?_ ?_; subst u; rotate_left; intro _) | subst u | skip) | lift_lets -underBinder | dsimp -zeta only | split

theorem State.moveCore_keeps {a1 a2} (h : Keeps W s0 s) (w : Within 0x7000000000000020000600480 W) :
    Keeps W s0 (State.moveCore s a1 a2) := by
  unfold State.moveCore
  with_reducible repeat' first | assumption | apply State.forEach_keeps | apply State.moveTiers_keeps | apply State.reloadCore_keeps | exact within_of (by decide +kernel) w | exact within_bit (by decide +kernel) w | exact .inr (within_bit (by decide +kernel) w) | exact .inl rfl | simp -zeta only [keepsMk_iff] | apply keeps_mk | apply keeps_foldl | (intro u; first | (refine keeps_then (W := W) (s0 := s0) (a := u) ?_ ?_; subst u; rotate_left; intro _) | subst u | skip) | lift_lets -underBinder | dsimp -zeta only | split

theorem State.mapSpareArray_keeps {a1 a2} (h : Keeps W s0 s) (w : Within 0xe000a0000000080 W) :
    Keeps W s0 (State.mapSpareArray s a1 a2) := by
  unfold State.mapSpareArray
  with_reducible repeat' first | assumption | apply State.wr_keeps | apply State.moveTiers_keeps | exact within_of (by decide +kernel) w | exact within_bit (by decide +kernel) w | apply keeps_foldl | (intro u; first | (refine keeps_then (W := W) (s0 := s0) (a := u) ?_ ?_; subst u; rotate_left; intro _) | subst u | skip) | lift_lets -underBinder | dsimp -zeta only | split

theorem State.settleSpareArray_keeps {a1} (h : Keeps W s0 s) (w : Within 0x400000000000000 W) :
    Keeps W s0 (State.settleSpareArray s a1) := by
  unfold State.settleSpareArray
  with_reducible repeat' first | assumption | apply State.wr_keeps | exact within_of (by decide +kernel) w | exact within_bit (by decide +kernel) w | apply keeps_foldl | (intro u; first | (refine keeps_then (W := W) (s0 := s0) (a := u) ?_ ?_; subst u; rotate_left; intro _) | subst u | skip) | lift_lets -underBinder | dsimp -zeta only | split

theorem State.settleSpareCore_keeps {a1} (h : Keeps W s0 s) (w : Within 0x80000000000000000000000000000000 W) :
    Keeps W s0 (State.settleSpareCore s a1) := by
  unfold State.settleSpareCore
  with_reducible repeat' first | assumption | apply State.wr_keeps | exact within_of (by decide +kernel) w | exact within_bit (by decide +kernel) w | apply keeps_foldl | (intro u; first | (refine keeps_then (W := W) (s0 := s0) (a := u) ?_ ?_; subst u; rotate_left; intro _) | subst u | skip) | lift_lets -underBinder | dsimp -zeta only | split

theorem State.giveUp_keeps {a1} (h : Keeps W s0 s) (w : Within 0x800 W) :
    Keeps W s0 (State.giveUp s a1) := by
  unfold State.giveUp
  with_reducible repeat' first | assumption | exact within_of (by decide +kernel) w | exact within_bit (by decide +kernel) w | exact .inr (within_bit (by decide +kernel) w) | exact .inl rfl | simp -zeta only [keepsMk_iff] | apply keeps_mk | apply keeps_foldl | (intro u; first | (refine keeps_then (W := W) (s0 := s0) (a := u) ?_ ?_; subst u; rotate_left; intro _) | subst u | skip) | lift_lets -underBinder | dsimp -zeta only | split

theorem State.courseLost_keeps {a1} (h : Keeps W s0 s) (w : Within 0x4000000000000000000000000000000000000000000000078000000000000042000000000000007e000803dc0 W) :
    Keeps W s0 (State.courseLost s a1) := by
  unfold State.courseLost
  with_reducible repeat' first | assumption | apply State.forEach_keeps | apply State.faultRequest_keeps | exact within_of (by decide +kernel) w | exact within_bit (by decide +kernel) w | apply keeps_foldl | (intro u; first | (refine keeps_then (W := W) (s0 := s0) (a := u) ?_ ?_; subst u; rotate_left; intro _) | subst u | skip) | lift_lets -underBinder | dsimp -zeta only | split

theorem State.changeMap_keeps {a1} (h : Keeps W s0 s) (w : Within 0x40000000000000000000000000000000000000000000000780000003fe000042700000000000007e000e03dc0 W) :
    Keeps W s0 (State.changeMap s a1) := by
  unfold State.changeMap
  with_reducible repeat' first | assumption | apply State.wr_keeps | apply State.moveCore_keeps | apply State.giveUp_keeps | apply State.forEach_keeps | apply State.courseLost_keeps | exact within_of (by decide +kernel) w | exact within_bit (by decide +kernel) w | apply keeps_foldl | (intro u; first | (refine keeps_then (W := W) (s0 := s0) (a := u) ?_ ?_; subst u; rotate_left; intro _) | subst u | skip) | lift_lets -underBinder | dsimp -zeta only | split

theorem State.updateMap_keeps {a1} (h : Keeps W s0 s) (w : Within 0x4000000000000000000000000000000000000000000000078000000bfe000042700000000000007e000e03dc0 W) :
    Keeps W s0 (State.updateMap s a1) := by
  unfold State.updateMap
  with_reducible repeat' first | assumption | apply State.wr_keeps | apply State.changeMap_keeps | exact within_of (by decide +kernel) w | exact within_bit (by decide +kernel) w | exact .inr (within_bit (by decide +kernel) w) | exact .inl rfl | simp -zeta only [keepsMk_iff] | apply keeps_mk | apply keeps_foldl | (intro u; first | (refine keeps_then (W := W) (s0 := s0) (a := u) ?_ ?_; subst u; rotate_left; intro _) | subst u | skip) | lift_lets -underBinder | dsimp -zeta only | split

theorem State.mapTick_keeps (h : Keeps W s0 s) (w : Within 0x4000000000000000000000000000000000000000000000078000000bfe000042700000000000007e000e03dc0 W) :
    Keeps W s0 (State.mapTick s) := by
  unfold State.mapTick
  with_reducible repeat' first | assumption | apply State.forEach_keeps | apply State.updateMap_keeps | exact within_of (by decide +kernel) w | exact within_bit (by decide +kernel) w | exact .inr (within_bit (by decide +kernel) w) | exact .inl rfl | simp -zeta only [keepsMk_iff] | apply keeps_mk | apply keeps_foldl | (intro u; first | (refine keeps_then (W := W) (s0 := s0) (a := u) ?_ ?_; subst u; rotate_left; intro _) | subst u | skip) | lift_lets -underBinder | dsimp -zeta only | split

theorem State.mapApplied_keeps (h : Keeps W s0 s) (w : Within 0xfb00000000000000000000000000000000000040000000000000000000000000000000000000000000f0078000000c00000042000000000000007e000823dc0 W) :
    Keeps W s0 (State.mapApplied s) := by
  unfold State.mapApplied
  with_reducible repeat' first | assumption | apply State.wr_keeps | apply State.forEach_keeps | apply State.abortSlots_keeps | apply State.setCore_keeps | exact within_of (by decide +kernel) w | exact within_bit (by decide +kernel) w | exact .inr (within_bit (by decide +kernel) w) | exact .inl rfl | simp -zeta only [keepsMk_iff] | apply keeps_mk | apply keeps_foldl | (intro u; first | (refine keeps_then (W := W) (s0 := s0) (a := u) ?_ ?_; subst u; rotate_left; intro _) | subst u | skip) | lift_lets -underBinder | dsimp -zeta only | split

end Sys2Proof.Machine
end

