-- ==== Sys2Proof/Laws/Keeps/LoaderOps.lean ====
section
/-! SUPPORT. Laws/Keeps/LoaderOps.lean: what every operation of Machine/LoaderOps.lean keeps (the relation of Laws/Keeps.lean). -/
set_option Elab.async false
set_option linter.all false
set_option linter.unusedSimpArgs false
set_option linter.tactic.unusedName false
namespace Sys2Proof.Machine
variable {W : Nat} {s0 s : State}

theorem State.loadComplete_keeps {a1 a2 a3 a4 a5} (h : Keeps W s0 s) (w : Within 0x6000000000000000000000000000000000000000000c0027c00000000000000000000000000000000000000000000000000000000000000800018 W) :
    Keeps W s0 (State.loadComplete s a1 a2 a3 a4 a5) := by
  unfold State.loadComplete
  with_reducible repeat' first | assumption | apply State.ringPush_keeps | exact within_of (by decide +kernel) w | exact within_bit (by decide +kernel) w | apply keeps_foldl | (intro u; first | (refine keeps_then (W := W) (s0 := s0) (a := u) ?_ ?_; subst u; rotate_left; intro _) | subst u | skip) | lift_lets -underBinder | dsimp -zeta only | split

theorem State.loadDone_keeps {a1 a2 a3} (h : Keeps W s0 s) (w : Within 0x6000000000000000000000000000000000000000000c0027c00000000000000000000000000000000000000000000000000000000000000800018 W) :
    Keeps W s0 (State.loadDone s a1 a2 a3) := by
  unfold State.loadDone
  with_reducible repeat' first | assumption | apply State.loadComplete_keeps | exact within_of (by decide +kernel) w | exact within_bit (by decide +kernel) w | apply keeps_foldl | (intro u; first | (refine keeps_then (W := W) (s0 := s0) (a := u) ?_ ?_; subst u; rotate_left; intro _) | subst u | skip) | lift_lets -underBinder | dsimp -zeta only | split

theorem State.loadEntryNoting_keeps {a1 a2 a3 a4 a5} (h : Keeps W s0 s) (w : Within 0x6000000000000000000000000000000000000000000c0027e00000000000000000000000000000000000000000000000000000000000000800018 W) (h4 : ∀ a, Keeps W s0 a → Keeps W s0 (a4 a))
    (h5 : ∀ a, Keeps W s0 a → Keeps W s0 (a5 a)) : Keeps W s0 (State.loadEntryNoting s a1 a2 a3 a4 a5) := by
  unfold State.loadEntryNoting
  with_reducible repeat' first | assumption | apply h4 | apply h5 | apply State.fetch_keeps | apply State.loadDone_keeps | exact within_of (by decide +kernel) w | exact within_bit (by decide +kernel) w | apply keeps_foldl | (intro u; first | (refine keeps_then (W := W) (s0 := s0) (a := u) ?_ ?_; subst u; rotate_left; intro _) | subst u | skip) | lift_lets -underBinder | dsimp -zeta only | split

theorem State.loadEntry_keeps {a1 a2 a3 a4} (h : Keeps W s0 s) (w : Within 0x6000000000000000000000000000000000000000000c0027e00000000000000000000000000000000000000000000000000000000000000800018 W) (h4 : ∀ a, Keeps W s0 a → Keeps W s0 (a4 a)) :
    Keeps W s0 (State.loadEntry s a1 a2 a3 a4) :=
  State.loadEntryNoting_keeps h w (fun _ k => k) h4

theorem State.loadError_keeps {a1 a2 a3} (h : Keeps W s0 s) (w : Within 0x7800000000000000000000000000000000000000 W) :
    Keeps W s0 (State.loadError s a1 a2 a3) := by
  unfold State.loadError
  with_reducible repeat' first | assumption | apply State.wr_keeps | exact within_of (by decide +kernel) w | exact within_bit (by decide +kernel) w | apply keeps_foldl | (intro u; first | (refine keeps_then (W := W) (s0 := s0) (a := u) ?_ ?_; subst u; rotate_left; intro _) | subst u | skip) | lift_lets -underBinder | dsimp -zeta only | split

theorem State.setShard_keeps {a1 a2 a3} (h : Keeps W s0 s) (w : Within 0x8000000000000000000000000000000000000080 W) :
    Keeps W s0 (State.setShard s a1 a2 a3) := by
  unfold State.setShard
  with_reducible repeat' first | assumption | apply State.wr_keeps | apply State.setLoad_keeps | exact within_of (by decide +kernel) w | exact within_bit (by decide +kernel) w | apply keeps_foldl | (intro u; first | (refine keeps_then (W := W) (s0 := s0) (a := u) ?_ ?_; subst u; rotate_left; intro _) | subst u | skip) | lift_lets -underBinder | dsimp -zeta only | split

theorem State.dropLoad_keeps {a1} (h : Keeps W s0 s) (w : Within 0x78006000000000000000000000000027e000002180 W) :
    Keeps W s0 (State.dropLoad s a1) := by
  unfold State.dropLoad
  with_reducible repeat' first | assumption | apply State.wr_keeps | apply State.forEach_keeps | apply State.setArray_keeps | apply State.freeEpoch_keeps | apply State.setLoad_keeps | exact within_of (by decide +kernel) w | exact within_bit (by decide +kernel) w | apply keeps_foldl | (intro u; first | (refine keeps_then (W := W) (s0 := s0) (a := u) ?_ ?_; subst u; rotate_left; intro _) | subst u | skip) | lift_lets -underBinder | dsimp -zeta only | split

theorem State.answerBegin_keeps {a1 a2 a3} (h : Keeps W s0 s) (w : Within 0x6000000000000000000000000000000000000000000c0027c00000000000000000000000000007800000000000000000000000000000000800098 W) :
    Keeps W s0 (State.answerBegin s a1 a2 a3) := by
  unfold State.answerBegin
  with_reducible repeat' first | assumption | apply State.loadError_keeps | apply State.loadComplete_keeps | apply State.setLoad_keeps | exact within_of (by decide +kernel) w | exact within_bit (by decide +kernel) w | apply keeps_foldl | (intro u; first | (refine keeps_then (W := W) (s0 := s0) (a := u) ?_ ?_; subst u; rotate_left; intro _) | subst u | skip) | lift_lets -underBinder | dsimp -zeta only | split

theorem State.closePosters_keeps {a1 a2} (h : Keeps W s0 s) (w : Within 0x6000000000000000000000000000000000000000000c0027c00000000000000000000000000008000000000000000000000000000000000800098 W) :
    Keeps W s0 (State.closePosters s a1 a2) := by
  unfold State.closePosters
  with_reducible repeat' first | assumption | apply State.forEach_keeps | apply State.setShard_keeps | apply State.loadComplete_keeps | exact within_of (by decide +kernel) w | exact within_bit (by decide +kernel) w | apply keeps_foldl | (intro u; first | (refine keeps_then (W := W) (s0 := s0) (a := u) ?_ ?_; subst u; rotate_left; intro _) | subst u | skip) | lift_lets -underBinder | dsimp -zeta only | split

theorem State.endLoad_keeps {a1 a2 a3} (h : Keeps W s0 s) (w : Within 0x6000000000000000000000000000000000000000000c0027c0000000000000000000000000078f86000000000000000000000000027e000802198 W) :
    Keeps W s0 (State.endLoad s a1 a2 a3) := by
  unfold State.endLoad
  with_reducible repeat' first | assumption | apply State.dropLoad_keeps | apply State.answerBegin_keeps | apply State.closePosters_keeps | exact within_of (by decide +kernel) w | exact within_bit (by decide +kernel) w | apply keeps_foldl | (intro u; first | (refine keeps_then (W := W) (s0 := s0) (a := u) ?_ ?_; subst u; rotate_left; intro _) | subst u | skip) | lift_lets -underBinder | dsimp -zeta only | split

theorem State.relayOpen_keeps {a1 a2 a3 a4 a5 a6 a7 a8} (h : Keeps W s0 s) (w : Within 0x40000000000000000000000000000000000000000000000000000000000000000000000000000000000801000 W) :
    Keeps W s0 (State.relayOpen s a1 a2 a3 a4 a5 a6 a7 a8) := by
  unfold State.relayOpen
  with_reducible repeat' first | assumption | apply State.zlSend_keeps | exact within_of (by decide +kernel) w | exact within_bit (by decide +kernel) w | apply keeps_foldl | (intro u; first | (refine keeps_then (W := W) (s0 := s0) (a := u) ?_ ?_; subst u; rotate_left; intro _) | subst u | skip) | lift_lets -underBinder | dsimp -zeta only | split

theorem State.relaySend_keeps {a0 a2 a3 a4 a5 a6} (h : Keeps W s0 s) (w : Within 0x40000000000000000000000000000000000000000000000000000000000000000000000000000000000801000 W) :
    Keeps W s0 (State.relaySend a0 s a2 a3 a4 a5 a6) := by
  induction a0 generalizing s a5 a6 with
  | zero => exact h
  | succ n ih =>
    unfold State.relaySend
    with_reducible repeat' first | assumption | apply ih | apply State.zlSend_keeps | exact within_of (by decide +kernel) w | exact within_bit (by decide +kernel) w | exact .inr (within_bit (by decide +kernel) w) | exact .inl rfl | simp -zeta only [keepsMk_iff] | apply keeps_mk | apply keeps_foldl | (intro u; first | (refine keeps_then (W := W) (s0 := s0) (a := u) ?_ ?_; subst u; rotate_left; intro _) | subst u | skip) | lift_lets -underBinder | dsimp -zeta only | split

theorem State.relayWhole_keeps {a1 a2 a3 a4 a5 a6 a7} (h : Keeps W s0 s) (w : Within 0x40000000000000000000000000000000000000000000000000000000000000000000000000000000000801000 W) :
    Keeps W s0 (State.relayWhole s a1 a2 a3 a4 a5 a6 a7) := by
  unfold State.relayWhole
  with_reducible repeat' first | assumption | apply State.relaySend_keeps | apply State.relayOpen_keeps | exact within_of (by decide +kernel) w | exact within_bit (by decide +kernel) w | apply keeps_foldl | (intro u; first | (refine keeps_then (W := W) (s0 := s0) (a := u) ?_ ?_; subst u; rotate_left; intro _) | subst u | skip) | lift_lets -underBinder | dsimp -zeta only | split

theorem State.reRequest_keeps {a1 a2} (h : Keeps W s0 s) (w : Within 0x6000000000000000000000000000400000000000000c0027c0000000000000000000000000004f820000000000000000000000000000000801098 W) :
    Keeps W s0 (State.reRequest s a1 a2) := by
  unfold State.reRequest
  with_reducible repeat' first | assumption | apply State.setShard_keeps | apply State.wr_keeps | apply State.answerBegin_keeps | apply State.bump_keeps | apply State.zlSend_keeps | apply State.loadComplete_keeps | exact within_of (by decide +kernel) w | exact within_bit (by decide +kernel) w | apply keeps_foldl | (intro u; first | (refine keeps_then (W := W) (s0 := s0) (a := u) ?_ ?_; subst u; rotate_left; intro _) | subst u | skip) | lift_lets -underBinder | dsimp -zeta only | split

theorem State.sendEpoch_keeps {a1 a2 a3 a4 a5 a6 a7 a8 a9} (h : Keeps W s0 s) (w : Within 0x40000000000000000000000000000000000000000000000000000000000000000000000000000000000801000 W) :
    Keeps W s0 (State.sendEpoch s a1 a2 a3 a4 a5 a6 a7 a8 a9) := by
  unfold State.sendEpoch
  with_reducible repeat' first | assumption | apply State.chainSend_keeps | exact within_of (by decide +kernel) w | exact within_bit (by decide +kernel) w | apply keeps_foldl | (intro u; first | (refine keeps_then (W := W) (s0 := s0) (a := u) ?_ ?_; subst u; rotate_left; intro _) | subst u | skip) | lift_lets -underBinder | dsimp -zeta only | split

theorem State.setTxn_keeps {a1 a2} (h : Keeps W s0 s) (w : Within 0x80 W) :
    Keeps W s0 (State.setTxn s a1 a2) := by
  unfold State.setTxn
  with_reducible repeat' first | assumption | exact within_of (by decide +kernel) w | exact within_bit (by decide +kernel) w | exact .inr (within_bit (by decide +kernel) w) | exact .inl rfl | simp -zeta only [keepsMk_iff] | apply keeps_mk | apply keeps_foldl | (intro u; first | (refine keeps_then (W := W) (s0 := s0) (a := u) ?_ ?_; subst u; rotate_left; intro _) | subst u | skip) | lift_lets -underBinder | dsimp -zeta only | split

theorem State.setMemberTxn_keeps {a1 a2} (h : Keeps W s0 s) (w : Within 0x80 W) :
    Keeps W s0 (State.setMemberTxn s a1 a2) := by
  unfold State.setMemberTxn
  with_reducible repeat' first | assumption | exact within_of (by decide +kernel) w | exact within_bit (by decide +kernel) w | exact .inr (within_bit (by decide +kernel) w) | exact .inl rfl | simp -zeta only [keepsMk_iff] | apply keeps_mk | apply keeps_foldl | (intro u; first | (refine keeps_then (W := W) (s0 := s0) (a := u) ?_ ?_; subst u; rotate_left; intro _) | subst u | skip) | lift_lets -underBinder | dsimp -zeta only | split

theorem State.makeCurrent_keeps {a1 a2 a3} (h : Keeps W s0 s) (w : Within 0x80000000000000000000000000000000000000004000000000000000000000000000000000000000300000078000000000000000000000000000007e000803080 W) :
    Keeps W s0 (State.makeCurrent s a1 a2 a3) := by
  unfold State.makeCurrent
  with_reducible repeat' first | assumption | apply State.wr_keeps | apply State.setEpochInfo_keeps | apply State.retire_keeps | exact within_of (by decide +kernel) w | exact within_bit (by decide +kernel) w | apply keeps_foldl | (intro u; first | (refine keeps_then (W := W) (s0 := s0) (a := u) ?_ ?_; subst u; rotate_left; intro _) | subst u | skip) | lift_lets -underBinder | dsimp -zeta only | split

theorem State.closeLoad_keeps {a1} (h : Keeps W s0 s) (w : Within 0x60000000000000000000000000000000000080 W) :
    Keeps W s0 (State.closeLoad s a1) := by
  unfold State.closeLoad
  with_reducible repeat' first | assumption | apply State.wr_keeps | apply State.setLoad_keeps | exact within_of (by decide +kernel) w | exact within_bit (by decide +kernel) w | apply keeps_foldl | (intro u; first | (refine keeps_then (W := W) (s0 := s0) (a := u) ?_ ?_; subst u; rotate_left; intro _) | subst u | skip) | lift_lets -underBinder | dsimp -zeta only | split

theorem State.endTxn_keeps {a1 a2 a3} (h : Keeps W s0 s) (w : Within 0x6000000000000000000000000000000000000000000c0027c00000000000000000000000000007800000000000000000000000000000000800098 W) :
    Keeps W s0 (State.endTxn s a1 a2 a3) := by
  unfold State.endTxn
  with_reducible repeat' first | assumption | apply State.setMemberTxn_keeps | apply State.setTxn_keeps | apply State.loadError_keeps | apply State.loadComplete_keeps | exact within_of (by decide +kernel) w | exact within_bit (by decide +kernel) w | apply keeps_foldl | (intro u; first | (refine keeps_then (W := W) (s0 := s0) (a := u) ?_ ?_; subst u; rotate_left; intro _) | subst u | skip) | lift_lets -underBinder | dsimp -zeta only | split

theorem State.freeStaged_keeps {a1 a2} (h : Keeps W s0 s) (w : Within 0x6000000000000000000000000000000000000000000c0027c0000000000000000000000000078f86000000000000000000000000027e000802198 W) :
    Keeps W s0 (State.freeStaged s a1 a2) := by
  unfold State.freeStaged
  with_reducible repeat' first | assumption | apply State.endLoad_keeps | apply State.freeEpoch_keeps | exact within_of (by decide +kernel) w | exact within_bit (by decide +kernel) w | apply keeps_foldl | (intro u; first | (refine keeps_then (W := W) (s0 := s0) (a := u) ?_ ?_; subst u; rotate_left; intro _) | subst u | skip) | lift_lets -underBinder | dsimp -zeta only | split

theorem State.abortTxn_keeps {a1 a2 a3} (h : Keeps W s0 s) (w : Within 0x6000000000000000000000000000400000000000000c0027c0000000000000000000000000078f86000000000000000000000000027e000803198 W) :
    Keeps W s0 (State.abortTxn s a1 a2 a3) := by
  unfold State.abortTxn
  with_reducible repeat' first | assumption | apply State.sendEpoch_keeps | apply State.endTxn_keeps | apply State.freeStaged_keeps | exact within_of (by decide +kernel) w | exact within_bit (by decide +kernel) w | apply keeps_foldl | (intro u; first | (refine keeps_then (W := W) (s0 := s0) (a := u) ?_ ?_; subst u; rotate_left; intro _) | subst u | skip) | lift_lets -underBinder | dsimp -zeta only | split

theorem State.commitTxn_keeps {a1 a2} (h : Keeps W s0 s) (w : Within 0x8000000000006000000000000000000000000000400000000000000c0027c0000000000000000000300000078f86000000000000000000000000027e000803198 W) :
    Keeps W s0 (State.commitTxn s a1 a2) := by
  unfold State.commitTxn
  with_reducible repeat' first | assumption | apply State.abortTxn_keeps | apply State.closeLoad_keeps | apply State.makeCurrent_keeps | apply State.sendEpoch_keeps | apply State.endTxn_keeps | exact within_of (by decide +kernel) w | exact within_bit (by decide +kernel) w | apply keeps_foldl | (intro u; first | (refine keeps_then (W := W) (s0 := s0) (a := u) ?_ ?_; subst u; rotate_left; intro _) | subst u | skip) | lift_lets -underBinder | dsimp -zeta only | split

theorem State.recordReady_keeps {a1 a2} (h : Keeps W s0 s) (w : Within 0x80 W) :
    Keeps W s0 (State.recordReady s a1 a2) := by
  unfold State.recordReady
  with_reducible repeat' first | assumption | apply State.setTxn_keeps | exact within_of (by decide +kernel) w | exact within_bit (by decide +kernel) w | apply keeps_foldl | (intro u; first | (refine keeps_then (W := W) (s0 := s0) (a := u) ?_ ?_; subst u; rotate_left; intro _) | subst u | skip) | lift_lets -underBinder | dsimp -zeta only | split

theorem State.recordPrepared_keeps {a1 a2} (h : Keeps W s0 s) (w : Within 0x8000000000006000000000000000000000000000400000000000000c0027c0000000000000000000300000078f86000000000000000000000000027e000803198 W) :
    Keeps W s0 (State.recordPrepared s a1 a2) := by
  unfold State.recordPrepared
  with_reducible repeat' first | assumption | apply State.commitTxn_keeps | apply State.setTxn_keeps | exact within_of (by decide +kernel) w | exact within_bit (by decide +kernel) w | apply keeps_foldl | (intro u; first | (refine keeps_then (W := W) (s0 := s0) (a := u) ?_ ?_; subst u; rotate_left; intro _) | subst u | skip) | lift_lets -underBinder | dsimp -zeta only | split

theorem State.recordRefused_keeps {a1 a2 a3 a4} (h : Keeps W s0 s) (w : Within 0x6000000000000000000000000000400000000000000c0027c0000000000000000000000000078f86000000000000000000000000027e000803198 W) :
    Keeps W s0 (State.recordRefused s a1 a2 a3 a4) := by
  unfold State.recordRefused
  with_reducible repeat' first | assumption | apply State.abortTxn_keeps | exact within_of (by decide +kernel) w | exact within_bit (by decide +kernel) w | apply keeps_foldl | (intro u; first | (refine keeps_then (W := W) (s0 := s0) (a := u) ?_ ?_; subst u; rotate_left; intro _) | subst u | skip) | lift_lets -underBinder | dsimp -zeta only | split

theorem State.answerReady_keeps {a1 a2 a3} (h : Keeps W s0 s) (w : Within 0x40000000000000000000000000000000000000000000000000000000000000000000000000000000000801080 W) :
    Keeps W s0 (State.answerReady s a1 a2 a3) := by
  unfold State.answerReady
  with_reducible repeat' first | assumption | apply State.recordReady_keeps | apply State.sendEpoch_keeps | exact within_of (by decide +kernel) w | exact within_bit (by decide +kernel) w | apply keeps_foldl | (intro u; first | (refine keeps_then (W := W) (s0 := s0) (a := u) ?_ ?_; subst u; rotate_left; intro _) | subst u | skip) | lift_lets -underBinder | dsimp -zeta only | split

theorem State.answerPrepared_keeps {a1 a2 a3} (h : Keeps W s0 s) (w : Within 0x8000000000006000000000000000000000000000400000000000000c0027c0000000000000000000300000078f86000000000000000000000000027e000803198 W) :
    Keeps W s0 (State.answerPrepared s a1 a2 a3) := by
  unfold State.answerPrepared
  with_reducible repeat' first | assumption | apply State.recordPrepared_keeps | apply State.sendEpoch_keeps | exact within_of (by decide +kernel) w | exact within_bit (by decide +kernel) w | apply keeps_foldl | (intro u; first | (refine keeps_then (W := W) (s0 := s0) (a := u) ?_ ?_; subst u; rotate_left; intro _) | subst u | skip) | lift_lets -underBinder | dsimp -zeta only | split

theorem State.answerRefused_keeps {a1 a2 a3 a4 a5} (h : Keeps W s0 s) (w : Within 0x6000000000000000000000000000400000000000000c0027c0000000000000000000000000078f86000000000000000000000000027e000803198 W) :
    Keeps W s0 (State.answerRefused s a1 a2 a3 a4 a5) := by
  unfold State.answerRefused
  with_reducible repeat' first | assumption | apply State.recordRefused_keeps | apply State.setMemberTxn_keeps | apply State.sendEpoch_keeps | exact within_of (by decide +kernel) w | exact within_bit (by decide +kernel) w | apply keeps_foldl | (intro u; first | (refine keeps_then (W := W) (s0 := s0) (a := u) ?_ ?_; subst u; rotate_left; intro _) | subst u | skip) | lift_lets -underBinder | dsimp -zeta only | split

theorem State.memberPrepare_keeps {a1 a2 a3} (h : Keeps W s0 s) (w : Within 0x8000000000006000000000000000000000000000400000000000000c0027c0000000000000000000300000078f86000000000000000000000000027e000803198 W) :
    Keeps W s0 (State.memberPrepare s a1 a2 a3) := by
  unfold State.memberPrepare
  with_reducible repeat' first | assumption | apply State.setMemberTxn_keeps | apply State.answerReady_keeps | apply State.wr_keeps | apply State.answerRefused_keeps | apply State.answerPrepared_keeps | exact within_of (by decide +kernel) w | exact within_bit (by decide +kernel) w | apply keeps_foldl | (intro u; first | (refine keeps_then (W := W) (s0 := s0) (a := u) ?_ ?_; subst u; rotate_left; intro _) | subst u | skip) | lift_lets -underBinder | dsimp -zeta only | split

theorem State.checkReady_keeps {a1} (h : Keeps W s0 s) (w : Within 0x8000000000006000000000000000000000000000400000000000000c0027c0000000000000000000300000678f86000000000000000000000000027e000803198 W) :
    Keeps W s0 (State.checkReady s a1) := by
  unfold State.checkReady
  with_reducible repeat' first | assumption | apply State.answerBegin_keeps | apply State.wr_keeps | apply State.memberPrepare_keeps | exact within_of (by decide +kernel) w | exact within_bit (by decide +kernel) w | apply keeps_foldl | (intro u; first | (refine keeps_then (W := W) (s0 := s0) (a := u) ?_ ?_; subst u; rotate_left; intro _) | subst u | skip) | lift_lets -underBinder | dsimp -zeta only | split

theorem State.shardProgrammed_keeps {a1 a2} (h : Keeps W s0 s) (w : Within 0x8000000000006000000000000000000000000000400000000000000c0027c0000000000000000000300000678fc6000000000000000000000000027e000803198 W) :
    Keeps W s0 (State.shardProgrammed s a1 a2) := by
  unfold State.shardProgrammed
  with_reducible repeat' first | assumption | apply State.bump_keeps | apply State.setShard_keeps | apply State.checkReady_keeps | apply State.forEach_keeps | apply State.loadComplete_keeps | exact within_of (by decide +kernel) w | exact within_bit (by decide +kernel) w | apply keeps_foldl | (intro u; first | (refine keeps_then (W := W) (s0 := s0) (a := u) ?_ ?_; subst u; rotate_left; intro _) | subst u | skip) | lift_lets -underBinder | dsimp -zeta only | split

theorem State.takeTile_keeps {a1} (h : Keeps W s0 s) (w : Within 0x80 W) :
    KeepsOS W s0 (State.takeTile s a1) := by
  unfold State.takeTile
  with_reducible repeat' first | assumption | apply keepsOS_none | apply keepsOS_some | apply State.setLoad_keeps | exact within_of (by decide +kernel) w | exact within_bit (by decide +kernel) w | exact .inr (within_bit (by decide +kernel) w) | exact .inl rfl | simp -zeta only [keepsMk_iff, keepsS_mk_iff, keeps_snd_iff] | apply keeps_mk | apply keepsOS_map | apply keeps_foldl | (intro u; first | (refine keeps_then (W := W) (s0 := s0) (a := u) ?_ ?_; subst u; rotate_left; intro _) | subst u | skip) | lift_lets -underBinder | dsimp -zeta only | split

theorem State.writeFormat_keeps {a1 a2} (h : Keeps W s0 s) (w : Within 0x7e000000000 W) :
    Keeps W s0 (State.writeFormat s a1 a2) := by
  unfold State.writeFormat
  with_reducible repeat' first | assumption | apply State.wr_keeps | exact within_of (by decide +kernel) w | exact within_bit (by decide +kernel) w | apply keeps_foldl | (intro u; first | (refine keeps_then (W := W) (s0 := s0) (a := u) ?_ ?_; subst u; rotate_left; intro _) | subst u | skip) | lift_lets -underBinder | dsimp -zeta only | split

theorem State.startTile_keeps {a1 a2} (h : Keeps W s0 s) (w : Within 0x660000000100 W) :
    Keeps W s0 (State.startTile s a1 a2) := by
  unfold State.startTile
  with_reducible repeat' first | assumption | apply State.wr_keeps | apply State.setArray_keeps | exact within_of (by decide +kernel) w | exact within_bit (by decide +kernel) w | apply keeps_foldl | (intro u; first | (refine keeps_then (W := W) (s0 := s0) (a := u) ?_ ?_; subst u; rotate_left; intro _) | subst u | skip) | lift_lets -underBinder | dsimp -zeta only | split

theorem State.storeRow_keeps {a1 a2 a3} (h : Keeps W s0 s) (w : Within 0x200 W) :
    Keeps W s0 (State.storeRow s a1 a2 a3) := by
  unfold State.storeRow
  with_reducible repeat' first | assumption | exact within_of (by decide +kernel) w | exact within_bit (by decide +kernel) w | exact .inr (within_bit (by decide +kernel) w) | exact .inl rfl | simp -zeta only [keepsMk_iff] | apply keeps_mk | apply keeps_foldl | (intro u; first | (refine keeps_then (W := W) (s0 := s0) (a := u) ?_ ?_; subst u; rotate_left; intro _) | subst u | skip) | lift_lets -underBinder | dsimp -zeta only | split

theorem State.finishTile_keeps {a1 a2} (h : Keeps W s0 s) (w : Within 0x8000000000006000000000000000000000000000400000000000000c0027c0000000000000000000300000678fc6000008000000000000000050027e000903198 W) :
    Keeps W s0 (State.finishTile s a1 a2) := by
  unfold State.finishTile
  with_reducible repeat' first | assumption | apply State.wr_keeps | apply State.setArray_keeps | apply State.sign_keeps | apply State.writeFormat_keeps | apply State.noteWear_keeps | apply State.settleSpareCore_keeps | apply State.settleSpareArray_keeps | apply State.shardProgrammed_keeps | exact within_of (by decide +kernel) w | exact within_bit (by decide +kernel) w | exact .inr (within_bit (by decide +kernel) w) | exact .inl rfl | simp -zeta only [keepsMk_iff] | apply keeps_mk | apply keeps_foldl | (intro u; first | (refine keeps_then (W := W) (s0 := s0) (a := u) ?_ ?_; subst u; rotate_left; intro _) | subst u | skip) | lift_lets -underBinder | dsimp -zeta only | split

theorem State.progSlot_keeps {a1 a2 a3} (h : Keeps W s0 s) (w : Within 0x8000000000006000000000000000000000000000400000000000000c0027c0000000000000000000300000678fc6000008000000000000000050027e000903398 W) :
    Keeps W s0 (State.progSlot s a1 a2 a3) := by
  unfold State.progSlot
  with_reducible repeat' first | assumption | apply State.setArray_keeps | apply State.storeRow_keeps | apply State.finishTile_keeps | exact within_of (by decide +kernel) w | exact within_bit (by decide +kernel) w | apply keeps_foldl | (intro u; first | (refine keeps_then (W := W) (s0 := s0) (a := u) ?_ ?_; subst u; rotate_left; intro _) | subst u | skip) | lift_lets -underBinder | dsimp -zeta only | split

theorem State.takeRecords_keeps {a1 a2 a3 a4} (h : Keeps W s0 s) (w : Within 0x80 W) :
    KeepsO W s0 (State.takeRecords s a1 a2 a3 a4) := by
  induction a4 generalizing s with
  | nil => exact keepsO_some h
  | cons x rest ih =>
    unfold State.takeRecords
    with_reducible repeat' first | assumption | apply ih | apply keepsO_none | apply keepsO_some | apply State.setEpochInfo_keeps | apply State.setLoad_keeps | exact within_of (by decide +kernel) w | exact within_bit (by decide +kernel) w | exact .inr (within_bit (by decide +kernel) w) | exact .inl rfl | simp -zeta only [keepsMk_iff] | apply keeps_mk | apply keepsO_foldl | apply keepsO_mapState | apply keepsO_map | apply keeps_foldl | (intro u; first | (refine keeps_then (W := W) (s0 := s0) (a := u) ?_ ?_; subst u; rotate_left; intro _) | subst u | skip) | lift_lets -underBinder | dsimp -zeta only | split

theorem State.takeProgram_keeps {a1 a2 a3 a4} (h : Keeps W s0 s) (w : Within 0x7000000000000000000603488 W) :
    Keeps W s0 (State.takeProgram s a1 a2 a3 a4) := by
  unfold State.takeProgram
  with_reducible repeat' first | assumption | apply State.forEach_keeps | apply State.reloadCore_keeps | apply State.installConsts_keeps | exact within_of (by decide +kernel) w | exact within_bit (by decide +kernel) w | exact .inr (within_bit (by decide +kernel) w) | exact .inl rfl | simp -zeta only [keepsMk_iff] | apply keeps_mk | apply keeps_foldl | (intro u; first | (refine keeps_then (W := W) (s0 := s0) (a := u) ?_ ?_; subst u; rotate_left; intro _) | subst u | skip) | lift_lets -underBinder | dsimp -zeta only | split

theorem State.answerPosters_keeps {a1 a2 a3} (h : Keeps W s0 s) (w : Within 0x6000000000000000000000000000000000000000000c0027c00000000000000000000000000008000000000000000000000000000000000800098 W) :
    Keeps W s0 (State.answerPosters s a1 a2 a3) := by
  unfold State.answerPosters
  with_reducible repeat' first | assumption | apply State.setShard_keeps | apply State.forEach_keeps | apply State.loadComplete_keeps | exact within_of (by decide +kernel) w | exact within_bit (by decide +kernel) w | apply keeps_foldl | (intro u; first | (refine keeps_then (W := W) (s0 := s0) (a := u) ?_ ?_; subst u; rotate_left; intro _) | subst u | skip) | lift_lets -underBinder | dsimp -zeta only | split

theorem State.takeShard_keeps {a1 a2 a3 a4 a5 a6} (h : Keeps W s0 s) (w : Within 0x8000000000006000000000000000000000000000400000000000000c0027c0000000000000000000300000678fc6000000000000700000000000027e000e03598 W) :
    Keeps W s0 (State.takeShard s a1 a2 a3 a4 a5 a6) := by
  unfold State.takeShard
  with_reducible repeat' first | assumption | apply keepsO_some | apply keepsO_none | apply State.endLoad_keeps | apply State.answerPosters_keeps | apply State.setShard_keeps | apply State.takeRecords_keeps | apply State.shardProgrammed_keeps | apply State.takeProgram_keeps | refine keeps_of_some (by assumption) ?_ | exact keeps_of_some rfl (by assumption) | apply keeps_getD | exact within_of (by decide +kernel) w | exact within_bit (by decide +kernel) w | apply keeps_foldl | (intro u; first | (refine keeps_then (W := W) (s0 := s0) (a := u) ?_ ?_; subst u; rotate_left; intro _) | subst u | skip) | lift_lets -underBinder | dsimp -zeta only | split

end Sys2Proof.Machine
end

