-- ==== Sys2Proof/Laws/Keeps/Loader.lean ====
section
/-! SUPPORT. Laws/Keeps/Loader.lean: what every operation of Machine/Loader.lean keeps (the relation of Laws/Keeps.lean). -/
set_option Elab.async false
set_option linter.all false
set_option linter.unusedSimpArgs false
set_option linter.tactic.unusedName false
namespace Sys2Proof.Machine
variable {W : Nat} {s0 s : State}

theorem State.startLoad_keeps {a1 a2 a3} (h : Keeps W s0 s) (w : Within 0x87e0000000000000000000000000000000000080 W) :
    Keeps W s0 (State.startLoad s a1 a2 a3) := by
  unfold State.startLoad
  with_reducible repeat' first | assumption | apply State.setLoad_keeps | apply State.wr_keeps | exact within_of (by decide +kernel) w | exact within_bit (by decide +kernel) w | apply keeps_foldl | (intro u; first | (refine keeps_then (W := W) (s0 := s0) (a := u) ?_ ?_; subst u; rotate_left; intro _) | subst u | skip) | lift_lets -underBinder | dsimp -zeta only | split

theorem execBeginLoad_keeps {a0 a1 a2} (h : Keeps W s0 s) (w : Within 0x6000000000000000000000000000000000000000000c0027e0000000000000000000000000000ffe0000000000000000000000000000000800098 W) :
    KeepsN W s0 (execBeginLoad a0 a1 a2 s) := by
  unfold execBeginLoad
  with_reducible repeat' first | assumption | apply keepsN_next | apply State.loadEntryNoting_keeps | apply State.loadDone_keeps | apply State.loadError_keeps | apply State.startLoad_keeps | exact within_of (by decide +kernel) w | exact within_bit (by decide +kernel) w | apply keeps_foldl | (intro u; first | (refine keeps_then (W := W) (s0 := s0) (a := u) ?_ ?_; subst u; rotate_left; intro _) | subst u | skip) | lift_lets -underBinder | dsimp -zeta only | split

theorem State.forwardShard_keeps {a1 a2 a3 a4 a5} (h : Keeps W s0 s) (w : Within 0x40000000000000000000000000000000000000000000000010000000000000000000000000000000000801000 W) :
    Keeps W s0 (State.forwardShard s a1 a2 a3 a4 a5) := by
  unfold State.forwardShard
  with_reducible repeat' first | assumption | apply State.bump_keeps | apply State.relayWhole_keeps | exact within_of (by decide +kernel) w | exact within_bit (by decide +kernel) w | apply keeps_foldl | (intro u; first | (refine keeps_then (W := W) (s0 := s0) (a := u) ?_ ?_; subst u; rotate_left; intro _) | subst u | skip) | lift_lets -underBinder | dsimp -zeta only | split

theorem execShardPosted_keeps {a0 a1} (h : Keeps W s0 s) (w : Within 0x6000000000000000000000000000400000000000000c0027e00000000000000000000000000018000000000000000000000000000000000801098 W) :
    KeepsN W s0 (execShardPosted a0 a1 s) := by
  unfold execShardPosted
  with_reducible repeat' first | assumption | apply keepsN_next | apply State.loadEntry_keeps | apply State.loadDone_keeps | apply State.setShard_keeps | apply State.forwardShard_keeps | exact within_of (by decide +kernel) w | exact within_bit (by decide +kernel) w | apply keeps_foldl | (intro u; first | (refine keeps_then (W := W) (s0 := s0) (a := u) ?_ ?_; subst u; rotate_left; intro _) | subst u | skip) | lift_lets -underBinder | dsimp -zeta only | split

theorem State.sendEndMarker_keeps {a1 a2} (h : Keeps W s0 s) (w : Within 0x40000000000000000000000000000000000000000000000000000000000000000000000000000000000801000 W) :
    Keeps W s0 (State.sendEndMarker s a1 a2) := by
  unfold State.sendEndMarker
  with_reducible repeat' first | assumption | apply State.relayOpen_keeps | exact within_of (by decide +kernel) w | exact within_bit (by decide +kernel) w | apply keeps_foldl | (intro u; first | (refine keeps_then (W := W) (s0 := s0) (a := u) ?_ ?_; subst u; rotate_left; intro _) | subst u | skip) | lift_lets -underBinder | dsimp -zeta only | split

theorem State.endSeen_keeps {a1} (h : Keeps W s0 s) (w : Within 0x40000000000000000000000000000000000000000000000000000000000000000000000000000000000801080 W) :
    Keeps W s0 (State.endSeen s a1) := by
  unfold State.endSeen
  with_reducible repeat' first | assumption | apply State.sendEndMarker_keeps | apply State.setLoad_keeps | exact within_of (by decide +kernel) w | exact within_bit (by decide +kernel) w | apply keeps_foldl | (intro u; first | (refine keeps_then (W := W) (s0 := s0) (a := u) ?_ ?_; subst u; rotate_left; intro _) | subst u | skip) | lift_lets -underBinder | dsimp -zeta only | split

theorem execEndStream_keeps {a0 a1} (h : Keeps W s0 s) (w : Within 0x6000000000000000000000000000400000000000000c0027e00000000000000000000000000000000000000000000000000000000000000801098 W) :
    KeepsN W s0 (execEndStream a0 a1 s) := by
  unfold execEndStream
  with_reducible repeat' first | assumption | apply keepsN_next | apply State.loadEntry_keeps | apply State.loadDone_keeps | apply State.endSeen_keeps | exact within_of (by decide +kernel) w | exact within_bit (by decide +kernel) w | apply keeps_foldl | (intro u; first | (refine keeps_then (W := W) (s0 := s0) (a := u) ?_ ?_; subst u; rotate_left; intro _) | subst u | skip) | lift_lets -underBinder | dsimp -zeta only | split

theorem State.openTxn_keeps {a1 a2 a3 a4} (h : Keeps W s0 s) (w : Within 0x8000000000006000000000000000000000000000400000000000000c0027c0000000000000000000300000078f86000000000000000000000000027e001803198 W) :
    Keeps W s0 (State.openTxn s a1 a2 a3 a4) := by
  unfold State.openTxn
  with_reducible repeat' first | assumption | apply State.draw_keeps | apply State.setTxn_keeps | apply State.memberPrepare_keeps | apply State.sendEpoch_keeps | refine keeps_of_snd (by assumption) ?_ | exact within_of (by decide +kernel) w | exact within_bit (by decide +kernel) w | simp -zeta only [keepsS_mk_iff, keeps_snd_iff] | apply keepsS_foldl | apply keeps_foldl | (intro u; first | (refine keeps_then (W := W) (s0 := s0) (a := u) ?_ ?_; subst u; rotate_left; intro _) | subst u | skip) | lift_lets -underBinder | dsimp -zeta only | split

theorem execCommit_keeps {a0 a1} (h : Keeps W s0 s) (w : Within 0x8000000000006000000000000000000000000000400000000000000c0027e0000000000000000000300000078f86000000000000000000000000027e001803198 W) :
    KeepsN W s0 (execCommit a0 a1 s) := by
  unfold execCommit
  with_reducible repeat' first | assumption | apply keepsN_next | apply State.loadEntryNoting_keeps | apply State.loadDone_keeps | apply State.loadError_keeps | apply State.openTxn_keeps | exact within_of (by decide +kernel) w | exact within_bit (by decide +kernel) w | apply keeps_foldl | (intro u; first | (refine keeps_then (W := W) (s0 := s0) (a := u) ?_ ?_; subst u; rotate_left; intro _) | subst u | skip) | lift_lets -underBinder | dsimp -zeta only | split

theorem execRollback_keeps {a0 a1} (h : Keeps W s0 s) (w : Within 0x8000000000006000000000000000000000000000400000000000000c0027e0000000000000000000300000078f86000000000000000000000000027e001803198 W) :
    KeepsN W s0 (execRollback a0 a1 s) := by
  unfold execRollback
  with_reducible repeat' first | assumption | apply keepsN_next | apply State.loadEntry_keeps | apply State.loadDone_keeps | apply State.abortTxn_keeps | apply State.openTxn_keeps | exact within_of (by decide +kernel) w | exact within_bit (by decide +kernel) w | apply keeps_foldl | (intro u; first | (refine keeps_then (W := W) (s0 := s0) (a := u) ?_ ?_; subst u; rotate_left; intro _) | subst u | skip) | lift_lets -underBinder | dsimp -zeta only | split

theorem execRelease_keeps {a0 a1} (h : Keeps W s0 s) (w : Within 0x6000000000000000000000000000400000000000000c0027e0000000000000000000000000078000000000000000000000000000007e000803098 W) :
    KeepsN W s0 (execRelease a0 a1 s) := by
  unfold execRelease
  with_reducible repeat' first | assumption | apply keepsN_next | apply State.loadEntry_keeps | apply State.loadDone_keeps | apply State.retire_keeps | apply State.wr_keeps | exact within_of (by decide +kernel) w | exact within_bit (by decide +kernel) w | apply keeps_foldl | (intro u; first | (refine keeps_then (W := W) (s0 := s0) (a := u) ?_ ?_; subst u; rotate_left; intro _) | subst u | skip) | lift_lets -underBinder | dsimp -zeta only | split

theorem State.abortLoad_keeps {a1} (h : Keeps W s0 s) (w : Within 0x6000000000000000000000000000400000000000000c0027c0000000000000000000000000078f86000000000000000000000000027e000803198 W) :
    Keeps W s0 (State.abortLoad s a1) := by
  unfold State.abortLoad
  with_reducible repeat' first | assumption | apply State.endLoad_keeps | apply State.abortTxn_keeps | apply State.answerRefused_keeps | exact within_of (by decide +kernel) w | exact within_bit (by decide +kernel) w | apply keeps_foldl | (intro u; first | (refine keeps_then (W := W) (s0 := s0) (a := u) ?_ ?_; subst u; rotate_left; intro _) | subst u | skip) | lift_lets -underBinder | dsimp -zeta only | split

theorem execAbort_keeps {a0 a1} (h : Keeps W s0 s) (w : Within 0x6000000000000000000000000000400000000000000c0027e0000000000000000000000000078f86000000000000000000000000027e000803198 W) :
    KeepsN W s0 (execAbort a0 a1 s) := by
  unfold execAbort
  with_reducible repeat' first | assumption | apply keepsN_next | apply State.loadEntry_keeps | apply State.loadDone_keeps | apply State.abortLoad_keeps | exact within_of (by decide +kernel) w | exact within_bit (by decide +kernel) w | apply keeps_foldl | (intro u; first | (refine keeps_then (W := W) (s0 := s0) (a := u) ?_ ?_; subst u; rotate_left; intro _) | subst u | skip) | lift_lets -underBinder | dsimp -zeta only | split

theorem State.placeAdapter_keeps {a1 a2 a3 a4 a5} (h : Keeps W s0 s) (w : Within 0xfc0000000000000000000000000000000000000000080 W) :
    Keeps W s0 (State.placeAdapter s a1 a2 a3 a4 a5) := by
  unfold State.placeAdapter
  with_reducible repeat' first | assumption | apply State.wr_keeps | exact within_of (by decide +kernel) w | exact within_bit (by decide +kernel) w | exact .inr (within_bit (by decide +kernel) w) | exact .inl rfl | simp -zeta only [keepsMk_iff] | apply keeps_mk | apply keeps_foldl | (intro u; first | (refine keeps_then (W := W) (s0 := s0) (a := u) ?_ ?_; subst u; rotate_left; intro _) | subst u | skip) | lift_lets -underBinder | dsimp -zeta only | split

theorem State.supersede_keeps {a1 a2} (h : Keeps W s0 s) (w : Within 0x700000000000000000000000000000000000000000080 W) :
    Keeps W s0 (State.supersede s a1 a2) := by
  unfold State.supersede
  with_reducible repeat' first | assumption | apply State.adapterSettle_keeps | apply State.wr_keeps | exact within_of (by decide +kernel) w | exact within_bit (by decide +kernel) w | exact .inr (within_bit (by decide +kernel) w) | exact .inl rfl | simp -zeta only [keepsMk_iff] | apply keeps_mk | apply keeps_foldl | (intro u; first | (refine keeps_then (W := W) (s0 := s0) (a := u) ?_ ?_; subst u; rotate_left; intro _) | subst u | skip) | lift_lets -underBinder | dsimp -zeta only | split

theorem execAdapterLoad_keeps {a0 a1 a2} (h : Keeps W s0 s) (w : Within 0x6000000000000000000000000000000000000000000c0027e00000000000000000000000fc0000000000000000000000000000000000000800098 W) :
    KeepsN W s0 (execAdapterLoad a0 a1 a2 s) := by
  unfold execAdapterLoad
  with_reducible repeat' first | assumption | apply keepsN_next | apply State.loadEntry_keeps | apply State.loadDone_keeps | apply State.placeAdapter_keeps | apply State.supersede_keeps | exact within_of (by decide +kernel) w | exact within_bit (by decide +kernel) w | apply keeps_foldl | (intro u; first | (refine keeps_then (W := W) (s0 := s0) (a := u) ?_ ?_; subst u; rotate_left; intro _) | subst u | skip) | lift_lets -underBinder | dsimp -zeta only | split

theorem execAdapterFree_keeps {a0 a1} (h : Keeps W s0 s) (w : Within 0x6000000000000000000000000000000000000000000c0027e00000000000000000000000700000000000000000000000000000000000000800098 W) :
    KeepsN W s0 (execAdapterFree a0 a1 s) := by
  unfold execAdapterFree
  with_reducible repeat' first | assumption | apply keepsN_next | apply State.loadEntry_keeps | apply State.loadDone_keeps | apply State.supersede_keeps | exact within_of (by decide +kernel) w | exact within_bit (by decide +kernel) w | apply keeps_foldl | (intro u; first | (refine keeps_then (W := W) (s0 := s0) (a := u) ?_ ?_; subst u; rotate_left; intro _) | subst u | skip) | lift_lets -underBinder | dsimp -zeta only | split

theorem execShadowRebuild_keeps {a0 a1} (h : Keeps W s0 s) (w : Within 0x6000000000000000000000000000000000000000000c0027e00000000000000000000000000000000000000000000000000000000000000800098 W) :
    KeepsN W s0 (execShadowRebuild a0 a1 s) := by
  unfold execShadowRebuild
  with_reducible repeat' first | assumption | apply keepsN_next | apply State.loadEntry_keeps | apply State.loadDone_keeps | exact within_of (by decide +kernel) w | exact within_bit (by decide +kernel) w | exact .inr (within_bit (by decide +kernel) w) | exact .inl rfl | simp -zeta only [keepsMk_iff] | apply keeps_mk | apply keeps_foldl | (intro u; first | (refine keeps_then (W := W) (s0 := s0) (a := u) ?_ ?_; subst u; rotate_left; intro _) | subst u | skip) | lift_lets -underBinder | dsimp -zeta only | split

theorem execShadowRebuildDone_keeps {a0} (h : Keeps W s0 s) (w : Within 0x6000000000000000000000000000000000000000000c0027c00000000000000000000000004000000000000000000000000000000000000800098 W) :
    KeepsN W s0 (execShadowRebuildDone a0 s) := by
  unfold execShadowRebuildDone
  with_reducible repeat' first | assumption | apply keepsN_next | apply State.loadComplete_keeps | apply State.wr_keeps | exact within_of (by decide +kernel) w | exact within_bit (by decide +kernel) w | exact .inr (within_bit (by decide +kernel) w) | exact .inl rfl | simp -zeta only [keepsMk_iff] | apply keeps_mk | apply keeps_foldl | (intro u; first | (refine keeps_then (W := W) (s0 := s0) (a := u) ?_ ?_; subst u; rotate_left; intro _) | subst u | skip) | lift_lets -underBinder | dsimp -zeta only | split

theorem State.pickBanks_keeps {a1 a2} (h : Keeps W s0 s) (w : Within 0x80 W) :
    Keeps W s0 (State.pickBanks s a1 a2) := by
  unfold State.pickBanks
  with_reducible repeat' first | assumption | apply State.forEach_keeps | exact within_of (by decide +kernel) w | exact within_bit (by decide +kernel) w | exact .inr (within_bit (by decide +kernel) w) | exact .inl rfl | simp -zeta only [keepsMk_iff] | apply keeps_mk | apply keeps_foldl | (intro u; first | (refine keeps_then (W := W) (s0 := s0) (a := u) ?_ ?_; subst u; rotate_left; intro _) | subst u | skip) | lift_lets -underBinder | dsimp -zeta only | split

theorem State.copyBase_keeps {a1 a2 a3} (h : Keeps W s0 s) (w : Within 0x80 W) :
    Keeps W s0 (State.copyBase s a1 a2 a3) := by
  unfold State.copyBase
  with_reducible repeat' first | assumption | apply State.pickBanks_keeps | exact within_of (by decide +kernel) w | exact within_bit (by decide +kernel) w | exact .inr (within_bit (by decide +kernel) w) | exact .inl rfl | simp -zeta only [keepsMk_iff] | apply keeps_mk | apply keeps_foldl | (intro u; first | (refine keeps_then (W := W) (s0 := s0) (a := u) ?_ ?_; subst u; rotate_left; intro _) | subst u | skip) | lift_lets -underBinder | dsimp -zeta only | split

theorem State.admitImage_keeps {a1 a2 a3 a4 a5} (h : Keeps W s0 s) (w : Within 0x8000000000006000000000000000000000000000400000000000000c0027c00000000000000000003000007f8fe6000000000000000000000000027e000803998 W) :
    Keeps W s0 (State.admitImage s a1 a2 a3 a4 a5) := by
  unfold State.admitImage
  with_reducible repeat' first | assumption | apply State.wr_keeps | apply State.setEpochInfo_keeps | apply State.copyBase_keeps | apply State.setLoad_keeps | apply State.checkReady_keeps | exact within_of (by decide +kernel) w | exact within_bit (by decide +kernel) w | exact .inr (within_bit (by decide +kernel) w) | exact .inl rfl | simp -zeta only [keepsMk_iff] | apply keeps_mk | apply keeps_foldl | (intro u; first | (refine keeps_then (W := W) (s0 := s0) (a := u) ?_ ?_; subst u; rotate_left; intro _) | subst u | skip) | lift_lets -underBinder | dsimp -zeta only | split

theorem State.checkImage_keeps {a1 a2 a3 a4} (h : Keeps W s0 s) (w : Within 0x8000000000006000000000000000000000000000400000000000000c0027c00000000000000000003000007f8fe6000000000000000000000000027e000803998 W) :
    Keeps W s0 (State.checkImage s a1 a2 a3 a4) := by
  unfold State.checkImage
  with_reducible repeat' first | assumption | apply State.endLoad_keeps | apply State.admitImage_keeps | exact within_of (by decide +kernel) w | exact within_bit (by decide +kernel) w | apply keeps_foldl | (intro u; first | (refine keeps_then (W := W) (s0 := s0) (a := u) ?_ ?_; subst u; rotate_left; intro _) | subst u | skip) | lift_lets -underBinder | dsimp -zeta only | split

theorem State.forwardManifest_keeps {a1 a2 a3} (h : Keeps W s0 s) (w : Within 0x40000000000000000000000000000000000000000000000000000000000000000000000000000000000801000 W) :
    Keeps W s0 (State.forwardManifest s a1 a2 a3) := by
  unfold State.forwardManifest
  with_reducible repeat' first | assumption | apply State.relayWhole_keeps | exact within_of (by decide +kernel) w | exact within_bit (by decide +kernel) w | apply keeps_foldl | (intro u; first | (refine keeps_then (W := W) (s0 := s0) (a := u) ?_ ?_; subst u; rotate_left; intro _) | subst u | skip) | lift_lets -underBinder | dsimp -zeta only | split

theorem execManifestArrival_keeps {a0 a1 a2 a3} (h : Keeps W s0 s) (w : Within 0x8000000000006000000000000000000000000000400000000000000c0027c00000000000000000003000007f8fe6000000000000000000000000027e000803998 W) :
    KeepsN W s0 (execManifestArrival a0 a1 a2 a3 s) := by
  unfold execManifestArrival
  with_reducible repeat' first | assumption | apply keepsN_next | apply State.endLoad_keeps | apply State.forwardManifest_keeps | apply State.checkImage_keeps | apply State.wr_keeps | exact within_of (by decide +kernel) w | exact within_bit (by decide +kernel) w | apply keeps_foldl | (intro u; first | (refine keeps_then (W := W) (s0 := s0) (a := u) ?_ ?_; subst u; rotate_left; intro _) | subst u | skip) | lift_lets -underBinder | dsimp -zeta only | split

theorem execManifestTimeout_keeps {a0} (h : Keeps W s0 s) (w : Within 0x6000000000000000000000000000000000000000000c0027c0000000000000000000000000078f86000000000000000000000000027e000802198 W) :
    KeepsN W s0 (execManifestTimeout a0 s) := by
  unfold execManifestTimeout
  with_reducible repeat' first | assumption | apply keepsN_next | apply State.endLoad_keeps | exact within_of (by decide +kernel) w | exact within_bit (by decide +kernel) w | apply keeps_foldl | (intro u; first | (refine keeps_then (W := W) (s0 := s0) (a := u) ?_ ?_; subst u; rotate_left; intro _) | subst u | skip) | lift_lets -underBinder | dsimp -zeta only | split

theorem execShardComplete_keeps {a0 a1 a2 a3 a4} (h : Keeps W s0 s) (w : Within 0x8000000000006000000000000000000000000000400000000000000c0027c000000000000000000030000067efc6000000000000700000000000027e000e03598 W) :
    KeepsN W s0 (execShardComplete a0 a1 a2 a3 a4 s) := by
  unfold execShardComplete
  with_reducible repeat' first | assumption | apply keepsN_next | apply State.takeShard_keeps | apply State.answerPosters_keeps | apply State.bump_keeps | apply State.reRequest_keeps | exact within_of (by decide +kernel) w | exact within_bit (by decide +kernel) w | apply keeps_foldl | (intro u; first | (refine keeps_then (W := W) (s0 := s0) (a := u) ?_ ?_; subst u; rotate_left; intro _) | subst u | skip) | lift_lets -underBinder | dsimp -zeta only | split

theorem State.loaderTick_keeps (h : Keeps W s0 s) (w : Within 0x80 W) :
    Keeps W s0 (State.loaderTick s) := by
  unfold State.loaderTick
  with_reducible repeat' first | assumption | exact within_of (by decide +kernel) w | exact within_bit (by decide +kernel) w | exact .inr (within_bit (by decide +kernel) w) | exact .inl rfl | simp -zeta only [keepsMk_iff] | apply keeps_mk | apply keeps_foldl | (intro u; first | (refine keeps_then (W := W) (s0 := s0) (a := u) ?_ ?_; subst u; rotate_left; intro _) | subst u | skip) | lift_lets -underBinder | dsimp -zeta only | split

theorem execShardTimeout_keeps {a0 a1} (h : Keeps W s0 s) (w : Within 0x6000000000000000000000000000400000000000000c0027c0000000000000000000000000004f820000000000000000000000000000000801098 W) :
    KeepsN W s0 (execShardTimeout a0 a1 s) := by
  unfold execShardTimeout
  with_reducible repeat' first | assumption | apply keepsN_next | apply State.reRequest_keeps | exact within_of (by decide +kernel) w | exact within_bit (by decide +kernel) w | apply keeps_foldl | (intro u; first | (refine keeps_then (W := W) (s0 := s0) (a := u) ?_ ?_; subst u; rotate_left; intro _) | subst u | skip) | lift_lets -underBinder | dsimp -zeta only | split

theorem State.setStream_keeps {a1 a2} (h : Keeps W s0 s) (w : Within 0x80 W) :
    Keeps W s0 (State.setStream s a1 a2) := by
  unfold State.setStream
  with_reducible repeat' first | assumption | exact within_of (by decide +kernel) w | exact within_bit (by decide +kernel) w | exact .inr (within_bit (by decide +kernel) w) | exact .inl rfl | simp -zeta only [keepsMk_iff] | apply keeps_mk | apply keeps_foldl | (intro u; first | (refine keeps_then (W := W) (s0 := s0) (a := u) ?_ ?_; subst u; rotate_left; intro _) | subst u | skip) | lift_lets -underBinder | dsimp -zeta only | split

theorem State.endStreamAt_keeps {a1} (h : Keeps W s0 s) (w : Within 0x6000000000000000000000000000400000000000000c0027c0000000000000000000000000004f820000000000000000000000000000000801098 W) :
    Keeps W s0 (State.endStreamAt s a1) := by
  unfold State.endStreamAt
  with_reducible repeat' first | assumption | apply State.setStream_keeps | apply State.reRequest_keeps | exact within_of (by decide +kernel) w | exact within_bit (by decide +kernel) w | apply keeps_foldl | (intro u; first | (refine keeps_then (W := W) (s0 := s0) (a := u) ?_ ?_; subst u; rotate_left; intro _) | subst u | skip) | lift_lets -underBinder | dsimp -zeta only | split

theorem execRelayHead_keeps {a0 a1 a2 a3 a4 a5} (h : Keeps W s0 s) (w : Within 0x6000000000000000000000000000c00000000000000c0027c0000000000000000000000000005f820000000000000000000000000000000801098 W) :
    KeepsN W s0 (execRelayHead a0 a1 a2 a3 a4 a5 s) := by
  unfold execRelayHead
  with_reducible repeat' first | assumption | apply keepsN_next | apply State.endStreamAt_keeps | apply State.zlTake_keeps | apply State.endSeen_keeps | apply State.setStream_keeps | apply State.bump_keeps | apply State.relayOpen_keeps | exact within_of (by decide +kernel) w | exact within_bit (by decide +kernel) w | apply keeps_foldl | (intro u; first | (refine keeps_then (W := W) (s0 := s0) (a := u) ?_ ?_; subst u; rotate_left; intro _) | subst u | skip) | lift_lets -underBinder | dsimp -zeta only | split

theorem execRelayData_keeps {a0 a1 a2} (h : Keeps W s0 s) (w : Within 0xc0000000000000000000000000000000000000000000000000000000000000000000000000000000000801080 W) :
    KeepsN W s0 (execRelayData a0 a1 a2 s) := by
  unfold execRelayData
  with_reducible repeat' first | assumption | apply keepsN_next | apply State.zlTake_keeps | apply State.relaySend_keeps | apply State.setStream_keeps | exact within_of (by decide +kernel) w | exact within_bit (by decide +kernel) w | apply keeps_foldl | (intro u; first | (refine keeps_then (W := W) (s0 := s0) (a := u) ?_ ?_; subst u; rotate_left; intro _) | subst u | skip) | lift_lets -underBinder | dsimp -zeta only | split

theorem execRelayReq_keeps {a0 a1 a2 a3} (h : Keeps W s0 s) (w : Within 0xc0000000000000000000000000000000000000000000000010000000000000000000000000000000000801000 W) :
    KeepsN W s0 (execRelayReq a0 a1 a2 a3 s) := by
  unfold execRelayReq
  with_reducible repeat' first | assumption | apply keepsN_next | apply State.zlTake_keeps | apply State.bump_keeps | apply State.relaySend_keeps | apply State.relayOpen_keeps | apply State.zlSend_keeps | exact within_of (by decide +kernel) w | exact within_bit (by decide +kernel) w | apply keeps_foldl | (intro u; first | (refine keeps_then (W := W) (s0 := s0) (a := u) ?_ ?_; subst u; rotate_left; intro _) | subst u | skip) | lift_lets -underBinder | dsimp -zeta only | split

theorem execEpochPrepare_keeps {a0 a1} (h : Keeps W s0 s) (w : Within 0x8000000000006000000000000000000000000000400000000000000c0027c0000000000000000000300000078f86000000000000000000000000027e000803198 W) :
    KeepsN W s0 (execEpochPrepare a0 a1 s) := by
  unfold execEpochPrepare
  with_reducible repeat' first | assumption | apply keepsN_next | apply State.memberPrepare_keeps | exact within_of (by decide +kernel) w | exact within_bit (by decide +kernel) w | apply keeps_foldl | (intro u; first | (refine keeps_then (W := W) (s0 := s0) (a := u) ?_ ?_; subst u; rotate_left; intro _) | subst u | skip) | lift_lets -underBinder | dsimp -zeta only | split

theorem execEpochReady_keeps {a0 a1} (h : Keeps W s0 s) (w : Within 0x80 W) :
    KeepsN W s0 (execEpochReady a0 a1 s) := by
  unfold execEpochReady
  with_reducible repeat' first | assumption | apply keepsN_next | apply State.recordReady_keeps | exact within_of (by decide +kernel) w | exact within_bit (by decide +kernel) w | apply keeps_foldl | (intro u; first | (refine keeps_then (W := W) (s0 := s0) (a := u) ?_ ?_; subst u; rotate_left; intro _) | subst u | skip) | lift_lets -underBinder | dsimp -zeta only | split

theorem execScaleCalibrationDone_keeps {a0 a1 a2} (h : Keeps W s0 s) (w : Within 0x8000000000006000000000000000000000000000400000000000000c0027c0000000000000000000300000078f86000000000000001e00000000027e000803198 W) :
    KeepsN W s0 (execScaleCalibrationDone a0 a1 a2 s) := by
  unfold execScaleCalibrationDone
  with_reducible repeat' first | assumption | apply keepsN_next | apply State.forEach_keeps | apply State.wr_keeps | apply State.endLoad_keeps | apply State.answerRefused_keeps | apply State.answerPrepared_keeps | exact within_of (by decide +kernel) w | exact within_bit (by decide +kernel) w | apply keeps_foldl | (intro u; first | (refine keeps_then (W := W) (s0 := s0) (a := u) ?_ ?_; subst u; rotate_left; intro _) | subst u | skip) | lift_lets -underBinder | dsimp -zeta only | split

theorem execEpochPrepared_keeps {a0 a1} (h : Keeps W s0 s) (w : Within 0x8000000000006000000000000000000000000000400000000000000c0027c0000000000000000000300000078f86000000000000000000000000027e000803198 W) :
    KeepsN W s0 (execEpochPrepared a0 a1 s) := by
  unfold execEpochPrepared
  with_reducible repeat' first | assumption | apply keepsN_next | apply State.recordPrepared_keeps | exact within_of (by decide +kernel) w | exact within_bit (by decide +kernel) w | apply keeps_foldl | (intro u; first | (refine keeps_then (W := W) (s0 := s0) (a := u) ?_ ?_; subst u; rotate_left; intro _) | subst u | skip) | lift_lets -underBinder | dsimp -zeta only | split

theorem execEpochRefused_keeps {a0 a1} (h : Keeps W s0 s) (w : Within 0x6000000000000000000000000000400000000000000c0027c0000000000000000000000000078f86000000000000000000000000027e000803198 W) :
    KeepsN W s0 (execEpochRefused a0 a1 s) := by
  unfold execEpochRefused
  with_reducible repeat' first | assumption | apply keepsN_next | apply State.recordRefused_keeps | exact within_of (by decide +kernel) w | exact within_bit (by decide +kernel) w | apply keeps_foldl | (intro u; first | (refine keeps_then (W := W) (s0 := s0) (a := u) ?_ ?_; subst u; rotate_left; intro _) | subst u | skip) | lift_lets -underBinder | dsimp -zeta only | split

theorem execEpochCommit_keeps {a0 a1} (h : Keeps W s0 s) (w : Within 0x8000000000006000000000000000000000000000400000000000000c0027c0000000000000000000300000078f86000000000000000000000000027e000803198 W) :
    KeepsN W s0 (execEpochCommit a0 a1 s) := by
  unfold execEpochCommit
  with_reducible repeat' first | assumption | apply keepsN_next | apply State.answerRefused_keeps | apply State.setMemberTxn_keeps | apply State.closeLoad_keeps | apply State.makeCurrent_keeps | exact within_of (by decide +kernel) w | exact within_bit (by decide +kernel) w | apply keeps_foldl | (intro u; first | (refine keeps_then (W := W) (s0 := s0) (a := u) ?_ ?_; subst u; rotate_left; intro _) | subst u | skip) | lift_lets -underBinder | dsimp -zeta only | split

theorem execEpochAbort_keeps {a0 a1} (h : Keeps W s0 s) (w : Within 0x6000000000000000000000000000000000000000000c0027c0000000000000000000000000078f86000000000000000000000000027e000802198 W) :
    KeepsN W s0 (execEpochAbort a0 a1 s) := by
  unfold execEpochAbort
  with_reducible repeat' first | assumption | apply keepsN_next | apply State.setMemberTxn_keeps | apply State.freeStaged_keeps | exact within_of (by decide +kernel) w | exact within_bit (by decide +kernel) w | apply keeps_foldl | (intro u; first | (refine keeps_then (W := W) (s0 := s0) (a := u) ?_ ?_; subst u; rotate_left; intro _) | subst u | skip) | lift_lets -underBinder | dsimp -zeta only | split

theorem execEpochRetire_keeps {a0 a1} (h : Keeps W s0 s) (w : Within 0x78000000000000000000000000000007e000002080 W) :
    KeepsN W s0 (execEpochRetire a0 a1 s) := by
  unfold execEpochRetire
  with_reducible repeat' first | assumption | apply keepsN_next | apply State.freeEpoch_keeps | exact within_of (by decide +kernel) w | exact within_bit (by decide +kernel) w | apply keeps_foldl | (intro u; first | (refine keeps_then (W := W) (s0 := s0) (a := u) ?_ ?_; subst u; rotate_left; intro _) | subst u | skip) | lift_lets -underBinder | dsimp -zeta only | split

theorem execPrepareTimeout_keeps {a0} (h : Keeps W s0 s) (w : Within 0x6000000000000000000000000000400000000000000c0027c0000000000000000000000000078f86000000000000000000000000027e000803198 W) :
    KeepsN W s0 (execPrepareTimeout a0 s) := by
  unfold execPrepareTimeout
  with_reducible repeat' first | assumption | apply keepsN_next | apply State.abortTxn_keeps | exact within_of (by decide +kernel) w | exact within_bit (by decide +kernel) w | apply keeps_foldl | (intro u; first | (refine keeps_then (W := W) (s0 := s0) (a := u) ?_ ?_; subst u; rotate_left; intro _) | subst u | skip) | lift_lets -underBinder | dsimp -zeta only | split

end Sys2Proof.Machine
end

