-- ==== Sys2Proof/Laws/Keeps/Mailbox.lean ====
section
/-! SUPPORT. Laws/Keeps/Mailbox.lean: what every operation of Machine/Mailbox.lean keeps (the relation of Laws/Keeps.lean). -/
set_option Elab.async false
set_option linter.all false
set_option linter.unusedSimpArgs false
set_option linter.tactic.unusedName false
namespace Sys2Proof.Machine
variable {W : Nat} {s0 s : State}

theorem State.foreignMail_keeps {a1 a2} (h : Keeps W s0 s) (w : Within 0x100000000000003c000000000000000000000000000000000000000000000000000000000800000 W) :
    Keeps W s0 (State.foreignMail s a1 a2) := by
  unfold State.foreignMail
  with_reducible repeat' first | assumption | apply State.noteDiscard_keeps | apply State.bump_keeps | exact within_of (by decide +kernel) w | exact within_bit (by decide +kernel) w | apply keeps_foldl | (intro u; first | (refine keeps_then (W := W) (s0 := s0) (a := u) ?_ ?_; subst u; rotate_left; intro _) | subst u | skip) | lift_lets -underBinder | dsimp -zeta only | split

theorem State.setLatch_keeps {a1 a2 a3} (h : Keeps W s0 s) (w : Within 0x2 W) :
    Keeps W s0 (State.setLatch s a1 a2 a3) := by
  unfold State.setLatch
  with_reducible repeat' first | assumption | exact within_of (by decide +kernel) w | exact within_bit (by decide +kernel) w | exact .inr (within_bit (by decide +kernel) w) | exact .inl rfl | simp -zeta only [keepsMk_iff] | apply keeps_mk | apply keeps_foldl | (intro u; first | (refine keeps_then (W := W) (s0 := s0) (a := u) ?_ ?_; subst u; rotate_left; intro _) | subst u | skip) | lift_lets -underBinder | dsimp -zeta only | split

theorem State.joinHalves_keeps {a1 a2 a3 a4} (h : Keeps W s0 s) (w : Within 0x2 W) :
    KeepsS W s0 (State.joinHalves s a1 a2 a3 a4) := by
  unfold State.joinHalves
  with_reducible repeat' first | assumption | apply State.setLatch_keeps | exact within_of (by decide +kernel) w | exact within_bit (by decide +kernel) w | simp -zeta only [keepsS_mk_iff, keeps_snd_iff] | apply keepsS_foldl | apply keeps_foldl | (intro u; first | (refine keeps_then (W := W) (s0 := s0) (a := u) ?_ ?_; subst u; rotate_left; intro _) | subst u | skip) | lift_lets -underBinder | dsimp -zeta only | split

theorem State.mailWrite_keeps {a1 a2 a3} (h : Keeps W s0 s) (w : Within 0x18cae0000000003c000000000000000000000000000000000000000000000000000000000800022 W) :
    Keeps W s0 (State.mailWrite s a1 a2 a3) := by
  unfold State.mailWrite
  with_reducible repeat' first | assumption | apply State.foreignMail_keeps | apply State.joinHalves_keeps | apply State.mailCommit_keeps | apply State.emit_keeps | apply State.bump_keeps | apply State.wr_keeps | refine keeps_of_snd (by assumption) ?_ | exact within_of (by decide +kernel) w | exact within_bit (by decide +kernel) w | simp -zeta only [keepsS_mk_iff, keeps_snd_iff] | apply keepsS_foldl | apply keeps_foldl | (intro u; first | (refine keeps_then (W := W) (s0 := s0) (a := u) ?_ ?_; subst u; rotate_left; intro _) | subst u | skip) | lift_lets -underBinder | dsimp -zeta only | split

theorem execMailboxCommit_keeps {a0 a1 a2} (h : Keeps W s0 s) (w : Within 0x18018cae0000000003c000000000000000000000000000000000000000000000000000000000810022 W) :
    KeepsN W s0 (execMailboxCommit a0 a1 a2 s) := by
  unfold execMailboxCommit
  with_reducible repeat' first | assumption | apply keepsN_next | apply State.access_keeps | apply State.mailWrite_keeps | exact within_of (by decide +kernel) w | exact within_bit (by decide +kernel) w | apply keeps_foldl | (intro u; first | (refine keeps_then (W := W) (s0 := s0) (a := u) ?_ ?_; subst u; rotate_left; intro _) | subst u | skip) | lift_lets -underBinder | dsimp -zeta only | split

theorem State.mailTake_keeps {a1 a2} (h : Keeps W s0 s) (w : Within 0xcee00000000000000000000000000000000000000000000000000000000000000000000800028 W) :
    Keeps W s0 (State.mailTake s a1 a2) := by
  unfold State.mailTake
  with_reducible repeat' first | assumption | apply State.wr_keeps | apply State.receiverBell_keeps | apply State.setTimer_keeps | apply State.senderBell_keeps | apply State.mailFreed_keeps | exact within_of (by decide +kernel) w | exact within_bit (by decide +kernel) w | apply keeps_foldl | (intro u; first | (refine keeps_then (W := W) (s0 := s0) (a := u) ?_ ?_; subst u; rotate_left; intro _) | subst u | skip) | lift_lets -underBinder | dsimp -zeta only | split

theorem State.mailAck_keeps {a1 a2 a3} (h : Keeps W s0 s) (w : Within 0x10cee0000000003c000000000000000000000000000000000000000000000000000000000800028 W) :
    Keeps W s0 (State.mailAck s a1 a2 a3) := by
  unfold State.mailAck
  with_reducible repeat' first | assumption | apply State.mailTake_keeps | apply State.foreignMail_keeps | exact within_of (by decide +kernel) w | exact within_bit (by decide +kernel) w | apply keeps_foldl | (intro u; first | (refine keeps_then (W := W) (s0 := s0) (a := u) ?_ ?_; subst u; rotate_left; intro _) | subst u | skip) | lift_lets -underBinder | dsimp -zeta only | split

theorem execMailboxAck_keeps {a0 a1 a2} (h : Keeps W s0 s) (w : Within 0x18010cee0000000003c000000000000000000000000000000000000000000000000000000000810028 W) :
    KeepsN W s0 (execMailboxAck a0 a1 a2 s) := by
  unfold execMailboxAck
  with_reducible repeat' first | assumption | apply keepsN_next | apply State.access_keeps | apply State.mailAck_keeps | exact within_of (by decide +kernel) w | exact within_bit (by decide +kernel) w | apply keeps_foldl | (intro u; first | (refine keeps_then (W := W) (s0 := s0) (a := u) ?_ ?_; subst u; rotate_left; intro _) | subst u | skip) | lift_lets -underBinder | dsimp -zeta only | split

theorem State.mailWithdraw_keeps {a1 a2} (h : Keeps W s0 s) (w : Within 0x10cbe0000000003c000000000000000000000000000000000000000000000000000000000800028 W) :
    Keeps W s0 (State.mailWithdraw s a1 a2) := by
  unfold State.mailWithdraw
  with_reducible repeat' first | assumption | apply State.foreignMail_keeps | apply State.wr_keeps | apply State.receiverBell_keeps | apply State.setTimer_keeps | apply State.mailFreed_keeps | exact within_of (by decide +kernel) w | exact within_bit (by decide +kernel) w | apply keeps_foldl | (intro u; first | (refine keeps_then (W := W) (s0 := s0) (a := u) ?_ ?_; subst u; rotate_left; intro _) | subst u | skip) | lift_lets -underBinder | dsimp -zeta only | split

theorem execMailboxWithdraw_keeps {a0 a1} (h : Keeps W s0 s) (w : Within 0x18010cbe0000000003c000000000000000000000000000000000000000000000000000000000810028 W) :
    KeepsN W s0 (execMailboxWithdraw a0 a1 s) := by
  unfold execMailboxWithdraw
  with_reducible repeat' first | assumption | apply keepsN_next | apply State.access_keeps | apply State.mailWithdraw_keeps | exact within_of (by decide +kernel) w | exact within_bit (by decide +kernel) w | apply keeps_foldl | (intro u; first | (refine keeps_then (W := W) (s0 := s0) (a := u) ?_ ?_; subst u; rotate_left; intro _) | subst u | skip) | lift_lets -underBinder | dsimp -zeta only | split

theorem execMailboxTimeout_keeps {a0} (h : Keeps W s0 s) (w : Within 0xc0800000000000000000000000000000000000000000000000000000000000000000000800020 W) :
    KeepsN W s0 (execMailboxTimeout a0 s) := by
  unfold execMailboxTimeout
  with_reducible repeat' first | assumption | apply keepsN_next | apply State.senderBell_keeps | apply State.wr_keeps | apply State.setTimer_keeps | exact within_of (by decide +kernel) w | exact within_bit (by decide +kernel) w | apply keeps_foldl | (intro u; first | (refine keeps_then (W := W) (s0 := s0) (a := u) ?_ ?_; subst u; rotate_left; intro _) | subst u | skip) | lift_lets -underBinder | dsimp -zeta only | split

theorem execEcho_keeps {a0} (h : Keeps W s0 s) (w : Within 0xcee00000000000000000000000000000000000000000000000000000000000000000000800028 W) :
    KeepsN W s0 (execEcho a0 s) := by
  unfold execEcho
  with_reducible repeat' first | assumption | apply keepsN_next | apply State.mailTake_keeps | exact within_of (by decide +kernel) w | exact within_bit (by decide +kernel) w | apply keeps_foldl | (intro u; first | (refine keeps_then (W := W) (s0 := s0) (a := u) ?_ ?_; subst u; rotate_left; intro _) | subst u | skip) | lift_lets -underBinder | dsimp -zeta only | split

theorem State.clearDoorbells_keeps {a1 a2} (h : Keeps W s0 s) (w : Within 0xc0000000000000000000000000000000000000000000000000000000000000000000000000000 W) :
    Keeps W s0 (State.clearDoorbells s a1 a2) := by
  unfold State.clearDoorbells
  with_reducible repeat' first | assumption | apply State.setDoorbells_keeps | exact within_of (by decide +kernel) w | exact within_bit (by decide +kernel) w | apply keeps_foldl | (intro u; first | (refine keeps_then (W := W) (s0 := s0) (a := u) ?_ ?_; subst u; rotate_left; intro _) | subst u | skip) | lift_lets -underBinder | dsimp -zeta only | split

theorem execMbxDbClear_keeps {a0 a1} (h : Keeps W s0 s) (w : Within 0x18000c0000000000000000000000000000000000000000000000000000000000000000000000810020 W) :
    KeepsN W s0 (execMbxDbClear a0 a1 s) := by
  unfold execMbxDbClear
  with_reducible repeat' first | assumption | apply keepsN_next | apply State.access_keeps | apply State.clearDoorbells_keeps | exact within_of (by decide +kernel) w | exact within_bit (by decide +kernel) w | apply keeps_foldl | (intro u; first | (refine keeps_then (W := W) (s0 := s0) (a := u) ?_ ?_; subst u; rotate_left; intro _) | subst u | skip) | lift_lets -underBinder | dsimp -zeta only | split

theorem State.writeMask_keeps {a1 a2} (h : Keeps W s0 s) (w : Within 0x100000000000000000000000000000000000000000000000000000000000000000000000800000 W) :
    Keeps W s0 (State.writeMask s a1 a2) := by
  unfold State.writeMask
  with_reducible repeat' first | assumption | apply State.wr_keeps | apply State.doorbellIrq_keeps | exact within_of (by decide +kernel) w | exact within_bit (by decide +kernel) w | apply keeps_foldl | (intro u; first | (refine keeps_then (W := W) (s0 := s0) (a := u) ?_ ?_; subst u; rotate_left; intro _) | subst u | skip) | lift_lets -underBinder | dsimp -zeta only | split

theorem execMbxDbMaskWrite_keeps {a0 a1} (h : Keeps W s0 s) (w : Within 0x1800100000000000000000000000000000000000000000000000000000000000000000000000810020 W) :
    KeepsN W s0 (execMbxDbMaskWrite a0 a1 s) := by
  unfold execMbxDbMaskWrite
  with_reducible repeat' first | assumption | apply keepsN_next | apply State.access_keeps | apply State.writeMask_keeps | exact within_of (by decide +kernel) w | exact within_bit (by decide +kernel) w | apply keeps_foldl | (intro u; first | (refine keeps_then (W := W) (s0 := s0) (a := u) ?_ ?_; subst u; rotate_left; intro _) | subst u | skip) | lift_lets -underBinder | dsimp -zeta only | split

theorem State.mailPortReset_keeps {a1} (h : Keeps W s0 s) (w : Within 0x7dfe00000000000000000000000000000000000000000000000000000000000000000000800028 W) :
    Keeps W s0 (State.mailPortReset s a1) := by
  unfold State.mailPortReset
  with_reducible repeat' first | assumption | apply State.forEach_keeps | apply State.receiverBell_keeps | apply State.setTimer_keeps | apply State.clearFields_keeps | apply State.mailFreed_keeps | exact within_of (by decide +kernel) w | exact within_bit (by decide +kernel) w | exact .inr (within_bit (by decide +kernel) w) | exact .inl rfl | simp -zeta only [keepsMk_iff] | apply keeps_mk | apply keeps_foldl | (intro u; first | (refine keeps_then (W := W) (s0 := s0) (a := u) ?_ ?_; subst u; rotate_left; intro _) | subst u | skip) | lift_lets -underBinder | dsimp -zeta only | split

theorem State.mailReset_keeps (h : Keeps W s0 s) (w : Within 0x1fdfe00000000000000000000000000000000000000000000000000000000000000000000000020 W) :
    Keeps W s0 (State.mailReset s) := by
  unfold State.mailReset
  with_reducible repeat' first | assumption | apply State.forEach_keeps | apply State.clearFields_keeps | exact within_of (by decide +kernel) w | exact within_bit (by decide +kernel) w | exact .inr (within_bit (by decide +kernel) w) | exact .inl rfl | simp -zeta only [keepsMk_iff] | apply keeps_mk | apply keeps_foldl | (intro u; first | (refine keeps_then (W := W) (s0 := s0) (a := u) ?_ ?_; subst u; rotate_left; intro _) | subst u | skip) | lift_lets -underBinder | dsimp -zeta only | split

end Sys2Proof.Machine
end

