-- ==== Sys2Proof/Laws/Keeps/HostOps.lean ====
section
/-! SUPPORT. Laws/Keeps/HostOps.lean: what every operation of Machine/HostOps.lean keeps (the relation of Laws/Keeps.lean). -/
set_option Elab.async false
set_option linter.all false
set_option linter.unusedSimpArgs false
set_option linter.tactic.unusedName false
namespace Sys2Proof.Machine
variable {W : Nat} {s0 s : State}

theorem State.setJob_keeps {a1 a2} (h : Keeps W s0 s) (w : Within 0x4000000000000000000000000000000000000000000000000000000000000000000010 W) :
    Keeps W s0 (State.setJob s a1 a2) := by
  unfold State.setJob
  with_reducible repeat' first | assumption | apply State.showWait_keeps | apply State.setRingState_keeps | exact within_of (by decide +kernel) w | exact within_bit (by decide +kernel) w | apply keeps_foldl | (intro u; first | (refine keeps_then (W := W) (s0 := s0) (a := u) ?_ ?_; subst u; rotate_left; intro _) | subst u | skip) | lift_lets -underBinder | dsimp -zeta only | split

theorem State.dmaFault_keeps {a1 a2} (h : Keeps W s0 s) (w : Within 0x6000000000000000000000000000000000000000000c0027c00000000000000000000000000000000000000000000000000000000000000800018 W) :
    Keeps W s0 (State.dmaFault s a1 a2) := by
  unfold State.dmaFault
  with_reducible repeat' first | assumption | apply keepsO_some | apply keepsO_none | apply State.dmaEnd_keeps | apply State.faultFailed_keeps | apply State.setJob_keeps | apply State.requestPage_keeps | apply State.emit_keeps | refine keeps_of_some (by assumption) ?_ | exact keeps_of_some rfl (by assumption) | apply keeps_getD | exact within_of (by decide +kernel) w | exact within_bit (by decide +kernel) w | apply keeps_foldl | (intro u; first | (refine keeps_then (W := W) (s0 := s0) (a := u) ?_ ?_; subst u; rotate_left; intro _) | subst u | skip) | lift_lets -underBinder | dsimp -zeta only | split

theorem State.dmaNext_keeps {a1 a2} (h : Keeps W s0 s) (w : Within 0x6000000000000000000000000000000000000000000c0027c00000000000000000000000000000000000000000000000000000000000000800018 W) :
    Keeps W s0 (State.dmaNext s a1 a2) := by
  unfold State.dmaNext
  with_reducible repeat' first | assumption | apply State.setJob_keeps | apply State.dmaEnd_keeps | apply State.emit_keeps | apply State.dmaFault_keeps | exact within_of (by decide +kernel) w | exact within_bit (by decide +kernel) w | apply keeps_foldl | (intro u; first | (refine keeps_then (W := W) (s0 := s0) (a := u) ?_ ?_; subst u; rotate_left; intro _) | subst u | skip) | lift_lets -underBinder | dsimp -zeta only | split

theorem State.dmaStart_keeps {a1 a2 a3} (h : Keeps W s0 s) (w : Within 0x6000000000000000000000000000000000000000000c0027e00000000000000000000000000000000000000000000000000000000000000800018 W) :
    Keeps W s0 (State.dmaStart s a1 a2 a3) := by
  unfold State.dmaStart
  with_reducible repeat' first | assumption | apply State.fetch_keeps | apply State.dmaEnd_keeps | apply State.setJob_keeps | apply State.dmaNext_keeps | exact within_of (by decide +kernel) w | exact within_bit (by decide +kernel) w | apply keeps_foldl | (intro u; first | (refine keeps_then (W := W) (s0 := s0) (a := u) ?_ ?_; subst u; rotate_left; intro _) | subst u | skip) | lift_lets -underBinder | dsimp -zeta only | split

theorem State.movePiece_keeps {a1 a2 a3} (h : Keeps W s0 s) (w : Within 0x900000 W) :
    Keeps W s0 (State.movePiece s a1 a2 a3) := by
  unfold State.movePiece
  with_reducible repeat' first | assumption | apply State.stackWrite_keeps | apply State.emit_keeps | apply State.stackZero_keeps | exact within_of (by decide +kernel) w | exact within_bit (by decide +kernel) w | apply keeps_foldl | (intro u; first | (refine keeps_then (W := W) (s0 := s0) (a := u) ?_ ?_; subst u; rotate_left; intro _) | subst u | skip) | lift_lets -underBinder | dsimp -zeta only | split

theorem State.pieceDone_keeps {a1 a2 a3} (h : Keeps W s0 s) (w : Within 0x6000000000000000000000000000000000000000000c0027c00000000000000000000000000000000000000000000000000000000000000900018 W) :
    Keeps W s0 (State.pieceDone s a1 a2 a3) := by
  unfold State.pieceDone
  with_reducible repeat' first | assumption | apply State.movePiece_keeps | apply State.dmaForget_keeps | apply State.dmaEnd_keeps | apply State.setJob_keeps | apply State.dmaNext_keeps | exact within_of (by decide +kernel) w | exact within_bit (by decide +kernel) w | apply keeps_foldl | (intro u; first | (refine keeps_then (W := W) (s0 := s0) (a := u) ?_ ?_; subst u; rotate_left; intro _) | subst u | skip) | lift_lets -underBinder | dsimp -zeta only | split

theorem State.dmaPiece_keeps {a1 a2} (h : Keeps W s0 s) (w : Within 0x6000000000000000000000000000000000000000000c0027c00000000000000000000000000000000000000000000000000000000000000900018 W) :
    Keeps W s0 (State.dmaPiece s a1 a2) := by
  unfold State.dmaPiece
  with_reducible repeat' first | assumption | apply State.pieceDone_keeps | exact within_of (by decide +kernel) w | exact within_bit (by decide +kernel) w | apply keeps_foldl | (intro u; first | (refine keeps_then (W := W) (s0 := s0) (a := u) ?_ ?_; subst u; rotate_left; intro _) | subst u | skip) | lift_lets -underBinder | dsimp -zeta only | split

theorem State.cache_keeps {a1 a2 a3 a4} (h : Keeps W s0 s) (w : Within 0x10 W) :
    Keeps W s0 (State.cache s a1 a2 a3 a4) := by
  unfold State.cache
  with_reducible repeat' first | assumption | apply State.setPortState_keeps | exact within_of (by decide +kernel) w | exact within_bit (by decide +kernel) w | apply keeps_foldl | (intro u; first | (refine keeps_then (W := W) (s0 := s0) (a := u) ?_ ?_; subst u; rotate_left; intro _) | subst u | skip) | lift_lets -underBinder | dsimp -zeta only | split

theorem State.uncache_keeps {a1 a2} (h : Keeps W s0 s) (w : Within 0x10 W) :
    Keeps W s0 (State.uncache s a1 a2) := by
  unfold State.uncache
  with_reducible repeat' first | assumption | apply State.setPortState_keeps | exact within_of (by decide +kernel) w | exact within_bit (by decide +kernel) w | apply keeps_foldl | (intro u; first | (refine keeps_then (W := W) (s0 := s0) (a := u) ?_ ?_; subst u; rotate_left; intro _) | subst u | skip) | lift_lets -underBinder | dsimp -zeta only | split

theorem State.translated_keeps {a1 a2 a3} (h : Keeps W s0 s) (w : Within 0x6000000000000000000000000000000000000000000c0027c00000000000000000000000000000000000000000000000000000000000000800018 W) :
    Keeps W s0 (State.translated s a1 a2 a3) := by
  unfold State.translated
  with_reducible repeat' first | assumption | apply State.setWait_keeps | apply State.cache_keeps | apply State.ringRetry_keeps | apply State.parkPage_keeps | apply State.ringFault_keeps | apply State.dmaNext_keeps | apply State.dmaFault_keeps | exact within_of (by decide +kernel) w | exact within_bit (by decide +kernel) w | apply keeps_foldl | (intro u; first | (refine keeps_then (W := W) (s0 := s0) (a := u) ?_ ?_; subst u; rotate_left; intro _) | subst u | skip) | lift_lets -underBinder | dsimp -zeta only | split

theorem State.pageResponse_keeps {a1 a2} (h : Keeps W s0 s) (w : Within 0x6000000000000000000000000000000000000000000c0027c00000000000000000000000000000000000000000000000000000000000000800018 W) :
    Keeps W s0 (State.pageResponse s a1 a2) := by
  unfold State.pageResponse
  with_reducible repeat' first | assumption | apply State.setFnState_keeps | apply State.emit_keeps | apply State.showWait_keeps | apply State.setWait_keeps | apply State.uncache_keeps | apply State.ringFault_keeps | apply State.setJob_keeps | apply State.dmaEnd_keeps | apply State.faultFailed_keeps | exact within_of (by decide +kernel) w | exact within_bit (by decide +kernel) w | apply keeps_foldl | (intro u; first | (refine keeps_then (W := W) (s0 := s0) (a := u) ?_ ?_; subst u; rotate_left; intro _) | subst u | skip) | lift_lets -underBinder | dsimp -zeta only | split

theorem State.pageExpired_keeps {a1} (h : Keeps W s0 s) (w : Within 0x6000000000000000000000000000000000000000000c0027c00000000000000000000000000000000000000000000000000000000000000800018 W) :
    Keeps W s0 (State.pageExpired s a1) := by
  unfold State.pageExpired
  with_reducible repeat' first | assumption | apply State.ringFault_keeps | apply State.dmaEnd_keeps | apply State.faultFailed_keeps | exact within_of (by decide +kernel) w | exact within_bit (by decide +kernel) w | apply keeps_foldl | (intro u; first | (refine keeps_then (W := W) (s0 := s0) (a := u) ?_ ?_; subst u; rotate_left; intro _) | subst u | skip) | lift_lets -underBinder | dsimp -zeta only | split

theorem State.atsInvalidate_keeps {a1 a2 a3} (h : Keeps W s0 s) (w : Within 0x100004000000000000000000000000000000000000000000000000000000000000000800010 W) :
    Keeps W s0 (State.atsInvalidate s a1 a2 a3) := by
  unfold State.atsInvalidate
  with_reducible repeat' first | assumption | apply State.setPortState_keeps | apply State.forEach_keeps | apply State.emit_keeps | apply State.setJob_keeps | apply State.bump_keeps | exact within_of (by decide +kernel) w | exact within_bit (by decide +kernel) w | apply keeps_foldl | (intro u; first | (refine keeps_then (W := W) (s0 := s0) (a := u) ?_ ?_; subst u; rotate_left; intro _) | subst u | skip) | lift_lets -underBinder | dsimp -zeta only | split

theorem State.discardStage_keeps {a1} (h : Keeps W s0 s) (w : Within 0x980000000000000000000000000000000000000000000000000000000000000000000000000000000000000000000000000000000000000000000000000000000040000 W) :
    Keeps W s0 (State.discardStage s a1) := by
  unfold State.discardStage
  with_reducible repeat' first | assumption | apply State.wr_keeps | exact within_of (by decide +kernel) w | exact within_bit (by decide +kernel) w | exact .inr (within_bit (by decide +kernel) w) | exact .inl rfl | simp -zeta only [keepsMk_iff] | apply keeps_mk | apply keeps_foldl | (intro u; first | (refine keeps_then (W := W) (s0 := s0) (a := u) ?_ ?_; subst u; rotate_left; intro _) | subst u | skip) | lift_lets -underBinder | dsimp -zeta only | split

theorem State.grant_keeps {a1 a2} (h : Keeps W s0 s) (w : Within 0x520000000000000000000000000000000000000000000000000000000000 W) :
    Keeps W s0 (State.grant s a1 a2) := by
  unfold State.grant
  with_reducible repeat' first | assumption | apply State.wr_keeps | exact within_of (by decide +kernel) w | exact within_bit (by decide +kernel) w | apply keeps_foldl | (intro u; first | (refine keeps_then (W := W) (s0 := s0) (a := u) ?_ ?_; subst u; rotate_left; intro _) | subst u | skip) | lift_lets -underBinder | dsimp -zeta only | split

theorem State.claim_keeps {a1 a2} (h : Keeps W s0 s) (w : Within 0x3d000520000000000000000000000000000000000000000000000000000800000 W) :
    Keeps W s0 (State.claim s a1 a2) := by
  unfold State.claim
  with_reducible repeat' first | assumption | apply State.notOwner_keeps | apply State.grant_keeps | exact within_of (by decide +kernel) w | exact within_bit (by decide +kernel) w | apply keeps_foldl | (intro u; first | (refine keeps_then (W := W) (s0 := s0) (a := u) ?_ ?_; subst u; rotate_left; intro _) | subst u | skip) | lift_lets -underBinder | dsimp -zeta only | split

theorem State.endOffer_keeps {a1} (h : Keeps W s0 s) (w : Within 0x8c0000000000000000000000000000000000000000000000000000000000 W) :
    Keeps W s0 (State.endOffer s a1) := by
  unfold State.endOffer
  with_reducible repeat' first | assumption | apply State.wr_keeps | exact within_of (by decide +kernel) w | exact within_bit (by decide +kernel) w | apply keeps_foldl | (intro u; first | (refine keeps_then (W := W) (s0 := s0) (a := u) ?_ ?_; subst u; rotate_left; intro _) | subst u | skip) | lift_lets -underBinder | dsimp -zeta only | split

theorem State.offer_keeps (h : Keeps W s0 s) (w : Within 0x8c0000000000000000000000000000000000000000000000000000000010 W) :
    Keeps W s0 (State.offer s) := by
  unfold State.offer
  with_reducible repeat' first | assumption | apply State.wr_keeps | exact within_of (by decide +kernel) w | exact within_bit (by decide +kernel) w | exact .inr (within_bit (by decide +kernel) w) | exact .inl rfl | simp -zeta only [keepsMk_iff] | apply keeps_mk | apply keeps_foldl | (intro u; first | (refine keeps_then (W := W) (s0 := s0) (a := u) ?_ ?_; subst u; rotate_left; intro _) | subst u | skip) | lift_lets -underBinder | dsimp -zeta only | split

theorem State.accept_keeps {a1 a2} (h : Keeps W s0 s) (w : Within 0x98000000000000000000000000000000000000000000000000000000000000000000003d000de0000000000000000000000000000000000000000000000000000840000 W) :
    Keeps W s0 (State.accept s a1 a2) := by
  unfold State.accept
  with_reducible repeat' first | assumption | apply State.endOffer_keeps | apply State.notOwner_keeps | apply State.discardStage_keeps | apply State.grant_keeps | exact within_of (by decide +kernel) w | exact within_bit (by decide +kernel) w | apply keeps_foldl | (intro u; first | (refine keeps_then (W := W) (s0 := s0) (a := u) ?_ ?_; subst u; rotate_left; intro _) | subst u | skip) | lift_lets -underBinder | dsimp -zeta only | split

theorem State.orphanLoads_keeps {a1} (h : Keeps W s0 s) (w : Within 0x80 W) :
    Keeps W s0 (State.orphanLoads s a1) := by
  unfold State.orphanLoads
  with_reducible repeat' first | assumption | exact within_of (by decide +kernel) w | exact within_bit (by decide +kernel) w | exact .inr (within_bit (by decide +kernel) w) | exact .inl rfl | simp -zeta only [keepsMk_iff] | apply keeps_mk | apply keeps_foldl | (intro u; first | (refine keeps_then (W := W) (s0 := s0) (a := u) ?_ ?_; subst u; rotate_left; intro _) | subst u | skip) | lift_lets -underBinder | dsimp -zeta only | split

theorem State.dropRequests_keeps {a1} (h : Keeps W s0 s) (w : Within 0x40000000000000000000000000000000000200000000f0078000000000000042000000000000007e000823dc0 W) :
    Keeps W s0 (State.dropRequests s a1) := by
  unfold State.dropRequests
  with_reducible repeat' first | assumption | apply State.forEach_keeps | apply State.release_keeps | apply State.setRequest_keeps | apply State.cancelRequest_keeps | exact within_of (by decide +kernel) w | exact within_bit (by decide +kernel) w | apply keeps_foldl | (intro u; first | (refine keeps_then (W := W) (s0 := s0) (a := u) ?_ ?_; subst u; rotate_left; intro _) | subst u | skip) | lift_lets -underBinder | dsimp -zeta only | split

theorem State.resetRings_keeps {a1} (h : Keeps W s0 s) (w : Within 0x40000000000000000027fffe00000000000200000000f0078000000000000042000000000000007e000823dd0 W) :
    Keeps W s0 (State.resetRings s a1) := by
  unfold State.resetRings
  with_reducible repeat' first | assumption | apply State.orphanLoads_keeps | apply State.dropRequests_keeps | apply State.forEach_keeps | apply State.setRingState_keeps | apply State.clearFields_keeps | exact within_of (by decide +kernel) w | exact within_bit (by decide +kernel) w | apply keeps_foldl | (intro u; first | (refine keeps_then (W := W) (s0 := s0) (a := u) ?_ ?_; subst u; rotate_left; intro _) | subst u | skip) | lift_lets -underBinder | dsimp -zeta only | split

theorem State.resetFns_keeps {a1 a2} (h : Keeps W s0 s) (w : Within 0x10 W) :
    Keeps W s0 (State.resetFns s a1 a2) := by
  unfold State.resetFns
  with_reducible repeat' first | assumption | apply State.forEach_keeps | apply State.setFnState_keeps | exact within_of (by decide +kernel) w | exact within_bit (by decide +kernel) w | exact .inr (within_bit (by decide +kernel) w) | exact .inl rfl | simp -zeta only [keepsMk_iff] | apply keeps_mk | apply keeps_foldl | (intro u; first | (refine keeps_then (W := W) (s0 := s0) (a := u) ?_ ?_; subst u; rotate_left; intro _) | subst u | skip) | lift_lets -underBinder | dsimp -zeta only | split

theorem State.dropHeld_keeps {a1 a2} (h : Keeps W s0 s) (w : Within 0x20 W) :
    Keeps W s0 (State.dropHeld s a1 a2) := by
  unfold State.dropHeld
  with_reducible repeat' first | assumption | apply State.setHeld_keeps | exact within_of (by decide +kernel) w | exact within_bit (by decide +kernel) w | apply keeps_foldl | (intro u; first | (refine keeps_then (W := W) (s0 := s0) (a := u) ?_ ?_; subst u; rotate_left; intro _) | subst u | skip) | lift_lets -underBinder | dsimp -zeta only | split

theorem State.resetPortBlock_keeps {a1} (h : Keeps W s0 s) (w : Within 0x3007dfe000000000000008c0000000000000000000000000000000000000000000000000000800028 W) :
    Keeps W s0 (State.resetPortBlock s a1) := by
  unfold State.resetPortBlock
  with_reducible repeat' first | assumption | apply State.mailPortReset_keeps | apply State.clearFields_keeps | apply State.endOffer_keeps | exact within_of (by decide +kernel) w | exact within_bit (by decide +kernel) w | exact .inr (within_bit (by decide +kernel) w) | exact .inl rfl | simp -zeta only [keepsMk_iff] | apply keeps_mk | apply keeps_foldl | (intro u; first | (refine keeps_then (W := W) (s0 := s0) (a := u) ?_ ?_; subst u; rotate_left; intro _) | subst u | skip) | lift_lets -underBinder | dsimp -zeta only | split

theorem State.portReset_keeps {a1 a2} (h : Keeps W s0 s) (w : Within 0x400000003007dfe00027fffe003f08c0000200000000f0078000000000000042000000000000007e000823df8 W) :
    Keeps W s0 (State.portReset s a1 a2) := by
  unfold State.portReset
  with_reducible repeat' first | assumption | apply State.resetFns_keeps | apply State.resetRings_keeps | apply State.resetPortBlock_keeps | apply State.dropHeld_keeps | apply State.setPortState_keeps | apply State.clearFields_keeps | apply State.wr_keeps | exact within_of (by decide +kernel) w | exact within_bit (by decide +kernel) w | apply keeps_foldl | (intro u; first | (refine keeps_then (W := W) (s0 := s0) (a := u) ?_ ?_; subst u; rotate_left; intro _) | subst u | skip) | lift_lets -underBinder | dsimp -zeta only | split

theorem State.flr_keeps {a1 a2} (h : Keeps W s0 s) (w : Within 0x400000003007dfe00027fffe002008c0000200000000f0078000000000000042000000000000007e000823df8 W) :
    Keeps W s0 (State.flr s a1 a2) := by
  unfold State.flr
  with_reducible repeat' first | assumption | apply State.resetFns_keeps | apply State.resetRings_keeps | apply State.dropHeld_keeps | apply State.setPortState_keeps | apply State.wr_keeps | apply State.resetPortBlock_keeps | exact within_of (by decide +kernel) w | exact within_bit (by decide +kernel) w | apply keeps_foldl | (intro u; first | (refine keeps_then (W := W) (s0 := s0) (a := u) ?_ ?_; subst u; rotate_left; intro _) | subst u | skip) | lift_lets -underBinder | dsimp -zeta only | split

theorem State.bar4Do_keeps {a1 a2 a3} (h : Keeps W s0 s) (w : Within 0x3d000000000000000000000000000000000000000000000000000000000900000 W) :
    Keeps W s0 (State.bar4Do s a1 a2 a3) := by
  unfold State.bar4Do
  with_reducible repeat' first | assumption | apply State.stackWrite_keeps | apply State.notOwner_keeps | apply State.emit_keeps | exact within_of (by decide +kernel) w | exact within_bit (by decide +kernel) w | apply keeps_foldl | (intro u; first | (refine keeps_then (W := W) (s0 := s0) (a := u) ?_ ?_; subst u; rotate_left; intro _) | subst u | skip) | lift_lets -underBinder | dsimp -zeta only | split

theorem State.bar4_keeps {a1 a2 a3} (h : Keeps W s0 s) (w : Within 0x180000000000000003d000000000000000000000000000000000000000000000000000000000900020 W) :
    Keeps W s0 (State.bar4 s a1 a2 a3) := by
  unfold State.bar4
  with_reducible repeat' first | assumption | apply State.hold_keeps | apply State.bar4Do_keeps | exact within_of (by decide +kernel) w | exact within_bit (by decide +kernel) w | apply keeps_foldl | (intro u; first | (refine keeps_then (W := W) (s0 := s0) (a := u) ?_ ?_; subst u; rotate_left; intro _) | subst u | skip) | lift_lets -underBinder | dsimp -zeta only | split

theorem State.doorbell_keeps {a1 a2 a3 a4} (h : Keeps W s0 s) (w : Within 0x3f000000000000000000000000000000000000000000000000000000000800000 W) (h4 : ∀ a, Keeps W s0 a → Keeps W s0 (a4 a)) :
    Keeps W s0 (State.doorbell s a1 a2 a3 a4) := by
  unfold State.doorbell
  with_reducible repeat' first | assumption | apply h4 | apply State.bump_keeps | apply State.notOwner_keeps | exact within_of (by decide +kernel) w | exact within_bit (by decide +kernel) w | apply keeps_foldl | (intro u; first | (refine keeps_then (W := W) (s0 := s0) (a := u) ?_ ?_; subst u; rotate_left; intro _) | subst u | skip) | lift_lets -underBinder | dsimp -zeta only | split

theorem State.newIndex_keeps {a1 a2} (h : Keeps W s0 s) (w : Within 0x6000080000000000000000000000000000000000000c0027e00000000000000000000000000000000000000000000000000000000000000810058 W) :
    Keeps W s0 (State.newIndex s a1 a2) := by
  unfold State.newIndex
  with_reducible repeat' first | assumption | apply State.ringError_keeps | apply State.wr_keeps | apply State.autowake_keeps | apply State.ringFreed_keeps | exact within_of (by decide +kernel) w | exact within_bit (by decide +kernel) w | apply keeps_foldl | (intro u; first | (refine keeps_then (W := W) (s0 := s0) (a := u) ?_ ?_; subst u; rotate_left; intro _) | subst u | skip) | lift_lets -underBinder | dsimp -zeta only | split

theorem State.arm_keeps {a1 a2} (h : Keeps W s0 s) (w : Within 0x2000000000000000000000000000000000000000000000000000000000000000800010 W) :
    Keeps W s0 (State.arm s a1 a2) := by
  unfold State.arm
  with_reducible repeat' first | assumption | apply State.ringSignal_keeps | apply State.wr_keeps | exact within_of (by decide +kernel) w | exact within_bit (by decide +kernel) w | apply keeps_foldl | (intro u; first | (refine keeps_then (W := W) (s0 := s0) (a := u) ?_ ?_; subst u; rotate_left; intro _) | subst u | skip) | lift_lets -underBinder | dsimp -zeta only | split

theorem State.ringReg_keeps {a1 a2 a3 a4} (h : Keeps W s0 s) (w : Within 0x3d000000000000000000000000000000000000000000000000000000000800000 W) (h4 : ∀ a, Keeps W s0 a → Keeps W s0 (a4 a)) :
    Keeps W s0 (State.ringReg s a1 a2 a3 a4) := by
  unfold State.ringReg
  with_reducible repeat' first | assumption | apply h4 | apply State.notOwner_keeps | exact within_of (by decide +kernel) w | exact within_bit (by decide +kernel) w | apply keeps_foldl | (intro u; first | (refine keeps_then (W := W) (s0 := s0) (a := u) ?_ ?_; subst u; rotate_left; intro _) | subst u | skip) | lift_lets -underBinder | dsimp -zeta only | split

theorem State.ringCtrl_keeps {a1 a2} (h : Keeps W s0 s) (w : Within 0x6000000000000000000000000000000000000000000c0027c00000000000000000000000000000000000000000000000000000000000000800018 W) :
    Keeps W s0 (State.ringCtrl s a1 a2) := by
  unfold State.ringCtrl
  with_reducible repeat' first | assumption | apply State.stopRing_keeps | apply State.resumeRing_keeps | exact within_of (by decide +kernel) w | exact within_bit (by decide +kernel) w | apply keeps_foldl | (intro u; first | (refine keeps_then (W := W) (s0 := s0) (a := u) ?_ ?_; subst u; rotate_left; intro _) | subst u | skip) | lift_lets -underBinder | dsimp -zeta only | split

theorem State.ringSwitch_keeps {a1 a2} (h : Keeps W s0 s) (w : Within 0x6000000000000000000000000000000000000000000c0027e01000000000000000000000000000000000000000000000000000000000000800058 W) :
    Keeps W s0 (State.ringSwitch s a1 a2) := by
  unfold State.ringSwitch
  with_reducible repeat' first | assumption | apply State.enableRing_keeps | apply State.ringFreed_keeps | apply State.disableRing_keeps | exact within_of (by decide +kernel) w | exact within_bit (by decide +kernel) w | apply keeps_foldl | (intro u; first | (refine keeps_then (W := W) (s0 := s0) (a := u) ?_ ?_; subst u; rotate_left; intro _) | subst u | skip) | lift_lets -underBinder | dsimp -zeta only | split

end Sys2Proof.Machine
end

