-- ==== Sys2Proof/Laws/Keeps/LossOps.lean ====
section
/-! SUPPORT. Laws/Keeps/LossOps.lean: what every operation of Machine/LossOps.lean keeps (the relation of Laws/Keeps.lean). -/
set_option Elab.async false
set_option linter.all false
set_option linter.unusedSimpArgs false
set_option linter.tactic.unusedName false
namespace Sys2Proof.Machine
variable {W : Nat} {s0 s : State}

theorem State.dropCourseRecords_keeps {a1} (h : Keeps W s0 s) (w : Within 0x834000000000000000000000000000000000000000000000000000000000000000000000000000000000000000000000000000000000000000008 W) :
    Keeps W s0 (State.dropCourseRecords s a1) := by
  unfold State.dropCourseRecords
  with_reducible repeat' first | assumption | apply State.dropRecord_keeps | exact within_of (by decide +kernel) w | exact within_bit (by decide +kernel) w | exact .inr (within_bit (by decide +kernel) w) | exact .inl rfl | simp -zeta only [keepsMk_iff] | apply keeps_mk | apply keeps_foldl | (intro u; first | (refine keeps_then (W := W) (s0 := s0) (a := u) ?_ ?_; subst u; rotate_left; intro _) | subst u | skip) | lift_lets -underBinder | dsimp -zeta only | split

theorem State.dropAllRecords_keeps (h : Keeps W s0 s) (w : Within 0x834000000000000000000000000000000000000000000000000000000000000000000000000000000000000000000000000000000000000000008 W) :
    Keeps W s0 (State.dropAllRecords s) := by
  unfold State.dropAllRecords
  with_reducible repeat' first | assumption | apply State.dropCourseRecords_keeps | apply State.dropRecord_keeps | exact within_of (by decide +kernel) w | exact within_bit (by decide +kernel) w | exact .inr (within_bit (by decide +kernel) w) | exact .inl rfl | simp -zeta only [keepsMk_iff] | apply keeps_mk | apply keeps_foldl | (intro u; first | (refine keeps_then (W := W) (s0 := s0) (a := u) ?_ ?_; subst u; rotate_left; intro _) | subst u | skip) | lift_lets -underBinder | dsimp -zeta only | split

theorem State.wipeCores_keeps {a1} (h : Keeps W s0 s) (w : Within 0x20000000000000000600480 W) :
    Keeps W s0 (State.wipeCores s a1) := by
  unfold State.wipeCores
  with_reducible repeat' first | assumption | apply State.forEach_keeps | apply State.wr_keeps | exact within_of (by decide +kernel) w | exact within_bit (by decide +kernel) w | exact .inr (within_bit (by decide +kernel) w) | exact .inl rfl | apply keeps_store | exact id | exact SMap.sorted_filter _ | exact memoryOk_filter _ _ | exact memoryOk_nil | exact keeps_rd_refl | simp -zeta only [keepsMk_iff] | apply keeps_foldl | (intro u; first | (refine keeps_then (W := W) (s0 := s0) (a := u) ?_ ?_; subst u; rotate_left; intro _) | subst u | skip) | lift_lets -underBinder | dsimp -zeta only | split

theorem State.showProgramming_keeps {a1} (h : Keeps W s0 s) (w : Within 0x640000000000 W) :
    Keeps W s0 (State.showProgramming s a1) := by
  unfold State.showProgramming
  with_reducible repeat' first | assumption | apply State.wr_keeps | exact within_of (by decide +kernel) w | exact within_bit (by decide +kernel) w | apply keeps_foldl | (intro u; first | (refine keeps_then (W := W) (s0 := s0) (a := u) ?_ ?_; subst u; rotate_left; intro _) | subst u | skip) | lift_lets -underBinder | dsimp -zeta only | split

theorem State.wipeArrays_keeps {a1} (h : Keeps W s0 s) (w : Within 0x640000002100 W) :
    Keeps W s0 (State.wipeArrays s a1) := by
  unfold State.wipeArrays
  with_reducible repeat' first | assumption | apply State.forEach_keeps | apply State.setArray_keeps | apply State.showProgramming_keeps | exact within_of (by decide +kernel) w | exact within_bit (by decide +kernel) w | exact .inr (within_bit (by decide +kernel) w) | exact .inl rfl | simp -zeta only [keepsMk_iff] | apply keeps_mk | apply keeps_foldl | (intro u; first | (refine keeps_then (W := W) (s0 := s0) (a := u) ?_ ?_; subst u; rotate_left; intro _) | subst u | skip) | lift_lets -underBinder | dsimp -zeta only | split

theorem State.purgeRouters_keeps {a1 a2} (h : Keeps W s0 s) (w : Within 0x800 W) :
    Keeps W s0 (State.purgeRouters s a1 a2) := by
  unfold State.purgeRouters
  with_reducible repeat' first | assumption | apply State.forEach_keeps | apply State.setRouter_keeps | exact within_of (by decide +kernel) w | exact within_bit (by decide +kernel) w | exact .inr (within_bit (by decide +kernel) w) | exact .inl rfl | simp -zeta only [keepsMk_iff] | apply keeps_mk | apply keeps_foldl | (intro u; first | (refine keeps_then (W := W) (s0 := s0) (a := u) ?_ ?_; subst u; rotate_left; intro _) | subst u | skip) | lift_lets -underBinder | dsimp -zeta only | split

theorem State.loseCourse_keeps {a1} (h : Keeps W s0 s) (w : Within 0x83400000000000000000000000000000000000000000000000000000000000000000000000000000000000001ffff0e1ff00070f8741f00602d88 W) :
    Keeps W s0 (State.loseCourse s a1) := by
  unfold State.loseCourse
  with_reducible repeat' first | assumption | apply State.dropCourseRecords_keeps | apply State.purgeRouters_keeps | apply State.wipeCores_keeps | apply State.wipeArrays_keeps | apply State.resetFields_keeps | exact within_of (by decide +kernel) w | exact within_bit (by decide +kernel) w | apply keeps_foldl | (intro u; first | (refine keeps_then (W := W) (s0 := s0) (a := u) ?_ ?_; subst u; rotate_left; intro _) | subst u | skip) | lift_lets -underBinder | dsimp -zeta only | split

theorem State.endRequests_keeps {a1} (h : Keeps W s0 s) (w : Within 0x40 W) :
    Keeps W s0 (State.endRequests s a1) := by
  unfold State.endRequests
  with_reducible repeat' first | assumption | apply State.forEach_keeps | apply State.setRequest_keeps | exact within_of (by decide +kernel) w | exact within_bit (by decide +kernel) w | apply keeps_foldl | (intro u; first | (refine keeps_then (W := W) (s0 := s0) (a := u) ?_ ?_; subst u; rotate_left; intro _) | subst u | skip) | lift_lets -underBinder | dsimp -zeta only | split

theorem State.emptyScheduler_keeps {a1} (h : Keeps W s0 s) (w : Within 0x1848 W) :
    Keeps W s0 (State.emptyScheduler s a1) := by
  unfold State.emptyScheduler
  with_reducible repeat' first | assumption | exact within_of (by decide +kernel) w | exact within_bit (by decide +kernel) w | exact .inr (within_bit (by decide +kernel) w) | exact .inl rfl | simp -zeta only [keepsMk_iff] | apply keeps_mk | apply keeps_foldl | (intro u; first | (refine keeps_then (W := W) (s0 := s0) (a := u) ?_ ?_; subst u; rotate_left; intro _) | subst u | skip) | lift_lets -underBinder | dsimp -zeta only | split

theorem State.stopTransfers_keeps {a1} (h : Keeps W s0 s) (w : Within 0x6000000000000000000000000000000000000000000c0027c00000000000000000000000000000000000000000000000000000000000000800018 W) :
    Keeps W s0 (State.stopTransfers s a1) := by
  unfold State.stopTransfers
  with_reducible repeat' first | assumption | apply State.forEach_keeps | apply State.dmaStop_keeps | exact within_of (by decide +kernel) w | exact within_bit (by decide +kernel) w | apply keeps_foldl | (intro u; first | (refine keeps_then (W := W) (s0 := s0) (a := u) ?_ ?_; subst u; rotate_left; intro _) | subst u | skip) | lift_lets -underBinder | dsimp -zeta only | split

theorem State.endRefill_keeps {a1} (h : Keeps W s0 s) (w : Within 0x6000000000000000000000000000000000000000000c0027c00000000000000000000000000000000000000000000000000000000000000800098 W) :
    Keeps W s0 (State.endRefill s a1) := by
  unfold State.endRefill
  with_reducible repeat' first | assumption | apply State.loadComplete_keeps | exact within_of (by decide +kernel) w | exact within_bit (by decide +kernel) w | exact .inr (within_bit (by decide +kernel) w) | exact .inl rfl | simp -zeta only [keepsMk_iff] | apply keeps_mk | apply keeps_foldl | (intro u; first | (refine keeps_then (W := W) (s0 := s0) (a := u) ?_ ?_; subst u; rotate_left; intro _) | subst u | skip) | lift_lets -underBinder | dsimp -zeta only | split

theorem State.retireAll_keeps {a1} (h : Keeps W s0 s) (w : Within 0x4000000000000000000000000000000000000000000000078000000000000000000000000000007e000803080 W) :
    Keeps W s0 (State.retireAll s a1) := by
  unfold State.retireAll
  with_reducible repeat' first | assumption | apply State.forEach_keeps | apply State.retire_keeps | exact within_of (by decide +kernel) w | exact within_bit (by decide +kernel) w | apply keeps_foldl | (intro u; first | (refine keeps_then (W := W) (s0 := s0) (a := u) ?_ ?_; subst u; rotate_left; intro _) | subst u | skip) | lift_lets -underBinder | dsimp -zeta only | split

theorem State.requeueTiles_keeps (h : Keeps W s0 s) (w : Within 0x80 W) :
    Keeps W s0 (State.requeueTiles s) := by
  unfold State.requeueTiles
  with_reducible repeat' first | assumption | exact within_of (by decide +kernel) w | exact within_bit (by decide +kernel) w | exact .inr (within_bit (by decide +kernel) w) | exact .inl rfl | simp -zeta only [keepsMk_iff] | apply keeps_mk | apply keeps_foldl | (intro u; first | (refine keeps_then (W := W) (s0 := s0) (a := u) ?_ ?_; subst u; rotate_left; intro _) | subst u | skip) | lift_lets -underBinder | dsimp -zeta only | split

theorem State.loseLoads_keeps (h : Keeps W s0 s) (w : Within 0x78000000000000000000000000000007e000002080 W) :
    Keeps W s0 (State.loseLoads s) := by
  unfold State.loseLoads
  with_reducible repeat' first | assumption | apply State.requeueTiles_keeps | apply State.forEach_keeps | apply State.freeEpoch_keeps | exact within_of (by decide +kernel) w | exact within_bit (by decide +kernel) w | exact .inr (within_bit (by decide +kernel) w) | exact .inl rfl | simp -zeta only [keepsMk_iff] | apply keeps_mk | apply keeps_foldl | (intro u; first | (refine keeps_then (W := W) (s0 := s0) (a := u) ?_ ?_; subst u; rotate_left; intro _) | subst u | skip) | lift_lets -underBinder | dsimp -zeta only | split

theorem State.loseWork_keeps (h : Keeps W s0 s) (w : Within 0x2000000000000000060bd80 W) :
    Keeps W s0 (State.loseWork s) := by
  unfold State.loseWork
  with_reducible repeat' first | assumption | apply State.forEach_keeps | apply State.setArray_keeps | apply State.wipeCores_keeps | exact within_of (by decide +kernel) w | exact within_bit (by decide +kernel) w | exact .inr (within_bit (by decide +kernel) w) | exact .inl rfl | simp -zeta only [keepsMk_iff] | apply keeps_mk | apply keeps_foldl | (intro u; first | (refine keeps_then (W := W) (s0 := s0) (a := u) ?_ ?_; subst u; rotate_left; intro _) | subst u | skip) | lift_lets -underBinder | dsimp -zeta only | split

theorem State.loseHosts_keeps {a1} (h : Keeps W s0 s) (w : Within 0x7e W) :
    Keeps W s0 (State.loseHosts s a1) := by
  unfold State.loseHosts
  with_reducible repeat' first | assumption | exact within_of (by decide +kernel) w | exact within_bit (by decide +kernel) w | exact .inr (within_bit (by decide +kernel) w) | exact .inl rfl | simp -zeta only [keepsMk_iff] | apply keeps_mk | apply keeps_foldl | (intro u; first | (refine keeps_then (W := W) (s0 := s0) (a := u) ?_ ?_; subst u; rotate_left; intro _) | subst u | skip) | lift_lets -underBinder | dsimp -zeta only | split

theorem State.dropZl_keeps {a1} (h : Keeps W s0 s) (w : Within 0x400000c0000000000000000000000000000000000000000000000000000000000000000000000000000801000 W) :
    Keeps W s0 (State.dropZl s a1) := by
  unfold State.dropZl
  with_reducible repeat' first | assumption | apply State.zlLink_keeps | apply State.setZl_keeps | apply State.wr_keeps | exact within_of (by decide +kernel) w | exact within_bit (by decide +kernel) w | apply keeps_foldl | (intro u; first | (refine keeps_then (W := W) (s0 := s0) (a := u) ?_ ?_; subst u; rotate_left; intro _) | subst u | skip) | lift_lets -underBinder | dsimp -zeta only | split

theorem State.loseChip_keeps (h : Keeps W s0 s) (w : Within 0x113027f8000000000000000393420000018201c00000001f0400fe1bc7c1b01fdffc00e7fffe3f7f0de700fffffc00038007ffffc0fc01e01ffff3e1ff00870f877ff00e4fdfe W) :
    Keeps W s0 (State.loseChip s) := by
  unfold State.loseChip
  with_reducible repeat' first | assumption | apply State.forEach_keeps | apply State.dropAllRecords_keeps | apply State.dropZl_keeps | apply State.loseHosts_keeps | apply State.loseWork_keeps | apply State.loseLoads_keeps | apply State.resetFields_keeps | apply State.wipeCores_keeps | exact within_of (by decide +kernel) w | exact within_bit (by decide +kernel) w | exact .inr (within_bit (by decide +kernel) w) | exact .inl rfl | simp -zeta only [keepsMk_iff] | apply keeps_mk | apply keeps_foldl | (intro u; first | (refine keeps_then (W := W) (s0 := s0) (a := u) ?_ ?_; subst u; rotate_left; intro _) | subst u | skip) | lift_lets -underBinder | dsimp -zeta only | split

theorem State.loseStacks_keeps (h : Keeps W s0 s) (w : Within 0xfc4000000000000000000000000000000000000103088 W) : Keeps W s0 s.loseStacks := by
  unfold State.loseStacks
  refine keeps_filter (p := fun k => !(List.map (fun f => f.id) [Reg.LDR_ADP_SLOT_VERSION, Reg.LDR_ADP_SLOT_PART, Reg.LDR_ADP_SLOT_VALID, Reg.LDR_ADP_SLOT_RESIDENT, Reg.LDR_ADP_SLOT_SUPERSEDED, Reg.LDR_ADP_SLOT_REFS]).contains (k / 16777216)) (State.wr_keeps ?_ (within_of (by decide +kernel) w)) (fun f _ x i => ?_)
  · exact keeps_store (t := s) h id memoryOk_nil id id keeps_rd_refl (.inl rfl) (.inl rfl) (.inl rfl) (.inr (within_bit (by decide +kernel) w)) (.inl rfl) (.inl rfl) (.inl rfl) (.inr (within_bit (by decide +kernel) w)) (.inl rfl) (.inl rfl) (.inl rfl) (.inl rfl) (.inr (within_bit (by decide +kernel) w)) (.inr (within_bit (by decide +kernel) w)) (.inl rfl) (.inl rfl) (.inl rfl) (.inl rfl) (.inl rfl) (.inl rfl) (.inr (within_bit (by decide +kernel) w)) (.inl rfl) (.inl rfl)
  · rw [Field.key_div, Bool.not_eq_true']
    cases e : (List.map (fun f => f.id) [Reg.LDR_ADP_SLOT_VERSION, Reg.LDR_ADP_SLOT_PART, Reg.LDR_ADP_SLOT_VALID, Reg.LDR_ADP_SLOT_RESIDENT, Reg.LDR_ADP_SLOT_SUPERSEDED, Reg.LDR_ADP_SLOT_REFS]).contains f.id with
    | false => rfl
    | true =>
      obtain ⟨g, hg, e⟩ := List.mem_map.1 (List.contains_iff_mem.1 e)
      rw [← e, within_wr (within_trans (listMask_mem hg) (within_of (by decide +kernel) w))] at x
      cases x

theorem State.loseCopies_keeps (h : Keeps W s0 s) (w : Within 0x800000000000000000000000000000000000000000000000000000000000000000000000000000000000000300000000000000000000000000000000000000000 W) :
    Keeps W s0 (State.loseCopies s) := by
  unfold State.loseCopies
  with_reducible repeat' first | assumption | apply State.forEach_keeps | apply State.wr_keeps | exact within_of (by decide +kernel) w | exact within_bit (by decide +kernel) w | apply keeps_foldl | (intro u; first | (refine keeps_then (W := W) (s0 := s0) (a := u) ?_ ?_; subst u; rotate_left; intro _) | subst u | skip) | lift_lets -underBinder | dsimp -zeta only | split

theorem State.unverify_keeps (h : Keeps W s0 s) (w : Within 0x20000000000 W) : Keeps W s0 s.unverify :=
  keeps_filter (p := fun k => k / 16777216 != Reg.CRS_ARR_TFMT_VERIFIED.id) h (fun f _ x i => by
    rw [Field.key_div, bne_iff_ne]
    intro e
    rw [e, within_wr (f := Reg.CRS_ARR_TFMT_VERIFIED) (within_of (by decide +kernel) w)] at x
    cases x)

end Sys2Proof.Machine
end

