-- ==== Sys2Proof/Laws/Keeps/PowerOps.lean ====
section
/-! SUPPORT. Laws/Keeps/PowerOps.lean: what every operation of Machine/PowerOps.lean keeps (the relation of Laws/Keeps.lean). -/
set_option Elab.async false
set_option linter.all false
set_option linter.unusedSimpArgs false
set_option linter.tactic.unusedName false
namespace Sys2Proof.Machine
variable {W : Nat} {s0 s : State}

theorem State.askPowerCycle_keeps (h : Keeps W s0 s) (w : Within 0x820000 W) :
    Keeps W s0 (State.askPowerCycle s) := by
  unfold State.askPowerCycle
  with_reducible repeat' first | assumption | apply State.emit_keeps | exact within_of (by decide +kernel) w | exact within_bit (by decide +kernel) w | exact .inr (within_bit (by decide +kernel) w) | exact .inl rfl | simp -zeta only [keepsMk_iff] | apply keeps_mk | apply keeps_foldl | (intro u; first | (refine keeps_then (W := W) (s0 := s0) (a := u) ?_ ?_; subst u; rotate_left; intro _) | subst u | skip) | lift_lets -underBinder | dsimp -zeta only | split

theorem State.setClamp_keeps (h : Keeps W s0 s) (w : Within 0x4000000000000000000000000000000000000000000000000000000000000000000000000000000000000000000000000000000000000 W) :
    Keeps W s0 (State.setClamp s) := by
  unfold State.setClamp
  with_reducible repeat' first | assumption | apply State.wr_keeps | exact within_of (by decide +kernel) w | exact within_bit (by decide +kernel) w | apply keeps_foldl | (intro u; first | (refine keeps_then (W := W) (s0 := s0) (a := u) ?_ ?_; subst u; rotate_left; intro _) | subst u | skip) | lift_lets -underBinder | dsimp -zeta only | split

theorem State.judgeFt_keeps {a1} (h : Keeps W s0 s) (w : Within 0xc000000000000000000000000000000000000000000000000000000000000000000000000000000000000000000000000000000010000 W) :
    Keeps W s0 (State.judgeFt s a1) := by
  unfold State.judgeFt
  with_reducible repeat' first | assumption | apply State.setClamp_keeps | apply State.wr_keeps | exact within_of (by decide +kernel) w | exact within_bit (by decide +kernel) w | exact .inr (within_bit (by decide +kernel) w) | exact .inl rfl | simp -zeta only [keepsMk_iff] | apply keeps_mk | apply keeps_foldl | (intro u; first | (refine keeps_then (W := W) (s0 := s0) (a := u) ?_ ?_; subst u; rotate_left; intro _) | subst u | skip) | lift_lets -underBinder | dsimp -zeta only | split

theorem State.lowerFp_keeps {a1 a2} (h : Keeps W s0 s) (w : Within 0x12000000000000000000000000000000000000000000000000000000000000000000000000000000000000000000000000000000000000 W) :
    Keeps W s0 (State.lowerFp s a1 a2) := by
  unfold State.lowerFp
  with_reducible repeat' first | assumption | apply State.wr_keeps | exact within_of (by decide +kernel) w | exact within_bit (by decide +kernel) w | apply keeps_foldl | (intro u; first | (refine keeps_then (W := W) (s0 := s0) (a := u) ?_ ?_; subst u; rotate_left; intro _) | subst u | skip) | lift_lets -underBinder | dsimp -zeta only | split

theorem State.showCapped_keeps (h : Keeps W s0 s) (w : Within 0x4800000000000000000000000000000000000000000000000000000000000000000000000000000000000000000000000000000000000 W) :
    Keeps W s0 (State.showCapped s) := by
  unfold State.showCapped
  with_reducible repeat' first | assumption | apply State.setClamp_keeps | apply State.wr_keeps | exact within_of (by decide +kernel) w | exact within_bit (by decide +kernel) w | apply keeps_foldl | (intro u; first | (refine keeps_then (W := W) (s0 := s0) (a := u) ?_ ?_; subst u; rotate_left; intro _) | subst u | skip) | lift_lets -underBinder | dsimp -zeta only | split

theorem State.powerStep_keeps {a1 a2} (h : Keeps W s0 s) (w : Within 0x76800000000000000000000000000000000000000000000000000000000000000000000000000000000000000000000000000000010000 W) :
    Keeps W s0 (State.powerStep s a1 a2) := by
  unfold State.powerStep
  with_reducible repeat' first | assumption | apply State.wr_keeps | apply State.showCapped_keeps | apply State.lowerFp_keeps | exact within_of (by decide +kernel) w | exact within_bit (by decide +kernel) w | exact .inr (within_bit (by decide +kernel) w) | exact .inl rfl | simp -zeta only [keepsMk_iff] | apply keeps_mk | apply keeps_foldl | (intro u; first | (refine keeps_then (W := W) (s0 := s0) (a := u) ?_ ?_; subst u; rotate_left; intro _) | subst u | skip) | lift_lets -underBinder | dsimp -zeta only | split

theorem State.postThermal_keeps {a1 a2 a3 a4} (h : Keeps W s0 s) (w : Within 0xcae00000000000000000000000000000000000000000000000000000000000000000000800020 W) :
    Keeps W s0 (State.postThermal s a1 a2 a3 a4) := by
  unfold State.postThermal
  with_reducible repeat' first | assumption | apply State.post_keeps | apply State.postBoth_keeps | exact within_of (by decide +kernel) w | exact within_bit (by decide +kernel) w | apply keeps_foldl | (intro u; first | (refine keeps_then (W := W) (s0 := s0) (a := u) ?_ ?_; subst u; rotate_left; intro _) | subst u | skip) | lift_lets -underBinder | dsimp -zeta only | split

theorem State.judgeLevel_keeps {a1 a2 a3 a4 a5 a6} (h : Keeps W s0 s) (w : Within 0xcae00000000000000000000000000000000000000000000000000000000000000000000800020 W) (w1 : Within (wrMask a1) W) :
    Keeps W s0 (State.judgeLevel s a1 a2 a3 a4 a5 a6) := by
  unfold State.judgeLevel
  with_reducible repeat' first | assumption | apply State.postThermal_keeps | apply State.wr_keeps | exact within_of (by decide +kernel) w | exact within_bit (by decide +kernel) w | apply keeps_foldl | (intro u; first | (refine keeps_then (W := W) (s0 := s0) (a := u) ?_ ?_; subst u; rotate_left; intro _) | subst u | skip) | lift_lets -underBinder | dsimp -zeta only | split

theorem State.judgeHeat_keeps (h : Keeps W s0 s) (w : Within 0xc7e00000000000000000000000000000cae00000000000000000000000000000000000000000000000000000000000000000000810020 W) :
    Keeps W s0 (State.judgeHeat s) := by
  unfold State.judgeHeat
  with_reducible repeat' first | assumption | apply State.wr_keeps | apply State.judgeFt_keeps | apply State.judgeLevel_keeps | exact within_of (by decide +kernel) w | exact within_bit (by decide +kernel) w | exact .inr (within_bit (by decide +kernel) w) | exact .inl rfl | simp -zeta only [keepsMk_iff] | apply keeps_mk | apply keeps_foldl | (intro u; first | (refine keeps_then (W := W) (s0 := s0) (a := u) ?_ ?_; subst u; rotate_left; intro _) | subst u | skip) | lift_lets -underBinder | dsimp -zeta only | split

theorem State.judgeCourseHeat_keeps {a1} (h : Keeps W s0 s) (w : Within 0x100000000000000000000000000000000000000000000000000000000000000000000000000000000000000000000 W) :
    Keeps W s0 (State.judgeCourseHeat s a1) := by
  unfold State.judgeCourseHeat
  with_reducible repeat' first | assumption | apply State.wr_keeps | exact within_of (by decide +kernel) w | exact within_bit (by decide +kernel) w | apply keeps_foldl | (intro u; first | (refine keeps_then (W := W) (s0 := s0) (a := u) ?_ ?_; subst u; rotate_left; intro _) | subst u | skip) | lift_lets -underBinder | dsimp -zeta only | split

theorem State.trip_keeps {a1 a2} (h : Keeps W s0 s) (w : Within 0x180004000000000000000000000000000000000000000000000000000000000000000000000000000000000000000000000000000000810000 W) :
    Keeps W s0 (State.trip s a1 a2) := by
  unfold State.trip
  with_reducible repeat' first | assumption | apply State.emit_keeps | apply State.setClamp_keeps | apply State.wr_keeps | exact within_of (by decide +kernel) w | exact within_bit (by decide +kernel) w | exact .inr (within_bit (by decide +kernel) w) | exact .inl rfl | simp -zeta only [keepsMk_iff] | apply keeps_mk | apply keeps_foldl | (intro u; first | (refine keeps_then (W := W) (s0 := s0) (a := u) ?_ ?_; subst u; rotate_left; intro _) | subst u | skip) | lift_lets -underBinder | dsimp -zeta only | split

theorem State.startSweep_keeps (h : Keeps W s0 s) (w : Within 0x7000000000000000000000000000000000000000000000000000012000 W) :
    Keeps W s0 (State.startSweep s) := by
  unfold State.startSweep
  with_reducible repeat' first | assumption | apply State.wr_keeps | exact within_of (by decide +kernel) w | exact within_bit (by decide +kernel) w | exact .inr (within_bit (by decide +kernel) w) | exact .inl rfl | simp -zeta only [keepsMk_iff] | apply keeps_mk | apply keeps_foldl | (intro u; first | (refine keeps_then (W := W) (s0 := s0) (a := u) ?_ ?_; subst u; rotate_left; intro _) | subst u | skip) | lift_lets -underBinder | dsimp -zeta only | split

theorem State.leaveLimited_keeps (h : Keeps W s0 s) (w : Within 0x3000000000000000000000000000000000000000000000000000000000 W) :
    Keeps W s0 (State.leaveLimited s) := by
  unfold State.leaveLimited
  with_reducible repeat' first | assumption | apply State.wr_keeps | exact within_of (by decide +kernel) w | exact within_bit (by decide +kernel) w | apply keeps_foldl | (intro u; first | (refine keeps_then (W := W) (s0 := s0) (a := u) ?_ ?_; subst u; rotate_left; intro _) | subst u | skip) | lift_lets -underBinder | dsimp -zeta only | split

theorem State.settleCooling_keeps (h : Keeps W s0 s) (w : Within 0x7000000000000000000000000000000000000000000000000000012000 W) :
    Keeps W s0 (State.settleCooling s) := by
  unfold State.settleCooling
  with_reducible repeat' first | assumption | apply State.startSweep_keeps | exact within_of (by decide +kernel) w | exact within_bit (by decide +kernel) w | apply keeps_foldl | (intro u; first | (refine keeps_then (W := W) (s0 := s0) (a := u) ?_ ?_; subst u; rotate_left; intro _) | subst u | skip) | lift_lets -underBinder | dsimp -zeta only | split

theorem State.setDeferred_keeps {a1} (h : Keeps W s0 s) (w : Within 0x20 W) :
    Keeps W s0 (State.setDeferred s a1) := by
  unfold State.setDeferred
  with_reducible repeat' first | assumption | exact within_of (by decide +kernel) w | exact within_bit (by decide +kernel) w | exact .inr (within_bit (by decide +kernel) w) | exact .inl rfl | simp -zeta only [keepsMk_iff] | apply keeps_mk | apply keeps_foldl | (intro u; first | (refine keeps_then (W := W) (s0 := s0) (a := u) ?_ ?_; subst u; rotate_left; intro _) | subst u | skip) | lift_lets -underBinder | dsimp -zeta only | split

theorem State.deferStop_keeps {a1} (h : Keeps W s0 s) (w : Within 0x20 W) :
    Keeps W s0 (State.deferStop s a1) := by
  unfold State.deferStop
  with_reducible repeat' first | assumption | apply State.setDeferred_keeps | exact within_of (by decide +kernel) w | exact within_bit (by decide +kernel) w | apply keeps_foldl | (intro u; first | (refine keeps_then (W := W) (s0 := s0) (a := u) ?_ ?_; subst u; rotate_left; intro _) | subst u | skip) | lift_lets -underBinder | dsimp -zeta only | split

theorem State.undeferStop_keeps {a1} (h : Keeps W s0 s) (w : Within 0x20 W) :
    Keeps W s0 (State.undeferStop s a1) := by
  unfold State.undeferStop
  with_reducible repeat' first | assumption | apply State.setDeferred_keeps | exact within_of (by decide +kernel) w | exact within_bit (by decide +kernel) w | apply keeps_foldl | (intro u; first | (refine keeps_then (W := W) (s0 := s0) (a := u) ?_ ?_; subst u; rotate_left; intro _) | subst u | skip) | lift_lets -underBinder | dsimp -zeta only | split

theorem State.setNapBit_keeps {a1 a2} (h : Keeps W s0 s) (w : Within 0x10000000000000000000000000000000000000000000000000000000000000000000000000000000000000000000000000000000000000000 W) :
    Keeps W s0 (State.setNapBit s a1 a2) := by
  unfold State.setNapBit
  with_reducible repeat' first | assumption | apply State.wr_keeps | exact within_of (by decide +kernel) w | exact within_bit (by decide +kernel) w | apply keeps_foldl | (intro u; first | (refine keeps_then (W := W) (s0 := s0) (a := u) ?_ ?_; subst u; rotate_left; intro _) | subst u | skip) | lift_lets -underBinder | dsimp -zeta only | split

theorem State.napCourse_keeps {a1} (h : Keeps W s0 s) (w : Within 0x10000000000000000000000000000000000000000000000000000000000000000000000000000000000000000000000000000000000000000 W) :
    Keeps W s0 (State.napCourse s a1) := by
  unfold State.napCourse
  with_reducible repeat' first | assumption | apply State.setNapBit_keeps | exact within_of (by decide +kernel) w | exact within_bit (by decide +kernel) w | apply keeps_foldl | (intro u; first | (refine keeps_then (W := W) (s0 := s0) (a := u) ?_ ?_; subst u; rotate_left; intro _) | subst u | skip) | lift_lets -underBinder | dsimp -zeta only | split

theorem State.startNap_keeps (h : Keeps W s0 s) (w : Within 0x8000000000000000000000000000000000000000000000000000000000000000000000000000000000000000000000000000000000000000 W) :
    Keeps W s0 (State.startNap s) := by
  unfold State.startNap
  with_reducible repeat' first | assumption | apply State.wr_keeps | exact within_of (by decide +kernel) w | exact within_bit (by decide +kernel) w | apply keeps_foldl | (intro u; first | (refine keeps_then (W := W) (s0 := s0) (a := u) ?_ ?_; subst u; rotate_left; intro _) | subst u | skip) | lift_lets -underBinder | dsimp -zeta only | split

theorem State.startDrain_keeps (h : Keeps W s0 s) (w : Within 0x1000000000000000000000000000000000000000000000000000000000 W) :
    Keeps W s0 (State.startDrain s) := by
  unfold State.startDrain
  with_reducible repeat' first | assumption | apply State.wr_keeps | exact within_of (by decide +kernel) w | exact within_bit (by decide +kernel) w | apply keeps_foldl | (intro u; first | (refine keeps_then (W := W) (s0 := s0) (a := u) ?_ ?_; subst u; rotate_left; intro _) | subst u | skip) | lift_lets -underBinder | dsimp -zeta only | split

theorem State.takeStop_keeps {a1} (h : Keeps W s0 s) (w : Within 0x18000000000004000000000000000000000000000000000000000001000000000000000000000000000000000000000000000000000000000 W) :
    Keeps W s0 (State.takeStop s a1) := by
  unfold State.takeStop
  with_reducible repeat' first | assumption | apply State.wr_keeps | apply State.startDrain_keeps | apply State.startNap_keeps | apply State.napCourse_keeps | exact within_of (by decide +kernel) w | exact within_bit (by decide +kernel) w | apply keeps_foldl | (intro u; first | (refine keeps_then (W := W) (s0 := s0) (a := u) ?_ ?_; subst u; rotate_left; intro _) | subst u | skip) | lift_lets -underBinder | dsimp -zeta only | split

theorem State.stop_keeps {a1} (h : Keeps W s0 s) (w : Within 0x18000000000004000000000000000000000000000000000000000001000000000000000000000000000000000000000000000000000000020 W) :
    Keeps W s0 (State.stop s a1) := by
  unfold State.stop
  with_reducible repeat' first | assumption | apply State.takeStop_keeps | apply State.deferStop_keeps | exact within_of (by decide +kernel) w | exact within_bit (by decide +kernel) w | apply keeps_foldl | (intro u; first | (refine keeps_then (W := W) (s0 := s0) (a := u) ?_ ?_; subst u; rotate_left; intro _) | subst u | skip) | lift_lets -underBinder | dsimp -zeta only | split

theorem State.releaseStops_keeps (h : Keeps W s0 s) (w : Within 0x18000000000004000000000000000000000000000000000000000001000000000000000000000000000000000000000000000000000000020 W) :
    Keeps W s0 (State.releaseStops s) := by
  unfold State.releaseStops
  with_reducible repeat' first | assumption | apply State.takeStop_keeps | apply State.undeferStop_keeps | exact within_of (by decide +kernel) w | exact within_bit (by decide +kernel) w | apply keeps_foldl | (intro u; first | (refine keeps_then (W := W) (s0 := s0) (a := u) ?_ ?_; subst u; rotate_left; intro _) | subst u | skip) | lift_lets -underBinder | dsimp -zeta only | split

theorem State.leaveNap_keeps (h : Keeps W s0 s) (w : Within 0x8000000000000000000000000000000000000000000000000000007000000000000000000000000000000007000000000000020000612480 W) :
    Keeps W s0 (State.leaveNap s) := by
  unfold State.leaveNap
  with_reducible repeat' first | assumption | apply State.wr_keeps | apply State.reloadAll_keeps | apply State.startSweep_keeps | apply State.unverify_keeps | exact within_of (by decide +kernel) w | exact within_bit (by decide +kernel) w | exact .inr (within_bit (by decide +kernel) w) | exact .inl rfl | simp -zeta only [keepsMk_iff] | apply keeps_mk | apply keeps_foldl | (intro u; first | (refine keeps_then (W := W) (s0 := s0) (a := u) ?_ ?_; subst u; rotate_left; intro _) | subst u | skip) | lift_lets -underBinder | dsimp -zeta only | split

theorem State.enterRest_keeps (h : Keeps W s0 s) (w : Within 0xfb000000000000080000000000000000000000400003c00000cae00000000000000001000000000000fc478000000000000042002000000000067e000fa3de8 W) :
    Keeps W s0 (State.enterRest s) := by
  unfold State.enterRest
  with_reducible repeat' first | assumption | apply State.forEach_keeps | apply State.severPort_keeps | apply State.zlDown_keeps | apply State.zlLink_keeps | apply State.wr_keeps | apply State.wipeCores_keeps | apply State.wipeArrays_keeps | apply State.loseStacks_keeps | exact within_of (by decide +kernel) w | exact within_bit (by decide +kernel) w | exact .inr (within_bit (by decide +kernel) w) | exact .inl rfl | simp -zeta only [keepsMk_iff] | apply keeps_mk | apply keeps_foldl | (intro u; first | (refine keeps_then (W := W) (s0 := s0) (a := u) ?_ ?_; subst u; rotate_left; intro _) | subst u | skip) | lift_lets -underBinder | dsimp -zeta only | split

theorem State.exitRest_keeps (h : Keeps W s0 s) (w : Within 0x113027f80624c38000fe7c03f3721e080193f1fffc46671ffc00fe1bc701b01fdffc00e7fffe3f7f0de700fffffe0003800fffffc0fc01f81ffffbffff00870f877ff006cbdfe W) : Keeps W s0 s.exitRest := by
  have hl : ∀ x ∈ portStatus.flatMap (fun f => [(f, 0, s.rd f 0), (f, 1, s.rd f 1)]), x.1 ∈ portStatus := by
    intro x hx
    obtain ⟨f, hf, hx⟩ := List.mem_flatMap.1 hx
    simp only [List.mem_cons, List.not_mem_nil, or_false] at hx
    rcases hx with rfl | rfl <;> exact hf
  have fold : ∀ (l : List (Field × Nat × Nat)) (u : State), (∀ x ∈ l, x.1 ∈ portStatus) → Keeps W s0 u →
      Keeps W s0 (l.foldl (fun (s : State) (x : Field × Nat × Nat) => s.wr x.1 x.2.1 x.2.2) u) := by
    intro l
    induction l with
    | nil => exact fun _ _ g => g
    | cons x l ih =>
      exact fun u hm g => ih _ (fun y hy => hm y (List.mem_cons_of_mem _ hy))
        (State.wr_keeps g (within_trans (listMask_mem (hm x List.mem_cons_self)) (within_of (by decide +kernel) w)))
  unfold State.exitRest
  have lost : Keeps W s0 ((((((s.dropAllRecords).loseLoads).loseCopies).loseWork).loseHosts true).resetFields 6 (fun _ _ => true)) := by
    with_reducible repeat' first | assumption | apply State.resetFields_keeps | apply State.loseHosts_keeps | apply State.loseWork_keeps | apply State.loseCopies_keeps | apply State.loseLoads_keeps | apply State.dropAllRecords_keeps | exact within_of (by decide +kernel) w
  have fin : ∀ u v : State, Keeps W s0 u → v = (u.wr Reg.HIF_DEV_STATE_STATE 0 4).wr Reg.TRM_PSTATE_STATE 0 5 →
      Keeps W s0 { v with board := { v.board with stkEn := true, stkRise := some v.time }, fault := { v.fault with ffc := [], ffcLast := none }, sec := { v.sec with entries := [], keys := [], rollback := false, record := [] } } := by
    intro u v g e
    have g : Keeps W s0 v := e ▸ State.wr_keeps (State.wr_keeps g (within_of (by decide +kernel) w)) (within_of (by decide +kernel) w)
    simp -zeta only [keepsMk_iff]
    apply keeps_mk g
    all_goals first | exact .inl rfl | exact .inr (within_bit (by decide +kernel) w)
  exact fin _ _ (fold _ _ hl (State.unverify_keeps (State.wipeCores_keeps (a1 := fun _ => true) lost (within_of (by decide +kernel) w)) (within_of (by decide +kernel) w))) rfl

end Sys2Proof.Machine
end

