-- ==== Sys2Proof/Laws/Keeps/ResetOps.lean ====
section
/-! SUPPORT. Laws/Keeps/ResetOps.lean: what every operation of Machine/ResetOps.lean keeps (the relation of Laws/Keeps.lean). -/
set_option Elab.async false
set_option linter.all false
set_option linter.unusedSimpArgs false
set_option linter.tactic.unusedName false
namespace Sys2Proof.Machine
variable {W : Nat} {s0 s : State}

theorem State.abortCourse_keeps {a1} (h : Keeps W s0 s) (w : Within 0xfb00000000000000000000000000000000000040000000000000000000000000000000000000000000f0078000000000000042000000000000007e000823dc0 W) :
    Keeps W s0 (State.abortCourse s a1) := by
  unfold State.abortCourse
  with_reducible repeat' first | assumption | apply State.forEach_keeps | apply State.abortSlots_keeps | exact within_of (by decide +kernel) w | exact within_bit (by decide +kernel) w | apply keeps_foldl | (intro u; first | (refine keeps_then (W := W) (s0 := s0) (a := u) ?_ ?_; subst u; rotate_left; intro _) | subst u | skip) | lift_lets -underBinder | dsimp -zeta only | split

theorem State.resetCourse_keeps {a1} (h : Keeps W s0 s) (w : Within 0xfb00000000834000000000000000000000000040000000000000000000000000000000000000000000f0078000000000001ffff0e1ff00070f877ff00e23dc8 W) :
    Keeps W s0 (State.resetCourse s a1) := by
  unfold State.resetCourse
  with_reducible repeat' first | assumption | apply State.loseCourse_keeps | apply State.abortCourse_keeps | exact within_of (by decide +kernel) w | exact within_bit (by decide +kernel) w | exact .inr (within_bit (by decide +kernel) w) | exact .inl rfl | simp -zeta only [keepsMk_iff] | apply keeps_mk | apply keeps_foldl | (intro u; first | (refine keeps_then (W := W) (s0 := s0) (a := u) ?_ ?_; subst u; rotate_left; intro _) | subst u | skip) | lift_lets -underBinder | dsimp -zeta only | split

theorem State.startCourseReset_keeps {a1 a2} (h : Keeps W s0 s) (w : Within 0x1fb00000000834000000000000000000000000040000000000000000000000000000000000000000000f0078000000000001ffff0e1ff00070f877ff00e23dc8 W) :
    Keeps W s0 (State.startCourseReset s a1 a2) := by
  unfold State.startCourseReset
  with_reducible repeat' first | assumption | apply State.addRung_keeps | apply State.bump_keeps | apply State.noteRung_keeps | apply State.resetCourse_keeps | exact within_of (by decide +kernel) w | exact within_bit (by decide +kernel) w | exact .inr (within_bit (by decide +kernel) w) | exact .inl rfl | simp -zeta only [keepsMk_iff] | apply keeps_mk | apply keeps_foldl | (intro u; first | (refine keeps_then (W := W) (s0 := s0) (a := u) ?_ ?_; subst u; rotate_left; intro _) | subst u | skip) | lift_lets -underBinder | dsimp -zeta only | split

theorem State.endPartitionReset_keeps {a1} (h : Keeps W s0 s) (w : Within 0x100000000000000018000000000004000000000040000000000000000000000000000001000000000000000000000000000000000000000000000000000821020 W) :
    Keeps W s0 (State.endPartitionReset s a1) := by
  unfold State.endPartitionReset
  with_reducible repeat' first | assumption | apply State.sendNotice_keeps | apply State.endRung_keeps | apply State.releaseStops_keeps | apply State.wr_keeps | exact within_of (by decide +kernel) w | exact within_bit (by decide +kernel) w | apply keeps_foldl | (intro u; first | (refine keeps_then (W := W) (s0 := s0) (a := u) ?_ ?_; subst u; rotate_left; intro _) | subst u | skip) | lift_lets -underBinder | dsimp -zeta only | split

theorem State.absorbLower_keeps {a1} (h : Keeps W s0 s) (w : Within 0x20000 W) :
    Keeps W s0 (State.absorbLower s a1) := by
  unfold State.absorbLower
  with_reducible repeat' first | assumption | exact within_of (by decide +kernel) w | exact within_bit (by decide +kernel) w | exact .inr (within_bit (by decide +kernel) w) | exact .inl rfl | simp -zeta only [keepsMk_iff] | apply keeps_mk | apply keeps_foldl | (intro u; first | (refine keeps_then (W := W) (s0 := s0) (a := u) ?_ ?_; subst u; rotate_left; intro _) | subst u | skip) | lift_lets -underBinder | dsimp -zeta only | split

theorem State.startPartitionReset_keeps {a1 a2} (h : Keeps W s0 s) (w : Within 0x12fb00000000e340180000000000040000000000400000000000000c0027c0000000000100fffffc0000f0078ffe000000001ffff3e1ff00870f877ff00e23df8 W) :
    Keeps W s0 (State.startPartitionReset s a1 a2) := by
  unfold State.startPartitionReset
  with_reducible repeat' first | assumption | apply State.addRung_keeps | apply State.absorbLower_keeps | apply State.bump_keeps | apply State.noteRung_keeps | apply State.stopTransfers_keeps | apply State.emit_keeps | apply State.endRefill_keeps | apply State.abortLoad_keeps | apply State.emptyScheduler_keeps | apply State.endRequests_keeps | apply State.forEach_keeps | apply State.resetCourse_keeps | apply State.retireAll_keeps | apply State.resetFields_keeps | apply State.endPartitionReset_keeps | exact within_of (by decide +kernel) w | exact within_bit (by decide +kernel) w | apply keeps_foldl | (intro u; first | (refine keeps_then (W := W) (s0 := s0) (a := u) ?_ ?_; subst u; rotate_left; intro _) | subst u | skip) | lift_lets -underBinder | dsimp -zeta only | split

theorem State.courseBack_keeps {a1} (h : Keeps W s0 s) (w : Within 0x10000000000000001800000000000400000000004000000000000000000000000000000100000000000000078000000bfe000042700000000000067e000e23de8 W) :
    Keeps W s0 (State.courseBack s a1) := by
  unfold State.courseBack
  with_reducible repeat' first | assumption | apply State.forEach_keeps | apply State.reloadCourse_keeps | apply State.showProgramming_keeps | apply State.endRung_keeps | apply State.updateMap_keeps | apply State.endPartitionReset_keeps | apply State.releaseStops_keeps | exact within_of (by decide +kernel) w | exact within_bit (by decide +kernel) w | exact .inr (within_bit (by decide +kernel) w) | exact .inl rfl | simp -zeta only [keepsMk_iff] | apply keeps_mk | apply keeps_foldl | (intro u; first | (refine keeps_then (W := W) (s0 := s0) (a := u) ?_ ?_; subst u; rotate_left; intro _) | subst u | skip) | lift_lets -underBinder | dsimp -zeta only | split

theorem State.boot_keeps (h : Keeps W s0 s) (w : Within 0x24000000000000000000000000000000000000000000000000000000000000000000000007000000000000000000000000000000007000000000000000000e32480 W) :
    Keeps W s0 (State.boot s) := by
  unfold State.boot
  with_reducible repeat' first | assumption | apply State.wr_keeps | apply State.askPowerCycle_keeps | apply State.reloadAll_keeps | apply State.emit_keeps | apply State.startSweep_keeps | exact within_of (by decide +kernel) w | exact within_bit (by decide +kernel) w | apply keeps_foldl | (intro u; first | (refine keeps_then (W := W) (s0 := s0) (a := u) ?_ ?_; subst u; rotate_left; intro _) | subst u | skip) | lift_lets -underBinder | dsimp -zeta only | split

theorem State.chipDown_keeps {a1} (h : Keeps W s0 s) (w : Within 0x113027f80000b47b0000000393420800018201c00000001f0400fe1bc7c1b01fdffc00e7fffe3f7f0de700fffffc00038007ffffc0fc01e01ffff3e1ff00870f877ff00effdfe W) :
    Keeps W s0 (State.chipDown s a1) := by
  unfold State.chipDown
  with_reducible repeat' first | assumption | apply State.unverify_keeps | apply State.loseCopies_keeps | apply State.loseChip_keeps | apply State.wr_keeps | apply State.bump_keeps | apply State.noteRung_keeps | exact within_of (by decide +kernel) w | exact within_bit (by decide +kernel) w | exact .inr (within_bit (by decide +kernel) w) | exact .inl rfl | simp -zeta only [keepsMk_iff] | apply keeps_mk | apply keeps_foldl | (intro u; first | (refine keeps_then (W := W) (s0 := s0) (a := u) ?_ ?_; subst u; rotate_left; intro _) | subst u | skip) | lift_lets -underBinder | dsimp -zeta only | split

theorem State.chipReset_keeps {a1} (h : Keeps W s0 s) (w : Within 0x113027f80024b47b0000000393420800018201c00000001f0400fe1bc7c1b01fdffc00e7fffe3f7f0de700fffffc00038007ffffc0fc01e01ffff3e1ff00870f877ff00effdfe W) :
    Keeps W s0 (State.chipReset s a1) := by
  unfold State.chipReset
  with_reducible repeat' first | assumption | apply State.boot_keeps | apply State.chipDown_keeps | exact within_of (by decide +kernel) w | exact within_bit (by decide +kernel) w | apply keeps_foldl | (intro u; first | (refine keeps_then (W := W) (s0 := s0) (a := u) ?_ ?_; subst u; rotate_left; intro _) | subst u | skip) | lift_lets -underBinder | dsimp -zeta only | split

theorem State.holdChip_keeps {a1} (h : Keeps W s0 s) (w : Within 0x113027f80000b47b0000000393420800018201c00000001f0400fe1bc7c1b01fdffc00e7fffe3f7f0de700fffffc00038007ffffc0fc01e01ffff3e1ff00870f877ff00effdfe W) :
    Keeps W s0 (State.holdChip s a1) := by
  unfold State.holdChip
  with_reducible repeat' first | assumption | apply State.chipDown_keeps | exact within_of (by decide +kernel) w | exact within_bit (by decide +kernel) w | exact .inr (within_bit (by decide +kernel) w) | exact .inl rfl | simp -zeta only [keepsMk_iff] | apply keeps_mk | apply keeps_foldl | (intro u; first | (refine keeps_then (W := W) (s0 := s0) (a := u) ?_ ?_; subst u; rotate_left; intro _) | subst u | skip) | lift_lets -underBinder | dsimp -zeta only | split

theorem State.freeChip_keeps (h : Keeps W s0 s) (w : Within 0x24000000000000000000000000000000000000000000000000000000000000000000000007000000000000000000000000000000007000000000000000000e32480 W) :
    Keeps W s0 (State.freeChip s) := by
  unfold State.freeChip
  with_reducible repeat' first | assumption | apply State.boot_keeps | exact within_of (by decide +kernel) w | exact within_bit (by decide +kernel) w | exact .inr (within_bit (by decide +kernel) w) | exact .inl rfl | simp -zeta only [keepsMk_iff] | apply keeps_mk | apply keeps_foldl | (intro u; first | (refine keeps_then (W := W) (s0 := s0) (a := u) ?_ ?_; subst u; rotate_left; intro _) | subst u | skip) | lift_lets -underBinder | dsimp -zeta only | split

theorem State.endChipRung_keeps (h : Keeps W s0 s) (w : Within 0x18000000000004000000000000000000000000000000000000000001000000000000000000000000000000000000000000000000000020020 W) :
    Keeps W s0 (State.endChipRung s) := by
  unfold State.endChipRung
  with_reducible repeat' first | assumption | apply State.releaseStops_keeps | apply State.endRung_keeps | exact within_of (by decide +kernel) w | exact within_bit (by decide +kernel) w | apply keeps_foldl | (intro u; first | (refine keeps_then (W := W) (s0 := s0) (a := u) ?_ ?_; subst u; rotate_left; intro _) | subst u | skip) | lift_lets -underBinder | dsimp -zeta only | split

theorem State.overrun_keeps {a1 a2} (h : Keeps W s0 s) (w : Within 0x113027f80024b7fb00000003f3421800018201c00400001f0400fe1bc7c1b01fdffc00e7fffe3f7f0de700fffffc0003f007ffffc0fc01e01ffff3e1ff00870f877ff00effdfe W) :
    Keeps W s0 (State.overrun s a1 a2) := by
  unfold State.overrun
  with_reducible repeat' first | assumption | apply State.endRung_keeps | apply State.forEach_keeps | apply State.startCourseReset_keeps | apply State.startPartitionReset_keeps | apply State.chipReset_keeps | apply State.askPowerCycle_keeps | apply State.wr_keeps | exact within_of (by decide +kernel) w | exact within_bit (by decide +kernel) w | apply keeps_foldl | (intro u; first | (refine keeps_then (W := W) (s0 := s0) (a := u) ?_ ?_; subst u; rotate_left; intro _) | subst u | skip) | lift_lets -underBinder | dsimp -zeta only | split

end Sys2Proof.Machine
end

