-- ==== Sys2Proof/Laws/Keeps/SecOps.lean ====
section
/-! SUPPORT. Laws/Keeps/SecOps.lean: what every operation of Machine/SecOps.lean keeps (the relation of Laws/Keeps.lean). -/
set_option Elab.async false
set_option linter.all false
set_option linter.unusedSimpArgs false
set_option linter.tactic.unusedName false
namespace Sys2Proof.Machine
variable {W : Nat} {s0 s : State}

theorem State.setCourseWord_keeps {a1 a2} (h : Keeps W s0 s) (w : Within 0xc000000000000000000000000000000000000000000000000000000000000000000000000000000000000000000000000000000000000000000000000000000000000000000 W) :
    Keeps W s0 (State.setCourseWord s a1 a2) := by
  unfold State.setCourseWord
  with_reducible repeat' first | assumption | apply State.wr_keeps | exact within_of (by decide +kernel) w | exact within_bit (by decide +kernel) w | apply keeps_foldl | (intro u; first | (refine keeps_then (W := W) (s0 := s0) (a := u) ?_ ?_; subst u; rotate_left; intro _) | subst u | skip) | lift_lets -underBinder | dsimp -zeta only | split

theorem State.putKey_keeps {a1 a2} (h : Keeps W s0 s) (w : Within (topMask ||| 0x0) W) :
    Keeps W s0 (State.putKey s a1 a2) := by
  unfold State.putKey
  with_reducible repeat' first | assumption | apply State.wr_top | exact within_of (by decide +kernel) w | exact within_bit (by decide +kernel) w | apply keeps_foldl | (intro u; first | (refine keeps_then (W := W) (s0 := s0) (a := u) ?_ ?_; subst u; rotate_left; intro _) | subst u | skip) | lift_lets -underBinder | dsimp -zeta only | split

theorem State.committed_keeps (h : Keeps W s0 s) (w : Within (topMask ||| 0x0) W) :
    Keeps W s0 (State.committed s) := by
  unfold State.committed
  with_reducible repeat' first | assumption | apply State.putKey_keeps | apply State.setCourseWord_keeps | apply State.wr_keeps | exact within_of (by decide +kernel) w | exact within_bit (by decide +kernel) w | apply keeps_foldl | (intro u; first | (refine keeps_then (W := W) (s0 := s0) (a := u) ?_ ?_; subst u; rotate_left; intro _) | subst u | skip) | lift_lets -underBinder | dsimp -zeta only | split

theorem State.recordGeneration_keeps {a1} (h : Keeps W s0 s) (w : Within 0x7800000000000000000000000000000000000000000000000000000000000000000000000000000000000000000000000000000000000000000000000000000040000 W) :
    Keeps W s0 (State.recordGeneration s a1) := by
  unfold State.recordGeneration
  with_reducible repeat' first | assumption | apply State.wr_keeps | exact within_of (by decide +kernel) w | exact within_bit (by decide +kernel) w | exact .inr (within_bit (by decide +kernel) w) | exact .inl rfl | simp -zeta only [keepsMk_iff] | apply keeps_mk | apply keeps_foldl | (intro u; first | (refine keeps_then (W := W) (s0 := s0) (a := u) ?_ ?_; subst u; rotate_left; intro _) | subst u | skip) | lift_lets -underBinder | dsimp -zeta only | split

theorem State.loadFields_keeps {c : ConfigCopy} (h : Keeps W s0 s) (w : Within (topMask ||| 0x0) W) : Keeps W s0 (s.loadFields c) :=
  keeps_foldl (fun _ _ g => State.putKey_keeps g (within_of (by decide +kernel) w))
    (keeps_filter (p := fun k => !keyIsConfig k) h (fun f hf x i => by rw [within_top (within_of (by decide +kernel) w) hf] at x; cases x))

theorem State.setKeyDigest_keeps {a1 a2} (h : Keeps W s0 s) (w : Within 0x100000000000000000000000000000000000000000000000000000000000000000000000000000000000000000000000000000000000000000000000000000000000000000 W) :
    Keeps W s0 (State.setKeyDigest s a1 a2) := by
  unfold State.setKeyDigest
  with_reducible repeat' first | assumption | apply State.forEach_keeps | apply State.wr_keeps | exact within_of (by decide +kernel) w | exact within_bit (by decide +kernel) w | apply keeps_foldl | (intro u; first | (refine keeps_then (W := W) (s0 := s0) (a := u) ?_ ?_; subst u; rotate_left; intro _) | subst u | skip) | lift_lets -underBinder | dsimp -zeta only | split

theorem State.showProvisioned_keeps (h : Keeps W s0 s) (w : Within 0x1000000000000000000000000000000000000000000000000000000000000000000000000000000000000000000000000000000000000000000000000000000000 W) :
    Keeps W s0 (State.showProvisioned s) := by
  unfold State.showProvisioned
  with_reducible repeat' first | assumption | apply State.wr_keeps | exact within_of (by decide +kernel) w | exact within_bit (by decide +kernel) w | apply keeps_foldl | (intro u; first | (refine keeps_then (W := W) (s0 := s0) (a := u) ?_ ?_; subst u; rotate_left; intro _) | subst u | skip) | lift_lets -underBinder | dsimp -zeta only | split

theorem State.applyKey_keeps {a1} (h : Keeps W s0 s) (w : Within 0x1c0000000000000000000000000000000000000000000000000000000000000000000000000000000000000000000000000000000000000000000000000000000000000000 W) :
    Keeps W s0 (State.applyKey s a1) := by
  unfold State.applyKey
  with_reducible repeat' first | assumption | apply State.wr_keeps | apply State.setKeyDigest_keeps | exact within_of (by decide +kernel) w | exact within_bit (by decide +kernel) w | apply keeps_foldl | (intro u; first | (refine keeps_then (W := W) (s0 := s0) (a := u) ?_ ?_; subst u; rotate_left; intro _) | subst u | skip) | lift_lets -underBinder | dsimp -zeta only | split

theorem State.stageLate_keeps (h : Keeps W s0 s) (w : Within 0x400000000000000000000000000000000000000000000000000000000000000000000000000000000000000000000000000000000000000000000000000000000000000 W) :
    Keeps W s0 (State.stageLate s) := by
  unfold State.stageLate
  with_reducible repeat' first | assumption | apply State.wr_keeps | exact within_of (by decide +kernel) w | exact within_bit (by decide +kernel) w | apply keeps_foldl | (intro u; first | (refine keeps_then (W := W) (s0 := s0) (a := u) ?_ ?_; subst u; rotate_left; intro _) | subst u | skip) | lift_lets -underBinder | dsimp -zeta only | split

theorem State.openStage_keeps (h : Keeps W s0 s) (w : Within 0x680000000000000000000000000000000000000000000000000000000000000000000000000000000000000000000000000000000000000000000000000000000000000 W) :
    Keeps W s0 (State.openStage s) := by
  unfold State.openStage
  with_reducible repeat' first | assumption | apply State.wr_keeps | exact within_of (by decide +kernel) w | exact within_bit (by decide +kernel) w | apply keeps_foldl | (intro u; first | (refine keeps_then (W := W) (s0 := s0) (a := u) ?_ ?_; subst u; rotate_left; intro _) | subst u | skip) | lift_lets -underBinder | dsimp -zeta only | split

theorem State.stageEntry_keeps {a1} (h : Keeps W s0 s) (w : Within 0xe80000000000000000000000000000000000000000000000000000000000000000000000000000000000000000000000000000000000000000000000000000000040000 W) :
    Keeps W s0 (State.stageEntry s a1) := by
  unfold State.stageEntry
  with_reducible repeat' first | assumption | apply State.openStage_keeps | apply State.wr_keeps | exact within_of (by decide +kernel) w | exact within_bit (by decide +kernel) w | exact .inr (within_bit (by decide +kernel) w) | exact .inl rfl | simp -zeta only [keepsMk_iff] | apply keeps_mk | apply keeps_foldl | (intro u; first | (refine keeps_then (W := W) (s0 := s0) (a := u) ?_ ?_; subst u; rotate_left; intro _) | subst u | skip) | lift_lets -underBinder | dsimp -zeta only | split

theorem State.stageWrite_keeps {a1 a2 a3} (h : Keeps W s0 s) (w : Within 0xe80000000000000000000000000000000000000000000000000000000000000000000000000000000000000000000000000000000000000000000000000000000040000 W) :
    Keeps W s0 (State.stageWrite s a1 a2 a3) := by
  unfold State.stageWrite
  with_reducible repeat' first | assumption | apply State.stageLate_keeps | apply State.stageEntry_keeps | exact within_of (by decide +kernel) w | exact within_bit (by decide +kernel) w | apply keeps_foldl | (intro u; first | (refine keeps_then (W := W) (s0 := s0) (a := u) ?_ ?_; subst u; rotate_left; intro _) | subst u | skip) | lift_lets -underBinder | dsimp -zeta only | split

theorem State.stageKey_keeps {a1 a2} (h : Keeps W s0 s) (w : Within 0x680000000000000000000000000000000000000000000000000000000000000000000000000000000000000000000000000000000000000000000000000000000040000 W) :
    Keeps W s0 (State.stageKey s a1 a2) := by
  unfold State.stageKey
  with_reducible repeat' first | assumption | apply State.stageLate_keeps | apply State.openStage_keeps | apply State.wr_keeps | exact within_of (by decide +kernel) w | exact within_bit (by decide +kernel) w | exact .inr (within_bit (by decide +kernel) w) | exact .inl rfl | simp -zeta only [keepsMk_iff] | apply keeps_mk | apply keeps_foldl | (intro u; first | (refine keeps_then (W := W) (s0 := s0) (a := u) ?_ ?_; subst u; rotate_left; intro _) | subst u | skip) | lift_lets -underBinder | dsimp -zeta only | split

theorem State.sealStage_keeps (h : Keeps W s0 s) (w : Within 0x6080000000000000000000000000000000000000000000000000000000000000000000000000000000000000000000000000000000000000000000000000000001040000 W) :
    Keeps W s0 (State.sealStage s) := by
  unfold State.sealStage
  with_reducible repeat' first | assumption | apply State.draw_keeps | apply State.wr_keeps | apply State.forEach_keeps | refine keeps_of_snd (by assumption) ?_ | exact within_of (by decide +kernel) w | exact within_bit (by decide +kernel) w | exact .inr (within_bit (by decide +kernel) w) | exact .inl rfl | simp -zeta only [keepsMk_iff, keepsS_mk_iff, keeps_snd_iff] | apply keeps_mk | apply keepsS_foldl | apply keeps_foldl | (intro u; first | (refine keeps_then (W := W) (s0 := s0) (a := u) ?_ ?_; subst u; rotate_left; intro _) | subst u | skip) | lift_lets -underBinder | dsimp -zeta only | split

theorem State.stageRollback_keeps (h : Keeps W s0 s) (w : Within 0x780000000000000000000000000000000000000000000000000000000000000000000000000000000000000000000000000000000000000000000000000000000040000 W) :
    Keeps W s0 (State.stageRollback s) := by
  unfold State.stageRollback
  with_reducible repeat' first | assumption | apply State.openStage_keeps | apply State.wr_keeps | exact within_of (by decide +kernel) w | exact within_bit (by decide +kernel) w | exact .inr (within_bit (by decide +kernel) w) | exact .inl rfl | simp -zeta only [keepsMk_iff] | apply keeps_mk | apply keeps_foldl | (intro u; first | (refine keeps_then (W := W) (s0 := s0) (a := u) ?_ ?_; subst u; rotate_left; intro _) | subst u | skip) | lift_lets -underBinder | dsimp -zeta only | split

theorem State.applyEntry_keeps {a1} (h : Keeps W s0 s) (w : Within (topMask ||| 0x0) W) :
    Keeps W s0 (State.applyEntry s a1) := by
  unfold State.applyEntry
  with_reducible repeat' first | assumption | apply State.wr_top | exact within_of (by decide +kernel) w | exact within_bit (by decide +kernel) w | apply keeps_foldl | (intro u; first | (refine keeps_then (W := W) (s0 := s0) (a := u) ?_ ?_; subst u; rotate_left; intro _) | subst u | skip) | lift_lets -underBinder | dsimp -zeta only | split

theorem State.projected_keeps (h : Keeps W s0 s) (w : Within (topMask ||| 0x0) W) :
    Keeps W s0 (State.projected s) := by
  unfold State.projected
  with_reducible repeat' first | assumption | apply State.committed_keeps | apply State.loadFields_keeps | apply State.forEach_keeps | apply State.applyEntry_keeps | apply State.applyKey_keeps | exact within_of (by decide +kernel) w | exact within_bit (by decide +kernel) w | apply keeps_foldl | (intro u; first | (refine keeps_then (W := W) (s0 := s0) (a := u) ?_ ?_; subst u; rotate_left; intro _) | subst u | skip) | lift_lets -underBinder | dsimp -zeta only | split

theorem State.handCourse_keeps {a1} (h : Keeps W s0 s) (w : Within 0xc000000000000000000000000000000000000000000000000000000000000000000000000000000000000000000000000000000000000000000000000000000000000040000 W) :
    Keeps W s0 (State.handCourse s a1) := by
  unfold State.handCourse
  with_reducible repeat' first | assumption | apply State.setCourseWord_keeps | exact within_of (by decide +kernel) w | exact within_bit (by decide +kernel) w | exact .inr (within_bit (by decide +kernel) w) | exact .inl rfl | simp -zeta only [keepsMk_iff] | apply keeps_mk | apply keeps_foldl | (intro u; first | (refine keeps_then (W := W) (s0 := s0) (a := u) ?_ ?_; subst u; rotate_left; intro _) | subst u | skip) | lift_lets -underBinder | dsimp -zeta only | split

theorem State.handRedundancy_keeps {a1} (h : Keeps W s0 s) (w : Within 0x20000000000000000000000000000000000000000000000000000000000000000000000000000000000000000000000000000000000000000000000000000000000000040000 W) :
    Keeps W s0 (State.handRedundancy s a1) := by
  unfold State.handRedundancy
  with_reducible repeat' first | assumption | apply State.wr_keeps | exact within_of (by decide +kernel) w | exact within_bit (by decide +kernel) w | exact .inr (within_bit (by decide +kernel) w) | exact .inl rfl | simp -zeta only [keepsMk_iff] | apply keeps_mk | apply keeps_foldl | (intro u; first | (refine keeps_then (W := W) (s0 := s0) (a := u) ?_ ?_; subst u; rotate_left; intro _) | subst u | skip) | lift_lets -underBinder | dsimp -zeta only | split

theorem State.handIdle_keeps (h : Keeps W s0 s) (w : Within 0x2c000000000000000000000000000000000000000000000000000000000000000000000000000000000000000000000000000000000000000000000000000000000000040000 W) :
    Keeps W s0 (State.handIdle s) := by
  unfold State.handIdle
  with_reducible repeat' first | assumption | apply State.forEach_keeps | apply State.handCourse_keeps | apply State.handRedundancy_keeps | exact within_of (by decide +kernel) w | exact within_bit (by decide +kernel) w | apply keeps_foldl | (intro u; first | (refine keeps_then (W := W) (s0 := s0) (a := u) ?_ ?_; subst u; rotate_left; intro _) | subst u | skip) | lift_lets -underBinder | dsimp -zeta only | split

theorem State.adopt_keeps {t : State} (h : Keeps W s0 s) (g : Keeps W s0 t) (w : Within (topMask ||| 0x44000) W) : Keeps W s0 (s.adopt t) := by
  unfold State.adopt
  refine State.showProvisioned_keeps ⟨h.pending, h.drawn, h.sent, fun x => ?_, fun f i hf x => ?_, h.time, h.latches, h.snapshots, h.fault, h.host, h.mail,
    h.serving, h.loader, h.arrays, h.cells, h.cores, h.fabric, h.link, h.peg, fun x => ?_, h.mcv, h.thermal, h.recovery, fun x => ?_, h.board, h.stack, h.dsram,
    h.tsram, h.out, h.fresh⟩ (within_of (by decide +kernel) w)
  · have a := h.good x
    have b := g.good x
    simp only [State.good, State.memoriesOk, State.regsSorted, Bool.and_eq_true] at a b ⊢
    exact ⟨a.1, SMap.sorted_inserts (SMap.sorted_filter _ b.2)⟩
  · rw [within_top (within_of (by decide +kernel) w) hf] at x; cases x
  · rw [within_bit (by decide +kernel) w] at x; cases x
  · rw [within_bit (by decide +kernel) w] at x; cases x

theorem State.stageSet_keeps {a1 a2} (h : Keeps W s0 s) (w : Within 0x400000000000000000000000000000000000000000000000000000000000000000000000000000000000000000000004000 W) :
    Keeps W s0 (State.stageSet s a1 a2) := by
  unfold State.stageSet
  with_reducible repeat' first | assumption | apply State.wr_keeps | exact within_of (by decide +kernel) w | exact within_bit (by decide +kernel) w | exact .inr (within_bit (by decide +kernel) w) | exact .inl rfl | simp -zeta only [keepsMk_iff] | apply keeps_mk | apply keeps_foldl | (intro u; first | (refine keeps_then (W := W) (s0 := s0) (a := u) ?_ ?_; subst u; rotate_left; intro _) | subst u | skip) | lift_lets -underBinder | dsimp -zeta only | split

theorem State.restoreSet_keeps {t : State} {c : ConfigCopy} (h : Keeps W s0 s) (w : Within 0x400000000000000000000000000000000000000000000000000000000000000000000000000000000000000000000004000 W) : Keeps W s0 (s.restoreSet t c) :=
  State.stageSet_keeps h w

theorem State.postCommit_keeps {a1} (h : Keeps W s0 s) (w : Within 0xcae00000000000000000000000000000000000000000000000000000000000000000000800020 W) :
    Keeps W s0 (State.postCommit s a1) := by
  unfold State.postCommit
  with_reducible repeat' first | assumption | apply State.postBoth_keeps | exact within_of (by decide +kernel) w | exact within_bit (by decide +kernel) w | apply keeps_foldl | (intro u; first | (refine keeps_then (W := W) (s0 := s0) (a := u) ?_ ?_; subst u; rotate_left; intro _) | subst u | skip) | lift_lets -underBinder | dsimp -zeta only | split

theorem State.refuseStage_keeps {a1} (h : Keeps W s0 s) (w : Within 0x9800000000000000000000000000000000000000000000000000000000cae00000000000000000000000000000000000000000000000000000000000000000000840020 W) :
    Keeps W s0 (State.refuseStage s a1) := by
  unfold State.refuseStage
  with_reducible repeat' first | assumption | apply State.postCommit_keeps | apply State.discardStage_keeps | exact within_of (by decide +kernel) w | exact within_bit (by decide +kernel) w | apply keeps_foldl | (intro u; first | (refine keeps_then (W := W) (s0 := s0) (a := u) ?_ ?_; subst u; rotate_left; intro _) | subst u | skip) | lift_lets -underBinder | dsimp -zeta only | split

theorem State.commitStage_keeps (h : Keeps W s0 s) (w : Within (topMask ||| 0x844020) W) :
    Keeps W s0 (State.commitStage s) := by
  unfold State.commitStage
  with_reducible repeat' first | assumption | apply State.refuseStage_keeps | apply State.projected_keeps | apply State.adopt_keeps | apply State.restoreSet_keeps | apply State.handIdle_keeps | apply State.postCommit_keeps | apply State.discardStage_keeps | apply State.recordGeneration_keeps | exact within_of (by decide +kernel) w | exact within_bit (by decide +kernel) w | apply keeps_foldl | (intro u; first | (refine keeps_then (W := W) (s0 := s0) (a := u) ?_ ?_; subst u; rotate_left; intro _) | subst u | skip) | lift_lets -underBinder | dsimp -zeta only | split

theorem State.takeSet_keeps {a1 a2} (h : Keeps W s0 s) (w : Within 0x7800000006100 W) :
    Keeps W s0 (State.takeSet s a1 a2) := by
  unfold State.takeSet
  with_reducible repeat' first | assumption | apply State.forEach_keeps | apply State.setArray_keeps | apply State.wr_keeps | exact within_of (by decide +kernel) w | exact within_bit (by decide +kernel) w | exact .inr (within_bit (by decide +kernel) w) | exact .inl rfl | simp -zeta only [keepsMk_iff] | apply keeps_mk | apply keeps_foldl | (intro u; first | (refine keeps_then (W := W) (s0 := s0) (a := u) ?_ ?_; subst u; rotate_left; intro _) | subst u | skip) | lift_lets -underBinder | dsimp -zeta only | split

theorem State.takeConfig_keeps {a1} (h : Keeps W s0 s) (w : Within (topMask ||| 0x6100) W) :
    Keeps W s0 (State.takeConfig s a1) := by
  unfold State.takeConfig
  with_reducible repeat' first | assumption | apply State.forEach_keeps | apply State.takeSet_keeps | apply State.putKey_keeps | apply State.wr_keeps | exact within_of (by decide +kernel) w | exact within_bit (by decide +kernel) w | exact .inr (within_bit (by decide +kernel) w) | exact .inl rfl | simp -zeta only [keepsMk_iff] | apply keeps_mk | apply keeps_foldl | (intro u; first | (refine keeps_then (W := W) (s0 := s0) (a := u) ?_ ?_; subst u; rotate_left; intro _) | subst u | skip) | lift_lets -underBinder | dsimp -zeta only | split

end Sys2Proof.Machine
end

