-- ==== Sys2Proof/Laws/Keeps/Cal.lean ====
section
/-! SUPPORT. Laws/Keeps/Cal.lean: what every operation of Machine/Cal.lean keeps (the relation of Laws/Keeps.lean). -/
set_option Elab.async false
set_option linter.all false
set_option linter.unusedSimpArgs false
set_option linter.tactic.unusedName false
namespace Sys2Proof.Machine
variable {W : Nat} {s0 s : State}

theorem State.calStart_keeps {a1 a2} (h : Keeps W s0 s) (w : Within 0x6700000000000000000000000000000000000000000000000000000000000000000000000000000000000000000004000 W) :
    Keeps W s0 (State.calStart s a1 a2) := by
  unfold State.calStart
  with_reducible repeat' first | assumption | apply State.wr_keeps | exact within_of (by decide +kernel) w | exact within_bit (by decide +kernel) w | exact .inr (within_bit (by decide +kernel) w) | exact .inl rfl | simp -zeta only [keepsMk_iff] | apply keeps_mk | apply keeps_foldl | (intro u; first | (refine keeps_then (W := W) (s0 := s0) (a := u) ?_ ?_; subst u; rotate_left; intro _) | subst u | skip) | lift_lets -underBinder | dsimp -zeta only | split

theorem execCalStart_keeps {a0 a1 a2} (h : Keeps W s0 s) (w : Within 0x670000000000000180000000000000003d000000000000000000000000000000000000000000000000000000000814020 W) :
    KeepsN W s0 (execCalStart a0 a1 a2 s) := by
  unfold execCalStart
  with_reducible repeat' first | assumption | apply keepsN_next | apply State.ownedAccess_keeps | apply State.calStart_keeps | exact within_of (by decide +kernel) w | exact within_bit (by decide +kernel) w | apply keeps_foldl | (intro u; first | (refine keeps_then (W := W) (s0 := s0) (a := u) ?_ ?_; subst u; rotate_left; intro _) | subst u | skip) | lift_lets -underBinder | dsimp -zeta only | split

theorem State.calAbort_keeps (h : Keeps W s0 s) (w : Within 0x4000 W) :
    Keeps W s0 (State.calAbort s) := by
  unfold State.calAbort
  with_reducible repeat' first | assumption | exact within_of (by decide +kernel) w | exact within_bit (by decide +kernel) w | exact .inr (within_bit (by decide +kernel) w) | exact .inl rfl | simp -zeta only [keepsMk_iff] | apply keeps_mk | apply keeps_foldl | (intro u; first | (refine keeps_then (W := W) (s0 := s0) (a := u) ?_ ?_; subst u; rotate_left; intro _) | subst u | skip) | lift_lets -underBinder | dsimp -zeta only | split

theorem execCalAbort_keeps {a0} (h : Keeps W s0 s) (w : Within 0x180000000000000003d000000000000000000000000000000000000000000000000000000000814020 W) :
    KeepsN W s0 (execCalAbort a0 s) := by
  unfold execCalAbort
  with_reducible repeat' first | assumption | apply keepsN_next | apply State.ownedAccess_keeps | apply State.calAbort_keeps | exact within_of (by decide +kernel) w | exact within_bit (by decide +kernel) w | apply keeps_foldl | (intro u; first | (refine keeps_then (W := W) (s0 := s0) (a := u) ?_ ?_; subst u; rotate_left; intro _) | subst u | skip) | lift_lets -underBinder | dsimp -zeta only | split

theorem State.calFail_keeps {a1} (h : Keeps W s0 s) (w : Within 0x2400000000000000000000000000000000000000000000000000000000000000000000000000000000000000000004000 W) :
    Keeps W s0 (State.calFail s a1) := by
  unfold State.calFail
  with_reducible repeat' first | assumption | apply State.wr_keeps | exact within_of (by decide +kernel) w | exact within_bit (by decide +kernel) w | exact .inr (within_bit (by decide +kernel) w) | exact .inl rfl | simp -zeta only [keepsMk_iff] | apply keeps_mk | apply keeps_foldl | (intro u; first | (refine keeps_then (W := W) (s0 := s0) (a := u) ?_ ?_; subst u; rotate_left; intro _) | subst u | skip) | lift_lets -underBinder | dsimp -zeta only | split

theorem State.noteCalibrated_keeps {a1} (h : Keeps W s0 s) (w : Within 0x4000 W) :
    Keeps W s0 (State.noteCalibrated s a1) := by
  unfold State.noteCalibrated
  with_reducible repeat' first | assumption | apply State.forEach_keeps | exact within_of (by decide +kernel) w | exact within_bit (by decide +kernel) w | exact .inr (within_bit (by decide +kernel) w) | exact .inl rfl | simp -zeta only [keepsMk_iff] | apply keeps_mk | apply keeps_foldl | (intro u; first | (refine keeps_then (W := W) (s0 := s0) (a := u) ?_ ?_; subst u; rotate_left; intro _) | subst u | skip) | lift_lets -underBinder | dsimp -zeta only | split

theorem State.calDone_keeps (h : Keeps W s0 s) (w : Within 0x7800000000000000000000000000000000d81c00000000000000000000000000000000000000000000000000000000000000000000000000000000000000000044000 W) :
    Keeps W s0 (State.calDone s) := by
  unfold State.calDone
  with_reducible repeat' first | assumption | apply State.wr_keeps | apply State.recordGeneration_keeps | apply State.stageSet_keeps | apply State.noteCalibrated_keeps | exact within_of (by decide +kernel) w | exact within_bit (by decide +kernel) w | exact .inr (within_bit (by decide +kernel) w) | exact .inl rfl | simp -zeta only [keepsMk_iff] | apply keeps_mk | apply keeps_foldl | (intro u; first | (refine keeps_then (W := W) (s0 := s0) (a := u) ?_ ?_; subst u; rotate_left; intro _) | subst u | skip) | lift_lets -underBinder | dsimp -zeta only | split

theorem State.calNext_keeps {a1} (h : Keeps W s0 s) (w : Within 0x7800000000000000000000000000000004d87c00000000000000000000000000000000000000000000000000000000000000000000000000000000000000000044000 W) :
    Keeps W s0 (State.calNext s a1) := by
  unfold State.calNext
  with_reducible repeat' first | assumption | apply State.wr_keeps | apply State.calFail_keeps | apply State.calDone_keeps | exact within_of (by decide +kernel) w | exact within_bit (by decide +kernel) w | exact .inr (within_bit (by decide +kernel) w) | exact .inl rfl | simp -zeta only [keepsMk_iff] | apply keeps_mk | apply keeps_foldl | (intro u; first | (refine keeps_then (W := W) (s0 := s0) (a := u) ?_ ?_; subst u; rotate_left; intro _) | subst u | skip) | lift_lets -underBinder | dsimp -zeta only | split

theorem State.recalibrate_keeps {a1 a2} (h : Keeps W s0 s) (w : Within 0x7800000000000000000000000000000000400000000000000000000000000000000000000000000000000000000000000000000000000000000000000000000044000 W) :
    Keeps W s0 (State.recalibrate s a1 a2) := by
  unfold State.recalibrate
  with_reducible repeat' first | assumption | apply State.noteCalibrated_keeps | apply State.recordGeneration_keeps | apply State.stageSet_keeps | exact within_of (by decide +kernel) w | exact within_bit (by decide +kernel) w | apply keeps_foldl | (intro u; first | (refine keeps_then (W := W) (s0 := s0) (a := u) ?_ ?_; subst u; rotate_left; intro _) | subst u | skip) | lift_lets -underBinder | dsimp -zeta only | split

theorem execCalStep_keeps {a0} (h : Keeps W s0 s) (w : Within 0x7800000000000000000000000000000004d87c00000000000000000000000000000000000000000000000000000000000000000000000000000000000000000044000 W) :
    KeepsN W s0 (execCalStep a0 s) := by
  unfold execCalStep
  with_reducible repeat' first | assumption | apply keepsN_next | apply State.calNext_keeps | apply State.recalibrate_keeps | exact within_of (by decide +kernel) w | exact within_bit (by decide +kernel) w | apply keeps_foldl | (intro u; first | (refine keeps_then (W := W) (s0 := s0) (a := u) ?_ ?_; subst u; rotate_left; intro _) | subst u | skip) | lift_lets -underBinder | dsimp -zeta only | split

theorem execRecalibrationTrigger_keeps {a0} (h : Keeps W s0 s) (w : Within 0x4000 W) :
    KeepsN W s0 (execRecalibrationTrigger a0 s) := by
  unfold execRecalibrationTrigger
  with_reducible repeat' first | assumption | apply keepsN_next | exact within_of (by decide +kernel) w | exact within_bit (by decide +kernel) w | exact .inr (within_bit (by decide +kernel) w) | exact .inl rfl | simp -zeta only [keepsMk_iff] | apply keeps_mk | apply keeps_foldl | (intro u; first | (refine keeps_then (W := W) (s0 := s0) (a := u) ?_ ?_; subst u; rotate_left; intro _) | subst u | skip) | lift_lets -underBinder | dsimp -zeta only | split

theorem State.visit_keeps {a1} (h : Keeps W s0 s) (w : Within 0x8000 W) :
    Keeps W s0 (State.visit s a1) := by
  unfold State.visit
  with_reducible repeat' first | assumption | exact within_of (by decide +kernel) w | exact within_bit (by decide +kernel) w | exact .inr (within_bit (by decide +kernel) w) | exact .inl rfl | simp -zeta only [keepsMk_iff] | apply keeps_mk | apply keeps_foldl | (intro u; first | (refine keeps_then (W := W) (s0 := s0) (a := u) ?_ ?_; subst u; rotate_left; intro _) | subst u | skip) | lift_lets -underBinder | dsimp -zeta only | split

theorem State.queueResult_keeps {a1} (h : Keeps W s0 s) (w : Within 0x18000000000000000000000000000000000000000000000000000000000000000000000000000000000000000000000000008000 W) :
    Keeps W s0 (State.queueResult s a1) := by
  unfold State.queueResult
  with_reducible repeat' first | assumption | apply State.wr_keeps | apply State.bump_keeps | exact within_of (by decide +kernel) w | exact within_bit (by decide +kernel) w | exact .inr (within_bit (by decide +kernel) w) | exact .inl rfl | simp -zeta only [keepsMk_iff] | apply keeps_mk | apply keeps_foldl | (intro u; first | (refine keeps_then (W := W) (s0 := s0) (a := u) ?_ ?_; subst u; rotate_left; intro _) | subst u | skip) | lift_lets -underBinder | dsimp -zeta only | split

theorem State.takeResult_keeps {a1 a2 a3} (h : Keeps W s0 s) (w : Within 0x200000000000000000000000000000000000018000000000000000000000000000000000000000000000000000000000000000000000000000000000000000000000000008000 W) :
    Keeps W s0 (State.takeResult s a1 a2 a3) := by
  unfold State.takeResult
  with_reducible repeat' first | assumption | apply State.queueResult_keeps | apply State.wr_keeps | exact within_of (by decide +kernel) w | exact within_bit (by decide +kernel) w | exact .inr (within_bit (by decide +kernel) w) | exact .inl rfl | simp -zeta only [keepsMk_iff] | apply keeps_mk | apply keeps_foldl | (intro u; first | (refine keeps_then (W := W) (s0 := s0) (a := u) ?_ ?_; subst u; rotate_left; intro _) | subst u | skip) | lift_lets -underBinder | dsimp -zeta only | split

theorem execMcvResult_keeps {a0 a1} (h : Keeps W s0 s) (w : Within 0x200000000000000000000000000000000000018000000000000000000000000000000000000000000000000000000000000000000000000000000000000000000000000008000 W) :
    KeepsN W s0 (execMcvResult a0 a1 s) := by
  unfold execMcvResult
  with_reducible repeat' first | assumption | apply keepsN_next | apply State.takeResult_keeps | apply State.visit_keeps | exact within_of (by decide +kernel) w | exact within_bit (by decide +kernel) w | exact .inr (within_bit (by decide +kernel) w) | exact .inl rfl | simp -zeta only [keepsMk_iff] | apply keeps_mk | apply keeps_foldl | (intro u; first | (refine keeps_then (W := W) (s0 := s0) (a := u) ?_ ?_; subst u; rotate_left; intro _) | subst u | skip) | lift_lets -underBinder | dsimp -zeta only | split

theorem State.readResult_keeps {a1} (h : Keeps W s0 s) (w : Within 0x8000000000000000000000000000000000000000000000000000000000000000000000000000000000000000000000000808000 W) :
    Keeps W s0 (State.readResult s a1) := by
  unfold State.readResult
  with_reducible repeat' first | assumption | apply State.emit_keeps | apply State.wr_keeps | exact within_of (by decide +kernel) w | exact within_bit (by decide +kernel) w | exact .inr (within_bit (by decide +kernel) w) | exact .inl rfl | simp -zeta only [keepsMk_iff] | apply keeps_mk | apply keeps_foldl | (intro u; first | (refine keeps_then (W := W) (s0 := s0) (a := u) ?_ ?_; subst u; rotate_left; intro _) | subst u | skip) | lift_lets -underBinder | dsimp -zeta only | split

theorem execMcvResultRead_keeps {a0} (h : Keeps W s0 s) (w : Within 0x8000000000000000000001800000000000000000000000000000000000000000000000000000000000000000000000000818020 W) :
    KeepsN W s0 (execMcvResultRead a0 s) := by
  unfold execMcvResultRead
  with_reducible repeat' first | assumption | apply keepsN_next | apply State.access_keeps | apply State.readResult_keeps | exact within_of (by decide +kernel) w | exact within_bit (by decide +kernel) w | apply keeps_foldl | (intro u; first | (refine keeps_then (W := W) (s0 := s0) (a := u) ?_ ?_; subst u; rotate_left; intro _) | subst u | skip) | lift_lets -underBinder | dsimp -zeta only | split

theorem State.readDrop_keeps {a1} (h : Keeps W s0 s) (w : Within 0x10000000000000000000000000000000000000000000000000000000000000000000000000000000000000000000000000800000 W) :
    Keeps W s0 (State.readDrop s a1) := by
  unfold State.readDrop
  with_reducible repeat' first | assumption | apply State.emit_keeps | apply State.wr_keeps | exact within_of (by decide +kernel) w | exact within_bit (by decide +kernel) w | apply keeps_foldl | (intro u; first | (refine keeps_then (W := W) (s0 := s0) (a := u) ?_ ?_; subst u; rotate_left; intro _) | subst u | skip) | lift_lets -underBinder | dsimp -zeta only | split

theorem execMcvDropRead_keeps {a0} (h : Keeps W s0 s) (w : Within 0x10000000000000000000001800000000000000000000000000000000000000000000000000000000000000000000000000810020 W) :
    KeepsN W s0 (execMcvDropRead a0 s) := by
  unfold execMcvDropRead
  with_reducible repeat' first | assumption | apply keepsN_next | apply State.access_keeps | apply State.readDrop_keeps | exact within_of (by decide +kernel) w | exact within_bit (by decide +kernel) w | apply keeps_foldl | (intro u; first | (refine keeps_then (W := W) (s0 := s0) (a := u) ?_ ?_; subst u; rotate_left; intro _) | subst u | skip) | lift_lets -underBinder | dsimp -zeta only | split

end Sys2Proof.Machine
end

