-- ==== Sys2Proof/Laws/Keeps/PegOps.lean ====
section
/-! SUPPORT. Laws/Keeps/PegOps.lean: what every operation of Machine/PegOps.lean keeps (the relation of Laws/Keeps.lean). -/
set_option Elab.async false
set_option linter.all false
set_option linter.unusedSimpArgs false
set_option linter.tactic.unusedName false
namespace Sys2Proof.Machine
variable {W : Nat} {s0 s : State}

theorem State.holdFor_keeps {a1 a2} (h : Keeps W s0 s) (w : Within 0x2000 W) :
    KeepsO W s0 (State.holdFor s a1 a2) := by
  unfold State.holdFor
  with_reducible repeat' first | assumption | apply keepsO_none | apply keepsO_some | exact within_of (by decide +kernel) w | exact within_bit (by decide +kernel) w | exact .inr (within_bit (by decide +kernel) w) | exact .inl rfl | simp -zeta only [keepsMk_iff] | apply keeps_mk | apply keepsO_foldl | apply keepsO_mapState | apply keepsO_map | apply keeps_foldl | (intro u; first | (refine keeps_then (W := W) (s0 := s0) (a := u) ?_ ?_; subst u; rotate_left; intro _) | subst u | skip) | lift_lets -underBinder | dsimp -zeta only | split

theorem State.takeArray_keeps {a1 a2} (h : Keeps W s0 s) (w : Within 0x2000 W) :
    Keeps W s0 (State.takeArray s a1 a2) := by
  unfold State.takeArray
  with_reducible repeat' first | assumption | exact within_of (by decide +kernel) w | exact within_bit (by decide +kernel) w | exact .inr (within_bit (by decide +kernel) w) | exact .inl rfl | simp -zeta only [keepsMk_iff] | apply keeps_mk | apply keeps_foldl | (intro u; first | (refine keeps_then (W := W) (s0 := s0) (a := u) ?_ ?_; subst u; rotate_left; intro _) | subst u | skip) | lift_lets -underBinder | dsimp -zeta only | split

theorem State.startUnit_keeps {a1 a2 a3} (h : Keeps W s0 s) (w : Within 0x2000 W) :
    KeepsO W s0 (State.startUnit s a1 a2 a3) := by
  unfold State.startUnit
  with_reducible repeat' first | assumption | apply keepsO_none | apply keepsO_some | apply State.takeArray_keeps | apply State.holdFor_keeps | refine keeps_of_some (by assumption) ?_ | exact keeps_of_some rfl (by assumption) | apply keeps_getD | exact within_of (by decide +kernel) w | exact within_bit (by decide +kernel) w | apply keepsO_foldl | apply keepsO_mapState | apply keepsO_map | apply keeps_foldl | (intro u; first | (refine keeps_then (W := W) (s0 := s0) (a := u) ?_ ?_; subst u; rotate_left; intro _) | subst u | skip) | lift_lets -underBinder | dsimp -zeta only | split

theorem State.deferUnit_keeps {a1 a2 a3} (h : Keeps W s0 s) (w : Within 0x8000000000000000000000000000000000000000000000000000000000000000000000000000000000000000000000 W) :
    Keeps W s0 (State.deferUnit s a1 a2 a3) := by
  unfold State.deferUnit
  with_reducible repeat' first | assumption | apply State.bump_keeps | exact within_of (by decide +kernel) w | exact within_bit (by decide +kernel) w | apply keeps_foldl | (intro u; first | (refine keeps_then (W := W) (s0 := s0) (a := u) ?_ ?_; subst u; rotate_left; intro _) | subst u | skip) | lift_lets -underBinder | dsimp -zeta only | split

theorem State.unit_keeps {a1 a2 a3 a4} (h : Keeps W s0 s) (w : Within 0x8000000000000000000000000000000000000000000000000000000000000000000000000000000000000000002000 W) (h4 : ∀ a, Keeps W s0 a → Keeps W s0 (a4 a)) :
    Keeps W s0 (State.unit s a1 a2 a3 a4) := by
  unfold State.unit
  with_reducible repeat' first | assumption | apply h4 | apply keepsO_some | apply keepsO_none | apply State.startUnit_keeps | apply State.deferUnit_keeps | refine keeps_of_some (by assumption) ?_ | exact keeps_of_some rfl (by assumption) | apply keeps_getD | exact within_of (by decide +kernel) w | exact within_bit (by decide +kernel) w | apply keeps_foldl | (intro u; first | (refine keeps_then (W := W) (s0 := s0) (a := u) ?_ ?_; subst u; rotate_left; intro _) | subst u | skip) | lift_lets -underBinder | dsimp -zeta only | split

theorem State.wearRow_keeps {a1 a2} (h : Keeps W s0 s) (w : Within 0x100000000002000 W) :
    Keeps W s0 (State.wearRow s a1 a2) := by
  unfold State.wearRow
  with_reducible repeat' first | assumption | apply State.noteWear_keeps | exact within_of (by decide +kernel) w | exact within_bit (by decide +kernel) w | exact .inr (within_bit (by decide +kernel) w) | exact .inl rfl | simp -zeta only [keepsMk_iff] | apply keeps_mk | apply keeps_foldl | (intro u; first | (refine keeps_then (W := W) (s0 := s0) (a := u) ?_ ?_; subst u; rotate_left; intro _) | subst u | skip) | lift_lets -underBinder | dsimp -zeta only | split

theorem State.setJobs_keeps {a1 a2} (h : Keeps W s0 s) (w : Within 0x2000 W) :
    Keeps W s0 (State.setJobs s a1 a2) := by
  unfold State.setJobs
  with_reducible repeat' first | assumption | exact within_of (by decide +kernel) w | exact within_bit (by decide +kernel) w | exact .inr (within_bit (by decide +kernel) w) | exact .inl rfl | simp -zeta only [keepsMk_iff] | apply keeps_mk | apply keeps_foldl | (intro u; first | (refine keeps_then (W := W) (s0 := s0) (a := u) ?_ ?_; subst u; rotate_left; intro _) | subst u | skip) | lift_lets -underBinder | dsimp -zeta only | split

theorem State.putJob_keeps {a1 a2} (h : Keeps W s0 s) (w : Within 0x2000 W) :
    Keeps W s0 (State.putJob s a1 a2) := by
  unfold State.putJob
  with_reducible repeat' first | assumption | apply State.setJobs_keeps | exact within_of (by decide +kernel) w | exact within_bit (by decide +kernel) w | apply keeps_foldl | (intro u; first | (refine keeps_then (W := W) (s0 := s0) (a := u) ?_ ?_; subst u; rotate_left; intro _) | subst u | skip) | lift_lets -underBinder | dsimp -zeta only | split

theorem State.dropJob_keeps {a1 a2} (h : Keeps W s0 s) (w : Within 0x240000002000 W) :
    Keeps W s0 (State.dropJob s a1 a2) := by
  unfold State.dropJob
  with_reducible repeat' first | assumption | apply State.wr_keeps | apply State.setJobs_keeps | exact within_of (by decide +kernel) w | exact within_bit (by decide +kernel) w | apply keeps_foldl | (intro u; first | (refine keeps_then (W := W) (s0 := s0) (a := u) ?_ ?_; subst u; rotate_left; intro _) | subst u | skip) | lift_lets -underBinder | dsimp -zeta only | split

theorem State.giveUpTier_keeps {a1 a2} (h : Keeps W s0 s) (w : Within 0x600000000000000000000004000000000000000000000000000000000000000000000000000000000000000000000000000000000260000002088 W) :
    Keeps W s0 (State.giveUpTier s a1 a2) := by
  unfold State.giveUpTier
  with_reducible repeat' first | assumption | apply State.fullReprogram_keeps | apply State.dropJob_keeps | exact within_of (by decide +kernel) w | exact within_bit (by decide +kernel) w | apply keeps_foldl | (intro u; first | (refine keeps_then (W := W) (s0 := s0) (a := u) ?_ ?_; subst u; rotate_left; intro _) | subst u | skip) | lift_lets -underBinder | dsimp -zeta only | split

theorem State.judgeTier_keeps {a1 a2} (h : Keeps W s0 s) (w : Within 0x600000000000000000000004000000000000000000000000000000000000000000000000000000000000000000000000000000000660000002288 W) :
    Keeps W s0 (State.judgeTier s a1 a2) := by
  unfold State.judgeTier
  with_reducible repeat' first | assumption | apply State.giveUpTier_keeps | apply State.forEach_keeps | apply State.storeRow_keeps | apply State.dropJob_keeps | apply State.showProgramming_keeps | apply State.putJob_keeps | exact within_of (by decide +kernel) w | exact within_bit (by decide +kernel) w | apply keeps_foldl | (intro u; first | (refine keeps_then (W := W) (s0 := s0) (a := u) ?_ ?_; subst u; rotate_left; intro _) | subst u | skip) | lift_lets -underBinder | dsimp -zeta only | split

theorem State.retuneRow_keeps {a1 a2 a3 a4} (h : Keeps W s0 s) (w : Within 0x600000000000000000000006000000000000000000000000000000000000000000000000000000000000000000000000000000100260000002088 W) :
    Keeps W s0 (State.retuneRow s a1 a2 a3 a4) := by
  unfold State.retuneRow
  with_reducible repeat' first | assumption | apply State.bump_keeps | apply State.wearRow_keeps | apply State.dropJob_keeps | apply State.putJob_keeps | apply State.giveUpTier_keeps | exact within_of (by decide +kernel) w | exact within_bit (by decide +kernel) w | apply keeps_foldl | (intro u; first | (refine keeps_then (W := W) (s0 := s0) (a := u) ?_ ?_; subst u; rotate_left; intro _) | subst u | skip) | lift_lets -underBinder | dsimp -zeta only | split

theorem State.treatTier_keeps {a1} (h : Keeps W s0 s) (w : Within 0x600000000000000000000006000000000000000000000000000000000000000000000000000000000000000000000000000000100260000102288 W) :
    Keeps W s0 (State.treatTier s a1) := by
  unfold State.treatTier
  with_reducible repeat' first | assumption | apply State.giveUpTier_keeps | apply State.bump_keeps | apply State.forEach_keeps | apply State.wearRow_keeps | apply State.sign_keeps | apply State.dropJob_keeps | apply State.storeRow_keeps | apply State.wr_keeps | exact within_of (by decide +kernel) w | exact within_bit (by decide +kernel) w | exact .inr (within_bit (by decide +kernel) w) | exact .inl rfl | simp -zeta only [keepsMk_iff] | apply keeps_mk | apply keeps_foldl | (intro u; first | (refine keeps_then (W := W) (s0 := s0) (a := u) ?_ ?_; subst u; rotate_left; intro _) | subst u | skip) | lift_lets -underBinder | dsimp -zeta only | split

end Sys2Proof.Machine
end

