-- ==== Sys2Proof/Laws/Keeps/IntegrityOps.lean ====
section
/-! SUPPORT. Laws/Keeps/IntegrityOps.lean: what every operation of Machine/IntegrityOps.lean keeps (the relation of Laws/Keeps.lean). -/
set_option Elab.async false
set_option linter.all false
set_option linter.unusedSimpArgs false
set_option linter.tactic.unusedName false
namespace Sys2Proof.Machine
variable {W : Nat} {s0 s : State}

theorem State.kvLost_keeps {a1} (h : Keeps W s0 s) (w : Within 0x40000000000000000000000000000000000000000000f0078000000000000042000000000000007e000823dc0 W) :
    Keeps W s0 (State.kvLost s a1) := by
  unfold State.kvLost
  with_reducible repeat' first | assumption | apply State.forEach_keeps | apply State.dropCompanion_keeps | apply State.resetContext_keeps | apply State.faultRequest_keeps | exact within_of (by decide +kernel) w | exact within_bit (by decide +kernel) w | apply keeps_foldl | (intro u; first | (refine keeps_then (W := W) (s0 := s0) (a := u) ?_ ?_; subst u; rotate_left; intro _) | subst u | skip) | lift_lets -underBinder | dsimp -zeta only | split

theorem State.frameLost_keeps {a1} (h : Keeps W s0 s) (w : Within 0x40000000000000000000000000000000000000000000f0078000000000000042000000000000007e000823dc0 W) :
    Keeps W s0 (State.frameLost s a1) := by
  unfold State.frameLost
  with_reducible repeat' first | assumption | apply State.forEach_keeps | apply State.prefixDropAt_keeps | apply State.kvLost_keeps | exact within_of (by decide +kernel) w | exact within_bit (by decide +kernel) w | apply keeps_foldl | (intro u; first | (refine keeps_then (W := W) (s0 := s0) (a := u) ?_ ?_; subst u; rotate_left; intro _) | subst u | skip) | lift_lets -underBinder | dsimp -zeta only | split

theorem State.bufferLost_keeps {a1} (h : Keeps W s0 s) (w : Within 0x6000000000000000000000000000400000000000000c0027c0000000000000000000000000006f820000000000000000000000000000000801098 W) :
    Keeps W s0 (State.bufferLost s a1) := by
  unfold State.bufferLost
  with_reducible repeat' first | assumption | apply State.forEach_keeps | apply State.reRequest_keeps | apply State.answerPosters_keeps | apply State.bump_keeps | exact within_of (by decide +kernel) w | exact within_bit (by decide +kernel) w | apply keeps_foldl | (intro u; first | (refine keeps_then (W := W) (s0 := s0) (a := u) ?_ ?_; subst u; rotate_left; intro _) | subst u | skip) | lift_lets -underBinder | dsimp -zeta only | split

theorem State.adapterLost_keeps {a1} (h : Keeps W s0 s) (w : Within 0x4000000000000000000000000000000000000000000040078000000000000042000000000000007e000803dc0 W) :
    Keeps W s0 (State.adapterLost s a1) := by
  unfold State.adapterLost
  with_reducible repeat' first | assumption | apply State.wr_keeps | apply State.forEach_keeps | apply State.faultRequest_keeps | exact within_of (by decide +kernel) w | exact within_bit (by decide +kernel) w | apply keeps_foldl | (intro u; first | (refine keeps_then (W := W) (s0 := s0) (a := u) ?_ ?_; subst u; rotate_left; intro _) | subst u | skip) | lift_lets -underBinder | dsimp -zeta only | split

theorem State.logEntryLost_keeps {a1} (h : Keeps W s0 s) (w : Within 0x1000000800000000000000000000000000000000000000000000000000000000000000000000000000000000000000000000000000000000000001100008 W) :
    Keeps W s0 (State.logEntryLost s a1) := by
  unfold State.logEntryLost
  with_reducible repeat' first | assumption | apply State.bump_keeps | apply State.stackWrite_keeps | apply State.draw_keeps | apply State.wr_keeps | refine keeps_of_snd (by assumption) ?_ | refine keeps_draw ?_ ?_ | exact within_of (by decide +kernel) w | exact within_bit (by decide +kernel) w | exact .inr (within_bit (by decide +kernel) w) | exact .inl rfl | simp -zeta only [keepsMk_iff, keepsS_mk_iff, keeps_snd_iff] | apply keeps_mk | apply keepsS_foldl | apply keeps_foldl | (intro u; first | (refine keeps_then (W := W) (s0 := s0) (a := u) ?_ ?_; subst u; rotate_left; intro _) | subst u | skip) | lift_lets -underBinder | dsimp -zeta only | split

theorem State.wordLost_keeps {a1} (h : Keeps W s0 s) (w : Within 0x100000 W) :
    Keeps W s0 (State.wordLost s a1) := by
  unfold State.wordLost
  with_reducible repeat' first | assumption | apply State.stackWrite_keeps | exact within_of (by decide +kernel) w | exact within_bit (by decide +kernel) w | apply keeps_foldl | (intro u; first | (refine keeps_then (W := W) (s0 := s0) (a := u) ?_ ?_; subst u; rotate_left; intro _) | subst u | skip) | lift_lets -underBinder | dsimp -zeta only | split

theorem State.stackLost_keeps {a1} (h : Keeps W s0 s) (w : Within 0x1000000e000000000000000000000000000400000000000000c0027c00000000000000000000000f007ef82000000000042000000000000007e001923dd8 W) :
    Keeps W s0 (State.stackLost s a1) := by
  unfold State.stackLost
  with_reducible repeat' first | assumption | apply State.frameLost_keeps | apply State.logEntryLost_keeps | apply State.wordLost_keeps | apply State.bufferLost_keeps | apply State.draw_keeps | apply State.adapterLost_keeps | refine keeps_of_snd (by assumption) ?_ | exact within_of (by decide +kernel) w | exact within_bit (by decide +kernel) w | simp -zeta only [keepsS_mk_iff, keeps_snd_iff] | apply keepsS_foldl | apply keeps_foldl | (intro u; first | (refine keeps_then (W := W) (s0 := s0) (a := u) ?_ ?_; subst u; rotate_left; intro _) | subst u | skip) | lift_lets -underBinder | dsimp -zeta only | split

theorem State.stackError_keeps {a1 a2} (h : Keeps W s0 s) (w : Within 0x1000000e000000000000000000000000000400000000000000c0027c00000000000000000000000f007ef82000000000042000000000000007e001923dd8 W) :
    Keeps W s0 (State.stackError s a1 a2) := by
  unfold State.stackError
  with_reducible repeat' first | assumption | apply State.report_keeps | apply State.stackLost_keeps | exact within_of (by decide +kernel) w | exact within_bit (by decide +kernel) w | apply keeps_foldl | (intro u; first | (refine keeps_then (W := W) (s0 := s0) (a := u) ?_ ?_; subst u; rotate_left; intro _) | subst u | skip) | lift_lets -underBinder | dsimp -zeta only | split

theorem State.streamCopy_keeps {a1 a2 a3} (h : Keeps W s0 s) (w : Within 0x200400 W) :
    KeepsOF W s0 (State.streamCopy s a1 a2 a3) := by
  unfold State.streamCopy
  with_reducible repeat' first | assumption | apply keepsOF_none | apply keepsOF_some | apply State.takePacket_keeps | apply State.takeReduction_keeps | exact within_of (by decide +kernel) w | exact within_bit (by decide +kernel) w | simp -zeta only [keepsF_mk_iff, keeps_fst_iff] | apply keepsOF_map | apply keeps_foldl | (intro u; first | (refine keeps_then (W := W) (s0 := s0) (a := u) ?_ ?_; subst u; rotate_left; intro _) | subst u | skip) | lift_lets -underBinder | dsimp -zeta only | split

theorem State.clearCopies_keeps {a1 a2} (h : Keeps W s0 s) (w : Within 0x400 W) :
    Keeps W s0 (State.clearCopies s a1 a2) := by
  unfold State.clearCopies
  with_reducible repeat' first | assumption | apply State.setCore_keeps | exact within_of (by decide +kernel) w | exact within_bit (by decide +kernel) w | apply keeps_foldl | (intro u; first | (refine keeps_then (W := W) (s0 := s0) (a := u) ?_ ?_; subst u; rotate_left; intro _) | subst u | skip) | lift_lets -underBinder | dsimp -zeta only | split

theorem State.consumeCopy_keeps {a1 a2} (h : Keeps W s0 s) (w : Within 0x20020000000000000000000400 W) :
    Keeps W s0 (State.consumeCopy s a1 a2) := by
  unfold State.consumeCopy
  with_reducible repeat' first | assumption | apply State.unpark_keeps | apply State.clearCopies_keeps | exact within_of (by decide +kernel) w | exact within_bit (by decide +kernel) w | apply keeps_foldl | (intro u; first | (refine keeps_then (W := W) (s0 := s0) (a := u) ?_ ?_; subst u; rotate_left; intro _) | subst u | skip) | lift_lets -underBinder | dsimp -zeta only | split

theorem State.disagree_keeps {a1 a2 a3 a4 a5} (h : Keeps W s0 s) (w : Within 0xfb00000000600000000000000000000000000040000000000000000000000000000000000000000000f0078000000000000042000000000000007e000823dc8 W) :
    Keeps W s0 (State.disagree s a1 a2 a3 a4 a5) := by
  unfold State.disagree
  with_reducible repeat' first | assumption | apply State.clearCopies_keeps | apply State.report_keeps | apply State.abortTag_keeps | exact within_of (by decide +kernel) w | exact within_bit (by decide +kernel) w | apply keeps_foldl | (intro u; first | (refine keeps_then (W := W) (s0 := s0) (a := u) ?_ ?_; subst u; rotate_left; intro _) | subst u | skip) | lift_lets -underBinder | dsimp -zeta only | split

theorem State.compareCopies_keeps {a1 a2 a3 a4 a5} (h : Keeps W s0 s) (w : Within 0xfb00000000600000000000000000000000000040000000000000000000000000000000000000000000f0078000000000000042002000000000007e000a23dc8 W) :
    Keeps W s0 (State.compareCopies s a1 a2 a3 a4 a5) := by
  unfold State.compareCopies
  with_reducible repeat' first | assumption | apply keepsOF_some | apply keepsOF_none | apply State.streamCopy_keeps | apply State.consumeCopy_keeps | apply State.disagree_keeps | refine keeps_of_somePair (by assumption) ?_ | exact within_of (by decide +kernel) w | exact within_bit (by decide +kernel) w | apply keeps_foldl | (intro u; first | (refine keeps_then (W := W) (s0 := s0) (a := u) ?_ ?_; subst u; rotate_left; intro _) | subst u | skip) | lift_lets -underBinder | dsimp -zeta only | split

theorem State.twinLate_keeps {a1 a2 a3 a5} {t : State} (h : Keeps W s0 s) (g : Keeps W s0 t) (w : Within 0x600000000000000000000000000000000000000000000000000000000000000000000000000000000000000000020020000000000000000000408 W) :
    Keeps W s0 (s.twinLate a1 a2 a3 t a5) := by
  unfold State.twinLate
  with_reducible repeat' first | assumption | apply State.consumeCopy_keeps | apply State.report_keeps | (intro u; first | (refine keeps_then (W := W) (s0 := s0) (a := u) ?_ ?_; subst u; rotate_left; intro _) | subst u | skip) | lift_lets -underBinder | exact within_of (by decide +kernel) w | exact .inr (within_bit (by decide +kernel) w) | exact .inl rfl | simp -zeta only [keepsMk_iff] | apply keeps_mk | split

theorem State.twinExpiry_keeps {a1 a2 a3} (h : Keeps W s0 s) (w : Within 0x600000000000000000000000000000000000000000000000000000000000000000000000000000000000000000020020000000000000000200408 W) :
    Keeps W s0 (State.twinExpiry s a1 a2 a3) := by
  unfold State.twinExpiry
  with_reducible repeat' first | assumption | apply keepsOF_some | apply keepsOF_none | apply State.streamCopy_keeps | apply State.twinLate_keeps | refine keeps_of_somePair (by assumption) ?_ | exact within_of (by decide +kernel) w | exact within_bit (by decide +kernel) w | apply keeps_foldl | (intro u; first | (refine keeps_then (W := W) (s0 := s0) (a := u) ?_ ?_; subst u; rotate_left; intro _) | subst u | skip) | lift_lets -underBinder | dsimp -zeta only | split

theorem State.setSample_keeps {a1 a2 a3} (h : Keeps W s0 s) (w : Within 0x8 W) :
    Keeps W s0 (State.setSample s a1 a2 a3) := by
  unfold State.setSample
  with_reducible repeat' first | assumption | exact within_of (by decide +kernel) w | exact within_bit (by decide +kernel) w | exact .inr (within_bit (by decide +kernel) w) | exact .inl rfl | simp -zeta only [keepsMk_iff] | apply keeps_mk | apply keeps_foldl | (intro u; first | (refine keeps_then (W := W) (s0 := s0) (a := u) ?_ ?_; subst u; rotate_left; intro _) | subst u | skip) | lift_lets -underBinder | dsimp -zeta only | split

theorem State.dropCreated_keeps {a1 a2} (h : Keeps W s0 s) (w : Within 0x40 W) :
    Keeps W s0 (State.dropCreated s a1 a2) := by
  unfold State.dropCreated
  with_reducible repeat' first | assumption | apply State.forEach_keeps | apply State.prefixDropAt_keeps | exact within_of (by decide +kernel) w | exact within_bit (by decide +kernel) w | apply keeps_foldl | (intro u; first | (refine keeps_then (W := W) (s0 := s0) (a := u) ?_ ?_; subst u; rotate_left; intro _) | subst u | skip) | lift_lets -underBinder | dsimp -zeta only | split

theorem State.auditFail_keeps {a1 a2 a3 a4} (h : Keeps W s0 s) (w : Within 0xfb00000860600000000000000000000000000040000000000000000000000000000000000000000000f007800000000000004200000000000000fe000823dc8 W) :
    Keeps W s0 (State.auditFail s a1 a2 a3 a4) := by
  unfold State.auditFail
  with_reducible repeat' first | assumption | apply State.report_keeps | apply State.bump_keeps | apply State.quarantineArray_keeps | apply State.forEach_keeps | apply State.stepAbortOf_keeps | apply State.emit_keeps | apply State.dropCreated_keeps | exact within_of (by decide +kernel) w | exact within_bit (by decide +kernel) w | apply keeps_foldl | (intro u; first | (refine keeps_then (W := W) (s0 := s0) (a := u) ?_ ?_; subst u; rotate_left; intro _) | subst u | skip) | lift_lets -underBinder | dsimp -zeta only | split

theorem State.judgeSample_keeps {a1 a2 a3 a4 a5 a6 a7 a8 a9} (h : Keeps W s0 s) (w : Within 0xfb00000c60600000000000000000000000000040000000000000000000000000000000000000000000f007800000000000004200000000000000fe000823dc8 W) :
    Keeps W s0 (State.judgeSample s a1 a2 a3 a4 a5 a6 a7 a8 a9) := by
  unfold State.judgeSample
  with_reducible repeat' first | assumption | apply State.setSample_keeps | apply State.bump_keeps | apply State.auditFail_keeps | exact within_of (by decide +kernel) w | exact within_bit (by decide +kernel) w | apply keeps_foldl | (intro u; first | (refine keeps_then (W := W) (s0 := s0) (a := u) ?_ ?_; subst u; rotate_left; intro _) | subst u | skip) | lift_lets -underBinder | dsimp -zeta only | split

theorem State.compareSample_keeps {a1 a2 a3} (h : Keeps W s0 s) (w : Within 0xfb00000c60600000000000000000000000000040000000000000000000000000000000000000000000f007800000000000004200000000000000fe000823dc8 W) :
    Keeps W s0 (State.compareSample s a1 a2 a3) := by
  unfold State.compareSample
  with_reducible repeat' first | assumption | apply State.judgeSample_keeps | exact within_of (by decide +kernel) w | exact within_bit (by decide +kernel) w | apply keeps_foldl | (intro u; first | (refine keeps_then (W := W) (s0 := s0) (a := u) ?_ ?_; subst u; rotate_left; intro _) | subst u | skip) | lift_lets -underBinder | dsimp -zeta only | split

theorem State.standAlone_keeps {a1 a2 a3 a4} (h : Keeps W s0 s) (w : Within 0xfb00000c60600000000000000000000008000040000000000000000000000000000000000000000000f007800000000000004200000000000000fe000823dc8 W) :
    Keeps W s0 (State.standAlone s a1 a2 a3 a4) := by
  unfold State.standAlone
  with_reducible repeat' first | assumption | apply State.unit_keeps | apply State.judgeSample_keeps | exact within_of (by decide +kernel) w | exact within_bit (by decide +kernel) w | apply keeps_foldl | (intro u; first | (refine keeps_then (W := W) (s0 := s0) (a := u) ?_ ?_; subst u; rotate_left; intro _) | subst u | skip) | lift_lets -underBinder | dsimp -zeta only | split

theorem State.auditRecord_keeps {a1 a2 a3 a4 a5 a6} (h : Keeps W s0 s) (w : Within 0x600000000000000000000000000000000000000000000000000000000000000000000000000000000000000000000000000000000000000000008 W) :
    Keeps W s0 (State.auditRecord s a1 a2 a3 a4 a5 a6) := by
  unfold State.auditRecord
  with_reducible repeat' first | assumption | apply State.report_keeps | exact within_of (by decide +kernel) w | exact within_bit (by decide +kernel) w | apply keeps_foldl | (intro u; first | (refine keeps_then (W := W) (s0 := s0) (a := u) ?_ ?_; subst u; rotate_left; intro _) | subst u | skip) | lift_lets -underBinder | dsimp -zeta only | split

theorem State.rewind_keeps {a1 a2} (h : Keeps W s0 s) (w : Within 0xfb000020006000000000000000000000000000400000000000000c0027c00000000000000000000000f0078000000000000042000000000000007e000823dd8 W) :
    Keeps W s0 (State.rewind s a1 a2) := by
  unfold State.rewind
  with_reducible repeat' first | assumption | apply State.epochRef_keeps | apply State.stepAbortOf_keeps | apply State.dropCompanion_keeps | apply State.setRequest_keeps | apply State.bump_keeps | apply State.flushTokens_keeps | apply State.trimPages_keeps | exact within_of (by decide +kernel) w | exact within_bit (by decide +kernel) w | apply keeps_foldl | (intro u; first | (refine keeps_then (W := W) (s0 := s0) (a := u) ?_ ?_; subst u; rotate_left; intro _) | subst u | skip) | lift_lets -underBinder | dsimp -zeta only | split

theorem State.rollBack_keeps {a1 a2 a3 a4 a5} (h : Keeps W s0 s) (w : Within 0xfb000020006000000000000000000000000000400000000000000c0027c00000000000000000000000f0078000000000000042000000000000007e000823dd8 W) :
    Keeps W s0 (State.rollBack s a1 a2 a3 a4 a5) := by
  unfold State.rollBack
  with_reducible repeat' first | assumption | apply State.dropCreated_keeps | apply State.auditRecord_keeps | apply State.setRequest_keeps | apply State.faultRequest_keeps | apply State.rewind_keeps | exact within_of (by decide +kernel) w | exact within_bit (by decide +kernel) w | apply keeps_foldl | (intro u; first | (refine keeps_then (W := W) (s0 := s0) (a := u) ?_ ?_; subst u; rotate_left; intro _) | subst u | skip) | lift_lets -underBinder | dsimp -zeta only | split

theorem State.confirm_keeps {a1 a2 a3} (h : Keeps W s0 s) (w : Within 0xc0600000000000000000000000000000000000000000000000000000000000000000000000000000000000000000000000000000000000000000008 W) :
    Keeps W s0 (State.confirm s a1 a2 a3) := by
  unfold State.confirm
  with_reducible repeat' first | assumption | apply State.report_keeps | apply State.bump_keeps | exact within_of (by decide +kernel) w | exact within_bit (by decide +kernel) w | exact .inr (within_bit (by decide +kernel) w) | exact .inl rfl | simp -zeta only [keepsMk_iff] | apply keeps_mk | apply keeps_foldl | (intro u; first | (refine keeps_then (W := W) (s0 := s0) (a := u) ?_ ?_; subst u; rotate_left; intro _) | subst u | skip) | lift_lets -underBinder | dsimp -zeta only | split

theorem State.arrayStates_keeps {a1 a2 a3} (h : Keeps W s0 s) (w : Within 0x80000000000 W) :
    Keeps W s0 (State.arrayStates s a1 a2 a3) := by
  unfold State.arrayStates
  with_reducible repeat' first | assumption | apply State.forEach_keeps | apply State.wr_keeps | exact within_of (by decide +kernel) w | exact within_bit (by decide +kernel) w | apply keeps_foldl | (intro u; first | (refine keeps_then (W := W) (s0 := s0) (a := u) ?_ ?_; subst u; rotate_left; intro _) | subst u | skip) | lift_lets -underBinder | dsimp -zeta only | split

theorem State.startFieldTest_keeps {a1} (h : Keeps W s0 s) (w : Within 0xe00000000000000000000000000000000000000000000000000000000000000000000000000000000000000000000000000000000000000080000000508 W) :
    Keeps W s0 (State.startFieldTest s a1) := by
  unfold State.startFieldTest
  with_reducible repeat' first | assumption | apply State.wr_keeps | apply State.forEach_keeps | apply State.abortMvm_keeps | apply State.setCore_keeps | apply State.arrayStates_keeps | exact within_of (by decide +kernel) w | exact within_bit (by decide +kernel) w | exact .inr (within_bit (by decide +kernel) w) | exact .inl rfl | simp -zeta only [keepsMk_iff] | apply keeps_mk | apply keeps_foldl | (intro u; first | (refine keeps_then (W := W) (s0 := s0) (a := u) ?_ ?_; subst u; rotate_left; intro _) | subst u | skip) | lift_lets -underBinder | dsimp -zeta only | split

theorem State.endFieldTest_keeps (h : Keeps W s0 s) (w : Within 0x80000000008 W) :
    Keeps W s0 (State.endFieldTest s) := by
  unfold State.endFieldTest
  with_reducible repeat' first | assumption | apply State.arrayStates_keeps | exact within_of (by decide +kernel) w | exact within_bit (by decide +kernel) w | exact .inr (within_bit (by decide +kernel) w) | exact .inl rfl | simp -zeta only [keepsMk_iff] | apply keeps_mk | apply keeps_foldl | (intro u; first | (refine keeps_then (W := W) (s0 := s0) (a := u) ?_ ?_; subst u; rotate_left; intro _) | subst u | skip) | lift_lets -underBinder | dsimp -zeta only | split

theorem State.fieldTestWrite_keeps {a1} (h : Keeps W s0 s) (w : Within 0xfe4000000000000000000000000000000000000000000000000000000000000000000000000000000000000000000000000000000000000080000000508 W) :
    Keeps W s0 (State.fieldTestWrite s a1) := by
  unfold State.fieldTestWrite
  with_reducible repeat' first | assumption | apply State.wr_keeps | apply State.startFieldTest_keeps | exact within_of (by decide +kernel) w | exact within_bit (by decide +kernel) w | exact .inr (within_bit (by decide +kernel) w) | exact .inl rfl | simp -zeta only [keepsMk_iff] | apply keeps_mk | apply keeps_foldl | (intro u; first | (refine keeps_then (W := W) (s0 := s0) (a := u) ?_ ?_; subst u; rotate_left; intro _) | subst u | skip) | lift_lets -underBinder | dsimp -zeta only | split

theorem State.fieldTestDone_keeps {a1} (h : Keeps W s0 s) (w : Within 0xa00060600000000000000000000000000000000000000000000000000000000000000000000000000000000000000000000000000000000080000000508 W) :
    Keeps W s0 (State.fieldTestDone s a1) := by
  unfold State.fieldTestDone
  with_reducible repeat' first | assumption | apply State.forEach_keeps | apply State.quarantineArray_keeps | apply State.wr_keeps | apply State.endFieldTest_keeps | exact within_of (by decide +kernel) w | exact within_bit (by decide +kernel) w | apply keeps_foldl | (intro u; first | (refine keeps_then (W := W) (s0 := s0) (a := u) ?_ ?_; subst u; rotate_left; intro _) | subst u | skip) | lift_lets -underBinder | dsimp -zeta only | split

theorem State.holdRecord_keeps {a1} (h : Keeps W s0 s) (w : Within 0x400000000000000000000000000000000000000000000000000000000000000000000000000000000000000000000000000000000000000000008 W) :
    Keeps W s0 (State.holdRecord s a1) := by
  unfold State.holdRecord
  with_reducible repeat' first | assumption | apply State.bump_keeps | exact within_of (by decide +kernel) w | exact within_bit (by decide +kernel) w | exact .inr (within_bit (by decide +kernel) w) | exact .inl rfl | simp -zeta only [keepsMk_iff] | apply keeps_mk | apply keeps_foldl | (intro u; first | (refine keeps_then (W := W) (s0 := s0) (a := u) ?_ ?_; subst u; rotate_left; intro _) | subst u | skip) | lift_lets -underBinder | dsimp -zeta only | split

theorem State.closeWindow_keeps {a1} (h : Keeps W s0 s) (w : Within 0xc34000000000000000000000000000000000000000000000000000000000000000000000000000000000000000000000000000000000000000008 W) :
    Keeps W s0 (State.closeWindow s a1) := by
  unfold State.closeWindow
  with_reducible repeat' first | assumption | apply State.setAgg_keeps | apply State.forEach_keeps | apply State.holdRecord_keeps | apply State.dropRecord_keeps | exact within_of (by decide +kernel) w | exact within_bit (by decide +kernel) w | exact .inr (within_bit (by decide +kernel) w) | exact .inl rfl | simp -zeta only [keepsMk_iff] | apply keeps_mk | apply keeps_foldl | (intro u; first | (refine keeps_then (W := W) (s0 := s0) (a := u) ?_ ?_; subst u; rotate_left; intro _) | subst u | skip) | lift_lets -underBinder | dsimp -zeta only | split

theorem State.acceptRecord_keeps (h : Keeps W s0 s) (w : Within 0x400000000000000000000000000000000000000000000000000000000000000000000000000000000000000000000000000000000000000000008 W) :
    Keeps W s0 (State.acceptRecord s) := by
  unfold State.acceptRecord
  with_reducible repeat' first | assumption | apply State.holdRecord_keeps | exact within_of (by decide +kernel) w | exact within_bit (by decide +kernel) w | exact .inr (within_bit (by decide +kernel) w) | exact .inl rfl | simp -zeta only [keepsMk_iff] | apply keeps_mk | apply keeps_foldl | (intro u; first | (refine keeps_then (W := W) (s0 := s0) (a := u) ?_ ?_; subst u; rotate_left; intro _) | subst u | skip) | lift_lets -underBinder | dsimp -zeta only | split

theorem State.writerTick_keeps (h : Keeps W s0 s) (w : Within 0x400000000000000000000000000000000000000000000000000000000000000000000000000000000000000000000000000000000000000000008 W) :
    Keeps W s0 (State.writerTick s) := by
  unfold State.writerTick
  with_reducible repeat' first | assumption | apply State.acceptRecord_keeps | exact within_of (by decide +kernel) w | exact within_bit (by decide +kernel) w | apply keeps_foldl | (intro u; first | (refine keeps_then (W := W) (s0 := s0) (a := u) ?_ ?_; subst u; rotate_left; intro _) | subst u | skip) | lift_lets -underBinder | dsimp -zeta only | split

theorem State.writeHeld_keeps (h : Keeps W s0 s) (w : Within 0x8350000000000000000000000000000000000000cae00000000000000000000000000000000000000000000000000000000000000000000900828 W) :
    Keeps W s0 (State.writeHeld s) := by
  unfold State.writeHeld
  with_reducible repeat' first | assumption | apply State.logRecord_keeps | exact within_of (by decide +kernel) w | exact within_bit (by decide +kernel) w | exact .inr (within_bit (by decide +kernel) w) | exact .inl rfl | simp -zeta only [keepsMk_iff] | apply keeps_mk | apply keeps_foldl | (intro u; first | (refine keeps_then (W := W) (s0 := s0) (a := u) ?_ ?_; subst u; rotate_left; intro _) | subst u | skip) | lift_lets -underBinder | dsimp -zeta only | split

end Sys2Proof.Machine
end

