-- ==== Sys2Proof/Laws/Keeps/Board.lean ====
section
/-! SUPPORT. Laws/Keeps/Board.lean: what every operation of Machine/Board.lean keeps (the relation of Laws/Keeps.lean). -/
set_option Elab.async false
set_option linter.all false
set_option linter.unusedSimpArgs false
set_option linter.tactic.unusedName false
namespace Sys2Proof.Machine
variable {W : Nat} {s0 s : State}

theorem State.keepWithoutPower_keeps (h : Keeps W s0 s) (w : Within 0xf7119 W) :
    Keeps W s0 (State.keepWithoutPower s) := by
  unfold State.keepWithoutPower
  with_reducible repeat' first | assumption | exact within_of (by decide +kernel) w | exact within_bit (by decide +kernel) w | exact .inr (within_bit (by decide +kernel) w) | exact .inl rfl | simp -zeta only [keepsMk_iff] | apply keeps_mk | apply keeps_foldl | (intro u; first | (refine keeps_then (W := W) (s0 := s0) (a := u) ?_ ?_; subst u; rotate_left; intro _) | subst u | skip) | lift_lets -underBinder | dsimp -zeta only | split

theorem lostAtPower_bit {k : Nat} (w : Within (listMask (Reg.table.filter (fun f => f.survives != Survives.nv))) W)
    (h : lostAtPower k = true) : W.testBit (32 + k / 16777216) = true := by
  unfold lostAtPower at h
  split at h
  · rename_i g e
    have hm := fieldOfKey_some e
    rw [← hm.2]
    exact within_wr (within_trans (listMask_mem (List.mem_filter.2 ⟨hm.1, h⟩)) w)
  · cases h

theorem State.powerLoss_keeps (h : Keeps W s0 s) (w : Within 0x7ff93027ff87a4f7fff0fffc07f3f21ffffffffffffcc667fffc00fe1fc7d1fffffffc00fffffe3f7f1fff00fffffe0003fc4fffffe0fc01f83fffffffff008f0f87fff007ffdff W) : Keeps W s0 s.powerLoss := by
  unfold State.powerLoss
  have lost : Keeps W s0 (((((((s.endFieldTest).loseLoads).loseCopies).loseWork).loseStacks).loseHosts false).wipeCores (fun _ => true)) := by
    with_reducible repeat' first | assumption | apply State.endFieldTest_keeps | apply State.loseHosts_keeps | apply State.loseWork_keeps | apply State.loseCopies_keeps | apply State.loseLoads_keeps | apply State.loseStacks_keeps | apply State.wipeCores_keeps | exact within_of (by decide +kernel) w
  have back := keeps_filter (p := fun k => !lostAtPower k) lost (fun f _ x i => by
    cases e : lostAtPower (f.key i) with
    | false => rfl
    | true =>
      have := lostAtPower_bit (within_of (by decide +kernel) w) e
      rw [Field.key_div, x] at this; cases this)
  exact State.keepWithoutPower_keeps back (within_of (by decide +kernel) w)

theorem execAonPowerOnReset_keeps (h : Keeps W s0 s) (w : Within 0x7ff93027ff87a4f7fff0fffc07f3f21ffffffffffffcc667fffc00fe1fc7d1fffffffc00fffffe3f7f1fff00fffffe0003fc4fffffe0fc01f83fffffffff008f0f87fff007ffdff W) :
    KeepsN W s0 (execAonPowerOnReset s) := by
  unfold execAonPowerOnReset
  with_reducible repeat' first | assumption | apply keepsN_next | apply State.powerLoss_keeps | exact within_of (by decide +kernel) w | exact within_bit (by decide +kernel) w | apply keeps_foldl | (intro u; first | (refine keeps_then (W := W) (s0 := s0) (a := u) ?_ ?_; subst u; rotate_left; intro _) | subst u | skip) | lift_lets -underBinder | dsimp -zeta only | split

theorem State.loadCopy_keeps {a1} (h : Keeps W s0 s) (w : Within (topMask ||| 0x6100) W) :
    Keeps W s0 (State.loadCopy s a1) := by
  unfold State.loadCopy
  with_reducible repeat' first | assumption | apply State.loadFields_keeps | apply State.forEach_keeps | apply State.setArray_keeps | apply State.showProvisioned_keeps | apply State.wr_keeps | exact within_of (by decide +kernel) w | exact within_bit (by decide +kernel) w | exact .inr (within_bit (by decide +kernel) w) | exact .inl rfl | simp -zeta only [keepsMk_iff] | apply keeps_mk | apply keeps_foldl | (intro u; first | (refine keeps_then (W := W) (s0 := s0) (a := u) ?_ ?_; subst u; rotate_left; intro _) | subst u | skip) | lift_lets -underBinder | dsimp -zeta only | split

theorem State.takeCopy_keeps {a1 a2} (h : Keeps W s0 s) (w : Within (topMask ||| 0x46100) W) :
    KeepsO W s0 (State.takeCopy s a1 a2) := by
  unfold State.takeCopy
  with_reducible repeat' first | assumption | apply keepsO_none | apply keepsO_some | apply State.wr_keeps | apply State.loadCopy_keeps | exact within_of (by decide +kernel) w | exact within_bit (by decide +kernel) w | exact .inr (within_bit (by decide +kernel) w) | exact .inl rfl | simp -zeta only [keepsMk_iff] | apply keeps_mk | apply keepsO_foldl | apply keepsO_mapState | apply keepsO_map | apply keeps_foldl | (intro u; first | (refine keeps_then (W := W) (s0 := s0) (a := u) ?_ ?_; subst u; rotate_left; intro _) | subst u | skip) | lift_lets -underBinder | dsimp -zeta only | split

theorem State.powerUp_keeps {a1} (h : Keeps W s0 s) (w : Within (topMask ||| 0xfffdff) W) :
    Keeps W s0 (State.powerUp s a1) := by
  unfold State.powerUp
  with_reducible repeat' first | assumption | apply keepsO_some | apply keepsO_none | apply State.powerLoss_keeps | apply State.wr_keeps | apply State.bump_keeps | apply State.noteRung_keeps | apply State.takeCopy_keeps | apply State.askPowerCycle_keeps | apply State.boot_keeps | refine keeps_of_some (by assumption) ?_ | exact keeps_of_some rfl (by assumption) | apply keeps_getD | exact within_of (by decide +kernel) w | exact within_bit (by decide +kernel) w | exact .inr (within_bit (by decide +kernel) w) | exact .inl rfl | simp -zeta only [keepsMk_iff] | apply keeps_mk | apply keeps_foldl | (intro u; first | (refine keeps_then (W := W) (s0 := s0) (a := u) ?_ ?_; subst u; rotate_left; intro _) | subst u | skip) | lift_lets -underBinder | dsimp -zeta only | split

theorem execPowerUp_keeps {a0} (h : Keeps W s0 s) (w : Within (topMask ||| 0xfffdff) W) :
    KeepsN W s0 (execPowerUp a0 s) := by
  unfold execPowerUp
  with_reducible repeat' first | assumption | apply keepsN_next | apply State.powerUp_keeps | exact within_of (by decide +kernel) w | exact within_bit (by decide +kernel) w | apply keeps_foldl | (intro u; first | (refine keeps_then (W := W) (s0 := s0) (a := u) ?_ ?_; subst u; rotate_left; intro _) | subst u | skip) | lift_lets -underBinder | dsimp -zeta only | split

theorem State.abortAll_keeps (h : Keeps W s0 s) (w : Within 0xfb00000000000000000000000000000000000040000000000000000000000000000000000000000000f0078000000000000042000000000000007e000823dc0 W) :
    Keeps W s0 (State.abortAll s) := by
  unfold State.abortAll
  with_reducible repeat' first | assumption | apply State.forEach_keeps | apply State.abortPartition_keeps | exact within_of (by decide +kernel) w | exact within_bit (by decide +kernel) w | apply keeps_foldl | (intro u; first | (refine keeps_then (W := W) (s0 := s0) (a := u) ?_ ?_; subst u; rotate_left; intro _) | subst u | skip) | lift_lets -underBinder | dsimp -zeta only | split

theorem State.railAction_keeps {a1} (h : Keeps W s0 s) (w : Within 0xfb000000006000000000000000000024000000400003c03007dfe00027fffe003f08c0000200000000f0078000000000000042000000000000007e000827df8 W) :
    Keeps W s0 (State.railAction s a1) := by
  unfold State.railAction
  with_reducible repeat' first | assumption | apply State.abortAll_keeps | apply State.forEach_keeps | apply State.loseLink_keeps | apply State.zlDown_keeps | apply State.portReset_keeps | apply State.calFail_keeps | exact within_of (by decide +kernel) w | exact within_bit (by decide +kernel) w | apply keeps_foldl | (intro u; first | (refine keeps_then (W := W) (s0 := s0) (a := u) ?_ ?_; subst u; rotate_left; intro _) | subst u | skip) | lift_lets -underBinder | dsimp -zeta only | split

theorem State.railExcursion_keeps {a1 a2} (h : Keeps W s0 s) (w : Within 0x6c0000000000000fb000000006000000000000000000024000000400003c03007dfe00027fffe003f08c0000200000000f0078000000000000042000000000000007e0008a7df8 W) :
    Keeps W s0 (State.railExcursion s a1 a2) := by
  unfold State.railExcursion
  with_reducible repeat' first | assumption | apply State.wr_keeps | apply State.bump_keeps | apply State.report_keeps | apply State.railAction_keeps | exact within_of (by decide +kernel) w | exact within_bit (by decide +kernel) w | exact .inr (within_bit (by decide +kernel) w) | exact .inl rfl | simp -zeta only [keepsMk_iff] | apply keeps_mk | apply keeps_foldl | (intro u; first | (refine keeps_then (W := W) (s0 := s0) (a := u) ?_ ?_; subst u; rotate_left; intro _) | subst u | skip) | lift_lets -underBinder | dsimp -zeta only | split

theorem execRailExcursion_keeps {a0 a1} (h : Keeps W s0 s) (w : Within 0x6c0000000000000fb000000006000000000000000000024000000400003c03007dfe00027fffe003f08c0000200000000f0078000000000000042000000000000007e0008a7df8 W) :
    KeepsN W s0 (execRailExcursion a0 a1 s) := by
  unfold execRailExcursion
  with_reducible repeat' first | assumption | apply keepsN_next | apply State.railExcursion_keeps | exact within_of (by decide +kernel) w | exact within_bit (by decide +kernel) w | apply keeps_foldl | (intro u; first | (refine keeps_then (W := W) (s0 := s0) (a := u) ?_ ?_; subst u; rotate_left; intro _) | subst u | skip) | lift_lets -underBinder | dsimp -zeta only | split

theorem execRailRecovery_keeps {a0} (h : Keeps W s0 s) (w : Within 0xc00000000000000000000000000000000000000000000000000000000000000000000000000000000000000000000000000000000000000000000000000000000000000080000 W) :
    KeepsN W s0 (execRailRecovery a0 s) := by
  unfold execRailRecovery
  with_reducible repeat' first | assumption | apply keepsN_next | apply State.wr_keeps | exact within_of (by decide +kernel) w | exact within_bit (by decide +kernel) w | exact .inr (within_bit (by decide +kernel) w) | exact .inl rfl | simp -zeta only [keepsMk_iff] | apply keeps_mk | apply keeps_foldl | (intro u; first | (refine keeps_then (W := W) (s0 := s0) (a := u) ?_ ?_; subst u; rotate_left; intro _) | subst u | skip) | lift_lets -underBinder | dsimp -zeta only | split

theorem execRailExcursionTimeout_keeps {a0} (h : Keeps W s0 s) (w : Within 0x820000 W) :
    KeepsN W s0 (execRailExcursionTimeout a0 s) := by
  unfold execRailExcursionTimeout
  with_reducible repeat' first | assumption | apply keepsN_next | apply State.askPowerCycle_keeps | exact within_of (by decide +kernel) w | exact within_bit (by decide +kernel) w | apply keeps_foldl | (intro u; first | (refine keeps_then (W := W) (s0 := s0) (a := u) ?_ ?_; subst u; rotate_left; intro _) | subst u | skip) | lift_lets -underBinder | dsimp -zeta only | split

theorem execStackRailTimeout_keeps (h : Keeps W s0 s) (w : Within 0x600008000000000000000000000000000000000000000000000000000000000000000000000000000000000000000000000000000000000080008 W) :
    KeepsN W s0 (execStackRailTimeout s) := by
  unfold execStackRailTimeout
  with_reducible repeat' first | assumption | apply keepsN_next | apply State.report_keeps | apply State.wr_keeps | exact within_of (by decide +kernel) w | exact within_bit (by decide +kernel) w | exact .inr (within_bit (by decide +kernel) w) | exact .inl rfl | simp -zeta only [keepsMk_iff] | apply keeps_mk | apply keeps_foldl | (intro u; first | (refine keeps_then (W := W) (s0 := s0) (a := u) ?_ ?_; subst u; rotate_left; intro _) | subst u | skip) | lift_lets -underBinder | dsimp -zeta only | split

theorem execCrystalLoss_keeps (h : Keeps W s0 s) (w : Within 0x48000000000000000000000000600000000000000000000000000000000000000000000000000000000000000000000000000000000000000000000000000000000000000000008 W) :
    KeepsN W s0 (execCrystalLoss s) := by
  unfold execCrystalLoss
  with_reducible repeat' first | assumption | apply keepsN_next | apply State.report_keeps | apply State.wr_keeps | exact within_of (by decide +kernel) w | exact within_bit (by decide +kernel) w | apply keeps_foldl | (intro u; first | (refine keeps_then (W := W) (s0 := s0) (a := u) ?_ ?_; subst u; rotate_left; intro _) | subst u | skip) | lift_lets -underBinder | dsimp -zeta only | split

theorem execCrystalReturn_keeps (h : Keeps W s0 s) (w : Within 0x8000000000000000000000000000000000000000000000000000000000000000000000000000000000000000000000000000000000000000000000000000000000000000000000 W) :
    KeepsN W s0 (execCrystalReturn s) := by
  unfold execCrystalReturn
  with_reducible repeat' first | assumption | apply keepsN_next | apply State.wr_keeps | exact within_of (by decide +kernel) w | exact within_bit (by decide +kernel) w | apply keeps_foldl | (intro u; first | (refine keeps_then (W := W) (s0 := s0) (a := u) ?_ ?_; subst u; rotate_left; intro _) | subst u | skip) | lift_lets -underBinder | dsimp -zeta only | split

theorem execRefclkSysLoss_keeps (h : Keeps W s0 s) (w : Within 0x10113027f80000b47b0000000393420800018201c00000001f0400fe1bc7c1b01fdffc00e7fffe3f7f0de700fffffc00038007ffffc0fc01e01ffff3e1ff00870f877ff01effdfe W) :
    KeepsN W s0 (execRefclkSysLoss s) := by
  unfold execRefclkSysLoss
  with_reducible repeat' first | assumption | apply keepsN_next | apply State.draw_keeps | apply State.wr_keeps | apply State.holdChip_keeps | refine keeps_of_snd (by assumption) ?_ | exact within_of (by decide +kernel) w | exact within_bit (by decide +kernel) w | exact .inr (within_bit (by decide +kernel) w) | exact .inl rfl | simp -zeta only [keepsMk_iff, keepsS_mk_iff, keeps_snd_iff] | apply keeps_mk | apply keepsS_foldl | apply keeps_foldl | (intro u; first | (refine keeps_then (W := W) (s0 := s0) (a := u) ?_ ?_; subst u; rotate_left; intro _) | subst u | skip) | lift_lets -underBinder | dsimp -zeta only | split

theorem execRefclkSysRestore_keeps (h : Keeps W s0 s) (w : Within 0x10000000000024000000000000000000000000000000000000000000000000000000000000000000000007000000000000000000000000000000007000000000000000000e32480 W) :
    KeepsN W s0 (execRefclkSysRestore s) := by
  unfold execRefclkSysRestore
  with_reducible repeat' first | assumption | apply keepsN_next | apply State.wr_keeps | apply State.freeChip_keeps | exact within_of (by decide +kernel) w | exact within_bit (by decide +kernel) w | exact .inr (within_bit (by decide +kernel) w) | exact .inl rfl | simp -zeta only [keepsMk_iff] | apply keeps_mk | apply keeps_foldl | (intro u; first | (refine keeps_then (W := W) (s0 := s0) (a := u) ?_ ?_; subst u; rotate_left; intro _) | subst u | skip) | lift_lets -underBinder | dsimp -zeta only | split

theorem execPcieRefclkLoss_keeps {a0} (h : Keeps W s0 s) (w : Within 0x200000000000000000000000000000000000000000000000000000400000003007dfe00027fffe003f08c0000200000000f0078000000000000042000000000000007e000823df8 W) :
    KeepsN W s0 (execPcieRefclkLoss a0 s) := by
  unfold execPcieRefclkLoss
  with_reducible repeat' first | assumption | apply keepsN_next | apply State.portReset_keeps | apply State.wr_keeps | exact within_of (by decide +kernel) w | exact within_bit (by decide +kernel) w | apply keeps_foldl | (intro u; first | (refine keeps_then (W := W) (s0 := s0) (a := u) ?_ ?_; subst u; rotate_left; intro _) | subst u | skip) | lift_lets -underBinder | dsimp -zeta only | split

theorem execDynamicAddressAssignment_keeps {a0} (h : Keeps W s0 s) (w : Within 0x80000 W) :
    KeepsN W s0 (execDynamicAddressAssignment a0 s) := by
  unfold execDynamicAddressAssignment
  with_reducible repeat' first | assumption | apply keepsN_next | exact within_of (by decide +kernel) w | exact within_bit (by decide +kernel) w | exact .inr (within_bit (by decide +kernel) w) | exact .inl rfl | simp -zeta only [keepsMk_iff] | apply keeps_mk | apply keeps_foldl | (intro u; first | (refine keeps_then (W := W) (s0 := s0) (a := u) ?_ ?_; subst u; rotate_left; intro _) | subst u | skip) | lift_lets -underBinder | dsimp -zeta only | split

end Sys2Proof.Machine
end

