-- ==== Sys2Proof/Laws/Keeps/Clock.lean ====
section
/-! SUPPORT. Laws/Keeps/Clock.lean: what every operation of Machine/Clock.lean keeps (the relation of Laws/Keeps.lean). -/
set_option Elab.async false
set_option linter.all false
set_option linter.unusedSimpArgs false
set_option linter.tactic.unusedName false
namespace Sys2Proof.Machine
variable {W : Nat} {s0 s : State}

theorem State.clockHold_keeps {a1 a2} (h : Keeps W s0 s) (w : Within 0x18000000000004000000000000000000100000000000000000000001000000000000000000000000000000000000000000000000000000020 W) :
    Keeps W s0 (State.clockHold s a1 a2) := by
  unfold State.clockHold
  with_reducible repeat' first | assumption | apply State.wr_keeps | apply State.releaseStops_keeps | exact within_of (by decide +kernel) w | exact within_bit (by decide +kernel) w | exact .inr (within_bit (by decide +kernel) w) | exact .inl rfl | simp -zeta only [keepsMk_iff] | apply keeps_mk | apply keeps_foldl | (intro u; first | (refine keeps_then (W := W) (s0 := s0) (a := u) ?_ ?_; subst u; rotate_left; intro _) | subst u | skip) | lift_lets -underBinder | dsimp -zeta only | split

theorem execClockHold_keeps {a0 a1} (h : Keeps W s0 s) (w : Within 0x18000000000004000000000000000001900000000000000000000001000000000000000000000000000000000000000000000000000810020 W) :
    KeepsN W s0 (execClockHold a0 a1 s) := by
  unfold execClockHold
  with_reducible repeat' first | assumption | apply keepsN_next | apply State.access_keeps | apply State.clockHold_keeps | exact within_of (by decide +kernel) w | exact within_bit (by decide +kernel) w | apply keeps_foldl | (intro u; first | (refine keeps_then (W := W) (s0 := s0) (a := u) ?_ ?_; subst u; rotate_left; intro _) | subst u | skip) | lift_lets -underBinder | dsimp -zeta only | split

theorem execHoldLapse_keeps {a0} (h : Keeps W s0 s) (w : Within 0x18000000000004000000000000000000300000000000000000000001000000000000000000000000000000000000000000000000000000020 W) :
    KeepsN W s0 (execHoldLapse a0 s) := by
  unfold execHoldLapse
  with_reducible repeat' first | assumption | apply keepsN_next | apply State.clockHold_keeps | apply State.wr_keeps | exact within_of (by decide +kernel) w | exact within_bit (by decide +kernel) w | apply keeps_foldl | (intro u; first | (refine keeps_then (W := W) (s0 := s0) (a := u) ?_ ?_; subst u; rotate_left; intro _) | subst u | skip) | lift_lets -underBinder | dsimp -zeta only | split

end Sys2Proof.Machine
end

