-- ==== Sys2Proof/Laws/Keeps/Fabric.lean ====
section
/-! SUPPORT. Laws/Keeps/Fabric.lean: what every operation of Machine/Fabric.lean keeps (the relation of Laws/Keeps.lean). -/
set_option Elab.async false
set_option linter.all false
set_option linter.unusedSimpArgs false
set_option linter.tactic.unusedName false
namespace Sys2Proof.Machine
variable {W : Nat} {s0 s : State}

theorem execFlitArrive_keeps {a0 a1 a2 a3 a4 a5} (h : Keeps W s0 s) (w : Within 0x6000000000000000000000000000400000000000000000000000000000000000000000000000000000f9800800420020000000000000000a01d08 W) :
    KeepsN W s0 (execFlitArrive a0 a1 a2 a3 a4 a5 s) := by
  unfold execFlitArrive
  with_reducible repeat' first | assumption | apply keepsN_next | apply State.parityError_keeps | apply State.setRouter_keeps | apply State.routeFlit_keeps | exact within_of (by decide +kernel) w | exact within_bit (by decide +kernel) w | apply keeps_foldl | (intro u; first | (refine keeps_then (W := W) (s0 := s0) (a := u) ?_ ?_; subst u; rotate_left; intro _) | subst u | skip) | lift_lets -underBinder | dsimp -zeta only | split

theorem execReductionContribution_keeps {a0 a1 a2} (h : Keeps W s0 s) (w : Within 0x600000000000000000000000000000000000000000000000000000000000000000000000000000000060000800020020000000000000000200c08 W) :
    KeepsN W s0 (execReductionContribution a0 a1 a2 s) := by
  unfold execReductionContribution
  with_reducible repeat' first | assumption | apply keepsN_next | apply State.consumePoint_keeps | apply State.contributeAt_keeps | exact within_of (by decide +kernel) w | exact within_bit (by decide +kernel) w | apply keeps_foldl | (intro u; first | (refine keeps_then (W := W) (s0 := s0) (a := u) ?_ ?_; subst u; rotate_left; intro _) | subst u | skip) | lift_lets -underBinder | dsimp -zeta only | split

theorem execBarrierArrive_keeps {a0 a1} (h : Keeps W s0 s) (w : Within 0x6000000000000000000000000000400000000000000000000000000000000000000000000000000000e0000800420020000000000000000a01d08 W) :
    KeepsN W s0 (execBarrierArrive a0 a1 s) := by
  unfold execBarrierArrive
  with_reducible repeat' first | assumption | apply keepsN_next | apply State.deliverExpress_keeps | apply State.routeFlit_keeps | exact within_of (by decide +kernel) w | exact within_bit (by decide +kernel) w | apply keeps_foldl | (intro u; first | (refine keeps_then (W := W) (s0 := s0) (a := u) ?_ ?_; subst u; rotate_left; intro _) | subst u | skip) | lift_lets -underBinder | dsimp -zeta only | split

theorem execBarrierRelease_keeps {a0 a1 a2} (h : Keeps W s0 s) (w : Within 0x6000000000000000000000000000000000000000000000000000000000000000000000000000000000c0000000020020000000000000000000c08 W) :
    KeepsN W s0 (execBarrierRelease a0 a1 a2 s) := by
  unfold execBarrierRelease
  with_reducible repeat' first | assumption | apply keepsN_next | apply State.consumePoint_keeps | apply State.releaseAt_keeps | exact within_of (by decide +kernel) w | exact within_bit (by decide +kernel) w | apply keeps_foldl | (intro u; first | (refine keeps_then (W := W) (s0 := s0) (a := u) ?_ ?_; subst u; rotate_left; intro _) | subst u | skip) | lift_lets -underBinder | dsimp -zeta only | split

theorem execFlagAddArrive_keeps {a0 a1 a2 a3} (h : Keeps W s0 s) (w : Within 0x600000000000000000000000000000000000000000000000000000000000000000000000000000000040000000020020000000000000000200408 W) :
    KeepsN W s0 (execFlagAddArrive a0 a1 a2 a3 s) := by
  unfold execFlagAddArrive
  with_reducible repeat' first | assumption | apply keepsN_next | apply State.consumePoint_keeps | apply State.flagAt_keeps | exact within_of (by decide +kernel) w | exact within_bit (by decide +kernel) w | apply keeps_foldl | (intro u; first | (refine keeps_then (W := W) (s0 := s0) (a := u) ?_ ?_; subst u; rotate_left; intro _) | subst u | skip) | lift_lets -underBinder | dsimp -zeta only | split

theorem execMapUpdate_keeps {a0} (h : Keeps W s0 s) (w : Within 0x4000000000000000000000000000000000000000000000078000000bfe000042700000000000007e000e03dc0 W) :
    KeepsN W s0 (execMapUpdate a0 s) := by
  unfold execMapUpdate
  with_reducible repeat' first | assumption | apply keepsN_next | apply State.updateMap_keeps | exact within_of (by decide +kernel) w | exact within_bit (by decide +kernel) w | apply keeps_foldl | (intro u; first | (refine keeps_then (W := W) (s0 := s0) (a := u) ?_ ?_; subst u; rotate_left; intro _) | subst u | skip) | lift_lets -underBinder | dsimp -zeta only | split

theorem execMapApplied_keeps (h : Keeps W s0 s) (w : Within 0xfb00000000000000000000000000000000000040000000000000000000000000000000000000000000f0078000000c00000042000000000000007e000823dc0 W) :
    KeepsN W s0 (execMapApplied s) := by
  unfold execMapApplied
  with_reducible repeat' first | assumption | apply keepsN_next | apply State.mapApplied_keeps | exact within_of (by decide +kernel) w | exact within_bit (by decide +kernel) w | apply keeps_foldl | (intro u; first | (refine keeps_then (W := W) (s0 := s0) (a := u) ?_ ?_; subst u; rotate_left; intro _) | subst u | skip) | lift_lets -underBinder | dsimp -zeta only | split

theorem execLinkWatchdog_keeps {a0 a1} (h : Keeps W s0 s) (w : Within 0x600000000000000000000000000000000000000000000000000000000000000000000000000000000009800000000000000000000000000000808 W) :
    KeepsN W s0 (execLinkWatchdog a0 a1 s) := by
  unfold execLinkWatchdog
  with_reducible repeat' first | assumption | apply keepsN_next | apply State.failLink_keeps | exact within_of (by decide +kernel) w | exact within_bit (by decide +kernel) w | apply keeps_foldl | (intro u; first | (refine keeps_then (W := W) (s0 := s0) (a := u) ?_ ?_; subst u; rotate_left; intro _) | subst u | skip) | lift_lets -underBinder | dsimp -zeta only | split

theorem State.readBarMax_keeps {a1} (h : Keeps W s0 s) (w : Within 0x80000000000000000000000000000800000 W) :
    Keeps W s0 (State.readBarMax s a1) := by
  unfold State.readBarMax
  with_reducible repeat' first | assumption | apply State.wr_keeps | apply State.emit_keeps | exact within_of (by decide +kernel) w | exact within_bit (by decide +kernel) w | apply keeps_foldl | (intro u; first | (refine keeps_then (W := W) (s0 := s0) (a := u) ?_ ?_; subst u; rotate_left; intro _) | subst u | skip) | lift_lets -underBinder | dsimp -zeta only | split

theorem execBarMaxRead_keeps {a0} (h : Keeps W s0 s) (w : Within 0x1800000000000000000000000000000000000000000000080000000000000000000000000000810020 W) :
    KeepsN W s0 (execBarMaxRead a0 s) := by
  unfold execBarMaxRead
  with_reducible repeat' first | assumption | apply keepsN_next | apply State.access_keeps | apply State.readBarMax_keeps | exact within_of (by decide +kernel) w | exact within_bit (by decide +kernel) w | apply keeps_foldl | (intro u; first | (refine keeps_then (W := W) (s0 := s0) (a := u) ?_ ?_; subst u; rotate_left; intro _) | subst u | skip) | lift_lets -underBinder | dsimp -zeta only | split

end Sys2Proof.Machine
end

