-- ==== Sys2Proof/Laws/Keeps/Host.lean ====
section
/-! SUPPORT. Laws/Keeps/Host.lean: what every operation of Machine/Host.lean keeps (the relation of Laws/Keeps.lean). -/
set_option Elab.async false
set_option linter.all false
set_option linter.unusedSimpArgs false
set_option linter.tactic.unusedName false
namespace Sys2Proof.Machine
variable {W : Nat} {s0 s : State}

theorem execPortReset_keeps {a0 a1} (h : Keeps W s0 s) (w : Within 0x400000003007dfe00027fffe003f08c0000200000000f0078000000000000042000000000000007e000823df8 W) :
    KeepsN W s0 (execPortReset a0 a1 s) := by
  unfold execPortReset
  with_reducible repeat' first | assumption | apply keepsN_next | apply State.portReset_keeps | exact within_of (by decide +kernel) w | exact within_bit (by decide +kernel) w | apply keeps_foldl | (intro u; first | (refine keeps_then (W := W) (s0 := s0) (a := u) ?_ ?_; subst u; rotate_left; intro _) | subst u | skip) | lift_lets -underBinder | dsimp -zeta only | split

theorem execFlr_keeps {a0} (h : Keeps W s0 s) (w : Within 0x400000003007dfe00027fffe002008c0000200000000f0078000000000000042000000000000007e000823df8 W) :
    KeepsN W s0 (execFlr a0 s) := by
  unfold execFlr
  with_reducible repeat' first | assumption | apply keepsN_next | apply State.flr_keeps | exact within_of (by decide +kernel) w | exact within_bit (by decide +kernel) w | apply keeps_foldl | (intro u; first | (refine keeps_then (W := W) (s0 := s0) (a := u) ?_ ?_; subst u; rotate_left; intro _) | subst u | skip) | lift_lets -underBinder | dsimp -zeta only | split

theorem execFlrComplete_keeps {a0 a1} (h : Keeps W s0 s) (w : Within 0x10 W) :
    KeepsN W s0 (execFlrComplete a0 a1 s) := by
  unfold execFlrComplete
  with_reducible repeat' first | assumption | apply keepsN_next | apply State.forEach_keeps | apply State.setFnState_keeps | exact within_of (by decide +kernel) w | exact within_bit (by decide +kernel) w | apply keeps_foldl | (intro u; first | (refine keeps_then (W := W) (s0 := s0) (a := u) ?_ ?_; subst u; rotate_left; intro _) | subst u | skip) | lift_lets -underBinder | dsimp -zeta only | split

theorem execD3hotEntry_keeps {a0} (h : Keeps W s0 s) (w : Within 0x6000000000000000000000000000000000000000000c0027c00000000000000000000000000000000000000000000000000000000000000800018 W) :
    KeepsN W s0 (execD3hotEntry a0 s) := by
  unfold execD3hotEntry
  with_reducible repeat' first | assumption | apply keepsN_next | apply State.forEach_keeps | apply State.stopRing_keeps | exact within_of (by decide +kernel) w | exact within_bit (by decide +kernel) w | apply keeps_foldl | (intro u; first | (refine keeps_then (W := W) (s0 := s0) (a := u) ?_ ?_; subst u; rotate_left; intro _) | subst u | skip) | lift_lets -underBinder | dsimp -zeta only | split

theorem execPcieLinkUp_keeps {a0 a1 a2 a3 a4} (h : Keeps W s0 s) (w : Within 0x200000000000000000000000000000000000000000000000000000000000000000000000000000001f0000000000000000000000000000000000000000000000000000000000010 W) :
    KeepsN W s0 (execPcieLinkUp a0 a1 a2 a3 a4 s) := by
  unfold execPcieLinkUp
  with_reducible repeat' first | assumption | apply keepsN_next | apply State.wr_keeps | apply State.setPortState_keeps | apply State.forEach_keeps | apply State.setFnState_keeps | exact within_of (by decide +kernel) w | exact within_bit (by decide +kernel) w | apply keeps_foldl | (intro u; first | (refine keeps_then (W := W) (s0 := s0) (a := u) ?_ ?_; subst u; rotate_left; intro _) | subst u | skip) | lift_lets -underBinder | dsimp -zeta only | split

theorem execOwnClaim_keeps {a0 a1} (h : Keeps W s0 s) (w : Within 0x180000000000000003d000520000000000000000000000000000000000000000000000000000810020 W) :
    KeepsN W s0 (execOwnClaim a0 a1 s) := by
  unfold execOwnClaim
  with_reducible repeat' first | assumption | apply keepsN_next | apply State.access_keeps | apply State.claim_keeps | exact within_of (by decide +kernel) w | exact within_bit (by decide +kernel) w | apply keeps_foldl | (intro u; first | (refine keeps_then (W := W) (s0 := s0) (a := u) ?_ ?_; subst u; rotate_left; intro _) | subst u | skip) | lift_lets -underBinder | dsimp -zeta only | split

theorem execHandoverOffer_keeps {a0} (h : Keeps W s0 s) (w : Within 0x180000000000000003d0008c0000000000000000000000000000000000000000000000000000810030 W) :
    KeepsN W s0 (execHandoverOffer a0 s) := by
  unfold execHandoverOffer
  with_reducible repeat' first | assumption | apply keepsN_next | apply State.access_keeps | apply State.owned_keeps | apply State.offer_keeps | exact within_of (by decide +kernel) w | exact within_bit (by decide +kernel) w | apply keeps_foldl | (intro u; first | (refine keeps_then (W := W) (s0 := s0) (a := u) ?_ ?_; subst u; rotate_left; intro _) | subst u | skip) | lift_lets -underBinder | dsimp -zeta only | split

theorem execHandoverAccept_keeps {a0 a1} (h : Keeps W s0 s) (w : Within 0x98000000000000000000000000000000000000000000000000000180000000000000003d000de0000000000000000000000000000000000000000000000000000850020 W) :
    KeepsN W s0 (execHandoverAccept a0 a1 s) := by
  unfold execHandoverAccept
  with_reducible repeat' first | assumption | apply keepsN_next | apply State.access_keeps | apply State.accept_keeps | exact within_of (by decide +kernel) w | exact within_bit (by decide +kernel) w | apply keeps_foldl | (intro u; first | (refine keeps_then (W := W) (s0 := s0) (a := u) ?_ ?_; subst u; rotate_left; intro _) | subst u | skip) | lift_lets -underBinder | dsimp -zeta only | split

theorem execHandoverExpiry_keeps (h : Keeps W s0 s) (w : Within 0x8c0000000000000000000000000000000000000000000000000000000000 W) :
    KeepsN W s0 (execHandoverExpiry s) := by
  unfold execHandoverExpiry
  with_reducible repeat' first | assumption | apply keepsN_next | apply State.endOffer_keeps | exact within_of (by decide +kernel) w | exact within_bit (by decide +kernel) w | apply keeps_foldl | (intro u; first | (refine keeps_then (W := W) (s0 := s0) (a := u) ?_ ?_; subst u; rotate_left; intro _) | subst u | skip) | lift_lets -underBinder | dsimp -zeta only | split

theorem execRingEnable_keeps {a0 a1} (h : Keeps W s0 s) (w : Within 0x6000000000000000000000000000000000018000000c0027e0103d000000000000000000000000000000000000000000000000000000000810078 W) :
    KeepsN W s0 (execRingEnable a0 a1 s) := by
  unfold execRingEnable
  with_reducible repeat' first | assumption | apply keepsN_next | apply State.access_keeps | apply State.ringReg_keeps | apply State.ringSwitch_keeps | exact within_of (by decide +kernel) w | exact within_bit (by decide +kernel) w | apply keeps_foldl | (intro u; first | (refine keeps_then (W := W) (s0 := s0) (a := u) ?_ ?_; subst u; rotate_left; intro _) | subst u | skip) | lift_lets -underBinder | dsimp -zeta only | split

theorem execRingDisable_keeps {a0 a1} (h : Keeps W s0 s) (w : Within 0x6000000000000000000000000000000000018000000c0027e0103d000000000000000000000000000000000000000000000000000000000810078 W) :
    KeepsN W s0 (execRingDisable a0 a1 s) := by
  unfold execRingDisable
  with_reducible repeat' first | assumption | apply keepsN_next | apply State.access_keeps | apply State.ringReg_keeps | apply State.ringSwitch_keeps | exact within_of (by decide +kernel) w | exact within_bit (by decide +kernel) w | apply keeps_foldl | (intro u; first | (refine keeps_then (W := W) (s0 := s0) (a := u) ?_ ?_; subst u; rotate_left; intro _) | subst u | skip) | lift_lets -underBinder | dsimp -zeta only | split

theorem execRingStop_keeps {a0 a1} (h : Keeps W s0 s) (w : Within 0x6000000000000000000000000000000000018000000c0027c0003d000000000000000000000000000000000000000000000000000000000810038 W) :
    KeepsN W s0 (execRingStop a0 a1 s) := by
  unfold execRingStop
  with_reducible repeat' first | assumption | apply keepsN_next | apply State.access_keeps | apply State.ringReg_keeps | apply State.ringCtrl_keeps | exact within_of (by decide +kernel) w | exact within_bit (by decide +kernel) w | apply keeps_foldl | (intro u; first | (refine keeps_then (W := W) (s0 := s0) (a := u) ?_ ?_; subst u; rotate_left; intro _) | subst u | skip) | lift_lets -underBinder | dsimp -zeta only | split

theorem execRingResume_keeps {a0 a1} (h : Keeps W s0 s) (w : Within 0x6000000000000000000000000000000000018000000c0027c0003d000000000000000000000000000000000000000000000000000000000810038 W) :
    KeepsN W s0 (execRingResume a0 a1 s) := by
  unfold execRingResume
  with_reducible repeat' first | assumption | apply keepsN_next | apply State.access_keeps | apply State.ringReg_keeps | apply State.ringCtrl_keeps | exact within_of (by decide +kernel) w | exact within_bit (by decide +kernel) w | apply keeps_foldl | (intro u; first | (refine keeps_then (W := W) (s0 := s0) (a := u) ?_ ?_; subst u; rotate_left; intro _) | subst u | skip) | lift_lets -underBinder | dsimp -zeta only | split

theorem execDbIndex_keeps {a0 a1 a2} (h : Keeps W s0 s) (w : Within 0x6000080000000000000000000000000000018000000c0027e0003f000000000000000000000000000000000000000000000000000000000810078 W) :
    KeepsN W s0 (execDbIndex a0 a1 a2 s) := by
  unfold execDbIndex
  with_reducible repeat' first | assumption | apply keepsN_next | apply State.doorbellAccess_keeps | apply State.doorbell_keeps | apply State.newIndex_keeps | exact within_of (by decide +kernel) w | exact within_bit (by decide +kernel) w | apply keeps_foldl | (intro u; first | (refine keeps_then (W := W) (s0 := s0) (a := u) ?_ ?_; subst u; rotate_left; intro _) | subst u | skip) | lift_lets -underBinder | dsimp -zeta only | split

theorem execDbArm_keeps {a0 a1 a2} (h : Keeps W s0 s) (w : Within 0x180000000000200003f000000000000000000000000000000000000000000000000000000000800030 W) :
    KeepsN W s0 (execDbArm a0 a1 a2 s) := by
  unfold execDbArm
  with_reducible repeat' first | assumption | apply keepsN_next | apply State.doorbellAccess_keeps | apply State.doorbell_keeps | apply State.arm_keeps | exact within_of (by decide +kernel) w | exact within_bit (by decide +kernel) w | apply keeps_foldl | (intro u; first | (refine keeps_then (W := W) (s0 := s0) (a := u) ?_ ?_; subst u; rotate_left; intro _) | subst u | skip) | lift_lets -underBinder | dsimp -zeta only | split

theorem execCoalesceTimer_keeps {a0} (h : Keeps W s0 s) (w : Within 0x2000000000000000000000000000000000000000000000000000000000000000800010 W) :
    KeepsN W s0 (execCoalesceTimer a0 s) := by
  unfold execCoalesceTimer
  with_reducible repeat' first | assumption | apply keepsN_next | apply State.ringSignal_keeps | exact within_of (by decide +kernel) w | exact within_bit (by decide +kernel) w | apply keeps_foldl | (intro u; first | (refine keeps_then (W := W) (s0 := s0) (a := u) ?_ ?_; subst u; rotate_left; intro _) | subst u | skip) | lift_lets -underBinder | dsimp -zeta only | split

theorem execCopyIn_keeps {a0 a1} (h : Keeps W s0 s) (w : Within 0x6000000000000000000000000000000000000000000c0027e00000000000000000000000000000000000000000000000000000000000000800018 W) :
    KeepsN W s0 (execCopyIn a0 a1 s) := by
  unfold execCopyIn
  with_reducible repeat' first | assumption | apply keepsN_next | apply State.dmaStart_keeps | exact within_of (by decide +kernel) w | exact within_bit (by decide +kernel) w | apply keeps_foldl | (intro u; first | (refine keeps_then (W := W) (s0 := s0) (a := u) ?_ ?_; subst u; rotate_left; intro _) | subst u | skip) | lift_lets -underBinder | dsimp -zeta only | split

theorem execCopyOut_keeps {a0 a1} (h : Keeps W s0 s) (w : Within 0x6000000000000000000000000000000000000000000c0027e00000000000000000000000000000000000000000000000000000000000000800018 W) :
    KeepsN W s0 (execCopyOut a0 a1 s) := by
  unfold execCopyOut
  with_reducible repeat' first | assumption | apply keepsN_next | apply State.dmaStart_keeps | exact within_of (by decide +kernel) w | exact within_bit (by decide +kernel) w | apply keeps_foldl | (intro u; first | (refine keeps_then (W := W) (s0 := s0) (a := u) ?_ ?_; subst u; rotate_left; intro _) | subst u | skip) | lift_lets -underBinder | dsimp -zeta only | split

theorem execZero_keeps {a0 a1} (h : Keeps W s0 s) (w : Within 0x6000000000000000000000000000000000000000000c0027e00000000000000000000000000000000000000000000000000000000000000800018 W) :
    KeepsN W s0 (execZero a0 a1 s) := by
  unfold execZero
  with_reducible repeat' first | assumption | apply keepsN_next | apply State.dmaStart_keeps | exact within_of (by decide +kernel) w | exact within_bit (by decide +kernel) w | apply keeps_foldl | (intro u; first | (refine keeps_then (W := W) (s0 := s0) (a := u) ?_ ?_; subst u; rotate_left; intro _) | subst u | skip) | lift_lets -underBinder | dsimp -zeta only | split

theorem execDmaPiece_keeps {a0 a1} (h : Keeps W s0 s) (w : Within 0x6000000000000000000000000000000000000000000c0027c00000000000000000000000000000000000000000000000000000000000000900018 W) :
    KeepsN W s0 (execDmaPiece a0 a1 s) := by
  unfold execDmaPiece
  with_reducible repeat' first | assumption | apply keepsN_next | apply State.dmaPiece_keeps | exact within_of (by decide +kernel) w | exact within_bit (by decide +kernel) w | apply keeps_foldl | (intro u; first | (refine keeps_then (W := W) (s0 := s0) (a := u) ?_ ?_; subst u; rotate_left; intro _) | subst u | skip) | lift_lets -underBinder | dsimp -zeta only | split

theorem execPageRequestResponse_keeps {a0 a1} (h : Keeps W s0 s) (w : Within 0x6000000000000000000000000000000000000000000c0027c00000000000000000000000000000000000000000000000000000000000000800018 W) :
    KeepsN W s0 (execPageRequestResponse a0 a1 s) := by
  unfold execPageRequestResponse
  with_reducible repeat' first | assumption | apply keepsN_next | apply State.pageResponse_keeps | exact within_of (by decide +kernel) w | exact within_bit (by decide +kernel) w | apply keeps_foldl | (intro u; first | (refine keeps_then (W := W) (s0 := s0) (a := u) ?_ ?_; subst u; rotate_left; intro _) | subst u | skip) | lift_lets -underBinder | dsimp -zeta only | split

theorem execPageRequestTimeout_keeps {a0} (h : Keeps W s0 s) (w : Within 0x6000000000000000000000000000000000000000000c0027c00000000000000000000000000000000000000000000000000000000000000800018 W) :
    KeepsN W s0 (execPageRequestTimeout a0 s) := by
  unfold execPageRequestTimeout
  with_reducible repeat' first | assumption | apply keepsN_next | apply State.pageExpired_keeps | exact within_of (by decide +kernel) w | exact within_bit (by decide +kernel) w | apply keeps_foldl | (intro u; first | (refine keeps_then (W := W) (s0 := s0) (a := u) ?_ ?_; subst u; rotate_left; intro _) | subst u | skip) | lift_lets -underBinder | dsimp -zeta only | split

theorem execAtsInvalidation_keeps {a0 a1 a2} (h : Keeps W s0 s) (w : Within 0x100004000000000000000000000000000000000000000000000000000000000000000800010 W) :
    KeepsN W s0 (execAtsInvalidation a0 a1 a2 s) := by
  unfold execAtsInvalidation
  with_reducible repeat' first | assumption | apply keepsN_next | apply State.atsInvalidate_keeps | exact within_of (by decide +kernel) w | exact within_bit (by decide +kernel) w | apply keeps_foldl | (intro u; first | (refine keeps_then (W := W) (s0 := s0) (a := u) ?_ ?_; subst u; rotate_left; intro _) | subst u | skip) | lift_lets -underBinder | dsimp -zeta only | split

theorem execAtsTranslationCompletion_keeps {a0 a1 a2} (h : Keeps W s0 s) (w : Within 0x6000000000000000000000000000000000000000000c0027c00000000000000000000000000000000000000000000000000000000000000800018 W) :
    KeepsN W s0 (execAtsTranslationCompletion a0 a1 a2 s) := by
  unfold execAtsTranslationCompletion
  with_reducible repeat' first | assumption | apply keepsN_next | apply State.translated_keeps | exact within_of (by decide +kernel) w | exact within_bit (by decide +kernel) w | apply keeps_foldl | (intro u; first | (refine keeps_then (W := W) (s0 := s0) (a := u) ?_ ?_; subst u; rotate_left; intro _) | subst u | skip) | lift_lets -underBinder | dsimp -zeta only | split

theorem execBar4Access_keeps {a0 a1 a2} (h : Keeps W s0 s) (w : Within 0x180000000000000003d000000000000000000000000000000000000000000000000000000000900020 W) :
    KeepsN W s0 (execBar4Access a0 a1 a2 s) := by
  unfold execBar4Access
  with_reducible repeat' first | assumption | apply keepsN_next | apply State.bar4_keeps | exact within_of (by decide +kernel) w | exact within_bit (by decide +kernel) w | apply keeps_foldl | (intro u; first | (refine keeps_then (W := W) (s0 := s0) (a := u) ?_ ?_; subst u; rotate_left; intro _) | subst u | skip) | lift_lets -underBinder | dsimp -zeta only | split

end Sys2Proof.Machine
end

