-- ==== Sys2Proof/Laws/Keeps/Integrity.lean ====
section
/-! SUPPORT. Laws/Keeps/Integrity.lean: what every operation of Machine/Integrity.lean keeps (the relation of Laws/Keeps.lean). -/
set_option Elab.async false
set_option linter.all false
set_option linter.unusedSimpArgs false
set_option linter.tactic.unusedName false
namespace Sys2Proof.Machine
variable {W : Nat} {s0 s : State}

theorem execPatrolScrub_keeps {a0 a1} (h : Keeps W s0 s) (w : Within 0x1000000e000000000000000000000000000400000000000000c0027c00000000000000000000000f007ef82000000000042000000000000007e001923dd8 W) :
    KeepsN W s0 (execPatrolScrub a0 a1 s) := by
  unfold execPatrolScrub
  with_reducible repeat' first | assumption | apply keepsN_next | apply State.stackError_keeps | exact within_of (by decide +kernel) w | exact within_bit (by decide +kernel) w | apply keeps_foldl | (intro u; first | (refine keeps_then (W := W) (s0 := s0) (a := u) ?_ ?_; subst u; rotate_left; intro _) | subst u | skip) | lift_lets -underBinder | dsimp -zeta only | split

theorem execRedundancyCompare_keeps {a0 a1 a2 a3 a4} (h : Keeps W s0 s) (w : Within 0xfb00000000600000000000000000000000000040000000000000000000000000000000000000000000f0078000000000000042002000000000007e000a23dc8 W) :
    KeepsN W s0 (execRedundancyCompare a0 a1 a2 a3 a4 s) := by
  unfold execRedundancyCompare
  with_reducible repeat' first | assumption | apply keepsN_next | apply State.compareCopies_keeps | exact within_of (by decide +kernel) w | exact within_bit (by decide +kernel) w | apply keeps_foldl | (intro u; first | (refine keeps_then (W := W) (s0 := s0) (a := u) ?_ ?_; subst u; rotate_left; intro _) | subst u | skip) | lift_lets -underBinder | dsimp -zeta only | split

theorem execTwinWaitExpiry_keeps {a0 a1 a2} (h : Keeps W s0 s) (w : Within 0x600000000000000000000000000000000000000000000000000000000000000000000000000000000000000000020020000000000000000200408 W) :
    KeepsN W s0 (execTwinWaitExpiry a0 a1 a2 s) := by
  unfold execTwinWaitExpiry
  with_reducible repeat' first | assumption | apply keepsN_next | apply State.twinExpiry_keeps | exact within_of (by decide +kernel) w | exact within_bit (by decide +kernel) w | apply keeps_foldl | (intro u; first | (refine keeps_then (W := W) (s0 := s0) (a := u) ?_ ?_; subst u; rotate_left; intro _) | subst u | skip) | lift_lets -underBinder | dsimp -zeta only | split

theorem execAuditComparison_keeps {a0 a1 a2} (h : Keeps W s0 s) (w : Within 0xfb00000c60600000000000000000000000000040000000000000000000000000000000000000000000f007800000000000004200000000000000fe000823dc8 W) :
    KeepsN W s0 (execAuditComparison a0 a1 a2 s) := by
  unfold execAuditComparison
  with_reducible repeat' first | assumption | apply keepsN_next | apply State.compareSample_keeps | exact within_of (by decide +kernel) w | exact within_bit (by decide +kernel) w | apply keeps_foldl | (intro u; first | (refine keeps_then (W := W) (s0 := s0) (a := u) ?_ ?_; subst u; rotate_left; intro _) | subst u | skip) | lift_lets -underBinder | dsimp -zeta only | split

theorem execAuditAbandon_keeps {a0 a1} (h : Keeps W s0 s) (w : Within 0x1000000000000000000000000000000000000000000000000000000000000000000000000000000000000000000000000000000000000000000000008 W) :
    KeepsN W s0 (execAuditAbandon a0 a1 s) := by
  unfold execAuditAbandon
  with_reducible repeat' first | assumption | apply keepsN_next | apply State.bump_keeps | apply State.setSample_keeps | exact within_of (by decide +kernel) w | exact within_bit (by decide +kernel) w | apply keeps_foldl | (intro u; first | (refine keeps_then (W := W) (s0 := s0) (a := u) ?_ ?_; subst u; rotate_left; intro _) | subst u | skip) | lift_lets -underBinder | dsimp -zeta only | split

theorem execStandAloneAudit_keeps {a0 a1 a2 a3} (h : Keeps W s0 s) (w : Within 0xfb00000c60600000000000000000000008000040000000000000000000000000000000000000000000f007800000000000004200000000000000fe000823dc8 W) :
    KeepsN W s0 (execStandAloneAudit a0 a1 a2 a3 s) := by
  unfold execStandAloneAudit
  with_reducible repeat' first | assumption | apply keepsN_next | apply State.standAlone_keeps | exact within_of (by decide +kernel) w | exact within_bit (by decide +kernel) w | apply keeps_foldl | (intro u; first | (refine keeps_then (W := W) (s0 := s0) (a := u) ?_ ?_; subst u; rotate_left; intro _) | subst u | skip) | lift_lets -underBinder | dsimp -zeta only | split

theorem execAuditRollback_keeps {a0 a1 a2 a3 a4} (h : Keeps W s0 s) (w : Within 0xfb000020006000000000000000000000000000400000000000000c0027c00000000000000000000000f0078000000000000042000000000000007e000823dd8 W) :
    KeepsN W s0 (execAuditRollback a0 a1 a2 a3 a4 s) := by
  unfold execAuditRollback
  with_reducible repeat' first | assumption | apply keepsN_next | apply State.rollBack_keeps | exact within_of (by decide +kernel) w | exact within_bit (by decide +kernel) w | apply keeps_foldl | (intro u; first | (refine keeps_then (W := W) (s0 := s0) (a := u) ?_ ?_; subst u; rotate_left; intro _) | subst u | skip) | lift_lets -underBinder | dsimp -zeta only | split

theorem execConfirmation_keeps {a0 a1 a2} (h : Keeps W s0 s) (w : Within 0xc0600000000000000000000000000000000000000000000000000000000000000000000000000000000000000000000000000000000000000000008 W) :
    KeepsN W s0 (execConfirmation a0 a1 a2 s) := by
  unfold execConfirmation
  with_reducible repeat' first | assumption | apply keepsN_next | apply State.confirm_keeps | exact within_of (by decide +kernel) w | exact within_bit (by decide +kernel) w | apply keeps_foldl | (intro u; first | (refine keeps_then (W := W) (s0 := s0) (a := u) ?_ ?_; subst u; rotate_left; intro _) | subst u | skip) | lift_lets -underBinder | dsimp -zeta only | split

theorem execFieldTestStart_keeps {a0 a1} (h : Keeps W s0 s) (w : Within 0xfe400000000000000000000000000000000000000180000000000000003d000000000000000000000000000000000000000000000000000080000810528 W) :
    KeepsN W s0 (execFieldTestStart a0 a1 s) := by
  unfold execFieldTestStart
  with_reducible repeat' first | assumption | apply keepsN_next | apply State.ownedAccess_keeps | apply State.fieldTestWrite_keeps | exact within_of (by decide +kernel) w | exact within_bit (by decide +kernel) w | apply keeps_foldl | (intro u; first | (refine keeps_then (W := W) (s0 := s0) (a := u) ?_ ?_; subst u; rotate_left; intro _) | subst u | skip) | lift_lets -underBinder | dsimp -zeta only | split

theorem execFieldTestAbort_keeps {a0 a1} (h : Keeps W s0 s) (w : Within 0xfe400000000000000000000000000000000000000180000000000000003d000000000000000000000000000000000000000000000000000080000810528 W) :
    KeepsN W s0 (execFieldTestAbort a0 a1 s) := by
  unfold execFieldTestAbort
  with_reducible repeat' first | assumption | apply keepsN_next | apply State.ownedAccess_keeps | apply State.fieldTestWrite_keeps | exact within_of (by decide +kernel) w | exact within_bit (by decide +kernel) w | apply keeps_foldl | (intro u; first | (refine keeps_then (W := W) (s0 := s0) (a := u) ?_ ?_; subst u; rotate_left; intro _) | subst u | skip) | lift_lets -underBinder | dsimp -zeta only | split

theorem execFieldTestDone_keeps {a0} (h : Keeps W s0 s) (w : Within 0xa00060600000000000000000000000000000000000000000000000000000000000000000000000000000000000000000000000000000000080000000508 W) :
    KeepsN W s0 (execFieldTestDone a0 s) := by
  unfold execFieldTestDone
  with_reducible repeat' first | assumption | apply keepsN_next | apply State.fieldTestDone_keeps | exact within_of (by decide +kernel) w | exact within_bit (by decide +kernel) w | apply keeps_foldl | (intro u; first | (refine keeps_then (W := W) (s0 := s0) (a := u) ?_ ?_; subst u; rotate_left; intro _) | subst u | skip) | lift_lets -underBinder | dsimp -zeta only | split

theorem execFaultReport_keeps {a0 a1 a2 a3} (h : Keeps W s0 s) (w : Within 0x600000000000000000000000000000000000000000000000000000000000000000000000000000000000000000000000000000000000000002008 W) :
    KeepsN W s0 (execFaultReport a0 a1 a2 a3 s) := by
  unfold execFaultReport
  with_reducible repeat' first | assumption | apply keepsN_next | apply State.report_keeps | apply State.nameTier_keeps | exact within_of (by decide +kernel) w | exact within_bit (by decide +kernel) w | apply keeps_foldl | (intro u; first | (refine keeps_then (W := W) (s0 := s0) (a := u) ?_ ?_; subst u; rotate_left; intro _) | subst u | skip) | lift_lets -underBinder | dsimp -zeta only | split

theorem execAggregationWindowClose_keeps {a0} (h : Keeps W s0 s) (w : Within 0xc34000000000000000000000000000000000000000000000000000000000000000000000000000000000000000000000000000000000000000008 W) :
    KeepsN W s0 (execAggregationWindowClose a0 s) := by
  unfold execAggregationWindowClose
  with_reducible repeat' first | assumption | apply keepsN_next | apply State.closeWindow_keeps | exact within_of (by decide +kernel) w | exact within_bit (by decide +kernel) w | apply keeps_foldl | (intro u; first | (refine keeps_then (W := W) (s0 := s0) (a := u) ?_ ?_; subst u; rotate_left; intro _) | subst u | skip) | lift_lets -underBinder | dsimp -zeta only | split

theorem execDieLogWrite_keeps (h : Keeps W s0 s) (w : Within 0xc350000000000000000000000000000000000000cae00000000000000000000000000000000000000000000000000000000000000000000900828 W) :
    KeepsN W s0 (execDieLogWrite s) := by
  unfold execDieLogWrite
  with_reducible repeat' first | assumption | apply keepsN_next | apply State.writeHeld_keeps | apply State.acceptRecord_keeps | exact within_of (by decide +kernel) w | exact within_bit (by decide +kernel) w | apply keeps_foldl | (intro u; first | (refine keeps_then (W := W) (s0 := s0) (a := u) ?_ ?_; subst u; rotate_left; intro _) | subst u | skip) | lift_lets -underBinder | dsimp -zeta only | split

theorem State.logRead_keeps {a1} (h : Keeps W s0 s) (w : Within 0x2000000000000000000000000000000000000000000000000000000000000000000000000000000000000000000000000000000000000000000 W) :
    Keeps W s0 (State.logRead s a1) := by
  unfold State.logRead
  with_reducible repeat' first | assumption | apply State.wr_keeps | exact within_of (by decide +kernel) w | exact within_bit (by decide +kernel) w | apply keeps_foldl | (intro u; first | (refine keeps_then (W := W) (s0 := s0) (a := u) ?_ ?_; subst u; rotate_left; intro _) | subst u | skip) | lift_lets -underBinder | dsimp -zeta only | split

theorem execLogRdWrite_keeps {a0 a1} (h : Keeps W s0 s) (w : Within 0x200000000000000000000000000000000180000000000000003d000000000000000000000000000000000000000000000000000000000810020 W) :
    KeepsN W s0 (execLogRdWrite a0 a1 s) := by
  unfold execLogRdWrite
  with_reducible repeat' first | assumption | apply keepsN_next | apply State.ownedAccess_keeps | apply State.logRead_keeps | exact within_of (by decide +kernel) w | exact within_bit (by decide +kernel) w | apply keeps_foldl | (intro u; first | (refine keeps_then (W := W) (s0 := s0) (a := u) ?_ ?_; subst u; rotate_left; intro _) | subst u | skip) | lift_lets -underBinder | dsimp -zeta only | split

theorem State.clearFirst_keeps (h : Keeps W s0 s) (w : Within 0x30000000000000000000000000000000000000000000000000000000000000000000000000000000000000000000000000000000000000000008 W) :
    Keeps W s0 (State.clearFirst s) := by
  unfold State.clearFirst
  with_reducible repeat' first | assumption | apply State.wr_keeps | exact within_of (by decide +kernel) w | exact within_bit (by decide +kernel) w | exact .inr (within_bit (by decide +kernel) w) | exact .inl rfl | simp -zeta only [keepsMk_iff] | apply keeps_mk | apply keeps_foldl | (intro u; first | (refine keeps_then (W := W) (s0 := s0) (a := u) ?_ ?_; subst u; rotate_left; intro _) | subst u | skip) | lift_lets -underBinder | dsimp -zeta only | split

theorem execFfcClear_keeps {a0} (h : Keeps W s0 s) (w : Within 0x3000000000000000000000000000000000180000000000000003d000000000000000000000000000000000000000000000000000000000810028 W) :
    KeepsN W s0 (execFfcClear a0 s) := by
  unfold execFfcClear
  with_reducible repeat' first | assumption | apply keepsN_next | apply State.ownedAccess_keeps | apply State.clearFirst_keeps | exact within_of (by decide +kernel) w | exact within_bit (by decide +kernel) w | apply keeps_foldl | (intro u; first | (refine keeps_then (W := W) (s0 := s0) (a := u) ?_ ?_; subst u; rotate_left; intro _) | subst u | skip) | lift_lets -underBinder | dsimp -zeta only | split

end Sys2Proof.Machine
end

