-- ==== Sys2Proof/Laws/Keeps/Links.lean ====
section
/-! SUPPORT. Laws/Keeps/Links.lean: what every operation of Machine/Links.lean keeps (the relation of Laws/Keeps.lean). -/
set_option Elab.async false
set_option linter.all false
set_option linter.unusedSimpArgs false
set_option linter.tactic.unusedName false
namespace Sys2Proof.Machine
variable {W : Nat} {s0 s : State}

theorem execTrainingStart_keeps {a0 a1} (h : Keeps W s0 s) (w : Within 0x400006400000cae0000000000000000000000000000000078000000000000042000000000000007e000803de0 W) :
    KeepsN W s0 (execTrainingStart a0 a1 s) := by
  unfold execTrainingStart
  with_reducible repeat' first | assumption | apply keepsN_next | apply State.retrainPort_keeps | exact within_of (by decide +kernel) w | exact within_bit (by decide +kernel) w | apply keeps_foldl | (intro u; first | (refine keeps_then (W := W) (s0 := s0) (a := u) ?_ ?_; subst u; rotate_left; intro _) | subst u | skip) | lift_lets -underBinder | dsimp -zeta only | split

theorem execTrainingDone_keeps {a0 a1} (h : Keeps W s0 s) (w : Within 0x400002c00000cae00000000000000000000000000000000000000000000000000000000000000000001801020 W) :
    KeepsN W s0 (execTrainingDone a0 a1 s) := by
  unfold execTrainingDone
  with_reducible repeat' first | assumption | apply keepsN_next | apply State.sendFullHello_keeps | apply State.setZlMode_keeps | apply State.wr_keeps | exact within_of (by decide +kernel) w | exact within_bit (by decide +kernel) w | apply keeps_foldl | (intro u; first | (refine keeps_then (W := W) (s0 := s0) (a := u) ?_ ?_; subst u; rotate_left; intro _) | subst u | skip) | lift_lets -underBinder | dsimp -zeta only | split

theorem execTrainingTimeout_keeps {a0} (h : Keeps W s0 s) (w : Within 0x3c00000cae00000000000000000000000000000000000000000000000000000000000000000000801020 W) :
    KeepsN W s0 (execTrainingTimeout a0 s) := by
  unfold execTrainingTimeout
  with_reducible repeat' first | assumption | apply keepsN_next | apply State.zlDown_keeps | exact within_of (by decide +kernel) w | exact within_bit (by decide +kernel) w | apply keeps_foldl | (intro u; first | (refine keeps_then (W := W) (s0 := s0) (a := u) ?_ ?_; subst u; rotate_left; intro _) | subst u | skip) | lift_lets -underBinder | dsimp -zeta only | split

theorem State.helloFailed_keeps {a1} (h : Keeps W s0 s) (w : Within 0x6000000000000000000000000000000003c00000cae00000000000000000000000000000000000000000000000000000000000000000000801028 W) :
    Keeps W s0 (State.helloFailed s a1) := by
  unfold State.helloFailed
  with_reducible repeat' first | assumption | apply State.zlDown_keeps | apply State.reportLinkDown_keeps | exact within_of (by decide +kernel) w | exact within_bit (by decide +kernel) w | apply keeps_foldl | (intro u; first | (refine keeps_then (W := W) (s0 := s0) (a := u) ?_ ?_; subst u; rotate_left; intro _) | subst u | skip) | lift_lets -underBinder | dsimp -zeta only | split

theorem execFullHello_keeps {a0 a1 a2} (h : Keeps W s0 s) (w : Within 0x6000000000000000000000000000e01bc3c00000cae0000000000000000000000000000000078000000000000042000000000000007e001803de8 W) :
    KeepsN W s0 (execFullHello a0 a1 a2 s) := by
  unfold execFullHello
  with_reducible repeat' first | assumption | apply keepsN_next | apply State.zlTake_keeps | apply State.sendFullHello_keeps | apply State.setZl_keeps | apply State.acceptHello_keeps | apply State.bump_keeps | apply State.helloFailed_keeps | exact within_of (by decide +kernel) w | exact within_bit (by decide +kernel) w | apply keeps_foldl | (intro u; first | (refine keeps_then (W := W) (s0 := s0) (a := u) ?_ ?_; subst u; rotate_left; intro _) | subst u | skip) | lift_lets -underBinder | dsimp -zeta only | split

theorem execHelloTimeout_keeps {a0} (h : Keeps W s0 s) (w : Within 0x6000000000000000000000000000000003c00000cae00000000000000000000000000000000000000000000000000000000000000000000801028 W) :
    KeepsN W s0 (execHelloTimeout a0 s) := by
  unfold execHelloTimeout
  with_reducible repeat' first | assumption | apply keepsN_next | apply State.helloFailed_keeps | exact within_of (by decide +kernel) w | exact within_bit (by decide +kernel) w | apply keeps_foldl | (intro u; first | (refine keeps_then (W := W) (s0 := s0) (a := u) ?_ ?_; subst u; rotate_left; intro _) | subst u | skip) | lift_lets -underBinder | dsimp -zeta only | split

theorem execShortHello_keeps {a0 a1} (h : Keeps W s0 s) (w : Within 0xc0000000000000000000000000000000000000000000000000000000000000000000000000000000000801000 W) :
    KeepsN W s0 (execShortHello a0 a1 s) := by
  unfold execShortHello
  with_reducible repeat' first | assumption | apply keepsN_next | apply State.zlTake_keeps | apply State.zlLink_keeps | exact within_of (by decide +kernel) w | exact within_bit (by decide +kernel) w | apply keeps_foldl | (intro u; first | (refine keeps_then (W := W) (s0 := s0) (a := u) ?_ ?_; subst u; rotate_left; intro _) | subst u | skip) | lift_lets -underBinder | dsimp -zeta only | split

theorem execHelloReq_keeps {a0} (h : Keeps W s0 s) (w : Within 0xc0000000000000000000000000000000000000000000000000000000000000000000000000000000001801000 W) :
    KeepsN W s0 (execHelloReq a0 s) := by
  unfold execHelloReq
  with_reducible repeat' first | assumption | apply keepsN_next | apply State.sendFullHello_keeps | apply State.zlTake_keeps | exact within_of (by decide +kernel) w | exact within_bit (by decide +kernel) w | apply keeps_foldl | (intro u; first | (refine keeps_then (W := W) (s0 := s0) (a := u) ?_ ?_; subst u; rotate_left; intro _) | subst u | skip) | lift_lets -underBinder | dsimp -zeta only | split

theorem execHelloTimer_keeps {a0} (h : Keeps W s0 s) (w : Within 0x40000000000000000000000000000000000000000000000000000000000000000000000000000000001801000 W) :
    KeepsN W s0 (execHelloTimer a0 s) := by
  unfold execHelloTimer
  with_reducible repeat' first | assumption | apply keepsN_next | apply State.sendFullHello_keeps | apply State.sendShortHello_keeps | exact within_of (by decide +kernel) w | exact within_bit (by decide +kernel) w | apply keeps_foldl | (intro u; first | (refine keeps_then (W := W) (s0 := s0) (a := u) ?_ ?_; subst u; rotate_left; intro _) | subst u | skip) | lift_lets -underBinder | dsimp -zeta only | split

theorem execLinkReplay_keeps {a0 a1} (h : Keeps W s0 s) (w : Within 0x6000000000000000000000000000c00007400000cae0000000000000000000000000000000078000000000000042000000000000007e000803de8 W) :
    KeepsN W s0 (execLinkReplay a0 a1 s) := by
  unfold execLinkReplay
  with_reducible repeat' first | assumption | apply keepsN_next | apply State.zlTake_keeps | apply State.setZl_keeps | apply State.report_keeps | apply State.retrainPort_keeps | apply State.wr_keeps | apply State.zlResend_keeps | exact within_of (by decide +kernel) w | exact within_bit (by decide +kernel) w | apply keeps_foldl | (intro u; first | (refine keeps_then (W := W) (s0 := s0) (a := u) ?_ ?_; subst u; rotate_left; intro _) | subst u | skip) | lift_lets -underBinder | dsimp -zeta only | split

theorem execLaneFail_keeps {a0 a1} (h : Keeps W s0 s) (w : Within 0xfb000000006000000000000000000000000000400007c00000cae00000000000000000000000000000f0078000000000000042000000000000007e000823de8 W) :
    KeepsN W s0 (execLaneFail a0 a1 s) := by
  unfold execLaneFail
  with_reducible repeat' first | assumption | apply keepsN_next | apply State.dropLane_keeps | apply State.zlLink_keeps | exact within_of (by decide +kernel) w | exact within_bit (by decide +kernel) w | apply keeps_foldl | (intro u; first | (refine keeps_then (W := W) (s0 := s0) (a := u) ?_ ?_; subst u; rotate_left; intro _) | subst u | skip) | lift_lets -underBinder | dsimp -zeta only | split

theorem execLaneDrop_keeps {a0 a1 a2} (h : Keeps W s0 s) (w : Within 0xfb000000006000000000000000000000000000c00007c00000cae00000000000000000000000000000f0078000000000000042000000000000007e000823de8 W) :
    KeepsN W s0 (execLaneDrop a0 a1 a2 s) := by
  unfold execLaneDrop
  with_reducible repeat' first | assumption | apply keepsN_next | apply State.zlTake_keeps | apply State.dropLane_keeps | apply State.zlResend_keeps | exact within_of (by decide +kernel) w | exact within_bit (by decide +kernel) w | apply keeps_foldl | (intro u; first | (refine keeps_then (W := W) (s0 := s0) (a := u) ?_ ?_; subst u; rotate_left; intro _) | subst u | skip) | lift_lets -underBinder | dsimp -zeta only | split

theorem execGoodbye_keeps {a0} (h : Keeps W s0 s) (w : Within 0xfb000000006000000000000000000000000000400003c00000cae00000000000000000000000000000f0078000000000000042000000000000007e000823de8 W) :
    KeepsN W s0 (execGoodbye a0 s) := by
  unfold execGoodbye
  with_reducible repeat' first | assumption | apply keepsN_next | apply State.loseLink_keeps | apply State.wr_keeps | apply State.zlDown_keeps | exact within_of (by decide +kernel) w | exact within_bit (by decide +kernel) w | apply keeps_foldl | (intro u; first | (refine keeps_then (W := W) (s0 := s0) (a := u) ?_ ?_; subst u; rotate_left; intro _) | subst u | skip) | lift_lets -underBinder | dsimp -zeta only | split

theorem execPartnerLoss_keeps {a0} (h : Keeps W s0 s) (w : Within 0xfb000000006000000000000000000000000000400003c00000cae00000000000000000000000000000f0078000000000000042000000000000007e000823de8 W) :
    KeepsN W s0 (execPartnerLoss a0 s) := by
  unfold execPartnerLoss
  with_reducible repeat' first | assumption | apply keepsN_next | apply State.loseLink_keeps | exact within_of (by decide +kernel) w | exact within_bit (by decide +kernel) w | apply keeps_foldl | (intro u; first | (refine keeps_then (W := W) (s0 := s0) (a := u) ?_ ?_; subst u; rotate_left; intro _) | subst u | skip) | lift_lets -underBinder | dsimp -zeta only | split

theorem State.retrainWrite_keeps {a1} (h : Keeps W s0 s) (w : Within 0x400006400000cae0000000000000000000000000000000078000000000000042000000000000007e000803de0 W) :
    Keeps W s0 (State.retrainWrite s a1) := by
  unfold State.retrainWrite
  with_reducible repeat' first | assumption | apply State.retrainPort_keeps | exact within_of (by decide +kernel) w | exact within_bit (by decide +kernel) w | apply keeps_foldl | (intro u; first | (refine keeps_then (W := W) (s0 := s0) (a := u) ?_ ?_; subst u; rotate_left; intro _) | subst u | skip) | lift_lets -underBinder | dsimp -zeta only | split

theorem State.disablePort_keeps {a1} (h : Keeps W s0 s) (w : Within 0xfb000000006000000000000000000000000000400003c20000cae00000000000000000000000000000f0078000000000000042000000000000007e000863de8 W) :
    Keeps W s0 (State.disablePort s a1) := by
  unfold State.disablePort
  with_reducible repeat' first | assumption | apply State.noteNv_keeps | apply State.wr_keeps | apply State.loseLink_keeps | apply State.zlLink_keeps | apply State.zlDown_keeps | exact within_of (by decide +kernel) w | exact within_bit (by decide +kernel) w | apply keeps_foldl | (intro u; first | (refine keeps_then (W := W) (s0 := s0) (a := u) ?_ ?_; subst u; rotate_left; intro _) | subst u | skip) | lift_lets -underBinder | dsimp -zeta only | split

theorem execRetrain_keeps {a0 a1} (h : Keeps W s0 s) (w : Within 0x400006418000cae0000000003d00000000000000000000078000000000000042000000000000007e000813de0 W) :
    KeepsN W s0 (execRetrain a0 a1 s) := by
  unfold execRetrain
  with_reducible repeat' first | assumption | apply keepsN_next | apply State.ownedAccess_keeps | apply State.retrainWrite_keeps | exact within_of (by decide +kernel) w | exact within_bit (by decide +kernel) w | apply keeps_foldl | (intro u; first | (refine keeps_then (W := W) (s0 := s0) (a := u) ?_ ?_; subst u; rotate_left; intro _) | subst u | skip) | lift_lets -underBinder | dsimp -zeta only | split

theorem execPortDisable_keeps {a0 a1} (h : Keeps W s0 s) (w : Within 0xfb000000006000000000000000000000000000400003c38000cae0000000003d000000000000000000f0078000000000000042000000000000007e000873de8 W) :
    KeepsN W s0 (execPortDisable a0 a1 s) := by
  unfold execPortDisable
  with_reducible repeat' first | assumption | apply keepsN_next | apply State.ownedAccess_keeps | apply State.disablePort_keeps | exact within_of (by decide +kernel) w | exact within_bit (by decide +kernel) w | apply keeps_foldl | (intro u; first | (refine keeps_then (W := W) (s0 := s0) (a := u) ?_ ?_; subst u; rotate_left; intro _) | subst u | skip) | lift_lets -underBinder | dsimp -zeta only | split

theorem State.takeReturns_keeps {a1 a2} (h : Keeps W s0 s) (w : Within 0x40000000000000000000000000000000000000000000000000000000000000000000000000000000000801000 W) :
    Keeps W s0 (State.takeReturns s a1 a2) := by
  unfold State.takeReturns
  with_reducible repeat' first | assumption | apply State.setZl_keeps | apply State.zlDrain_keeps | exact within_of (by decide +kernel) w | exact within_bit (by decide +kernel) w | apply keeps_foldl | (intro u; first | (refine keeps_then (W := W) (s0 := s0) (a := u) ?_ ?_; subst u; rotate_left; intro _) | subst u | skip) | lift_lets -underBinder | dsimp -zeta only | split

theorem State.refuseFlit_keeps {a1 a2} (h : Keeps W s0 s) (w : Within 0x5c000000000000000000000000000000000000000000000000000000000000000000000000000000000801000 W) :
    Keeps W s0 (State.refuseFlit s a1 a2) := by
  unfold State.refuseFlit
  with_reducible repeat' first | assumption | apply State.bump_keeps | apply State.zlLink_keeps | apply State.setZl_keeps | exact within_of (by decide +kernel) w | exact within_bit (by decide +kernel) w | apply keeps_foldl | (intro u; first | (refine keeps_then (W := W) (s0 := s0) (a := u) ?_ ?_; subst u; rotate_left; intro _) | subst u | skip) | lift_lets -underBinder | dsimp -zeta only | split

theorem State.dropMsg_keeps {a1 a2} (h : Keeps W s0 s) (w : Within 0x600000000000000000000000000000000000000000000000000000000000000000000000000000000000000000000000000000000000000000008 W) :
    Keeps W s0 (State.dropMsg s a1 a2) := by
  unfold State.dropMsg
  with_reducible repeat' first | assumption | apply State.report_keeps | exact within_of (by decide +kernel) w | exact within_bit (by decide +kernel) w | apply keeps_foldl | (intro u; first | (refine keeps_then (W := W) (s0 := s0) (a := u) ?_ ?_; subst u; rotate_left; intro _) | subst u | skip) | lift_lets -underBinder | dsimp -zeta only | split

theorem State.injectMsg_keeps {a1 a2 a3 a4} (h : Keeps W s0 s) (w : Within 0x6000000000000000000000000000400000000000000000000000000000000000000000000000000000e0000800420020000000000000000a01d08 W) :
    Keeps W s0 (State.injectMsg s a1 a2 a3 a4) := by
  unfold State.injectMsg
  with_reducible repeat' first | assumption | apply State.routeFlit_keeps | exact within_of (by decide +kernel) w | exact within_bit (by decide +kernel) w | apply keeps_foldl | (intro u; first | (refine keeps_then (W := W) (s0 := s0) (a := u) ?_ ?_; subst u; rotate_left; intro _) | subst u | skip) | lift_lets -underBinder | dsimp -zeta only | split

theorem State.chainBarrierMsg_keeps {a1 a2 a3 a4} (h : Keeps W s0 s) (w : Within 0x40000000000000000000000000000000000000000000000000000040000000000000000000000000000801800 W) :
    Keeps W s0 (State.chainBarrierMsg s a1 a2 a3 a4) := by
  unfold State.chainBarrierMsg
  with_reducible repeat' first | assumption | apply State.forEach_keeps | apply State.zlMsg_keeps | apply State.chainArrive_keeps | apply State.bump_keeps | apply State.sendRelease_keeps | exact within_of (by decide +kernel) w | exact within_bit (by decide +kernel) w | apply keeps_foldl | (intro u; first | (refine keeps_then (W := W) (s0 := s0) (a := u) ?_ ?_; subst u; rotate_left; intro _) | subst u | skip) | lift_lets -underBinder | dsimp -zeta only | split

theorem State.chainCancel_keeps {a1 a2 a3} (h : Keeps W s0 s) (w : Within 0x40000000000000000000000000000000000000000000000000000000000000420000000000000000000801d00 W) :
    Keeps W s0 (State.chainCancel s a1 a2 a3) := by
  unfold State.chainCancel
  with_reducible repeat' first | assumption | apply State.dropWork_keeps | apply State.forEach_keeps | apply State.zlMsg_keeps | exact within_of (by decide +kernel) w | exact within_bit (by decide +kernel) w | apply keeps_foldl | (intro u; first | (refine keeps_then (W := W) (s0 := s0) (a := u) ?_ ?_; subst u; rotate_left; intro _) | subst u | skip) | lift_lets -underBinder | dsimp -zeta only | split

theorem State.fixedMsg_keeps {a1 a2 a3 a4} (h : Keeps W s0 s) (w : Within 0x6000000000000000000000000000400000000000000000000000000000000000000000000000000000e0000800420020000000000000000a01d08 W) :
    Keeps W s0 (State.fixedMsg s a1 a2 a3 a4) := by
  unfold State.fixedMsg
  with_reducible repeat' first | assumption | apply State.chainBarrierMsg_keeps | apply State.chainCancel_keeps | apply State.dropMsg_keeps | apply State.injectMsg_keeps | exact within_of (by decide +kernel) w | exact within_bit (by decide +kernel) w | apply keeps_foldl | (intro u; first | (refine keeps_then (W := W) (s0 := s0) (a := u) ?_ ?_; subst u; rotate_left; intro _) | subst u | skip) | lift_lets -underBinder | dsimp -zeta only | split

theorem State.deliverMsg_keeps {a1 a2} (h : Keeps W s0 s) (w : Within 0x6000000000000000000000000000400000000000000000000000000000000000000000000000000000e0000800420020000000000000000a01d08 W) :
    Keeps W s0 (State.deliverMsg s a1 a2) := by
  unfold State.deliverMsg
  with_reducible repeat' first | assumption | apply State.dropMsg_keeps | apply State.fixedMsg_keeps | apply State.injectMsg_keeps | exact within_of (by decide +kernel) w | exact within_bit (by decide +kernel) w | apply keeps_foldl | (intro u; first | (refine keeps_then (W := W) (s0 := s0) (a := u) ?_ ?_; subst u; rotate_left; intro _) | subst u | skip) | lift_lets -underBinder | dsimp -zeta only | split

theorem execMsg_keeps {a0 a1 a2} (h : Keeps W s0 s) (w : Within 0x6000080000000000000000000000de0000000000000000000000000000000000000000000000000000e0000800420020000000000000000a11d08 W) :
    KeepsN W s0 (execMsg a0 a1 a2 s) := by
  unfold execMsg
  with_reducible repeat' first | assumption | apply keepsN_next | apply State.refuseFlit_keeps | apply State.bump_keeps | apply State.deliverMsg_keeps | apply State.autowake_keeps | apply State.takeReturns_keeps | apply State.zlTake_keeps | exact within_of (by decide +kernel) w | exact within_bit (by decide +kernel) w | apply keeps_foldl | (intro u; first | (refine keeps_then (W := W) (s0 := s0) (a := u) ?_ ?_; subst u; rotate_left; intro _) | subst u | skip) | lift_lets -underBinder | dsimp -zeta only | split

theorem execChainWaitTimeout_keeps {a0} (h : Keeps W s0 s) (w : Within 0x4000000000000000000000000000000000000000000000078000000000000042000000000000007e000803dc0 W) :
    KeepsN W s0 (execChainWaitTimeout a0 s) := by
  unfold execChainWaitTimeout
  with_reducible repeat' first | assumption | apply keepsN_next | apply State.chainExpire_keeps | exact within_of (by decide +kernel) w | exact within_bit (by decide +kernel) w | apply keeps_foldl | (intro u; first | (refine keeps_then (W := W) (s0 := s0) (a := u) ?_ ?_; subst u; rotate_left; intro _) | subst u | skip) | lift_lets -underBinder | dsimp -zeta only | split

end Sys2Proof.Machine
end

