-- ==== Sys2Proof/Laws/Keeps/Peg.lean ====
section
/-! SUPPORT. Laws/Keeps/Peg.lean: what every operation of Machine/Peg.lean keeps (the relation of Laws/Keeps.lean). -/
set_option Elab.async false
set_option linter.all false
set_option linter.unusedSimpArgs false
set_option linter.tactic.unusedName false
namespace Sys2Proof.Machine
variable {W : Nat} {s0 s : State}

theorem State.tierDue_keeps {a1 a2} (h : Keeps W s0 s) (w : Within 0x2000 W) :
    Keeps W s0 (State.tierDue s a1 a2) := by
  unfold State.tierDue
  with_reducible repeat' first | assumption | apply State.setJobs_keeps | exact within_of (by decide +kernel) w | exact within_bit (by decide +kernel) w | exact .inr (within_bit (by decide +kernel) w) | exact .inl rfl | simp -zeta only [keepsMk_iff] | apply keeps_mk | apply keeps_foldl | (intro u; first | (refine keeps_then (W := W) (s0 := s0) (a := u) ?_ ?_; subst u; rotate_left; intro _) | subst u | skip) | lift_lets -underBinder | dsimp -zeta only | split

theorem execTierDue_keeps {a0 a1 a2} (h : Keeps W s0 s) (w : Within 0x2000 W) :
    KeepsN W s0 (execTierDue a0 a1 a2 s) := by
  unfold execTierDue
  with_reducible repeat' first | assumption | apply keepsN_next | apply State.tierDue_keeps | exact within_of (by decide +kernel) w | exact within_bit (by decide +kernel) w | apply keeps_foldl | (intro u; first | (refine keeps_then (W := W) (s0 := s0) (a := u) ?_ ?_; subst u; rotate_left; intro _) | subst u | skip) | lift_lets -underBinder | dsimp -zeta only | split

theorem execTierOverdue_keeps {a0 a1 a2} (h : Keeps W s0 s) (w : Within 0x8000000000000000000000000000000000000000000000000000000000000000000000000000000000000000002000 W) :
    KeepsN W s0 (execTierOverdue a0 a1 a2 s) := by
  unfold execTierOverdue
  with_reducible repeat' first | assumption | apply keepsN_next | apply State.bump_keeps | exact within_of (by decide +kernel) w | exact within_bit (by decide +kernel) w | exact .inr (within_bit (by decide +kernel) w) | exact .inl rfl | simp -zeta only [keepsMk_iff] | apply keeps_mk | apply keeps_foldl | (intro u; first | (refine keeps_then (W := W) (s0 := s0) (a := u) ?_ ?_; subst u; rotate_left; intro _) | subst u | skip) | lift_lets -underBinder | dsimp -zeta only | split

theorem State.noteProbe_keeps {a1 a2} (h : Keeps W s0 s) (w : Within 0x800000000000000000000000000000000000000000000000000000000000000000000000000000000000000002000 W) :
    Keeps W s0 (State.noteProbe s a1 a2) := by
  unfold State.noteProbe
  with_reducible repeat' first | assumption | apply State.wr_keeps | exact within_of (by decide +kernel) w | exact within_bit (by decide +kernel) w | exact .inr (within_bit (by decide +kernel) w) | exact .inl rfl | simp -zeta only [keepsMk_iff] | apply keeps_mk | apply keeps_foldl | (intro u; first | (refine keeps_then (W := W) (s0 := s0) (a := u) ?_ ?_; subst u; rotate_left; intro _) | subst u | skip) | lift_lets -underBinder | dsimp -zeta only | split

theorem State.probe_keeps {a1 a2 a3} (h : Keeps W s0 s) (w : Within 0x1800000000000000000000000000000000000000000000000000000000000000000000000000000000000000002000 W) :
    Keeps W s0 (State.probe s a1 a2 a3) := by
  unfold State.probe
  with_reducible repeat' first | assumption | apply State.bump_keeps | apply State.noteProbe_keeps | apply State.setJobs_keeps | exact within_of (by decide +kernel) w | exact within_bit (by decide +kernel) w | apply keeps_foldl | (intro u; first | (refine keeps_then (W := W) (s0 := s0) (a := u) ?_ ?_; subst u; rotate_left; intro _) | subst u | skip) | lift_lets -underBinder | dsimp -zeta only | split

theorem execProbePass_keeps {a0 a1 a2} (h : Keeps W s0 s) (w : Within 0x9800000000000000000000000000000000000000000000000000000000000000000000000000000000000000002000 W) :
    KeepsN W s0 (execProbePass a0 a1 a2 s) := by
  unfold execProbePass
  with_reducible repeat' first | assumption | apply keepsN_next | apply State.unit_keeps | apply State.probe_keeps | apply State.noteProbe_keeps | exact within_of (by decide +kernel) w | exact within_bit (by decide +kernel) w | apply keeps_foldl | (intro u; first | (refine keeps_then (W := W) (s0 := s0) (a := u) ?_ ?_; subst u; rotate_left; intro _) | subst u | skip) | lift_lets -underBinder | dsimp -zeta only | split

theorem State.readSlot_keeps {a1 a2 a3 a4} (h : Keeps W s0 s) (w : Within 0x600000000000000000000004800000000000000000000000000000000000000000000000000000000000000000000000000000000660000002288 W) :
    Keeps W s0 (State.readSlot s a1 a2 a3 a4) := by
  unfold State.readSlot
  with_reducible repeat' first | assumption | apply State.putJob_keeps | apply State.judgeTier_keeps | apply State.noteProbe_keeps | exact within_of (by decide +kernel) w | exact within_bit (by decide +kernel) w | apply keeps_foldl | (intro u; first | (refine keeps_then (W := W) (s0 := s0) (a := u) ?_ ?_; subst u; rotate_left; intro _) | subst u | skip) | lift_lets -underBinder | dsimp -zeta only | split

theorem execVerifyRead_keeps {a0 a1 a2 a3} (h : Keeps W s0 s) (w : Within 0x60000000000000000000000c800000000000000000000000000000000000000000000000000000000000000000000000000000000660000002288 W) :
    KeepsN W s0 (execVerifyRead a0 a1 a2 a3 s) := by
  unfold execVerifyRead
  with_reducible repeat' first | assumption | apply keepsN_next | apply State.unit_keeps | apply State.readSlot_keeps | exact within_of (by decide +kernel) w | exact within_bit (by decide +kernel) w | apply keeps_foldl | (intro u; first | (refine keeps_then (W := W) (s0 := s0) (a := u) ?_ ?_; subst u; rotate_left; intro _) | subst u | skip) | lift_lets -underBinder | dsimp -zeta only | split

theorem execRetuneSlot_keeps {a0 a1 a2 a3} (h : Keeps W s0 s) (w : Within 0x60000000000000000000000e000000000000000000000000000000000000000000000000000000000000000000000000000000100260000002088 W) :
    KeepsN W s0 (execRetuneSlot a0 a1 a2 a3 s) := by
  unfold execRetuneSlot
  with_reducible repeat' first | assumption | apply keepsN_next | apply State.unit_keeps | apply State.retuneRow_keeps | exact within_of (by decide +kernel) w | exact within_bit (by decide +kernel) w | apply keeps_foldl | (intro u; first | (refine keeps_then (W := W) (s0 := s0) (a := u) ?_ ?_; subst u; rotate_left; intro _) | subst u | skip) | lift_lets -underBinder | dsimp -zeta only | split

theorem State.finishRestExit_keeps (h : Keeps W s0 s) (w : Within 0x8000000000000000000000000000000000000000000000000000007000000000000000000000000000000000000000000000000000092000 W) :
    Keeps W s0 (State.finishRestExit s) := by
  unfold State.finishRestExit
  with_reducible repeat' first | assumption | apply State.wr_keeps | apply State.startSweep_keeps | exact within_of (by decide +kernel) w | exact within_bit (by decide +kernel) w | exact .inr (within_bit (by decide +kernel) w) | exact .inl rfl | simp -zeta only [keepsMk_iff] | apply keeps_mk | apply keeps_foldl | (intro u; first | (refine keeps_then (W := W) (s0 := s0) (a := u) ?_ ?_; subst u; rotate_left; intro _) | subst u | skip) | lift_lets -underBinder | dsimp -zeta only | split

theorem execFullVerifySweep_keeps {a0} (h : Keeps W s0 s) (w : Within 0x600008000000000000000006000000000000000000000000000000000007000000000000000000000000000000000000000000100260000192288 W) :
    KeepsN W s0 (execFullVerifySweep a0 s) := by
  unfold execFullVerifySweep
  with_reducible repeat' first | assumption | apply keepsN_next | apply State.finishRestExit_keeps | apply State.forEach_keeps | apply State.treatTier_keeps | exact within_of (by decide +kernel) w | exact within_bit (by decide +kernel) w | apply keeps_foldl | (intro u; first | (refine keeps_then (W := W) (s0 := s0) (a := u) ?_ ?_; subst u; rotate_left; intro _) | subst u | skip) | lift_lets -underBinder | dsimp -zeta only | split

theorem State.settleSpares_keeps (h : Keeps W s0 s) (w : Within 0x80000000000000000400000000000000 W) :
    Keeps W s0 (State.settleSpares s) := by
  unfold State.settleSpares
  with_reducible repeat' first | assumption | apply State.forEach_keeps | apply State.settleSpareArray_keeps | apply State.settleSpareCore_keeps | exact within_of (by decide +kernel) w | exact within_bit (by decide +kernel) w | apply keeps_foldl | (intro u; first | (refine keeps_then (W := W) (s0 := s0) (a := u) ?_ ?_; subst u; rotate_left; intro _) | subst u | skip) | lift_lets -underBinder | dsimp -zeta only | split

theorem execSweepComplete_keeps (h : Keeps W s0 s) (w : Within 0x18000000000004000000000000000000000000000000000000000007000000000000000000000000080000000000000000400000000062020 W) :
    KeepsN W s0 (execSweepComplete s) := by
  unfold execSweepComplete
  with_reducible repeat' first | assumption | apply keepsN_next | apply State.endChipRung_keeps | apply State.settleSpares_keeps | apply State.wr_keeps | apply State.leaveLimited_keeps | exact within_of (by decide +kernel) w | exact within_bit (by decide +kernel) w | exact .inr (within_bit (by decide +kernel) w) | exact .inl rfl | simp -zeta only [keepsMk_iff] | apply keeps_mk | apply keeps_foldl | (intro u; first | (refine keeps_then (W := W) (s0 := s0) (a := u) ?_ ?_; subst u; rotate_left; intro _) | subst u | skip) | lift_lets -underBinder | dsimp -zeta only | split

end Sys2Proof.Machine
end

