-- ==== Sys2Proof/Laws/Keeps/Power.lean ====
section
/-! SUPPORT. Laws/Keeps/Power.lean: what every operation of Machine/Power.lean keeps (the relation of Laws/Keeps.lean). -/
set_option Elab.async false
set_option linter.all false
set_option linter.unusedSimpArgs false
set_option linter.tactic.unusedName false
namespace Sys2Proof.Machine
variable {W : Nat} {s0 s : State}

theorem State.failSensor_keeps {a1} (h : Keeps W s0 s) (w : Within 0x600000000010000000000000000000000000000000000000000000000000000000000000000000000000000000000000000000000000000000008 W) :
    Keeps W s0 (State.failSensor s a1) := by
  unfold State.failSensor
  with_reducible repeat' first | assumption | apply State.report_keeps | apply State.wr_keeps | exact within_of (by decide +kernel) w | exact within_bit (by decide +kernel) w | apply keeps_foldl | (intro u; first | (refine keeps_then (W := W) (s0 := s0) (a := u) ?_ ?_; subst u; rotate_left; intro _) | subst u | skip) | lift_lets -underBinder | dsimp -zeta only | split

theorem State.takeReading_keeps {a1 a2} (h : Keeps W s0 s) (w : Within 0xc000000000000000000000000000000000000000000000000000000000000000000000000000000000000000000000000000010000 W) :
    Keeps W s0 (State.takeReading s a1 a2) := by
  unfold State.takeReading
  with_reducible repeat' first | assumption | apply State.wr_keeps | apply State.setSensor_keeps | exact within_of (by decide +kernel) w | exact within_bit (by decide +kernel) w | apply keeps_foldl | (intro u; first | (refine keeps_then (W := W) (s0 := s0) (a := u) ?_ ?_; subst u; rotate_left; intro _) | subst u | skip) | lift_lets -underBinder | dsimp -zeta only | split

theorem State.sample_keeps {a1 a2} (h : Keeps W s0 s) (w : Within 0x60018000c7fc0000000000001000000000000000cae00000000000000007000000000000000000000000000000000000000000000000000812028 W) :
    Keeps W s0 (State.sample s a1 a2) := by
  unfold State.sample
  with_reducible repeat' first | assumption | apply State.takeReading_keeps | apply State.failSensor_keeps | apply State.settleCooling_keeps | apply State.judgeCourseHeat_keeps | apply State.judgeHeat_keeps | apply State.trip_keeps | exact within_of (by decide +kernel) w | exact within_bit (by decide +kernel) w | apply keeps_foldl | (intro u; first | (refine keeps_then (W := W) (s0 := s0) (a := u) ?_ ?_; subst u; rotate_left; intro _) | subst u | skip) | lift_lets -underBinder | dsimp -zeta only | split

theorem execSensorSample_keeps {a0 a1} (h : Keeps W s0 s) (w : Within 0x60018000c7fc0000000000001000000000000000cae00000000000000007000000000000000000000000000000000000000000000000000812028 W) :
    KeepsN W s0 (execSensorSample a0 a1 s) := by
  unfold execSensorSample
  with_reducible repeat' first | assumption | apply keepsN_next | apply State.sample_keeps | exact within_of (by decide +kernel) w | exact within_bit (by decide +kernel) w | apply keeps_foldl | (intro u; first | (refine keeps_then (W := W) (s0 := s0) (a := u) ?_ ?_; subst u; rotate_left; intro _) | subst u | skip) | lift_lets -underBinder | dsimp -zeta only | split

theorem execPowerInterval_keeps {a0 a1} (h : Keeps W s0 s) (w : Within 0x76800000000000000000000000000000000000000000000000000000000000000000000000000000000000000000000000000000010000 W) :
    KeepsN W s0 (execPowerInterval a0 a1 s) := by
  unfold execPowerInterval
  with_reducible repeat' first | assumption | apply keepsN_next | apply State.powerStep_keeps | exact within_of (by decide +kernel) w | exact within_bit (by decide +kernel) w | apply keeps_foldl | (intro u; first | (refine keeps_then (W := W) (s0 := s0) (a := u) ?_ ?_; subst u; rotate_left; intro _) | subst u | skip) | lift_lets -underBinder | dsimp -zeta only | split

theorem execCapAlert_keeps (h : Keeps W s0 s) (w : Within 0x17800000000000000000000000000000000000000000000000000000000000000000000000000000000000000000000000000000000000 W) :
    KeepsN W s0 (execCapAlert s) := by
  unfold execCapAlert
  with_reducible repeat' first | assumption | apply keepsN_next | apply State.wr_keeps | apply State.showCapped_keeps | apply State.lowerFp_keeps | exact within_of (by decide +kernel) w | exact within_bit (by decide +kernel) w | apply keeps_foldl | (intro u; first | (refine keeps_then (W := W) (s0 := s0) (a := u) ?_ ?_; subst u; rotate_left; intro _) | subst u | skip) | lift_lets -underBinder | dsimp -zeta only | split

theorem execCapAlertDeassert_keeps (h : Keeps W s0 s) (w : Within 0x1000000000000000000000000000000000000000000000000000000000000000000000000000000000000000000000000000000000000 W) :
    KeepsN W s0 (execCapAlertDeassert s) := by
  unfold execCapAlertDeassert
  with_reducible repeat' first | assumption | apply keepsN_next | apply State.wr_keeps | exact within_of (by decide +kernel) w | exact within_bit (by decide +kernel) w | apply keeps_foldl | (intro u; first | (refine keeps_then (W := W) (s0 := s0) (a := u) ?_ ?_; subst u; rotate_left; intro _) | subst u | skip) | lift_lets -underBinder | dsimp -zeta only | split

theorem execTrayCapSet_keeps {a0 a1} (h : Keeps W s0 s) (w : Within 0x300000000000000000000000000000000000000000000000000000000000000000000000000000000000000000000000000000000000000 W) :
    KeepsN W s0 (execTrayCapSet a0 a1 s) := by
  unfold execTrayCapSet
  with_reducible repeat' first | assumption | apply keepsN_next | apply State.wr_keeps | exact within_of (by decide +kernel) w | exact within_bit (by decide +kernel) w | apply keeps_foldl | (intro u; first | (refine keeps_then (W := W) (s0 := s0) (a := u) ?_ ?_; subst u; rotate_left; intro _) | subst u | skip) | lift_lets -underBinder | dsimp -zeta only | split

theorem execScanStall_keeps {a0} (h : Keeps W s0 s) (w : Within 0x180004000000000000000000000000000000000000000000000000000000000000000000000000000000000000000000000000000000810000 W) :
    KeepsN W s0 (execScanStall a0 s) := by
  unfold execScanStall
  with_reducible repeat' first | assumption | apply keepsN_next | apply State.trip_keeps | exact within_of (by decide +kernel) w | exact within_bit (by decide +kernel) w | apply keeps_foldl | (intro u; first | (refine keeps_then (W := W) (s0 := s0) (a := u) ?_ ?_; subst u; rotate_left; intro _) | subst u | skip) | lift_lets -underBinder | dsimp -zeta only | split

theorem State.ackTrips_keeps {a1} (h : Keeps W s0 s) (w : Within 0x480000000000000000000000000000000000000000000000000000003000000000000000000000000000000000000000000000000000040000 W) :
    Keeps W s0 (State.ackTrips s a1) := by
  unfold State.ackTrips
  with_reducible repeat' first | assumption | apply State.wr_keeps | apply State.leaveLimited_keeps | apply State.noteNv_keeps | exact within_of (by decide +kernel) w | exact within_bit (by decide +kernel) w | apply keeps_foldl | (intro u; first | (refine keeps_then (W := W) (s0 := s0) (a := u) ?_ ?_; subst u; rotate_left; intro _) | subst u | skip) | lift_lets -underBinder | dsimp -zeta only | split

theorem execTripAck_keeps {a0 a1} (h : Keeps W s0 s) (w : Within 0x48000000000000000000000000000000180000000000000003d000003000000000000000000000000000000000000000000000000000850020 W) :
    KeepsN W s0 (execTripAck a0 a1 s) := by
  unfold execTripAck
  with_reducible repeat' first | assumption | apply keepsN_next | apply State.ownedAccess_keeps | apply State.ackTrips_keeps | exact within_of (by decide +kernel) w | exact within_bit (by decide +kernel) w | apply keeps_foldl | (intro u; first | (refine keeps_then (W := W) (s0 := s0) (a := u) ?_ ?_; subst u; rotate_left; intro _) | subst u | skip) | lift_lets -underBinder | dsimp -zeta only | split

theorem execIdleGate_keeps {a0} (h : Keeps W s0 s) (w : Within 0x10000 W) :
    KeepsN W s0 (execIdleGate a0 s) := by
  unfold execIdleGate
  with_reducible repeat' first | assumption | apply keepsN_next | exact within_of (by decide +kernel) w | exact within_bit (by decide +kernel) w | exact .inr (within_bit (by decide +kernel) w) | exact .inl rfl | simp -zeta only [keepsMk_iff] | apply keeps_mk | apply keeps_foldl | (intro u; first | (refine keeps_then (W := W) (s0 := s0) (a := u) ?_ ?_; subst u; rotate_left; intro _) | subst u | skip) | lift_lets -underBinder | dsimp -zeta only | split

theorem State.napWrite_keeps {a1 a2} (h : Keeps W s0 s) (w : Within 0x18000000000004000000000000000000000000000000000000000001000000000000000000000000000000000000000000000000000000020 W) :
    Keeps W s0 (State.napWrite s a1 a2) := by
  unfold State.napWrite
  with_reducible repeat' first | assumption | apply State.stop_keeps | apply State.setNapBit_keeps | apply State.undeferStop_keeps | exact within_of (by decide +kernel) w | exact within_bit (by decide +kernel) w | apply keeps_foldl | (intro u; first | (refine keeps_then (W := W) (s0 := s0) (a := u) ?_ ?_; subst u; rotate_left; intro _) | subst u | skip) | lift_lets -underBinder | dsimp -zeta only | split

theorem execCourseNap_keeps {a0 a1 a2} (h : Keeps W s0 s) (w : Within 0x1800000000000400000000000000000180000000000000003d000001000000000000000000000000000000000000000000000000000810020 W) :
    KeepsN W s0 (execCourseNap a0 a1 a2 s) := by
  unfold execCourseNap
  with_reducible repeat' first | assumption | apply keepsN_next | apply State.ownedAccess_keeps | apply State.napWrite_keeps | exact within_of (by decide +kernel) w | exact within_bit (by decide +kernel) w | apply keeps_foldl | (intro u; first | (refine keeps_then (W := W) (s0 := s0) (a := u) ?_ ?_; subst u; rotate_left; intro _) | subst u | skip) | lift_lets -underBinder | dsimp -zeta only | split

theorem State.pstateFields_keeps {a1 a2} (h : Keeps W s0 s) (w : Within 0x6000000000000000000000000000000000000000000000000000000000000000000000000000000000000000000000000000000000000000 W) :
    Keeps W s0 (State.pstateFields s a1 a2) := by
  unfold State.pstateFields
  with_reducible repeat' first | assumption | apply State.wr_keeps | exact within_of (by decide +kernel) w | exact within_bit (by decide +kernel) w | apply keeps_foldl | (intro u; first | (refine keeps_then (W := W) (s0 := s0) (a := u) ?_ ?_; subst u; rotate_left; intro _) | subst u | skip) | lift_lets -underBinder | dsimp -zeta only | split

theorem State.commandNap_keeps {a1} (h : Keeps W s0 s) (w : Within 0x1e000000000004000000000000000000000000000000000000000001000000000000000000000000000000000000000000000000000000020 W) :
    Keeps W s0 (State.commandNap s a1) := by
  unfold State.commandNap
  with_reducible repeat' first | assumption | apply State.stop_keeps | apply State.pstateFields_keeps | exact within_of (by decide +kernel) w | exact within_bit (by decide +kernel) w | apply keeps_foldl | (intro u; first | (refine keeps_then (W := W) (s0 := s0) (a := u) ?_ ?_; subst u; rotate_left; intro _) | subst u | skip) | lift_lets -underBinder | dsimp -zeta only | split

theorem State.commandRest_keeps {a1} (h : Keeps W s0 s) (w : Within 0x1e000000000004000000000000000000000000000000000000000001000000000000000000000000000000000000000000000000000000020 W) :
    Keeps W s0 (State.commandRest s a1) := by
  unfold State.commandRest
  with_reducible repeat' first | assumption | apply State.stop_keeps | apply State.pstateFields_keeps | exact within_of (by decide +kernel) w | exact within_bit (by decide +kernel) w | apply keeps_foldl | (intro u; first | (refine keeps_then (W := W) (s0 := s0) (a := u) ?_ ?_; subst u; rotate_left; intro _) | subst u | skip) | lift_lets -underBinder | dsimp -zeta only | split

theorem State.commandActive_keeps {a1 a2} (h : Keeps W s0 s) (w : Within 0x113027f80624c38000fe7c03f3721e080193f1fffc46671ffc00fe1bc701b01fdffc00e7fffe3f7f0de700fffffe0003800fffffc0fc01f81ffffbffff00870f877ff006dbdfe W) :
    Keeps W s0 (State.commandActive s a1 a2) := by
  unfold State.commandActive
  with_reducible repeat' first | assumption | apply State.undeferStop_keeps | apply State.pstateFields_keeps | apply State.wr_keeps | apply State.exitRest_keeps | exact within_of (by decide +kernel) w | exact within_bit (by decide +kernel) w | exact .inr (within_bit (by decide +kernel) w) | exact .inl rfl | simp -zeta only [keepsMk_iff] | apply keeps_mk | apply keeps_foldl | (intro u; first | (refine keeps_then (W := W) (s0 := s0) (a := u) ?_ ?_; subst u; rotate_left; intro _) | subst u | skip) | lift_lets -underBinder | dsimp -zeta only | split

theorem State.commanded_keeps {a1 a2 a3} (h : Keeps W s0 s) (w : Within 0x180000000000000003d000000000000000000000000000000000000000000000000000000000810020 W) (h3 : ∀ a, Keeps W s0 a → Keeps W s0 (a3 a)) :
    Keeps W s0 (State.commanded s a1 a2 a3) := by
  unfold State.commanded
  with_reducible repeat' first | assumption | apply h3 | apply State.ownedAccess_keeps | exact within_of (by decide +kernel) w | exact within_bit (by decide +kernel) w | apply keeps_foldl | (intro u; first | (refine keeps_then (W := W) (s0 := s0) (a := u) ?_ ?_; subst u; rotate_left; intro _) | subst u | skip) | lift_lets -underBinder | dsimp -zeta only | split

theorem execPstateNap_keeps {a0 a1} (h : Keeps W s0 s) (w : Within 0x1e00000000000400000000000000000180000000000000003d000001000000000000000000000000000000000000000000000000000810020 W) :
    KeepsN W s0 (execPstateNap a0 a1 s) := by
  unfold execPstateNap
  with_reducible repeat' first | assumption | apply keepsN_next | apply State.ownedAccess_keeps | apply State.commandNap_keeps | exact within_of (by decide +kernel) w | exact within_bit (by decide +kernel) w | apply keeps_foldl | (intro u; first | (refine keeps_then (W := W) (s0 := s0) (a := u) ?_ ?_; subst u; rotate_left; intro _) | subst u | skip) | lift_lets -underBinder | dsimp -zeta only | split

theorem execNapEntryComplete_keeps (h : Keeps W s0 s) (w : Within 0x8000000000000000000000000000000000000000000000000000000000000000000000000000000000000000000000000000000000010000 W) :
    KeepsN W s0 (execNapEntryComplete s) := by
  unfold execNapEntryComplete
  with_reducible repeat' first | assumption | apply keepsN_next | apply State.wr_keeps | exact within_of (by decide +kernel) w | exact within_bit (by decide +kernel) w | exact .inr (within_bit (by decide +kernel) w) | exact .inl rfl | simp -zeta only [keepsMk_iff] | apply keeps_mk | apply keeps_foldl | (intro u; first | (refine keeps_then (W := W) (s0 := s0) (a := u) ?_ ?_; subst u; rotate_left; intro _) | subst u | skip) | lift_lets -underBinder | dsimp -zeta only | split

theorem execPstateRest_keeps {a0 a1} (h : Keeps W s0 s) (w : Within 0x1e00000000000400000000000000000180000000000000003d000001000000000000000000000000000000000000000000000000000810020 W) :
    KeepsN W s0 (execPstateRest a0 a1 s) := by
  unfold execPstateRest
  with_reducible repeat' first | assumption | apply keepsN_next | apply State.commanded_keeps | apply State.commandRest_keeps | exact within_of (by decide +kernel) w | exact within_bit (by decide +kernel) w | apply keeps_foldl | (intro u; first | (refine keeps_then (W := W) (s0 := s0) (a := u) ?_ ?_; subst u; rotate_left; intro _) | subst u | skip) | lift_lets -underBinder | dsimp -zeta only | split

theorem execRestEntry_keeps (h : Keeps W s0 s) (w : Within 0xfb000000000000080000000000000000000000400003c00000cae00000000000000001000000000000fc478000000000000042002000000000067e000fa3de8 W) :
    KeepsN W s0 (execRestEntry s) := by
  unfold execRestEntry
  with_reducible repeat' first | assumption | apply keepsN_next | apply State.enterRest_keeps | exact within_of (by decide +kernel) w | exact within_bit (by decide +kernel) w | apply keeps_foldl | (intro u; first | (refine keeps_then (W := W) (s0 := s0) (a := u) ?_ ?_; subst u; rotate_left; intro _) | subst u | skip) | lift_lets -underBinder | dsimp -zeta only | split

theorem execPstateActive_keeps {a0 a1} (h : Keeps W s0 s) (w : Within 0x113027f80624c38000fe7c03f3721e080193f1fffc46671ffc00fe1bc701b01fdffc00e7fffe3f7f0de700fffffe0003800fffffc0fc01f81ffffbffff00870f877ff00edbdfe W) :
    KeepsN W s0 (execPstateActive a0 a1 s) := by
  unfold execPstateActive
  with_reducible repeat' first | assumption | apply keepsN_next | apply State.commanded_keeps | apply State.commandActive_keeps | exact within_of (by decide +kernel) w | exact within_bit (by decide +kernel) w | apply keeps_foldl | (intro u; first | (refine keeps_then (W := W) (s0 := s0) (a := u) ?_ ?_; subst u; rotate_left; intro _) | subst u | skip) | lift_lets -underBinder | dsimp -zeta only | split

theorem execNapExitComplete_keeps (h : Keeps W s0 s) (w : Within 0x8000000000000000000000000000000000000000000000000000007000000000000000000000000000000007000000000000020000612480 W) :
    KeepsN W s0 (execNapExitComplete s) := by
  unfold execNapExitComplete
  with_reducible repeat' first | assumption | apply keepsN_next | apply State.leaveNap_keeps | exact within_of (by decide +kernel) w | exact within_bit (by decide +kernel) w | apply keeps_foldl | (intro u; first | (refine keeps_then (W := W) (s0 := s0) (a := u) ?_ ?_; subst u; rotate_left; intro _) | subst u | skip) | lift_lets -underBinder | dsimp -zeta only | split

theorem State.readPeak_keeps {a1} (h : Keeps W s0 s) (w : Within 0x180000000000000000000000000000000000000000000000000000000000000000000000000000000000000000000000000000810000 W) :
    Keeps W s0 (State.readPeak s a1) := by
  unfold State.readPeak
  with_reducible repeat' first | assumption | apply State.clearFields_keeps | apply State.emit_keeps | exact within_of (by decide +kernel) w | exact within_bit (by decide +kernel) w | exact .inr (within_bit (by decide +kernel) w) | exact .inl rfl | simp -zeta only [keepsMk_iff] | apply keeps_mk | apply keeps_foldl | (intro u; first | (refine keeps_then (W := W) (s0 := s0) (a := u) ?_ ?_; subst u; rotate_left; intro _) | subst u | skip) | lift_lets -underBinder | dsimp -zeta only | split

theorem execPeakRead_keeps {a0} (h : Keeps W s0 s) (w : Within 0x180000000000000000000000001800000000000000000000000000000000000000000000000000000000000000000000000000810020 W) :
    KeepsN W s0 (execPeakRead a0 s) := by
  unfold execPeakRead
  with_reducible repeat' first | assumption | apply keepsN_next | apply State.access_keeps | apply State.readPeak_keeps | exact within_of (by decide +kernel) w | exact within_bit (by decide +kernel) w | apply keeps_foldl | (intro u; first | (refine keeps_then (W := W) (s0 := s0) (a := u) ?_ ?_; subst u; rotate_left; intro _) | subst u | skip) | lift_lets -underBinder | dsimp -zeta only | split

end Sys2Proof.Machine
end

