-- ==== Sys2Proof/Laws/Keeps/Recovery.lean ====
section
/-! SUPPORT. Laws/Keeps/Recovery.lean: what every operation of Machine/Recovery.lean keeps (the relation of Laws/Keeps.lean). -/
set_option Elab.async false
set_option linter.all false
set_option linter.unusedSimpArgs false
set_option linter.tactic.unusedName false
namespace Sys2Proof.Machine
variable {W : Nat} {s0 s : State}

theorem State.tabExpired_keeps {a1} (h : Keeps W s0 s) (w : Within 0x1fb00000000e34000000000000000000000000040000000000000000000000000000000000000000000f0078000000000001ffff0e1ff00070f877ff00e23dc8 W) :
    Keeps W s0 (State.tabExpired s a1) := by
  unfold State.tabExpired
  with_reducible repeat' first | assumption | apply State.noteCoreFault_keeps | apply State.bump_keeps | apply State.report_keeps | apply State.setCore_keeps | apply State.abortSlots_keeps | apply State.startCourseReset_keeps | exact within_of (by decide +kernel) w | exact within_bit (by decide +kernel) w | apply keeps_foldl | (intro u; first | (refine keeps_then (W := W) (s0 := s0) (a := u) ?_ ?_; subst u; rotate_left; intro _) | subst u | skip) | lift_lets -underBinder | dsimp -zeta only | split

theorem execTabWatchdog_keeps {a0} (h : Keeps W s0 s) (w : Within 0x1fb00000000e34000000000000000000000000040000000000000000000000000000000000000000000f0078000000000001ffff0e1ff00070f877ff00e23dc8 W) :
    KeepsN W s0 (execTabWatchdog a0 s) := by
  unfold execTabWatchdog
  with_reducible repeat' first | assumption | apply keepsN_next | apply State.tabExpired_keeps | exact within_of (by decide +kernel) w | exact within_bit (by decide +kernel) w | apply keeps_foldl | (intro u; first | (refine keeps_then (W := W) (s0 := s0) (a := u) ?_ ?_; subst u; rotate_left; intro _) | subst u | skip) | lift_lets -underBinder | dsimp -zeta only | split

theorem execStepWatchdog_keeps {a0 a1} (h : Keeps W s0 s) (w : Within 0xfb00000000600000000000000000000000000040000000000000000000000000000000000000000000f0078000000000000042000000000000007e000823dc8 W) :
    KeepsN W s0 (execStepWatchdog a0 a1 s) := by
  unfold execStepWatchdog
  with_reducible repeat' first | assumption | apply keepsN_next | apply State.stepAbortOf_keeps | apply State.report_keeps | exact within_of (by decide +kernel) w | exact within_bit (by decide +kernel) w | apply keeps_foldl | (intro u; first | (refine keeps_then (W := W) (s0 := s0) (a := u) ?_ ?_; subst u; rotate_left; intro _) | subst u | skip) | lift_lets -underBinder | dsimp -zeta only | split

theorem execCourseHeartbeatMiss_keeps {a0} (h : Keeps W s0 s) (w : Within 0x41fb00000000e34000000000000000000000000040000000000000000000000000000000000000000000f0078000000000001ffff0e1ff00070f877ff00e23dc8 W) :
    KeepsN W s0 (execCourseHeartbeatMiss a0 s) := by
  unfold execCourseHeartbeatMiss
  with_reducible repeat' first | assumption | apply keepsN_next | apply State.report_keeps | apply State.startCourseReset_keeps | apply State.wr_keeps | exact within_of (by decide +kernel) w | exact within_bit (by decide +kernel) w | apply keeps_foldl | (intro u; first | (refine keeps_then (W := W) (s0 := s0) (a := u) ?_ ?_; subst u; rotate_left; intro _) | subst u | skip) | lift_lets -underBinder | dsimp -zeta only | split

theorem execPartitionHeartbeatMiss_keeps {a0} (h : Keeps W s0 s) (w : Within 0x12fb00000000e340180000000000040000000000400000000000000c0027c0000000000100fffffc0000f0078ffe000000001ffff3e1ff00870f877ff00e23df8 W) :
    KeepsN W s0 (execPartitionHeartbeatMiss a0 s) := by
  unfold execPartitionHeartbeatMiss
  with_reducible repeat' first | assumption | apply keepsN_next | apply State.wr_keeps | apply State.startPartitionReset_keeps | apply State.report_keeps | exact within_of (by decide +kernel) w | exact within_bit (by decide +kernel) w | apply keeps_foldl | (intro u; first | (refine keeps_then (W := W) (s0 := s0) (a := u) ?_ ?_; subst u; rotate_left; intro _) | subst u | skip) | lift_lets -underBinder | dsimp -zeta only | split

theorem State.failImage_keeps (h : Keeps W s0 s) (w : Within 0x18000000000000000000000000000000000000000000000000000000000000000000000000000000000000000000000000000000000000000000000000000040000 W) :
    Keeps W s0 (State.failImage s) := by
  unfold State.failImage
  with_reducible repeat' first | assumption | apply State.wr_keeps | exact within_of (by decide +kernel) w | exact within_bit (by decide +kernel) w | exact .inr (within_bit (by decide +kernel) w) | exact .inl rfl | simp -zeta only [keepsMk_iff] | apply keeps_mk | apply keeps_foldl | (intro u; first | (refine keeps_then (W := W) (s0 := s0) (a := u) ?_ ?_; subst u; rotate_left; intro _) | subst u | skip) | lift_lets -underBinder | dsimp -zeta only | split

theorem execFirmwareWatchdog_keeps (h : Keeps W s0 s) (w : Within 0x113027f8003cb47b00000003f3420800018201c00000001f0400fe1bc7c1b01fdffc00e7fffe3f7f0de700fffffc00038007ffffc0fc01e01ffff3e1ff00870f877ff00effdfe W) :
    KeepsN W s0 (execFirmwareWatchdog s) := by
  unfold execFirmwareWatchdog
  with_reducible repeat' first | assumption | apply keepsN_next | apply State.wr_keeps | apply State.report_keeps | apply State.failImage_keeps | apply State.chipReset_keeps | exact within_of (by decide +kernel) w | exact within_bit (by decide +kernel) w | apply keeps_foldl | (intro u; first | (refine keeps_then (W := W) (s0 := s0) (a := u) ?_ ?_; subst u; rotate_left; intro _) | subst u | skip) | lift_lets -underBinder | dsimp -zeta only | split

theorem execResetOverrun_keeps {a0} (h : Keeps W s0 s) (w : Within 0x113027f80024b7fb00000003f3421800018201c00400001f0400fe1bc7c1b01fdffc00e7fffe3f7f0de700fffffc0003f007ffffc0fc01e01ffff3e1ff00870f877ff00effdfe W) :
    KeepsN W s0 (execResetOverrun a0 s) := by
  unfold execResetOverrun
  with_reducible repeat' first | assumption | apply keepsN_next | apply State.overrun_keeps | exact within_of (by decide +kernel) w | exact within_bit (by decide +kernel) w | apply keeps_foldl | (intro u; first | (refine keeps_then (W := W) (s0 := s0) (a := u) ?_ ?_; subst u; rotate_left; intro _) | subst u | skip) | lift_lets -underBinder | dsimp -zeta only | split

theorem execContextReset_keeps {a0 a1 a2} (h : Keeps W s0 s) (w : Within 0xfb00000000000000000000000000000000000040000000000000000000000000000000000000000000f0078000000000000042000000000000007e000823dc0 W) :
    KeepsN W s0 (execContextReset a0 a1 a2 s) := by
  unfold execContextReset
  with_reducible repeat' first | assumption | apply keepsN_next | apply State.contextReset_keeps | exact within_of (by decide +kernel) w | exact within_bit (by decide +kernel) w | apply keeps_foldl | (intro u; first | (refine keeps_then (W := W) (s0 := s0) (a := u) ?_ ?_; subst u; rotate_left; intro _) | subst u | skip) | lift_lets -underBinder | dsimp -zeta only | split

theorem execCourseReset_keeps {a0 a1} (h : Keeps W s0 s) (w : Within 0x1fb00000000834000000000000000000000000040000000000000000000000000000000000000000000f0078000000000001ffff0e1ff00070f877ff00e23dc8 W) :
    KeepsN W s0 (execCourseReset a0 a1 s) := by
  unfold execCourseReset
  with_reducible repeat' first | assumption | apply keepsN_next | apply State.startCourseReset_keeps | exact within_of (by decide +kernel) w | exact within_bit (by decide +kernel) w | apply keeps_foldl | (intro u; first | (refine keeps_then (W := W) (s0 := s0) (a := u) ?_ ?_; subst u; rotate_left; intro _) | subst u | skip) | lift_lets -underBinder | dsimp -zeta only | split

theorem execCourseResetComplete_keeps {a0} (h : Keeps W s0 s) (w : Within 0x10000000000000001800000000000400000000004000000000000000000000000000000100000000000000078000000bfe000042700000000000067e000e23de8 W) :
    KeepsN W s0 (execCourseResetComplete a0 s) := by
  unfold execCourseResetComplete
  with_reducible repeat' first | assumption | apply keepsN_next | apply State.courseBack_keeps | exact within_of (by decide +kernel) w | exact within_bit (by decide +kernel) w | apply keeps_foldl | (intro u; first | (refine keeps_then (W := W) (s0 := s0) (a := u) ?_ ?_; subst u; rotate_left; intro _) | subst u | skip) | lift_lets -underBinder | dsimp -zeta only | split

theorem execPartitionReset_keeps {a0 a1} (h : Keeps W s0 s) (w : Within 0x12fb00000000e340180000000000040000000000400000000000000c0027c0000000000100fffffc0000f0078ffe000000001ffff3e1ff00870f877ff00e23df8 W) :
    KeepsN W s0 (execPartitionReset a0 a1 s) := by
  unfold execPartitionReset
  with_reducible repeat' first | assumption | apply keepsN_next | apply State.startPartitionReset_keeps | exact within_of (by decide +kernel) w | exact within_bit (by decide +kernel) w | apply keeps_foldl | (intro u; first | (refine keeps_then (W := W) (s0 := s0) (a := u) ?_ ?_; subst u; rotate_left; intro _) | subst u | skip) | lift_lets -underBinder | dsimp -zeta only | split

theorem execChipReset_keeps {a0} (h : Keeps W s0 s) (w : Within 0x113027f80024b47b0000000393420800018201c00000001f0400fe1bc7c1b01fdffc00e7fffe3f7f0de700fffffc00038007ffffc0fc01e01ffff3e1ff00870f877ff00effdfe W) :
    KeepsN W s0 (execChipReset a0 s) := by
  unfold execChipReset
  with_reducible repeat' first | assumption | apply keepsN_next | apply State.chipReset_keeps | exact within_of (by decide +kernel) w | exact within_bit (by decide +kernel) w | apply keeps_foldl | (intro u; first | (refine keeps_then (W := W) (s0 := s0) (a := u) ?_ ?_; subst u; rotate_left; intro _) | subst u | skip) | lift_lets -underBinder | dsimp -zeta only | split

theorem execDevReset_keeps (h : Keeps W s0 s) (w : Within 0x113027f80000b47b0000000393420800018201c00000001f0400fe1bc7c1b01fdffc00e7fffe3f7f0de700fffffc00038007ffffc0fc01e01ffff3e1ff00870f877ff00effdfe W) :
    KeepsN W s0 (execDevReset s) := by
  unfold execDevReset
  with_reducible repeat' first | assumption | apply keepsN_next | apply State.holdChip_keeps | exact within_of (by decide +kernel) w | exact within_bit (by decide +kernel) w | exact .inr (within_bit (by decide +kernel) w) | exact .inl rfl | simp -zeta only [keepsMk_iff] | apply keeps_mk | apply keeps_foldl | (intro u; first | (refine keeps_then (W := W) (s0 := s0) (a := u) ?_ ?_; subst u; rotate_left; intro _) | subst u | skip) | lift_lets -underBinder | dsimp -zeta only | split

theorem execDevResetRelease_keeps (h : Keeps W s0 s) (w : Within 0x24000000000000000000000000000000000000000000000000000000000000000000000007000000000000000000000000000000007000000000000000000e32480 W) :
    KeepsN W s0 (execDevResetRelease s) := by
  unfold execDevResetRelease
  with_reducible repeat' first | assumption | apply keepsN_next | apply State.freeChip_keeps | exact within_of (by decide +kernel) w | exact within_bit (by decide +kernel) w | exact .inr (within_bit (by decide +kernel) w) | exact .inl rfl | simp -zeta only [keepsMk_iff] | apply keeps_mk | apply keeps_foldl | (intro u; first | (refine keeps_then (W := W) (s0 := s0) (a := u) ?_ ?_; subst u; rotate_left; intro _) | subst u | skip) | lift_lets -underBinder | dsimp -zeta only | split

theorem State.discardMember_keeps {a1} (h : Keeps W s0 s) (w : Within 0x420000000000000000000001d40 W) :
    Keeps W s0 (State.discardMember s a1) := by
  unfold State.discardMember
  with_reducible repeat' first | assumption | apply State.dropWork_keeps | apply State.leavePass_keeps | apply State.setRequest_keeps | exact within_of (by decide +kernel) w | exact within_bit (by decide +kernel) w | apply keeps_foldl | (intro u; first | (refine keeps_then (W := W) (s0 := s0) (a := u) ?_ ?_; subst u; rotate_left; intro _) | subst u | skip) | lift_lets -underBinder | dsimp -zeta only | split

theorem State.applyNotice_keeps {a1 a2 a3} (h : Keeps W s0 s) (w : Within 0x4000000000000000000000000000000000000000000000078000000000000042000000000000007e000803dc0 W) :
    Keeps W s0 (State.applyNotice s a1 a2 a3) := by
  unfold State.applyNotice
  with_reducible repeat' first | assumption | apply State.forEach_keeps | apply State.faultRequest_keeps | apply State.discardMember_keeps | exact within_of (by decide +kernel) w | exact within_bit (by decide +kernel) w | apply keeps_foldl | (intro u; first | (refine keeps_then (W := W) (s0 := s0) (a := u) ?_ ?_; subst u; rotate_left; intro _) | subst u | skip) | lift_lets -underBinder | dsimp -zeta only | split

theorem execResetNotice_keeps {a0 a1} (h : Keeps W s0 s) (w : Within 0x60000000000000000000000000004000000000000000000000000000000000000000000000078000000000000042000000000000007e000803dc8 W) :
    KeepsN W s0 (execResetNotice a0 a1 s) := by
  unfold execResetNotice
  with_reducible repeat' first | assumption | apply keepsN_next | apply State.applyNotice_keeps | apply State.report_keeps | exact within_of (by decide +kernel) w | exact within_bit (by decide +kernel) w | apply keeps_foldl | (intro u; first | (refine keeps_then (W := W) (s0 := s0) (a := u) ?_ ?_; subst u; rotate_left; intro _) | subst u | skip) | lift_lets -underBinder | dsimp -zeta only | split

theorem execFabricSelfTestDone_keeps {a0 a1} (h : Keeps W s0 s) (w : Within 0x113027f80024b47b0000000393420800018201c00000001f0400fe1bc7c1b01fdffc00e7fffe3f7f0de700fffffc00038007ffffc0fd81e01ffff3e1ff00870f877ff00effdfe W) :
    KeepsN W s0 (execFabricSelfTestDone a0 a1 s) := by
  unfold execFabricSelfTestDone
  with_reducible repeat' first | assumption | apply keepsN_next | apply State.forEach_keeps | apply State.markLink_keeps | apply State.chipReset_keeps | exact within_of (by decide +kernel) w | exact within_bit (by decide +kernel) w | exact .inr (within_bit (by decide +kernel) w) | exact .inl rfl | simp -zeta only [keepsMk_iff] | apply keeps_mk | apply keeps_foldl | (intro u; first | (refine keeps_then (W := W) (s0 := s0) (a := u) ?_ ?_; subst u; rotate_left; intro _) | subst u | skip) | lift_lets -underBinder | dsimp -zeta only | split

end Sys2Proof.Machine
end

