-- ==== Sys2Proof/Laws/Keeps/Serving.lean ====
section
/-! SUPPORT. Laws/Keeps/Serving.lean: what every operation of Machine/Serving.lean keeps (the relation of Laws/Keeps.lean). -/
set_option Elab.async false
set_option linter.all false
set_option linter.unusedSimpArgs false
set_option linter.tactic.unusedName false
namespace Sys2Proof.Machine
variable {W : Nat} {s0 s : State}

theorem State.submitEntry_keeps {a1 a2 a3 a4} (h : Keeps W s0 s) (w : Within 0x6000000000000000000000000000000000000000000c0027e00000000000000080000000000000000000000000000000000000000000000800018 W) (h4 : ∀ a, Keeps W s0 a → Keeps W s0 (a4 a)) :
    Keeps W s0 (State.submitEntry s a1 a2 a3 a4) := by
  unfold State.submitEntry
  with_reducible repeat' first | assumption | apply h4 | apply State.fetched_keeps | apply State.refuse_keeps | apply State.consume_keeps | refine keeps_of_snd (by assumption) ?_ | exact within_of (by decide +kernel) w | exact within_bit (by decide +kernel) w | simp -zeta only [keepsS_mk_iff, keeps_snd_iff] | apply keepsS_foldl | apply keeps_foldl | (intro u; first | (refine keeps_then (W := W) (s0 := s0) (a := u) ?_ ?_; subst u; rotate_left; intro _) | subst u | skip) | lift_lets -underBinder | dsimp -zeta only | split

theorem State.bindPrefix_keeps {a1 a2 a3} (h : Keeps W s0 s) (w : Within 0x40 W) :
    Keeps W s0 (State.bindPrefix s a1 a2 a3) := by
  unfold State.bindPrefix
  with_reducible repeat' first | assumption | apply State.setRequest_keeps | apply State.setPrefix_keeps | exact within_of (by decide +kernel) w | exact within_bit (by decide +kernel) w | apply keeps_foldl | (intro u; first | (refine keeps_then (W := W) (s0 := s0) (a := u) ?_ ?_; subst u; rotate_left; intro _) | subst u | skip) | lift_lets -underBinder | dsimp -zeta only | split

theorem State.addCompanion_keeps {a1 a2} (h : Keeps W s0 s) (w : Within 0x400000000000000000000000000000000000000040 W) :
    Keeps W s0 (State.addCompanion s a1 a2) := by
  unfold State.addCompanion
  with_reducible repeat' first | assumption | apply State.setRequest_keeps | apply State.epochRef_keeps | exact within_of (by decide +kernel) w | exact within_bit (by decide +kernel) w | apply keeps_foldl | (intro u; first | (refine keeps_then (W := W) (s0 := s0) (a := u) ?_ ?_; subst u; rotate_left; intro _) | subst u | skip) | lift_lets -underBinder | dsimp -zeta only | split

theorem State.admitRequest_keeps {a1 a2 a3} (h : Keeps W s0 s) (w : Within 0x40000000000000000000000000000000000240000000f0078000000000000042000000000000007e001823dc0 W) :
    Keeps W s0 (State.admitRequest s a1 a2 a3) := by
  unfold State.admitRequest
  with_reducible repeat' first | assumption | apply State.draw_keeps | apply State.setRequest_keeps | apply State.bindPrefix_keeps | apply State.adapterRef_keeps | apply State.epochRef_keeps | apply State.addCompanion_keeps | apply State.tryReserve_keeps | apply State.bump_keeps | apply State.chainSend_keeps | apply State.chainBroken_keeps | apply State.cancelRequest_keeps | refine keeps_of_snd (by assumption) ?_ | exact within_of (by decide +kernel) w | exact within_bit (by decide +kernel) w | simp -zeta only [keepsS_mk_iff, keeps_snd_iff] | apply keepsS_foldl | apply keeps_foldl | (intro u; first | (refine keeps_then (W := W) (s0 := s0) (a := u) ?_ ?_; subst u; rotate_left; intro _) | subst u | skip) | lift_lets -underBinder | dsimp -zeta only | split

theorem execGenerate_keeps {a0 a1} (h : Keeps W s0 s) (w : Within 0x6000000000000000000000000000400000000000000c0027e000000000000003c0000000f0078000000000000042000000000000007e001823dd8 W) :
    KeepsN W s0 (execGenerate a0 a1 s) := by
  unfold execGenerate
  with_reducible repeat' first | assumption | apply keepsN_next | apply State.submitEntry_keeps | apply State.refuse_keeps | apply State.consume_keeps | apply State.setRingState_keeps | apply State.bump_keeps | apply State.admitRequest_keeps | exact within_of (by decide +kernel) w | exact within_bit (by decide +kernel) w | apply keeps_foldl | (intro u; first | (refine keeps_then (W := W) (s0 := s0) (a := u) ?_ ?_; subst u; rotate_left; intro _) | subst u | skip) | lift_lets -underBinder | dsimp -zeta only | split

theorem execCancel_keeps {a0 a1} (h : Keeps W s0 s) (w : Within 0x6000000000000000000000000000400000000000000c0027e00000000000000680000000f0078000000000000042000000000000007e000823dd8 W) :
    KeepsN W s0 (execCancel a0 a1 s) := by
  unfold execCancel
  with_reducible repeat' first | assumption | apply keepsN_next | apply State.submitEntry_keeps | apply State.consume_keeps | apply State.refuse_keeps | apply State.cancelRequest_keeps | apply State.bump_keeps | exact within_of (by decide +kernel) w | exact within_bit (by decide +kernel) w | apply keeps_foldl | (intro u; first | (refine keeps_then (W := W) (s0 := s0) (a := u) ?_ ?_; subst u; rotate_left; intro _) | subst u | skip) | lift_lets -underBinder | dsimp -zeta only | split

theorem execPrefixDrop_keeps {a0 a1} (h : Keeps W s0 s) (w : Within 0x6000000000000000000000000000000000000000000c0027e00000000000000080000000000000000000000000000000000000000000000800058 W) :
    KeepsN W s0 (execPrefixDrop a0 a1 s) := by
  unfold execPrefixDrop
  with_reducible repeat' first | assumption | apply keepsN_next | apply State.submitEntry_keeps | apply State.consume_keeps | apply State.ringPush_keeps | apply State.refuse_keeps | apply State.prefixDropAt_keeps | exact within_of (by decide +kernel) w | exact within_bit (by decide +kernel) w | apply keeps_foldl | (intro u; first | (refine keeps_then (W := W) (s0 := s0) (a := u) ?_ ?_; subst u; rotate_left; intro _) | subst u | skip) | lift_lets -underBinder | dsimp -zeta only | split

theorem State.takeSlot_keeps {a1 a2 a3 a4 a5} (h : Keeps W s0 s) (w : Within 0x40 W) :
    KeepsF W s0 (State.takeSlot s a1 a2 a3 a4 a5) := by
  unfold State.takeSlot
  with_reducible repeat' first | assumption | apply State.setRequest_keeps | exact within_of (by decide +kernel) w | exact within_bit (by decide +kernel) w | simp -zeta only [keepsF_mk_iff, keeps_fst_iff] | apply keepsF_foldl | apply keeps_foldl | (intro u; first | (refine keeps_then (W := W) (s0 := s0) (a := u) ?_ ?_; subst u; rotate_left; intro _) | subst u | skip) | lift_lets -underBinder | dsimp -zeta only | split

theorem State.formDecode_keeps {a1 a2} (h : Keeps W s0 s) (w : Within 0x4000000000000000000000000000000000100000000000078000000000000042000000000000007e001903dc0 W) :
    KeepsF W s0 (State.formDecode s a1 a2) := by
  unfold State.formDecode
  with_reducible repeat' first | assumption | apply keepsO_some | apply keepsO_none | apply State.setRequest_keeps | apply State.getPages_keeps | apply State.takeSlot_keeps | apply State.shortOfPages_keeps | refine keeps_of_some (by assumption) ?_ | exact keeps_of_some rfl (by assumption) | apply keeps_getD | refine keeps_of_pair (by assumption) ?_ | exact within_of (by decide +kernel) w | exact within_bit (by decide +kernel) w | simp -zeta only [keepsF_mk_iff, keeps_fst_iff] | apply keepsF_foldl | apply keeps_foldl | (intro u; first | (refine keeps_then (W := W) (s0 := s0) (a := u) ?_ ?_; subst u; rotate_left; intro _) | subst u | skip) | lift_lets -underBinder | dsimp -zeta only | split

theorem State.formVerify_keeps {a1 a2} (h : Keeps W s0 s) (w : Within 0x4000000000000000000000000000000000100000000000078000000000000042000000000000007e001903dc0 W) :
    KeepsF W s0 (State.formVerify s a1 a2) := by
  unfold State.formVerify
  with_reducible repeat' first | assumption | apply keepsO_some | apply keepsO_none | apply State.getPages_keeps | apply State.takeSlot_keeps | apply State.formDecode_keeps | apply State.setRequest_keeps | refine keeps_of_some (by assumption) ?_ | exact keeps_of_some rfl (by assumption) | apply keeps_getD | refine keeps_of_pair (by assumption) ?_ | exact within_of (by decide +kernel) w | exact within_bit (by decide +kernel) w | simp -zeta only [keepsF_mk_iff, keeps_fst_iff] | apply keepsF_foldl | apply keeps_foldl | (intro u; first | (refine keeps_then (W := W) (s0 := s0) (a := u) ?_ ?_; subst u; rotate_left; intro _) | subst u | skip) | lift_lets -underBinder | dsimp -zeta only | split

theorem State.formRequest_keeps {a1 a2 a3} (h : Keeps W s0 s) (w : Within 0x4000000000000000000000000000000000100000000000078000000000000042000000000000007e001903dc0 W) :
    KeepsF W s0 (State.formRequest s a1 a2 a3) := by
  unfold State.formRequest
  with_reducible repeat' first | assumption | apply keepsO_some | apply keepsO_none | apply State.getPages_keeps | apply State.takeSlot_keeps | apply State.shortOfPages_keeps | apply State.formDecode_keeps | apply State.formVerify_keeps | refine keeps_of_some (by assumption) ?_ | exact keeps_of_some rfl (by assumption) | apply keeps_getD | refine keeps_of_pair (by assumption) ?_ | exact within_of (by decide +kernel) w | exact within_bit (by decide +kernel) w | simp -zeta only [keepsF_mk_iff, keeps_fst_iff] | apply keepsF_foldl | apply keeps_foldl | (intro u; first | (refine keeps_then (W := W) (s0 := s0) (a := u) ?_ ?_; subst u; rotate_left; intro _) | subst u | skip) | lift_lets -underBinder | dsimp -zeta only | split

theorem State.trimCompanion_keeps {a1} (h : Keeps W s0 s) (w : Within 0x40 W) :
    Keeps W s0 (State.trimCompanion s a1) := by
  unfold State.trimCompanion
  with_reducible repeat' first | assumption | apply State.trimPages_keeps | apply State.setRequest_keeps | exact within_of (by decide +kernel) w | exact within_bit (by decide +kernel) w | apply keeps_foldl | (intro u; first | (refine keeps_then (W := W) (s0 := s0) (a := u) ?_ ?_; subst u; rotate_left; intro _) | subst u | skip) | lift_lets -underBinder | dsimp -zeta only | split

theorem State.endSpeculation_keeps {a1} (h : Keeps W s0 s) (w : Within 0x4000000000000000000000000000000000000000000000078000000000000042000000000000007e000803dc0 W) :
    Keeps W s0 (State.endSpeculation s a1) := by
  unfold State.endSpeculation
  with_reducible repeat' first | assumption | apply State.setRequest_keeps | apply State.dropCompanion_keeps | exact within_of (by decide +kernel) w | exact within_bit (by decide +kernel) w | apply keeps_foldl | (intro u; first | (refine keeps_then (W := W) (s0 := s0) (a := u) ?_ ?_; subst u; rotate_left; intro _) | subst u | skip) | lift_lets -underBinder | dsimp -zeta only | split

theorem State.reviewDraft_keeps {a1} (h : Keeps W s0 s) (w : Within 0x4000000000000000000000000000000000000000000000078000000000000042000000000000007e000803dc0 W) :
    Keeps W s0 (State.reviewDraft s a1) := by
  unfold State.reviewDraft
  with_reducible repeat' first | assumption | apply State.endSpeculation_keeps | apply State.trimCompanion_keeps | apply State.setRequest_keeps | exact within_of (by decide +kernel) w | exact within_bit (by decide +kernel) w | apply keeps_foldl | (intro u; first | (refine keeps_then (W := W) (s0 := s0) (a := u) ?_ ?_; subst u; rotate_left; intro _) | subst u | skip) | lift_lets -underBinder | dsimp -zeta only | split

theorem State.formDraft_keeps {a1 a2 a3} (h : Keeps W s0 s) (w : Within 0x4000000000000000000000000000000000000000000000078000000000000042000000000000007e001903dc0 W) :
    KeepsF W s0 (State.formDraft s a1 a2 a3) := by
  unfold State.formDraft
  with_reducible repeat' first | assumption | apply keepsO_some | apply keepsO_none | apply State.getPages_keeps | apply State.takeSlot_keeps | apply State.endSpeculation_keeps | apply State.setRequest_keeps | refine keeps_of_some (by assumption) ?_ | exact keeps_of_some rfl (by assumption) | apply keeps_getD | refine keeps_of_pair (by assumption) ?_ | exact within_of (by decide +kernel) w | exact within_bit (by decide +kernel) w | simp -zeta only [keepsF_mk_iff, keeps_fst_iff] | apply keepsF_foldl | apply keeps_foldl | (intro u; first | (refine keeps_then (W := W) (s0 := s0) (a := u) ?_ ?_; subst u; rotate_left; intro _) | subst u | skip) | lift_lets -underBinder | dsimp -zeta only | split

theorem State.sendServing_keeps {a1 a2 a3} (h : Keeps W s0 s) (w : Within 0x40000000000000000000000000000000000000000000000000000000000000000000000000000000000801000 W) :
    Keeps W s0 (State.sendServing s a1 a2 a3) := by
  unfold State.sendServing
  with_reducible repeat' first | assumption | apply State.forEach_keeps | apply State.zlMsg_keeps | exact within_of (by decide +kernel) w | exact within_bit (by decide +kernel) w | apply keeps_foldl | (intro u; first | (refine keeps_then (W := W) (s0 := s0) (a := u) ?_ ?_; subst u; rotate_left; intro _) | subst u | skip) | lift_lets -underBinder | dsimp -zeta only | split

theorem State.formPass_keeps {a1} (h : Keeps W s0 s) (w : Within 0x4000000000000000000000000000000000100000000000078000000000000043800000000000007e001b17dc8 W) :
    Keeps W s0 (State.formPass s a1) := by
  unfold State.formPass
  with_reducible repeat' first | assumption | apply State.forEach_keeps | apply State.reviewDraft_keeps | apply State.tryReserve_keeps | apply State.formDraft_keeps | apply State.formRequest_keeps | apply State.startPass_keeps | apply State.sendServing_keeps | refine keeps_of_pair (by assumption) ?_ | exact within_of (by decide +kernel) w | exact within_bit (by decide +kernel) w | simp -zeta only [keepsF_mk_iff, keeps_fst_iff] | apply keepsF_foldl | apply keeps_foldl | (intro u; first | (refine keeps_then (W := W) (s0 := s0) (a := u) ?_ ?_; subst u; rotate_left; intro _) | subst u | skip) | lift_lets -underBinder | dsimp -zeta only | split

theorem State.askPreempt_keeps {a1 a2} (h : Keeps W s0 s) (w : Within 0x400 W) :
    Keeps W s0 (State.askPreempt s a1 a2) := by
  unfold State.askPreempt
  with_reducible repeat' first | assumption | apply State.forEach_keeps | apply State.setCore_keeps | exact within_of (by decide +kernel) w | exact within_bit (by decide +kernel) w | apply keeps_foldl | (intro u; first | (refine keeps_then (W := W) (s0 := s0) (a := u) ?_ ?_; subst u; rotate_left; intro _) | subst u | skip) | lift_lets -underBinder | dsimp -zeta only | split

theorem State.preemptPrefill_keeps {a1} (h : Keeps W s0 s) (w : Within 0x440 W) :
    Keeps W s0 (State.preemptPrefill s a1) := by
  unfold State.preemptPrefill
  with_reducible repeat' first | assumption | apply State.forEach_keeps | apply State.setRequest_keeps | apply State.askPreempt_keeps | exact within_of (by decide +kernel) w | exact within_bit (by decide +kernel) w | apply keeps_foldl | (intro u; first | (refine keeps_then (W := W) (s0 := s0) (a := u) ?_ ?_; subst u; rotate_left; intro _) | subst u | skip) | lift_lets -underBinder | dsimp -zeta only | split

theorem State.startWaiting_keeps {a1} (h : Keeps W s0 s) (w : Within 0x18000000000000000000214448 W) :
    Keeps W s0 (State.startWaiting s a1) := by
  unfold State.startWaiting
  with_reducible repeat' first | assumption | apply State.startPass_keeps | exact within_of (by decide +kernel) w | exact within_bit (by decide +kernel) w | exact .inr (within_bit (by decide +kernel) w) | exact .inl rfl | simp -zeta only [keepsMk_iff] | apply keeps_mk | apply keeps_foldl | (intro u; first | (refine keeps_then (W := W) (s0 := s0) (a := u) ?_ ?_; subst u; rotate_left; intro _) | subst u | skip) | lift_lets -underBinder | dsimp -zeta only | split

theorem execPassFormation_keeps {a0} (h : Keeps W s0 s) (w : Within 0x4000000000000000000000000000000000100000000000078000000000000043800000000000007e001b17dc8 W) :
    KeepsN W s0 (execPassFormation a0 s) := by
  unfold execPassFormation
  with_reducible repeat' first | assumption | apply keepsN_next | apply State.startWaiting_keeps | apply State.preemptPrefill_keeps | apply State.formPass_keeps | exact within_of (by decide +kernel) w | exact within_bit (by decide +kernel) w | apply keeps_foldl | (intro u; first | (refine keeps_then (W := W) (s0 := s0) (a := u) ?_ ?_; subst u; rotate_left; intro _) | subst u | skip) | lift_lets -underBinder | dsimp -zeta only | split

theorem State.rebindRequest_keeps {a1} (h : Keeps W s0 s) (w : Within 0x40000000000000000000000000000000000000000000f0078000000000000000000000000000007e0008030c0 W) :
    Keeps W s0 (State.rebindRequest s a1) := by
  unfold State.rebindRequest
  with_reducible repeat' first | assumption | apply State.epochUnref_keeps | apply State.epochRef_keeps | apply State.setRequest_keeps | apply State.adapterUnref_keeps | apply State.adapterRef_keeps | exact within_of (by decide +kernel) w | exact within_bit (by decide +kernel) w | apply keeps_foldl | (intro u; first | (refine keeps_then (W := W) (s0 := s0) (a := u) ?_ ?_; subst u; rotate_left; intro _) | subst u | skip) | lift_lets -underBinder | dsimp -zeta only | split

theorem State.commitStep_keeps {a1 a2 a3 a4} (h : Keeps W s0 s) (w : Within 0x4000000000000000000000000000000000000000000000078000000000000042000000000000007e000803dc0 W) :
    Keeps W s0 (State.commitStep s a1 a2 a3 a4) := by
  unfold State.commitStep
  with_reducible repeat' first | assumption | apply State.setRequest_keeps | apply State.trimPages_keeps | apply State.finish_keeps | exact within_of (by decide +kernel) w | exact within_bit (by decide +kernel) w | apply keeps_foldl | (intro u; first | (refine keeps_then (W := W) (s0 := s0) (a := u) ?_ ?_; subst u; rotate_left; intro _) | subst u | skip) | lift_lets -underBinder | dsimp -zeta only | split

theorem State.keepPrefix_keeps {a1} (h : Keeps W s0 s) (w : Within 0x4000000000000000000000000000000000000000000000078000000000000042000000000000007e000803dc0 W) :
    Keeps W s0 (State.keepPrefix s a1) := by
  unfold State.keepPrefix
  with_reducible repeat' first | assumption | apply State.setPrefix_keeps | apply State.finish_keeps | apply State.setRequest_keeps | exact within_of (by decide +kernel) w | exact within_bit (by decide +kernel) w | apply keeps_foldl | (intro u; first | (refine keeps_then (W := W) (s0 := s0) (a := u) ?_ ?_; subst u; rotate_left; intro _) | subst u | skip) | lift_lets -underBinder | dsimp -zeta only | split

theorem State.prefillDone_keeps {a1 a2} (h : Keeps W s0 s) (w : Within 0x4000000000000000000000000000000000000000000000078000000000000042000000000000007e000803dc0 W) :
    Keeps W s0 (State.prefillDone s a1 a2) := by
  unfold State.prefillDone
  with_reducible repeat' first | assumption | apply State.setRequest_keeps | apply State.keepPrefix_keeps | apply State.commitStep_keeps | exact within_of (by decide +kernel) w | exact within_bit (by decide +kernel) w | apply keeps_foldl | (intro u; first | (refine keeps_then (W := W) (s0 := s0) (a := u) ?_ ?_; subst u; rotate_left; intro _) | subst u | skip) | lift_lets -underBinder | dsimp -zeta only | split

theorem State.decodeDone_keeps {a1 a2} (h : Keeps W s0 s) (w : Within 0x4000000000000000000000000000000000000000000000078000000000000042000000000000007e000803dc0 W) :
    Keeps W s0 (State.decodeDone s a1 a2) := by
  unfold State.decodeDone
  with_reducible repeat' first | assumption | apply State.commitStep_keeps | apply State.setRequest_keeps | exact within_of (by decide +kernel) w | exact within_bit (by decide +kernel) w | apply keeps_foldl | (intro u; first | (refine keeps_then (W := W) (s0 := s0) (a := u) ?_ ?_; subst u; rotate_left; intro _) | subst u | skip) | lift_lets -underBinder | dsimp -zeta only | split

theorem State.verifyDone_keeps {a1 a2} (h : Keeps W s0 s) (w : Within 0x4000000000000000000000000000000000400000000000078000000000000042000000000000007e000803dc0 W) :
    Keeps W s0 (State.verifyDone s a1 a2) := by
  unfold State.verifyDone
  with_reducible repeat' first | assumption | apply State.bump_keeps | apply State.commitStep_keeps | apply State.setRequest_keeps | exact within_of (by decide +kernel) w | exact within_bit (by decide +kernel) w | apply keeps_foldl | (intro u; first | (refine keeps_then (W := W) (s0 := s0) (a := u) ?_ ?_; subst u; rotate_left; intro _) | subst u | skip) | lift_lets -underBinder | dsimp -zeta only | split

theorem State.noteNonfinite_keeps {a1 a2} (h : Keeps W s0 s) (w : Within 0x8000000000000000000000000000000000000000000000000000040 W) :
    Keeps W s0 (State.noteNonfinite s a1 a2) := by
  unfold State.noteNonfinite
  with_reducible repeat' first | assumption | apply State.setRequest_keeps | apply State.bump_keeps | exact within_of (by decide +kernel) w | exact within_bit (by decide +kernel) w | apply keeps_foldl | (intro u; first | (refine keeps_then (W := W) (s0 := s0) (a := u) ?_ ?_; subst u; rotate_left; intro _) | subst u | skip) | lift_lets -underBinder | dsimp -zeta only | split

theorem State.draftDone_keeps {a1 a2} (h : Keeps W s0 s) (w : Within 0x4000000000000000000000000000000000a00000000000078000000000000042000000000000007e000803dc0 W) :
    Keeps W s0 (State.draftDone s a1 a2) := by
  unfold State.draftDone
  with_reducible repeat' first | assumption | apply State.leavePass_keeps | apply State.setRequest_keeps | apply State.forEach_keeps | apply State.trimCompanion_keeps | apply State.noteNonfinite_keeps | apply State.bump_keeps | apply State.endSpeculation_keeps | exact within_of (by decide +kernel) w | exact within_bit (by decide +kernel) w | apply keeps_foldl | (intro u; first | (refine keeps_then (W := W) (s0 := s0) (a := u) ?_ ?_; subst u; rotate_left; intro _) | subst u | skip) | lift_lets -underBinder | dsimp -zeta only | split

theorem State.stepDone_keeps {a1 a2} (h : Keeps W s0 s) (w : Within 0xfb0000000000000000000000000000000000004000000000000000000000000000000000e000000000f0078000000000000042000000000000007e000823dc0 W) :
    Keeps W s0 (State.stepDone s a1 a2) := by
  unfold State.stepDone
  with_reducible repeat' first | assumption | apply State.stepAbortOf_keeps | apply State.draftDone_keeps | apply State.faultRequest_keeps | apply State.noteNonfinite_keeps | apply State.broadcastCancel_keeps | apply State.bump_keeps | apply State.noteRung_keeps | apply State.leavePass_keeps | apply State.setRequest_keeps | apply State.prefillDone_keeps | apply State.verifyDone_keeps | apply State.decodeDone_keeps | apply State.trimCompanion_keeps | apply State.rebindRequest_keeps | exact within_of (by decide +kernel) w | exact within_bit (by decide +kernel) w | apply keeps_foldl | (intro u; first | (refine keeps_then (W := W) (s0 := s0) (a := u) ?_ ?_; subst u; rotate_left; intro _) | subst u | skip) | lift_lets -underBinder | dsimp -zeta only | split

theorem execStepComplete_keeps {a0 a1} (h : Keeps W s0 s) (w : Within 0xfb0000000000000000000000000000000000004000000000000000000000000000000000e000000000f0078000000000000042000000000000007e000823dc0 W) :
    KeepsN W s0 (execStepComplete a0 a1 s) := by
  unfold execStepComplete
  with_reducible repeat' first | assumption | apply keepsN_next | apply State.stepDone_keeps | exact within_of (by decide +kernel) w | exact within_bit (by decide +kernel) w | apply keeps_foldl | (intro u; first | (refine keeps_then (W := W) (s0 := s0) (a := u) ?_ ?_; subst u; rotate_left; intro _) | subst u | skip) | lift_lets -underBinder | dsimp -zeta only | split

theorem execTokenWrite_keeps {a0} (h : Keeps W s0 s) (w : Within 0x6000000000000000000000000000000000000000000c0027c00000000000001000000000000000000000000000000000000000000000000800058 W) :
    KeepsN W s0 (execTokenWrite a0 s) := by
  unfold execTokenWrite
  with_reducible repeat' first | assumption | apply keepsN_next | apply State.flushTokens_keeps | apply State.pause_keeps | exact within_of (by decide +kernel) w | exact within_bit (by decide +kernel) w | apply keeps_foldl | (intro u; first | (refine keeps_then (W := W) (s0 := s0) (a := u) ?_ ?_; subst u; rotate_left; intro _) | subst u | skip) | lift_lets -underBinder | dsimp -zeta only | split

theorem execCompletionWrite_keeps {a0} (h : Keeps W s0 s) (w : Within 0x6000000000000000000000000000400000000000000c0027c00000000000000000000000f000000000000000000000000000000000000008010d8 W) :
    KeepsN W s0 (execCompletionWrite a0 s) := by
  unfold execCompletionWrite
  with_reducible repeat' first | assumption | apply keepsN_next | apply State.complete_keeps | exact within_of (by decide +kernel) w | exact within_bit (by decide +kernel) w | apply keeps_foldl | (intro u; first | (refine keeps_then (W := W) (s0 := s0) (a := u) ?_ ?_; subst u; rotate_left; intro _) | subst u | skip) | lift_lets -underBinder | dsimp -zeta only | split

theorem State.servingArrival_keeps {a1 a2 a3 a4} (h : Keeps W s0 s) (w : Within 0x600000000000000000000000000000000000000000000000000000000000000000000000000000000000000000000000000000000000000000008 W) (h4 : ∀ a, Keeps W s0 a → Keeps W s0 (a4 a)) :
    Keeps W s0 (State.servingArrival s a1 a2 a3 a4) := by
  unfold State.servingArrival
  with_reducible repeat' first | assumption | apply h4 | apply State.report_keeps | exact within_of (by decide +kernel) w | exact within_bit (by decide +kernel) w | apply keeps_foldl | (intro u; first | (refine keeps_then (W := W) (s0 := s0) (a := u) ?_ ?_; subst u; rotate_left; intro _) | subst u | skip) | lift_lets -underBinder | dsimp -zeta only | split

theorem execAdmitMessage_keeps {a0 a1} (h : Keeps W s0 s) (w : Within 0x600000000000000000000000000040000000000000000000000000000000000000000000f000000000000000000000000000000000000008010c8 W) :
    KeepsN W s0 (execAdmitMessage a0 a1 s) := by
  unfold execAdmitMessage
  with_reducible repeat' first | assumption | apply keepsN_next | apply State.servingArrival_keeps | apply State.sendServing_keeps | apply State.release_keeps | apply State.freePages_keeps | apply State.bindPrefix_keeps | apply State.adapterRef_keeps | apply State.setRequest_keeps | apply State.tryReserve_keeps | exact within_of (by decide +kernel) w | exact within_bit (by decide +kernel) w | apply keeps_foldl | (intro u; first | (refine keeps_then (W := W) (s0 := s0) (a := u) ?_ ?_; subst u; rotate_left; intro _) | subst u | skip) | lift_lets -underBinder | dsimp -zeta only | split

theorem State.memberSlot_keeps {a1 a2} (h : Keeps W s0 s) (w : Within 0x40000000000000000000000000000000000000000000000000000000000000000000000000000000001901040 W) :
    KeepsF W s0 (State.memberSlot s a1 a2) := by
  unfold State.memberSlot
  with_reducible repeat' first | assumption | apply keepsO_some | apply keepsO_none | apply State.sendNotice_keeps | apply State.setRequest_keeps | apply State.getPages_keeps | apply State.sendServing_keeps | refine keeps_of_some (by assumption) ?_ | exact keeps_of_some rfl (by assumption) | apply keeps_getD | exact within_of (by decide +kernel) w | exact within_bit (by decide +kernel) w | simp -zeta only [keepsF_mk_iff, keeps_fst_iff] | apply keepsF_foldl | apply keeps_foldl | (intro u; first | (refine keeps_then (W := W) (s0 := s0) (a := u) ?_ ?_; subst u; rotate_left; intro _) | subst u | skip) | lift_lets -underBinder | dsimp -zeta only | split

theorem execPassMessage_keeps {a0 a1 a2} (h : Keeps W s0 s) (w : Within 0x600000000000000000000000000040000000000000000000000000000000000000000000000000000000000000018000000000000000001b15448 W) :
    KeepsN W s0 (execPassMessage a0 a1 a2 s) := by
  unfold execPassMessage
  with_reducible repeat' first | assumption | apply keepsN_next | apply State.servingArrival_keeps | apply State.sendNotice_keeps | apply State.sendServing_keeps | apply State.memberSlot_keeps | apply State.askPreempt_keeps | apply State.startWaiting_keeps | refine keeps_of_pair (by assumption) ?_ | exact within_of (by decide +kernel) w | exact within_bit (by decide +kernel) w | exact .inr (within_bit (by decide +kernel) w) | exact .inl rfl | simp -zeta only [keepsMk_iff, keepsF_mk_iff, keeps_fst_iff] | apply keeps_mk | apply keepsF_foldl | apply keeps_foldl | (intro u; first | (refine keeps_then (W := W) (s0 := s0) (a := u) ?_ ?_; subst u; rotate_left; intro _) | subst u | skip) | lift_lets -underBinder | dsimp -zeta only | split

theorem execShort_keeps {a0 a1} (h : Keeps W s0 s) (w : Within 0x60000000000000000000000000004000000000000000000000000000000000100000000000078000000000000042000000000000007e000803dc8 W) :
    KeepsN W s0 (execShort a0 a1 s) := by
  unfold execShort
  with_reducible repeat' first | assumption | apply keepsN_next | apply State.servingArrival_keeps | apply State.sendServing_keeps | apply State.dropWork_keeps | apply State.broadcastCancel_keeps | apply State.trimPages_keeps | apply State.setRequest_keeps | apply State.shortOfPages_keeps | exact within_of (by decide +kernel) w | exact within_bit (by decide +kernel) w | apply keeps_foldl | (intro u; first | (refine keeps_then (W := W) (s0 := s0) (a := u) ?_ ?_; subst u; rotate_left; intro _) | subst u | skip) | lift_lets -underBinder | dsimp -zeta only | split

theorem execServingRelease_keeps {a0 a1} (h : Keeps W s0 s) (w : Within 0x600000000000000000000000000040000000000000000000000000000000000000000000f0078000000000000042000000000000007e000803dc8 W) :
    KeepsN W s0 (execServingRelease a0 a1 s) := by
  unfold execServingRelease
  with_reducible repeat' first | assumption | apply keepsN_next | apply State.servingArrival_keeps | apply State.sendServing_keeps | apply State.keepPrefix_keeps | apply State.setRequest_keeps | apply State.release_keeps | apply State.dropWork_keeps | apply State.leavePass_keeps | exact within_of (by decide +kernel) w | exact within_bit (by decide +kernel) w | apply keeps_foldl | (intro u; first | (refine keeps_then (W := W) (s0 := s0) (a := u) ?_ ?_; subst u; rotate_left; intro _) | subst u | skip) | lift_lets -underBinder | dsimp -zeta only | split

theorem execDeadlineExpiry_keeps {a0} (h : Keeps W s0 s) (w : Within 0x40000000000000000000000000000000000200000000f0078000000000000042000000000000007e000823dc0 W) :
    KeepsN W s0 (execDeadlineExpiry a0 s) := by
  unfold execDeadlineExpiry
  with_reducible repeat' first | assumption | apply keepsN_next | apply State.cancelRequest_keeps | exact within_of (by decide +kernel) w | exact within_bit (by decide +kernel) w | apply keeps_foldl | (intro u; first | (refine keeps_then (W := W) (s0 := s0) (a := u) ?_ ?_; subst u; rotate_left; intro _) | subst u | skip) | lift_lets -underBinder | dsimp -zeta only | split

theorem execPagewaitTimeout_keeps {a0} (h : Keeps W s0 s) (w : Within 0x4000000000000000000000000000000000000000000000078000000000000042000000000000007e000803dc0 W) :
    KeepsN W s0 (execPagewaitTimeout a0 s) := by
  unfold execPagewaitTimeout
  with_reducible repeat' first | assumption | apply keepsN_next | apply State.finish_keeps | exact within_of (by decide +kernel) w | exact within_bit (by decide +kernel) w | apply keeps_foldl | (intro u; first | (refine keeps_then (W := W) (s0 := s0) (a := u) ?_ ?_; subst u; rotate_left; intro _) | subst u | skip) | lift_lets -underBinder | dsimp -zeta only | split

theorem execPauseResume_keeps {a0} (h : Keeps W s0 s) (w : Within 0x6000000000000000000000000000000000000000000c0027c00000000000000000000000000000000000000000000000000000000000000800058 W) :
    KeepsN W s0 (execPauseResume a0 s) := by
  unfold execPauseResume
  with_reducible repeat' first | assumption | apply keepsN_next | apply State.flushTokens_keeps | apply State.setRequest_keeps | exact within_of (by decide +kernel) w | exact within_bit (by decide +kernel) w | apply keeps_foldl | (intro u; first | (refine keeps_then (W := W) (s0 := s0) (a := u) ?_ ?_; subst u; rotate_left; intro _) | subst u | skip) | lift_lets -underBinder | dsimp -zeta only | split

theorem execCancelDrainComplete_keeps {a0} (h : Keeps W s0 s) (w : Within 0x40000000000000000000000000000000000000000000f0078000000000000042000000000000007e000823dc0 W) :
    KeepsN W s0 (execCancelDrainComplete a0 s) := by
  unfold execCancelDrainComplete
  with_reducible repeat' first | assumption | apply keepsN_next | apply State.drained_keeps | exact within_of (by decide +kernel) w | exact within_bit (by decide +kernel) w | apply keeps_foldl | (intro u; first | (refine keeps_then (W := W) (s0 := s0) (a := u) ?_ ?_; subst u; rotate_left; intro _) | subst u | skip) | lift_lets -underBinder | dsimp -zeta only | split

end Sys2Proof.Machine
end

