-- ==== Sys2Proof/Laws/Keeps/ReadOps.lean ====
section
/-! SUPPORT. Laws/Keeps/ReadOps.lean: what every operation of Machine/ReadOps.lean keeps (the relation of Laws/Keeps.lean). -/
set_option Elab.async false
set_option linter.all false
set_option linter.unusedSimpArgs false
set_option linter.tactic.unusedName false
namespace Sys2Proof.Machine
variable {W : Nat} {s0 s : State}

theorem State.setSnapshot_keeps {a1 a2 a3} (h : Keeps W s0 s) (w : Within 0x4 W) :
    Keeps W s0 (State.setSnapshot s a1 a2 a3) := by
  unfold State.setSnapshot
  with_reducible repeat' first | assumption | exact within_of (by decide +kernel) w | exact within_bit (by decide +kernel) w | exact .inr (within_bit (by decide +kernel) w) | exact .inl rfl | simp -zeta only [keepsMk_iff] | apply keeps_mk | apply keeps_foldl | (intro u; first | (refine keeps_then (W := W) (s0 := s0) (a := u) ?_ ?_; subst u; rotate_left; intro _) | subst u | skip) | lift_lets -underBinder | dsimp -zeta only | split

theorem State.readReg_keeps {a1 a2} (h : Keeps W s0 s) (w : Within 0x180018000000000000000000000000000000000000000000000000000000000000000000080000000000000000000000000000818004 W) :
    Keeps W s0 (State.readReg s a1 a2) := by
  unfold State.readReg
  with_reducible repeat' first | assumption | apply State.emit_keeps | apply State.readBarMax_keeps | apply State.readResult_keeps | apply State.readDrop_keeps | apply State.readPeak_keeps | apply State.setSnapshot_keeps | exact within_of (by decide +kernel) w | exact within_bit (by decide +kernel) w | apply keeps_foldl | (intro u; first | (refine keeps_then (W := W) (s0 := s0) (a := u) ?_ ?_; subst u; rotate_left; intro _) | subst u | skip) | lift_lets -underBinder | dsimp -zeta only | split

end Sys2Proof.Machine
end

