-- ==== Sys2Proof/Laws/Keeps/Security.lean ====
section
/-! SUPPORT. Laws/Keeps/Security.lean: what every operation of Machine/Security.lean keeps (the relation of Laws/Keeps.lean). -/
set_option Elab.async false
set_option linter.all false
set_option linter.unusedSimpArgs false
set_option linter.tactic.unusedName false
namespace Sys2Proof.Machine
variable {W : Nat} {s0 s : State}

theorem State.fwResult_keeps {a1} (h : Keeps W s0 s) (w : Within 0x200000000000000000000000000000000000000000000000000000000000000000000000000000000000000000000000000000000000000000000000000000000000 W) :
    Keeps W s0 (State.fwResult s a1) := by
  unfold State.fwResult
  with_reducible repeat' first | assumption | apply State.wr_keeps | exact within_of (by decide +kernel) w | exact within_bit (by decide +kernel) w | apply keeps_foldl | (intro u; first | (refine keeps_then (W := W) (s0 := s0) (a := u) ?_ ?_; subst u; rotate_left; intro _) | subst u | skip) | lift_lets -underBinder | dsimp -zeta only | split

theorem State.installImage_keeps {a1 a2} (h : Keeps W s0 s) (w : Within 0x21a000000000000000000000000000000000000000000000000000000000000000000000000000000000000000000000000000000000000000000000000000040000 W) :
    Keeps W s0 (State.installImage s a1 a2) := by
  unfold State.installImage
  with_reducible repeat' first | assumption | apply State.fwResult_keeps | apply State.wr_keeps | exact within_of (by decide +kernel) w | exact within_bit (by decide +kernel) w | exact .inr (within_bit (by decide +kernel) w) | exact .inl rfl | simp -zeta only [keepsMk_iff] | apply keeps_mk | apply keeps_foldl | (intro u; first | (refine keeps_then (W := W) (s0 := s0) (a := u) ?_ ?_; subst u; rotate_left; intro _) | subst u | skip) | lift_lets -underBinder | dsimp -zeta only | split

theorem execFirmwareInstall_keeps {a0 a1 a2} (h : Keeps W s0 s) (w : Within 0x21a00000000000000000000000000000000000000000000000180000000000000003d000000000000000000000000000000000000000000000000000000000850020 W) :
    KeepsN W s0 (execFirmwareInstall a0 a1 a2 s) := by
  unfold execFirmwareInstall
  with_reducible repeat' first | assumption | apply keepsN_next | apply State.ownedAccess_keeps | apply State.installImage_keeps | exact within_of (by decide +kernel) w | exact within_bit (by decide +kernel) w | apply keeps_foldl | (intro u; first | (refine keeps_then (W := W) (s0 := s0) (a := u) ?_ ?_; subst u; rotate_left; intro _) | subst u | skip) | lift_lets -underBinder | dsimp -zeta only | split

theorem State.commitSvn_keeps (h : Keeps W s0 s) (w : Within 0x240000000000000000000000000000000000000000000000000000000000000000000000000000000000000000000000000000000000000000000000000000000000 W) :
    Keeps W s0 (State.commitSvn s) := by
  unfold State.commitSvn
  with_reducible repeat' first | assumption | apply State.fwResult_keeps | apply State.wr_keeps | exact within_of (by decide +kernel) w | exact within_bit (by decide +kernel) w | apply keeps_foldl | (intro u; first | (refine keeps_then (W := W) (s0 := s0) (a := u) ?_ ?_; subst u; rotate_left; intro _) | subst u | skip) | lift_lets -underBinder | dsimp -zeta only | split

theorem execCommitSvn_keeps {a0} (h : Keeps W s0 s) (w : Within 0x24000000000000000000000000000000000000000000000000180000000000000003d000000000000000000000000000000000000000000000000000000000810020 W) :
    KeepsN W s0 (execCommitSvn a0 s) := by
  unfold execCommitSvn
  with_reducible repeat' first | assumption | apply keepsN_next | apply State.ownedAccess_keeps | apply State.commitSvn_keeps | exact within_of (by decide +kernel) w | exact within_bit (by decide +kernel) w | apply keeps_foldl | (intro u; first | (refine keeps_then (W := W) (s0 := s0) (a := u) ?_ ?_; subst u; rotate_left; intro _) | subst u | skip) | lift_lets -underBinder | dsimp -zeta only | split

theorem execKeyStage_keeps {a0 a1 a2} (h : Keeps W s0 s) (w : Within 0x68000000000000000000000000000000000000000000000000000180000000000000003d000000000000000000000000000000000000000000000000000000000850020 W) :
    KeepsN W s0 (execKeyStage a0 a1 a2 s) := by
  unfold execKeyStage
  with_reducible repeat' first | assumption | apply keepsN_next | apply State.ownedAccess_keeps | apply State.stageKey_keeps | exact within_of (by decide +kernel) w | exact within_bit (by decide +kernel) w | apply keeps_foldl | (intro u; first | (refine keeps_then (W := W) (s0 := s0) (a := u) ?_ ?_; subst u; rotate_left; intro _) | subst u | skip) | lift_lets -underBinder | dsimp -zeta only | split

theorem execSeal_keeps {a0} (h : Keeps W s0 s) (w : Within 0x608000000000000000000000000000000000000000000000000000180000000000000003d000000000000000000000000000000000000000000000000000000001850020 W) :
    KeepsN W s0 (execSeal a0 s) := by
  unfold execSeal
  with_reducible repeat' first | assumption | apply keepsN_next | apply State.ownedAccess_keeps | apply State.sealStage_keeps | exact within_of (by decide +kernel) w | exact within_bit (by decide +kernel) w | apply keeps_foldl | (intro u; first | (refine keeps_then (W := W) (s0 := s0) (a := u) ?_ ?_; subst u; rotate_left; intro _) | subst u | skip) | lift_lets -underBinder | dsimp -zeta only | split

theorem execStageAbort_keeps {a0} (h : Keeps W s0 s) (w : Within 0x98000000000000000000000000000000000000000000000000000180000000000000003d000000000000000000000000000000000000000000000000000000000850020 W) :
    KeepsN W s0 (execStageAbort a0 s) := by
  unfold execStageAbort
  with_reducible repeat' first | assumption | apply keepsN_next | apply State.ownedAccess_keeps | apply State.discardStage_keeps | exact within_of (by decide +kernel) w | exact within_bit (by decide +kernel) w | apply keeps_foldl | (intro u; first | (refine keeps_then (W := W) (s0 := s0) (a := u) ?_ ?_; subst u; rotate_left; intro _) | subst u | skip) | lift_lets -underBinder | dsimp -zeta only | split

theorem execConfigRollback_keeps {a0} (h : Keeps W s0 s) (w : Within 0x78000000000000000000000000000000000000000000000000000180000000000000003d000000000000000000000000000000000000000000000000000000000850020 W) :
    KeepsN W s0 (execConfigRollback a0 s) := by
  unfold execConfigRollback
  with_reducible repeat' first | assumption | apply keepsN_next | apply State.ownedAccess_keeps | apply State.stageRollback_keeps | exact within_of (by decide +kernel) w | exact within_bit (by decide +kernel) w | apply keeps_foldl | (intro u; first | (refine keeps_then (W := W) (s0 := s0) (a := u) ?_ ?_; subst u; rotate_left; intro _) | subst u | skip) | lift_lets -underBinder | dsimp -zeta only | split

theorem execStageTimeout_keeps (h : Keeps W s0 s) (w : Within 0x980000000000000000000000000000000000000000000000000000000000000000000000000000000000000000000000000000000000000000000000000000000040000 W) :
    KeepsN W s0 (execStageTimeout s) := by
  unfold execStageTimeout
  with_reducible repeat' first | assumption | apply keepsN_next | apply State.discardStage_keeps | exact within_of (by decide +kernel) w | exact within_bit (by decide +kernel) w | apply keeps_foldl | (intro u; first | (refine keeps_then (W := W) (s0 := s0) (a := u) ?_ ?_; subst u; rotate_left; intro _) | subst u | skip) | lift_lets -underBinder | dsimp -zeta only | split

theorem execGenerationRecord_keeps (h : Keeps W s0 s) (w : Within 0x7800000000000000000000000000000000000000000000000000000000000000000000000000000000000000000000000000000000000000000000000000000040000 W) :
    KeepsN W s0 (execGenerationRecord s) := by
  unfold execGenerationRecord
  with_reducible repeat' first | assumption | apply keepsN_next | apply State.recordGeneration_keeps | exact within_of (by decide +kernel) w | exact within_bit (by decide +kernel) w | apply keeps_foldl | (intro u; first | (refine keeps_then (W := W) (s0 := s0) (a := u) ?_ ?_; subst u; rotate_left; intro _) | subst u | skip) | lift_lets -underBinder | dsimp -zeta only | split

theorem State.answer_keeps {a1 a2 a3} (h : Keeps W s0 s) (w : Within 0x800000 W) :
    Keeps W s0 (State.answer s a1 a2 a3) := by
  unfold State.answer
  with_reducible repeat' first | assumption | apply State.emit_keeps | exact within_of (by decide +kernel) w | exact within_bit (by decide +kernel) w | apply keeps_foldl | (intro u; first | (refine keeps_then (W := W) (s0 := s0) (a := u) ?_ ?_; subst u; rotate_left; intro _) | subst u | skip) | lift_lets -underBinder | dsimp -zeta only | split

theorem State.badMessage_keeps {a1} (h : Keeps W s0 s) (w : Within 0x1000000000000000000000000000000000000000000000000000000000000000000000000000000000000000000000000000000000000000000000000000000000800000 W) :
    Keeps W s0 (State.badMessage s a1) := by
  unfold State.badMessage
  with_reducible repeat' first | assumption | apply State.answer_keeps | apply State.bump_keeps | exact within_of (by decide +kernel) w | exact within_bit (by decide +kernel) w | apply keeps_foldl | (intro u; first | (refine keeps_then (W := W) (s0 := s0) (a := u) ?_ ?_; subst u; rotate_left; intro _) | subst u | skip) | lift_lets -underBinder | dsimp -zeta only | split

theorem State.approve_keeps {a1 a2} (h : Keeps W s0 s) (w : Within (topMask ||| 0x844020) W) :
    Keeps W s0 (State.approve s a1 a2) := by
  unfold State.approve
  with_reducible repeat' first | assumption | apply State.badMessage_keeps | apply State.answer_keeps | apply State.refuseStage_keeps | apply State.commitStage_keeps | exact within_of (by decide +kernel) w | exact within_bit (by decide +kernel) w | apply keeps_foldl | (intro u; first | (refine keeps_then (W := W) (s0 := s0) (a := u) ?_ ?_; subst u; rotate_left; intro _) | subst u | skip) | lift_lets -underBinder | dsimp -zeta only | split

theorem execApprove_keeps {a0 a1} (h : Keeps W s0 s) (w : Within (topMask ||| 0x844020) W) :
    KeepsN W s0 (execApprove a0 a1 s) := by
  unfold execApprove
  with_reducible repeat' first | assumption | apply keepsN_next | apply State.approve_keeps | exact within_of (by decide +kernel) w | exact within_bit (by decide +kernel) w | apply keeps_foldl | (intro u; first | (refine keeps_then (W := W) (s0 := s0) (a := u) ?_ ?_; subst u; rotate_left; intro _) | subst u | skip) | lift_lets -underBinder | dsimp -zeta only | split

theorem execGetStage_keeps {a0 a1} (h : Keeps W s0 s) (w : Within 0x800000 W) :
    KeepsN W s0 (execGetStage a0 a1 s) := by
  unfold execGetStage
  with_reducible repeat' first | assumption | apply keepsN_next | apply State.answer_keeps | exact within_of (by decide +kernel) w | exact within_bit (by decide +kernel) w | apply keeps_foldl | (intro u; first | (refine keeps_then (W := W) (s0 := s0) (a := u) ?_ ?_; subst u; rotate_left; intro _) | subst u | skip) | lift_lets -underBinder | dsimp -zeta only | split

theorem execGetNonce_keeps {a0} (h : Keeps W s0 s) (w : Within 0x1840000 W) :
    KeepsN W s0 (execGetNonce a0 s) := by
  unfold execGetNonce
  with_reducible repeat' first | assumption | apply keepsN_next | apply State.draw_keeps | apply State.answer_keeps | refine keeps_of_snd (by assumption) ?_ | exact within_of (by decide +kernel) w | exact within_bit (by decide +kernel) w | exact .inr (within_bit (by decide +kernel) w) | exact .inl rfl | simp -zeta only [keepsMk_iff, keepsS_mk_iff, keeps_snd_iff] | apply keeps_mk | apply keepsS_foldl | apply keeps_foldl | (intro u; first | (refine keeps_then (W := W) (s0 := s0) (a := u) ?_ ?_; subst u; rotate_left; intro _) | subst u | skip) | lift_lets -underBinder | dsimp -zeta only | split

theorem State.reclaim_keeps {a1 a2} (h : Keeps W s0 s) (w : Within 0x1980000000000000000000000000000000000000000000000000000000000000000000000000520000000000000000000000000000000000000000000000000000840000 W) :
    Keeps W s0 (State.reclaim s a1 a2) := by
  unfold State.reclaim
  with_reducible repeat' first | assumption | apply State.answer_keeps | apply State.badMessage_keeps | apply State.wr_keeps | apply State.discardStage_keeps | exact within_of (by decide +kernel) w | exact within_bit (by decide +kernel) w | apply keeps_foldl | (intro u; first | (refine keeps_then (W := W) (s0 := s0) (a := u) ?_ ?_; subst u; rotate_left; intro _) | subst u | skip) | lift_lets -underBinder | dsimp -zeta only | split

theorem execReclaim_keeps {a0 a1} (h : Keeps W s0 s) (w : Within 0x1980000000000000000000000000000000000000000000000000000000000000000000000000520000000000000000000000000000000000000000000000000000840000 W) :
    KeepsN W s0 (execReclaim a0 a1 s) := by
  unfold execReclaim
  with_reducible repeat' first | assumption | apply keepsN_next | apply State.reclaim_keeps | exact within_of (by decide +kernel) w | exact within_bit (by decide +kernel) w | apply keeps_foldl | (intro u; first | (refine keeps_then (W := W) (s0 := s0) (a := u) ?_ ?_; subst u; rotate_left; intro _) | subst u | skip) | lift_lets -underBinder | dsimp -zeta only | split

theorem State.setSpdm_keeps {a1 a2} (h : Keeps W s0 s) (w : Within 0x40000 W) :
    Keeps W s0 (State.setSpdm s a1 a2) := by
  unfold State.setSpdm
  with_reducible repeat' first | assumption | exact within_of (by decide +kernel) w | exact within_bit (by decide +kernel) w | exact .inr (within_bit (by decide +kernel) w) | exact .inl rfl | simp -zeta only [keepsMk_iff] | apply keeps_mk | apply keeps_foldl | (intro u; first | (refine keeps_then (W := W) (s0 := s0) (a := u) ?_ ?_; subst u; rotate_left; intro _) | subst u | skip) | lift_lets -underBinder | dsimp -zeta only | split

theorem State.spdmFail_keeps {a1 a2} (h : Keeps W s0 s) (w : Within 0x800000 W) :
    Keeps W s0 (State.spdmFail s a1 a2) := by
  unfold State.spdmFail
  with_reducible repeat' first | assumption | apply State.emit_keeps | exact within_of (by decide +kernel) w | exact within_bit (by decide +kernel) w | apply keeps_foldl | (intro u; first | (refine keeps_then (W := W) (s0 := s0) (a := u) ?_ ?_; subst u; rotate_left; intro _) | subst u | skip) | lift_lets -underBinder | dsimp -zeta only | split

theorem State.spdmAnswer_keeps {a1 a2 a3 a4} (h : Keeps W s0 s) (w : Within 0x840000 W) :
    Keeps W s0 (State.spdmAnswer s a1 a2 a3 a4) := by
  unfold State.spdmAnswer
  with_reducible repeat' first | assumption | apply State.emit_keeps | apply State.setSpdm_keeps | exact within_of (by decide +kernel) w | exact within_bit (by decide +kernel) w | apply keeps_foldl | (intro u; first | (refine keeps_then (W := W) (s0 := s0) (a := u) ?_ ?_; subst u; rotate_left; intro _) | subst u | skip) | lift_lets -underBinder | dsimp -zeta only | split

theorem State.spdmSigned_keeps {a1 a2 a3 a4} (h : Keeps W s0 s) (w : Within 0x840000 W) :
    Keeps W s0 (State.spdmSigned s a1 a2 a3 a4) := by
  unfold State.spdmSigned
  with_reducible repeat' first | assumption | apply State.emit_keeps | apply State.setSpdm_keeps | exact within_of (by decide +kernel) w | exact within_bit (by decide +kernel) w | apply keeps_foldl | (intro u; first | (refine keeps_then (W := W) (s0 := s0) (a := u) ?_ ?_; subst u; rotate_left; intro _) | subst u | skip) | lift_lets -underBinder | dsimp -zeta only | split

theorem State.negotiated_keeps {a1 a2} (h : Keeps W s0 s) (w : Within 0x800000 W) (h2 : ∀ a, Keeps W s0 a → Keeps W s0 (a2 a)) :
    Keeps W s0 (State.negotiated s a1 a2) := by
  unfold State.negotiated
  with_reducible repeat' first | assumption | apply h2 | apply State.spdmFail_keeps | exact within_of (by decide +kernel) w | exact within_bit (by decide +kernel) w | apply keeps_foldl | (intro u; first | (refine keeps_then (W := W) (s0 := s0) (a := u) ?_ ?_; subst u; rotate_left; intro _) | subst u | skip) | lift_lets -underBinder | dsimp -zeta only | split

theorem execNegotiateAlgorithms_keeps {a0 a1} (h : Keeps W s0 s) (w : Within 0x840000 W) :
    KeepsN W s0 (execNegotiateAlgorithms a0 a1 s) := by
  unfold execNegotiateAlgorithms
  with_reducible repeat' first | assumption | apply keepsN_next | apply State.spdmFail_keeps | apply State.spdmAnswer_keeps | apply State.setSpdm_keeps | exact within_of (by decide +kernel) w | exact within_bit (by decide +kernel) w | apply keeps_foldl | (intro u; first | (refine keeps_then (W := W) (s0 := s0) (a := u) ?_ ?_; subst u; rotate_left; intro _) | subst u | skip) | lift_lets -underBinder | dsimp -zeta only | split

theorem State.measure_keeps {a1 a2 a3 a4} (h : Keeps W s0 s) (w : Within 0x840000 W) :
    Keeps W s0 (State.measure s a1 a2 a3 a4) := by
  unfold State.measure
  with_reducible repeat' first | assumption | apply State.spdmFail_keeps | apply State.spdmSigned_keeps | apply State.spdmAnswer_keeps | exact within_of (by decide +kernel) w | exact within_bit (by decide +kernel) w | apply keeps_foldl | (intro u; first | (refine keeps_then (W := W) (s0 := s0) (a := u) ?_ ?_; subst u; rotate_left; intro _) | subst u | skip) | lift_lets -underBinder | dsimp -zeta only | split

theorem execGetMeasurements_keeps {a0 a1 a2 a3} (h : Keeps W s0 s) (w : Within 0x840000 W) :
    KeepsN W s0 (execGetMeasurements a0 a1 a2 a3 s) := by
  unfold execGetMeasurements
  with_reducible repeat' first | assumption | apply keepsN_next | apply State.negotiated_keeps | apply State.measure_keeps | exact within_of (by decide +kernel) w | exact within_bit (by decide +kernel) w | apply keeps_foldl | (intro u; first | (refine keeps_then (W := W) (s0 := s0) (a := u) ?_ ?_; subst u; rotate_left; intro _) | subst u | skip) | lift_lets -underBinder | dsimp -zeta only | split

theorem execGetCertificate_keeps {a0 a1 a2 a3} (h : Keeps W s0 s) (w : Within 0x840000 W) :
    KeepsN W s0 (execGetCertificate a0 a1 a2 a3 s) := by
  unfold execGetCertificate
  with_reducible repeat' first | assumption | apply keepsN_next | apply State.negotiated_keeps | apply State.spdmAnswer_keeps | apply State.spdmFail_keeps | exact within_of (by decide +kernel) w | exact within_bit (by decide +kernel) w | apply keeps_foldl | (intro u; first | (refine keeps_then (W := W) (s0 := s0) (a := u) ?_ ?_; subst u; rotate_left; intro _) | subst u | skip) | lift_lets -underBinder | dsimp -zeta only | split

theorem execChallenge_keeps {a0 a1 a2} (h : Keeps W s0 s) (w : Within 0x840000 W) :
    KeepsN W s0 (execChallenge a0 a1 a2 s) := by
  unfold execChallenge
  with_reducible repeat' first | assumption | apply keepsN_next | apply State.negotiated_keeps | apply State.spdmSigned_keeps | apply State.spdmFail_keeps | exact within_of (by decide +kernel) w | exact within_bit (by decide +kernel) w | apply keeps_foldl | (intro u; first | (refine keeps_then (W := W) (s0 := s0) (a := u) ?_ ?_; subst u; rotate_left; intro _) | subst u | skip) | lift_lets -underBinder | dsimp -zeta only | split

theorem execKeyExchange_keeps {a0 a1 a2 a3} (h : Keeps W s0 s) (w : Within 0x1840000 W) :
    KeepsN W s0 (execKeyExchange a0 a1 a2 a3 s) := by
  unfold execKeyExchange
  with_reducible repeat' first | assumption | apply keepsN_next | apply State.negotiated_keeps | apply State.draw_keeps | apply State.setSpdm_keeps | apply State.spdmSigned_keeps | apply State.spdmFail_keeps | refine keeps_of_snd (by assumption) ?_ | exact within_of (by decide +kernel) w | exact within_bit (by decide +kernel) w | simp -zeta only [keepsS_mk_iff, keeps_snd_iff] | apply keepsS_foldl | apply keeps_foldl | (intro u; first | (refine keeps_then (W := W) (s0 := s0) (a := u) ?_ ?_; subst u; rotate_left; intro _) | subst u | skip) | lift_lets -underBinder | dsimp -zeta only | split

end Sys2Proof.Machine
end

