-- ==== Sys2Proof/Laws/Keeps/Sequencer.lean ====
section
/-! SUPPORT. Laws/Keeps/Sequencer.lean: what every operation of Machine/Sequencer.lean keeps (the relation of Laws/Keeps.lean). -/
set_option Elab.async false
set_option linter.all false
set_option linter.unusedSimpArgs false
set_option linter.tactic.unusedName false
namespace Sys2Proof.Machine
variable {W : Nat} {s0 s : State}

theorem State.keepSource_keeps {a1 a2 a3} (h : Keeps W s0 s) (w : Within 0x400 W) :
    Keeps W s0 (State.keepSource s a1 a2 a3) := by
  unfold State.keepSource
  with_reducible repeat' first | assumption | apply State.setCore_keeps | exact within_of (by decide +kernel) w | exact within_bit (by decide +kernel) w | apply keeps_foldl | (intro u; first | (refine keeps_then (W := W) (s0 := s0) (a := u) ?_ ?_; subst u; rotate_left; intro _) | subst u | skip) | lift_lets -underBinder | dsimp -zeta only | split

theorem execSend_keeps {a0 a1} (h : Keeps W s0 s) (w : Within 0xfb00000000600000000000000000000000000040000000000000000000000000000000000000000000f0078000000000001e62002000000000007e000823dc8 W) :
    KeepsN W s0 (execSend a0 a1 s) := by
  unfold execSend
  with_reducible repeat' first | assumption | apply keepsOF_some | apply keepsOF_none | apply keepsN_next | apply State.issue_keeps | apply done_keeps | apply State.sendMessage_keeps | apply State.keepSource_keeps | refine keeps_of_somePair (by assumption) ?_ | exact within_of (by decide +kernel) w | exact within_bit (by decide +kernel) w | apply keeps_foldl | (intro u; first | (refine keeps_then (W := W) (s0 := s0) (a := u) ?_ ?_; subst u; rotate_left; intro _) | subst u | skip) | lift_lets -underBinder | dsimp -zeta only | split

theorem execRecv_keeps {a0 a1} (h : Keeps W s0 s) (w : Within 0xfb00000000600000000000000000000000000040000000000000000000000000000000000000000000f0078000000000001e62002000000000007e000a23dc8 W) :
    KeepsN W s0 (execRecv a0 a1 s) := by
  unfold execRecv
  with_reducible repeat' first | assumption | apply keepsOF_some | apply keepsOF_none | apply keepsO_some | apply keepsO_none | apply keepsN_next | apply State.issue_keeps | apply State.orPark_keeps | apply State.tryRecv_keeps | refine keeps_of_some (by assumption) ?_ | exact keeps_of_some rfl (by assumption) | apply keeps_getD | refine keeps_of_somePair (by assumption) ?_ | exact within_of (by decide +kernel) w | exact within_bit (by decide +kernel) w | apply keeps_foldl | (intro u; first | (refine keeps_then (W := W) (s0 := s0) (a := u) ?_ ?_; subst u; rotate_left; intro _) | subst u | skip) | lift_lets -underBinder | dsimp -zeta only | split

theorem execRecvred_keeps {a0 a1} (h : Keeps W s0 s) (w : Within 0xfb00000000600000000000000000000000000040000000000000000000000000000000000000000000f0078000000000001e62002000000000007e000a23dc8 W) :
    KeepsN W s0 (execRecvred a0 a1 s) := by
  unfold execRecvred
  with_reducible repeat' first | assumption | apply keepsOF_some | apply keepsOF_none | apply keepsO_some | apply keepsO_none | apply keepsN_next | apply State.issue_keeps | apply State.orPark_keeps | apply State.tryRecvRed_keeps | refine keeps_of_some (by assumption) ?_ | exact keeps_of_some rfl (by assumption) | apply keeps_getD | refine keeps_of_somePair (by assumption) ?_ | exact within_of (by decide +kernel) w | exact within_bit (by decide +kernel) w | apply keeps_foldl | (intro u; first | (refine keeps_then (W := W) (s0 := s0) (a := u) ?_ ?_; subst u; rotate_left; intro _) | subst u | skip) | lift_lets -underBinder | dsimp -zeta only | split

theorem State.contribute_keeps {a1 a2 a3} (h : Keeps W s0 s) (w : Within 0x800000 W) :
    Keeps W s0 (State.contribute s a1 a2 a3) := by
  unfold State.contribute
  with_reducible repeat' first | assumption | apply State.sendReduction_keeps | exact within_of (by decide +kernel) w | exact within_bit (by decide +kernel) w | apply keeps_foldl | (intro u; first | (refine keeps_then (W := W) (s0 := s0) (a := u) ?_ ?_; subst u; rotate_left; intro _) | subst u | skip) | lift_lets -underBinder | dsimp -zeta only | split

theorem execRedAdd_keeps {a0 a1} (h : Keeps W s0 s) (w : Within 0xfb00000000600000000000000000000000000040000000000000000000000000000000000000000000f0078000000000001e62002000000000007e000823dc8 W) :
    KeepsN W s0 (execRedAdd a0 a1 s) := by
  unfold execRedAdd
  with_reducible repeat' first | assumption | apply keepsOF_some | apply keepsOF_none | apply keepsN_next | apply State.issue_keeps | apply done_keeps | apply State.contribute_keeps | refine keeps_of_somePair (by assumption) ?_ | exact within_of (by decide +kernel) w | exact within_bit (by decide +kernel) w | apply keeps_foldl | (intro u; first | (refine keeps_then (W := W) (s0 := s0) (a := u) ?_ ?_; subst u; rotate_left; intro _) | subst u | skip) | lift_lets -underBinder | dsimp -zeta only | split

theorem execRedMax_keeps {a0 a1} (h : Keeps W s0 s) (w : Within 0xfb00000000600000000000000000000000000040000000000000000000000000000000000000000000f0078000000000001e62002000000000007e000823dc8 W) :
    KeepsN W s0 (execRedMax a0 a1 s) := by
  unfold execRedMax
  with_reducible repeat' first | assumption | apply keepsOF_some | apply keepsOF_none | apply keepsN_next | apply State.issue_keeps | apply done_keeps | apply State.contribute_keeps | refine keeps_of_somePair (by assumption) ?_ | exact within_of (by decide +kernel) w | exact within_bit (by decide +kernel) w | apply keeps_foldl | (intro u; first | (refine keeps_then (W := W) (s0 := s0) (a := u) ?_ ?_; subst u; rotate_left; intro _) | subst u | skip) | lift_lets -underBinder | dsimp -zeta only | split

theorem execBarArriveWait_keeps {a0 a1} (h : Keeps W s0 s) (w : Within 0xfb00000000600000000000000000000000000040000000000000000000000000000000000000000000f0078000000000001e62002000000000007e000823dc8 W) :
    KeepsN W s0 (execBarArriveWait a0 a1 s) := by
  unfold execBarArriveWait
  with_reducible repeat' first | assumption | apply keepsOF_some | apply keepsOF_none | apply keepsN_next | apply State.issue_keeps | apply State.sendControl_keeps | apply State.parkAt_keeps | exact within_of (by decide +kernel) w | exact within_bit (by decide +kernel) w | apply keeps_foldl | (intro u; first | (refine keeps_then (W := W) (s0 := s0) (a := u) ?_ ?_; subst u; rotate_left; intro _) | subst u | skip) | lift_lets -underBinder | dsimp -zeta only | split

theorem execFlagAdd_keeps {a0 a1} (h : Keeps W s0 s) (w : Within 0xfb00000000600000000000000000000000000040000000000000000000000000000000000000000000f0078000000000001e62002000000000007e000823dc8 W) :
    KeepsN W s0 (execFlagAdd a0 a1 s) := by
  unfold execFlagAdd
  with_reducible repeat' first | assumption | apply keepsOF_some | apply keepsOF_none | apply keepsN_next | apply State.issue_keeps | apply done_keeps | apply State.sendControl_keeps | refine keeps_of_somePair (by assumption) ?_ | exact within_of (by decide +kernel) w | exact within_bit (by decide +kernel) w | apply keeps_foldl | (intro u; first | (refine keeps_then (W := W) (s0 := s0) (a := u) ?_ ?_; subst u; rotate_left; intro _) | subst u | skip) | lift_lets -underBinder | dsimp -zeta only | split

theorem execWaitGe_keeps {a0 a1} (h : Keeps W s0 s) (w : Within 0xfb00000000600000000000000000000000000040000000000000000000000000000000000000000000f0078000000000001e62002000000000007e000823dc8 W) :
    KeepsN W s0 (execWaitGe a0 a1 s) := by
  unfold execWaitGe
  with_reducible repeat' first | assumption | apply keepsOF_some | apply keepsOF_none | apply keepsO_some | apply keepsO_none | apply keepsN_next | apply State.issue_keeps | apply State.orPark_keeps | apply State.tryWait_keeps | refine keeps_of_some (by assumption) ?_ | exact keeps_of_some rfl (by assumption) | apply keeps_getD | refine keeps_of_somePair (by assumption) ?_ | exact within_of (by decide +kernel) w | exact within_bit (by decide +kernel) w | apply keeps_foldl | (intro u; first | (refine keeps_then (W := W) (s0 := s0) (a := u) ?_ ?_; subst u; rotate_left; intro _) | subst u | skip) | lift_lets -underBinder | dsimp -zeta only | split

theorem State.windowWrite_keeps {a1 a2 a3} (h : Keeps W s0 s) (w : Within 0x100000 W) :
    Keeps W s0 (State.windowWrite s a1 a2 a3) := by
  unfold State.windowWrite
  with_reducible repeat' first | assumption | apply State.stackWrite_keeps | exact within_of (by decide +kernel) w | exact within_bit (by decide +kernel) w | apply keeps_foldl | (intro u; first | (refine keeps_then (W := W) (s0 := s0) (a := u) ?_ ?_; subst u; rotate_left; intro _) | subst u | skip) | lift_lets -underBinder | dsimp -zeta only | split

theorem State.stream_keeps {a1 a2 a3 a4 a5} (h : Keeps W s0 s) (w : Within 0xfb00000000600000000000000000000000000040000000000000000000000000000000000000000000f0078000000000001e62002000000000007e000823dc8 W) (h5 : ∀ a, Keeps W s0 a → Keeps W s0 (a5 a)) :
    Keeps W s0 (State.stream s a1 a2 a3 a4 a5) := by
  unfold State.stream
  with_reducible repeat' first | assumption | apply h5 | apply keepsOF_some | apply keepsOF_none | apply State.issue_keeps | apply done_keeps | refine keeps_of_somePair (by assumption) ?_ | exact within_of (by decide +kernel) w | exact within_bit (by decide +kernel) w | apply keeps_foldl | (intro u; first | (refine keeps_then (W := W) (s0 := s0) (a := u) ?_ ?_; subst u; rotate_left; intro _) | subst u | skip) | lift_lets -underBinder | dsimp -zeta only | split

theorem execStreamLoad_keeps {a0 a1} (h : Keeps W s0 s) (w : Within 0xfb00000000600000000000000000000000000040000000000000000000000000000000000000000000f0078000000000001e62002000000000007e000a23dc8 W) :
    KeepsN W s0 (execStreamLoad a0 a1 s) := by
  unfold execStreamLoad
  with_reducible repeat' first | assumption | apply keepsN_next | apply State.stream_keeps | apply State.granWrite_keeps | exact within_of (by decide +kernel) w | exact within_bit (by decide +kernel) w | apply keeps_foldl | (intro u; first | (refine keeps_then (W := W) (s0 := s0) (a := u) ?_ ?_; subst u; rotate_left; intro _) | subst u | skip) | lift_lets -underBinder | dsimp -zeta only | split

theorem execStreamStore_keeps {a0 a1} (h : Keeps W s0 s) (w : Within 0xfb00000000600000000000000000000000000040000000000000000000000000000000000000000000f0078000000000001e62002000000000007e000923dc8 W) :
    KeepsN W s0 (execStreamStore a0 a1 s) := by
  unfold execStreamStore
  with_reducible repeat' first | assumption | apply keepsN_next | apply State.stream_keeps | apply State.windowWrite_keeps | exact within_of (by decide +kernel) w | exact within_bit (by decide +kernel) w | apply keeps_foldl | (intro u; first | (refine keeps_then (W := W) (s0 := s0) (a := u) ?_ ?_; subst u; rotate_left; intro _) | subst u | skip) | lift_lets -underBinder | dsimp -zeta only | split

theorem execKvload_keeps {a0 a1} (h : Keeps W s0 s) (w : Within 0xfb00000000600000000000000000000000000040000000000000000000000000000000000000000000f0078000000000001e62002000000000007e000a23dc8 W) :
    KeepsN W s0 (execKvload a0 a1 s) := by
  unfold execKvload
  with_reducible repeat' first | assumption | apply keepsN_next | apply State.stream_keeps | apply State.granWrite_keeps | exact within_of (by decide +kernel) w | exact within_bit (by decide +kernel) w | apply keeps_foldl | (intro u; first | (refine keeps_then (W := W) (s0 := s0) (a := u) ?_ ?_; subst u; rotate_left; intro _) | subst u | skip) | lift_lets -underBinder | dsimp -zeta only | split

theorem execKvstore_keeps {a0 a1} (h : Keeps W s0 s) (w : Within 0xfb00000000600000000000000000000000000040000000000000000000000000000000000000000000f0078000000000001e62002000000000007e000923dc8 W) :
    KeepsN W s0 (execKvstore a0 a1 s) := by
  unfold execKvstore
  with_reducible repeat' first | assumption | apply keepsN_next | apply State.stream_keeps | apply State.stackWrite_keeps | apply State.setRequest_keeps | exact within_of (by decide +kernel) w | exact within_bit (by decide +kernel) w | apply keeps_foldl | (intro u; first | (refine keeps_then (W := W) (s0 := s0) (a := u) ?_ ?_; subst u; rotate_left; intro _) | subst u | skip) | lift_lets -underBinder | dsimp -zeta only | split

theorem execAdload_keeps {a0 a1} (h : Keeps W s0 s) (w : Within 0xfb00000000600000000000000000000000000040000000000000000000000000000000000000000000f0078000000000001e62002000000000007e000a23dc8 W) :
    KeepsN W s0 (execAdload a0 a1 s) := by
  unfold execAdload
  with_reducible repeat' first | assumption | apply keepsN_next | apply State.stream_keeps | apply State.setCore_keeps | apply State.granWrite_keeps | exact within_of (by decide +kernel) w | exact within_bit (by decide +kernel) w | apply keeps_foldl | (intro u; first | (refine keeps_then (W := W) (s0 := s0) (a := u) ?_ ?_; subst u; rotate_left; intro _) | subst u | skip) | lift_lets -underBinder | dsimp -zeta only | split

theorem execGather_keeps {a0 a1} (h : Keeps W s0 s) (w : Within 0xfb00000000600000000000000000000000000040000000000000000000000000000000000000000000f0078000000000001e62002000000000007e001a23dc8 W) :
    KeepsN W s0 (execGather a0 a1 s) := by
  unfold execGather
  with_reducible repeat' first | assumption | apply keepsOF_some | apply keepsOF_none | apply keepsN_next | apply State.issue_keeps | apply done_keeps | apply State.draw_keeps | apply State.granWrite_keeps | refine keeps_of_snd (by assumption) ?_ | refine keeps_of_somePair (by assumption) ?_ | exact within_of (by decide +kernel) w | exact within_bit (by decide +kernel) w | simp -zeta only [keepsS_mk_iff, keeps_snd_iff] | apply keepsS_foldl | apply keeps_foldl | (intro u; first | (refine keeps_then (W := W) (s0 := s0) (a := u) ?_ ?_; subst u; rotate_left; intro _) | subst u | skip) | lift_lets -underBinder | dsimp -zeta only | split

theorem State.enterSlot_keeps {a1 a2} (h : Keeps W s0 s) (w : Within 0x400 W) :
    Keeps W s0 (State.enterSlot s a1 a2) := by
  unfold State.enterSlot
  with_reducible repeat' first | assumption | apply State.loadIx_keeps | apply State.setCore_keeps | exact within_of (by decide +kernel) w | exact within_bit (by decide +kernel) w | apply keeps_foldl | (intro u; first | (refine keeps_then (W := W) (s0 := s0) (a := u) ?_ ?_; subst u; rotate_left; intro _) | subst u | skip) | lift_lets -underBinder | dsimp -zeta only | split

theorem State.ctrl_keeps {a1 a2 a3 a4} (h : Keeps W s0 s) (w : Within 0xfb00000000600000000000000000000000000040000000000000000000000000000000000000000000f0078000000000001e62002000000000007e000823dc8 W) (h4 : ∀ a, Keeps W s0 a → Keeps W s0 (a4 a)) :
    Keeps W s0 (State.ctrl s a1 a2 a3 a4) := by
  unfold State.ctrl
  with_reducible repeat' first | assumption | apply h4 | apply keepsOF_some | apply keepsOF_none | apply State.issue_keeps | apply done_keeps | refine keeps_of_somePair (by assumption) ?_ | exact within_of (by decide +kernel) w | exact within_bit (by decide +kernel) w | apply keeps_foldl | (intro u; first | (refine keeps_then (W := W) (s0 := s0) (a := u) ?_ ?_; subst u; rotate_left; intro _) | subst u | skip) | lift_lets -underBinder | dsimp -zeta only | split

theorem execCtrlForeach_keeps {a0 a1} (h : Keeps W s0 s) (w : Within 0xfb00000000600000000000000000000000000040000000000000000000000000000000000000000000f0078000000000001e62002000000000007e000823dc8 W) :
    KeepsN W s0 (execCtrlForeach a0 a1 s) := by
  unfold execCtrlForeach
  with_reducible repeat' first | assumption | apply keepsN_next | apply State.ctrl_keeps | apply State.enterSlot_keeps | apply State.setCore_keeps | exact within_of (by decide +kernel) w | exact within_bit (by decide +kernel) w | apply keeps_foldl | (intro u; first | (refine keeps_then (W := W) (s0 := s0) (a := u) ?_ ?_; subst u; rotate_left; intro _) | subst u | skip) | lift_lets -underBinder | dsimp -zeta only | split

theorem State.endEach_keeps {a1} (h : Keeps W s0 s) (w : Within 0x400 W) :
    Keeps W s0 (State.endEach s a1) := by
  unfold State.endEach
  with_reducible repeat' first | assumption | apply State.advance_keeps | apply State.enterSlot_keeps | apply State.setCore_keeps | exact within_of (by decide +kernel) w | exact within_bit (by decide +kernel) w | apply keeps_foldl | (intro u; first | (refine keeps_then (W := W) (s0 := s0) (a := u) ?_ ?_; subst u; rotate_left; intro _) | subst u | skip) | lift_lets -underBinder | dsimp -zeta only | split

theorem execCtrlEndeach_keeps {a0 a1} (h : Keeps W s0 s) (w : Within 0xfb00000000600000000000000000000000000040000000000000000000000000000000000000000000f0078000000000001e62002000000000007e000823dc8 W) :
    KeepsN W s0 (execCtrlEndeach a0 a1 s) := by
  unfold execCtrlEndeach
  with_reducible repeat' first | assumption | apply keepsN_next | apply State.stepHalt_keeps | apply State.endEach_keeps | apply State.retired_keeps | apply State.tabUncorrectable_keeps | exact within_of (by decide +kernel) w | exact within_bit (by decide +kernel) w | apply keeps_foldl | (intro u; first | (refine keeps_then (W := W) (s0 := s0) (a := u) ?_ ?_; subst u; rotate_left; intro _) | subst u | skip) | lift_lets -underBinder | dsimp -zeta only | split

theorem execCtrlSeti_keeps {a0 a1} (h : Keeps W s0 s) (w : Within 0xfb00000000600000000000000000000000000040000000000000000000000000000000000000000000f0078000000000001e62002000000000007e000823dc8 W) :
    KeepsN W s0 (execCtrlSeti a0 a1 s) := by
  unfold execCtrlSeti
  with_reducible repeat' first | assumption | apply keepsN_next | apply State.ctrl_keeps | apply State.setIx_keeps | exact within_of (by decide +kernel) w | exact within_bit (by decide +kernel) w | apply keeps_foldl | (intro u; first | (refine keeps_then (W := W) (s0 := s0) (a := u) ?_ ?_; subst u; rotate_left; intro _) | subst u | skip) | lift_lets -underBinder | dsimp -zeta only | split

theorem execCtrlAddi_keeps {a0 a1} (h : Keeps W s0 s) (w : Within 0xfb00000000600000000000000000000000000040000000000000000000000000000000000000000000f0078000000000001e62002000000000007e000823dc8 W) :
    KeepsN W s0 (execCtrlAddi a0 a1 s) := by
  unfold execCtrlAddi
  with_reducible repeat' first | assumption | apply keepsN_next | apply State.ctrl_keeps | apply State.setIx_keeps | exact within_of (by decide +kernel) w | exact within_bit (by decide +kernel) w | apply keeps_foldl | (intro u; first | (refine keeps_then (W := W) (s0 := s0) (a := u) ?_ ?_; subst u; rotate_left; intro _) | subst u | skip) | lift_lets -underBinder | dsimp -zeta only | split

theorem execCtrlDivc_keeps {a0 a1} (h : Keeps W s0 s) (w : Within 0xfb00000000600000000000000000000000000040000000000000000000000000000000000000000000f0078000000000001e62002000000000007e000823dc8 W) :
    KeepsN W s0 (execCtrlDivc a0 a1 s) := by
  unfold execCtrlDivc
  with_reducible repeat' first | assumption | apply keepsN_next | apply State.ctrl_keeps | apply State.setIx_keeps | exact within_of (by decide +kernel) w | exact within_bit (by decide +kernel) w | apply keeps_foldl | (intro u; first | (refine keeps_then (W := W) (s0 := s0) (a := u) ?_ ?_; subst u; rotate_left; intro _) | subst u | skip) | lift_lets -underBinder | dsimp -zeta only | split

theorem execCtrlBr_keeps {a0 a1} (h : Keeps W s0 s) (w : Within 0xfb00000000600000000000000000000000000040000000000000000000000000000000000000000000f0078000000000001e62002000000000007e000823dc8 W) :
    KeepsN W s0 (execCtrlBr a0 a1 s) := by
  unfold execCtrlBr
  with_reducible repeat' first | assumption | apply keepsOF_some | apply keepsOF_none | apply keepsN_next | apply State.issue_keeps | apply State.retired_keeps | apply State.branch_keeps | exact within_of (by decide +kernel) w | exact within_bit (by decide +kernel) w | apply keeps_foldl | (intro u; first | (refine keeps_then (W := W) (s0 := s0) (a := u) ?_ ?_; subst u; rotate_left; intro _) | subst u | skip) | lift_lets -underBinder | dsimp -zeta only | split

theorem execCtrlLoop_keeps {a0 a1} (h : Keeps W s0 s) (w : Within 0xfb00000000600000000000000000000000000040000000000000000000000000000000000000000000f0078000000000001e62002000000000007e000823dc8 W) :
    KeepsN W s0 (execCtrlLoop a0 a1 s) := by
  unfold execCtrlLoop
  with_reducible repeat' first | assumption | apply keepsOF_some | apply keepsOF_none | apply keepsN_next | apply State.issue_keeps | apply State.setIx_keeps | apply State.retired_keeps | apply State.branch_keeps | exact within_of (by decide +kernel) w | exact within_bit (by decide +kernel) w | apply keeps_foldl | (intro u; first | (refine keeps_then (W := W) (s0 := s0) (a := u) ?_ ?_; subst u; rotate_left; intro _) | subst u | skip) | lift_lets -underBinder | dsimp -zeta only | split

theorem State.requeueSlot_keeps {a1 a2} (h : Keeps W s0 s) (w : Within 0x40 W) :
    Keeps W s0 (State.requeueSlot s a1 a2) := by
  unfold State.requeueSlot
  with_reducible repeat' first | assumption | exact within_of (by decide +kernel) w | exact within_bit (by decide +kernel) w | exact .inr (within_bit (by decide +kernel) w) | exact .inl rfl | simp -zeta only [keepsMk_iff] | apply keeps_mk | apply keeps_foldl | (intro u; first | (refine keeps_then (W := W) (s0 := s0) (a := u) ?_ ?_; subst u; rotate_left; intro _) | subst u | skip) | lift_lets -underBinder | dsimp -zeta only | split

theorem State.preemptSlots_keeps {a1 a2} (h : Keeps W s0 s) (w : Within 0x800000000000000000000000000000000000000000000000000440 W) :
    Keeps W s0 (State.preemptSlots s a1 a2) := by
  unfold State.preemptSlots
  with_reducible repeat' first | assumption | apply State.setCore_keeps | apply State.forEach_keeps | apply State.bump_keeps | apply State.requeueSlot_keeps | apply State.leavePass_keeps | apply State.setRequest_keeps | exact within_of (by decide +kernel) w | exact within_bit (by decide +kernel) w | apply keeps_foldl | (intro u; first | (refine keeps_then (W := W) (s0 := s0) (a := u) ?_ ?_; subst u; rotate_left; intro _) | subst u | skip) | lift_lets -underBinder | dsimp -zeta only | split

theorem State.markSlots_keeps {a1 a2} (h : Keeps W s0 s) (w : Within 0x40 W) :
    Keeps W s0 (State.markSlots s a1 a2) := by
  unfold State.markSlots
  with_reducible repeat' first | assumption | apply State.forEach_keeps | apply State.setRequest_keeps | exact within_of (by decide +kernel) w | exact within_bit (by decide +kernel) w | apply keeps_foldl | (intro u; first | (refine keeps_then (W := W) (s0 := s0) (a := u) ?_ ?_; subst u; rotate_left; intro _) | subst u | skip) | lift_lets -underBinder | dsimp -zeta only | split

theorem execCtrlLayer_keeps {a0 a1} (h : Keeps W s0 s) (w : Within 0xfb00000000600000000000000000000000000040000000000000000000000000000000000800000000f0078000000000001e63802000000000007e000823dc8 W) :
    KeepsN W s0 (execCtrlLayer a0 a1 s) := by
  unfold execCtrlLayer
  with_reducible repeat' first | assumption | apply keepsN_next | apply State.ctrl_keeps | apply State.setCore_keeps | apply State.wr_keeps | apply State.countLive_keeps | apply State.preemptSlots_keeps | apply State.markSlots_keeps | exact within_of (by decide +kernel) w | exact within_bit (by decide +kernel) w | apply keeps_foldl | (intro u; first | (refine keeps_then (W := W) (s0 := s0) (a := u) ?_ ?_; subst u; rotate_left; intro _) | subst u | skip) | lift_lets -underBinder | dsimp -zeta only | split

theorem execCtrlEnd_keeps {a0 a1} (h : Keeps W s0 s) (w : Within 0xfb00000000600000000000000000000000000040000000000000000000000000000000000000000000f0078000000000001e62002000000000007e000823dc8 W) :
    KeepsN W s0 (execCtrlEnd a0 a1 s) := by
  unfold execCtrlEnd
  with_reducible repeat' first | assumption | apply keepsN_next | apply State.ctrl_keeps | apply State.settlePass_keeps | apply State.setCore_keeps | exact within_of (by decide +kernel) w | exact within_bit (by decide +kernel) w | apply keeps_foldl | (intro u; first | (refine keeps_then (W := W) (s0 := s0) (a := u) ?_ ?_; subst u; rotate_left; intro _) | subst u | skip) | lift_lets -underBinder | dsimp -zeta only | split

theorem execStepAbort_keeps {a0 a1 a2} (h : Keeps W s0 s) (w : Within 0xfb00000000000000000000000000000000000040000000000000000000000000000000000000000000f0078000000000000042000000000000007e000823dc0 W) :
    KeepsN W s0 (execStepAbort a0 a1 a2 s) := by
  unfold execStepAbort
  with_reducible repeat' first | assumption | apply keepsN_next | apply State.stepAbortOf_keeps | exact within_of (by decide +kernel) w | exact within_bit (by decide +kernel) w | apply keeps_foldl | (intro u; first | (refine keeps_then (W := W) (s0 := s0) (a := u) ?_ ?_; subst u; rotate_left; intro _) | subst u | skip) | lift_lets -underBinder | dsimp -zeta only | split

theorem execCancelFlit_keeps {a0 a1} (h : Keeps W s0 s) (w : Within 0x600000000000000000000000000000000000000000000000000000000000000000000000000000000000000000420000000000000000000000508 W) :
    KeepsN W s0 (execCancelFlit a0 a1 s) := by
  unfold execCancelFlit
  with_reducible repeat' first | assumption | apply keepsN_next | apply State.report_keeps | apply State.dropCore_keeps | exact within_of (by decide +kernel) w | exact within_bit (by decide +kernel) w | apply keeps_foldl | (intro u; first | (refine keeps_then (W := W) (s0 := s0) (a := u) ?_ ?_; subst u; rotate_left; intro _) | subst u | skip) | lift_lets -underBinder | dsimp -zeta only | split

theorem execTabScrub_keeps {a0 a1} (h : Keeps W s0 s) (w : Within 0xfb00000000600000000000000000000000000040000000000000000000000000000000000000000000f0078000000000001e72002000000000007e000823dc8 W) :
    KeepsN W s0 (execTabScrub a0 a1 s) := by
  unfold execTabScrub
  with_reducible repeat' first | assumption | apply keepsN_next | apply State.report_keeps | apply State.bump_keeps | apply State.tabUncorrectable_keeps | exact within_of (by decide +kernel) w | exact within_bit (by decide +kernel) w | apply keeps_foldl | (intro u; first | (refine keeps_then (W := W) (s0 := s0) (a := u) ?_ ?_; subst u; rotate_left; intro _) | subst u | skip) | lift_lets -underBinder | dsimp -zeta only | split

theorem execTabReloadComplete_keeps {a0} (h : Keeps W s0 s) (w : Within 0x20000000000000000000400 W) :
    KeepsN W s0 (execTabReloadComplete a0 s) := by
  unfold execTabReloadComplete
  with_reducible repeat' first | assumption | apply keepsN_next | apply State.wr_keeps | apply State.setCore_keeps | exact within_of (by decide +kernel) w | exact within_bit (by decide +kernel) w | apply keeps_foldl | (intro u; first | (refine keeps_then (W := W) (s0 := s0) (a := u) ?_ ?_; subst u; rotate_left; intro _) | subst u | skip) | lift_lets -underBinder | dsimp -zeta only | split

theorem State.onCore_keeps {a1 a2 a3} (h : Keeps W s0 s) (h3 : ∀ a b, Keeps W s0 a → Keeps W s0 (a3 a b)) :
    Keeps W s0 (State.onCore s a1 a2 a3) := by
  unfold State.onCore
  with_reducible repeat' first | assumption | apply h3 | apply keeps_foldl | (intro u; first | (refine keeps_then (W := W) (s0 := s0) (a := u) ?_ ?_; subst u; rotate_left; intro _) | subst u | skip) | lift_lets -underBinder | dsimp -zeta only | split

theorem State.haltCore_keeps {a1} (h : Keeps W s0 s) (w : Within 0x120000000000000000000000 W) :
    Keeps W s0 (State.haltCore s a1) := by
  unfold State.haltCore
  with_reducible repeat' first | assumption | apply State.wr_keeps | exact within_of (by decide +kernel) w | exact within_bit (by decide +kernel) w | apply keeps_foldl | (intro u; first | (refine keeps_then (W := W) (s0 := s0) (a := u) ?_ ?_; subst u; rotate_left; intro _) | subst u | skip) | lift_lets -underBinder | dsimp -zeta only | split

theorem State.resumeCore_keeps {a1} (h : Keeps W s0 s) (w : Within 0x120000000000000000000000 W) :
    Keeps W s0 (State.resumeCore s a1) := by
  unfold State.resumeCore
  with_reducible repeat' first | assumption | apply State.wr_keeps | exact within_of (by decide +kernel) w | exact within_bit (by decide +kernel) w | apply keeps_foldl | (intro u; first | (refine keeps_then (W := W) (s0 := s0) (a := u) ?_ ?_; subst u; rotate_left; intro _) | subst u | skip) | lift_lets -underBinder | dsimp -zeta only | split

theorem State.clearCoreFault_keeps {a1} (h : Keeps W s0 s) (w : Within 0x1e000000000000000000000000000 W) :
    Keeps W s0 (State.clearCoreFault s a1) := by
  unfold State.clearCoreFault
  with_reducible repeat' first | assumption | apply State.clearFields_keeps | exact within_of (by decide +kernel) w | exact within_bit (by decide +kernel) w | apply keeps_foldl | (intro u; first | (refine keeps_then (W := W) (s0 := s0) (a := u) ?_ ?_; subst u; rotate_left; intro _) | subst u | skip) | lift_lets -underBinder | dsimp -zeta only | split

theorem execCoreHalt_keeps {a0 a1} (h : Keeps W s0 s) (w : Within 0x180000000000000003d000000000000000000000000000000000000000120000000000000000810020 W) :
    KeepsN W s0 (execCoreHalt a0 a1 s) := by
  unfold execCoreHalt
  with_reducible repeat' first | assumption | apply keepsN_next | apply State.ownedAccess_keeps | apply State.onCore_keeps | apply State.haltCore_keeps | exact within_of (by decide +kernel) w | exact within_bit (by decide +kernel) w | apply keeps_foldl | (intro u; first | (refine keeps_then (W := W) (s0 := s0) (a := u) ?_ ?_; subst u; rotate_left; intro _) | subst u | skip) | lift_lets -underBinder | dsimp -zeta only | split

theorem execCoreResume_keeps {a0 a1} (h : Keeps W s0 s) (w : Within 0x180000000000000003d000000000000000000000000000000000000000120000000000000000810020 W) :
    KeepsN W s0 (execCoreResume a0 a1 s) := by
  unfold execCoreResume
  with_reducible repeat' first | assumption | apply keepsN_next | apply State.ownedAccess_keeps | apply State.onCore_keeps | apply State.resumeCore_keeps | exact within_of (by decide +kernel) w | exact within_bit (by decide +kernel) w | apply keeps_foldl | (intro u; first | (refine keeps_then (W := W) (s0 := s0) (a := u) ?_ ?_; subst u; rotate_left; intro _) | subst u | skip) | lift_lets -underBinder | dsimp -zeta only | split

theorem execFaultClear_keeps {a0 a1} (h : Keeps W s0 s) (w : Within 0x180000000000000000000000000000000000000000000000000001e000000000000000000000810020 W) :
    KeepsN W s0 (execFaultClear a0 a1 s) := by
  unfold execFaultClear
  with_reducible repeat' first | assumption | apply keepsN_next | apply State.access_keeps | apply State.onCore_keeps | apply State.clearCoreFault_keeps | exact within_of (by decide +kernel) w | exact within_bit (by decide +kernel) w | apply keeps_foldl | (intro u; first | (refine keeps_then (W := W) (s0 := s0) (a := u) ?_ ?_; subst u; rotate_left; intro _) | subst u | skip) | lift_lets -underBinder | dsimp -zeta only | split

end Sys2Proof.Machine
end

