-- ==== Sys2Proof/Laws/Keeps/WriteOps.lean ====
section
/-! SUPPORT. Laws/Keeps/WriteOps.lean: what every operation of Machine/WriteOps.lean keeps (the relation of Laws/Keeps.lean). -/
set_option Elab.async false
set_option linter.all false
set_option linter.unusedSimpArgs false
set_option linter.tactic.unusedName false
namespace Sys2Proof.Machine
variable {W : Nat} {s0 s : State}

theorem State.storeField_keeps {a1 a2 a3} (h : Keeps W s0 s) (w : Within (topMask ||| 0x40000) W) :
    Keeps W s0 (State.storeField s a1 a2 a3) := by
  unfold State.storeField
  with_reducible repeat' first | assumption | apply State.noteNv_keeps | apply State.wr_top | exact within_of (by decide +kernel) w | exact within_bit (by decide +kernel) w | apply keeps_id | apply keeps_foldl | (intro u; first | (refine keeps_then (W := W) (s0 := s0) (a := u) ?_ ?_; subst u; rotate_left; intro _) | subst u | skip) | lift_lets -underBinder | dsimp -zeta only | split

theorem State.storeHalf_keeps {a1 a2 a3 a4 a5 a6} (h : Keeps W s0 s) (w : Within (topMask ||| 0x40002) W) :
    Keeps W s0 (State.storeHalf s a1 a2 a3 a4 a5 a6) := by
  unfold State.storeHalf
  with_reducible repeat' first | assumption | apply State.joinHalves_keeps | apply State.storeField_keeps | apply State.setLatch_keeps | refine keeps_of_snd (by assumption) ?_ | exact within_of (by decide +kernel) w | exact within_bit (by decide +kernel) w | apply keeps_id | simp -zeta only [keepsS_mk_iff, keeps_snd_iff] | apply keepsS_foldl | apply keeps_foldl | (intro u; first | (refine keeps_then (W := W) (s0 := s0) (a := u) ?_ ?_; subst u; rotate_left; intro _) | subst u | skip) | lift_lets -underBinder | dsimp -zeta only | split

theorem State.storeBoundary_keeps {a1 a2 a3} (h : Keeps W s0 s) (w : Within 0x44000 W) :
    Keeps W s0 (State.storeBoundary s a1 a2 a3) := by
  unfold State.storeBoundary
  with_reducible repeat' first | assumption | apply State.noteNv_keeps | exact within_of (by decide +kernel) w | exact within_bit (by decide +kernel) w | exact .inr (within_bit (by decide +kernel) w) | exact .inl rfl | apply keeps_id | simp -zeta only [keepsMk_iff] | apply keeps_mk | apply keeps_foldl | (intro u; first | (refine keeps_then (W := W) (s0 := s0) (a := u) ?_ ?_; subst u; rotate_left; intro _) | subst u | skip) | lift_lets -underBinder | dsimp -zeta only | split

theorem State.writeField_keeps {a1 a2 a3 a4 a5} (h : Keeps W s0 s) (w : Within (topMask ||| 0x44002) W) :
    Keeps W s0 (State.writeField s a1 a2 a3 a4 a5) := by
  unfold State.writeField
  with_reducible repeat' first | assumption | apply State.storeHalf_keeps | apply State.storeBoundary_keeps | apply State.storeField_keeps | exact within_of (by decide +kernel) w | exact within_bit (by decide +kernel) w | apply keeps_id | apply keeps_foldl | (intro u; first | (refine keeps_then (W := W) (s0 := s0) (a := u) ?_ ?_; subst u; rotate_left; intro _) | subst u | skip) | lift_lets -underBinder | dsimp -zeta only | split

theorem State.storeRegister_keeps {a1 a2 a3 a4} (h : Keeps W s0 s) (w : Within (topMask ||| 0x44002) W) :
    Keeps W s0 (State.storeRegister s a1 a2 a3 a4) := by
  unfold State.storeRegister
  with_reducible repeat' first | assumption | apply State.forEach_keeps | apply State.writeField_keeps | exact within_of (by decide +kernel) w | exact within_bit (by decide +kernel) w | apply keeps_id | apply keeps_foldl | (intro u; first | (refine keeps_then (W := W) (s0 := s0) (a := u) ?_ ?_; subst u; rotate_left; intro _) | subst u | skip) | lift_lets -underBinder | dsimp -zeta only | split

theorem State.plainWrite_keeps {a1 a2 a3 a4} (h : Keeps W s0 s) (w : Within (topMask ||| 0x844002) W) :
    Keeps W s0 (State.plainWrite s a1 a2 a3 a4) := by
  unfold State.plainWrite
  with_reducible repeat' first | assumption | apply State.owned_keeps | apply State.stageWrite_keeps | apply State.storeRegister_keeps | exact within_of (by decide +kernel) w | exact within_bit (by decide +kernel) w | apply keeps_id | apply keeps_foldl | (intro u; first | (refine keeps_then (W := W) (s0 := s0) (a := u) ?_ ?_; subst u; rotate_left; intro _) | subst u | skip) | lift_lets -underBinder | dsimp -zeta only | split

theorem State.writeHif_keeps {a1 a2 a3 a4} (h : Keeps W s0 s) (w : Within (topMask ||| 0x844012) W) :
    Keeps W s0 (State.writeHif s a1 a2 a3 a4) := by
  unfold State.writeHif
  with_reducible repeat' first | assumption | apply State.claim_keeps | apply State.owned_keeps | apply State.offer_keeps | apply State.accept_keeps | apply State.plainWrite_keeps | exact within_of (by decide +kernel) w | exact within_bit (by decide +kernel) w | apply keeps_id | apply keeps_foldl | (intro u; first | (refine keeps_then (W := W) (s0 := s0) (a := u) ?_ ?_; subst u; rotate_left; intro _) | subst u | skip) | lift_lets -underBinder | dsimp -zeta only | split

theorem State.writeMbx_keeps {a1 a2 a3 a4} (h : Keeps W s0 s) (w : Within (topMask ||| 0x84402a) W) :
    Keeps W s0 (State.writeMbx s a1 a2 a3 a4) := by
  unfold State.writeMbx
  with_reducible repeat' first | assumption | apply State.setLatch_keeps | apply State.foreignMail_keeps | apply State.mailWrite_keeps | apply State.mailAck_keeps | apply State.wr_keeps | apply State.mailWithdraw_keeps | apply State.clearDoorbells_keeps | apply State.writeMask_keeps | apply State.storeRegister_keeps | exact within_of (by decide +kernel) w | exact within_bit (by decide +kernel) w | apply keeps_id | apply keeps_foldl | (intro u; first | (refine keeps_then (W := W) (s0 := s0) (a := u) ?_ ?_; subst u; rotate_left; intro _) | subst u | skip) | lift_lets -underBinder | dsimp -zeta only | split

theorem State.writeConfig_keeps {a1 a2} (h : Keeps W s0 s) (w : Within 0x6000000000000000000000000000000000000000000c0027e01e00000000000000000000000000000000000000000000000000000000000800058 W) : Keeps W s0 (State.writeConfig s a1 a2) := by
  unfold State.writeConfig
  refine State.ringSwitch_keeps ?_ (within_of (by decide +kernel) w)
  split
  · exact State.wr_keeps (State.wr_keeps (State.wr_keeps h (within_of (by decide +kernel) w)) (within_of (by decide +kernel) w)) (within_of (by decide +kernel) w)
  · exact h

theorem State.writeRcb_keeps {a1 a2 a3 a4} (h : Keeps W s0 s) (w : Within (topMask ||| 0x84405a) W) :
    Keeps W s0 (State.writeRcb s a1 a2 a3 a4) := by
  unfold State.writeRcb
  with_reducible repeat' first | assumption | apply State.plainWrite_keeps | apply State.ringReg_keeps | apply State.writeConfig_keeps | apply State.ringCtrl_keeps | apply State.storeRegister_keeps | exact within_of (by decide +kernel) w | exact within_bit (by decide +kernel) w | apply keeps_id | apply keeps_foldl | (intro u; first | (refine keeps_then (W := W) (s0 := s0) (a := u) ?_ ?_; subst u; rotate_left; intro _) | subst u | skip) | lift_lets -underBinder | dsimp -zeta only | split

theorem State.writeLdr_keeps {a1 a2 a3 a4} (h : Keeps W s0 s) (w : Within (topMask ||| 0x844002) W) :
    Keeps W s0 (State.writeLdr s a1 a2 a3 a4) := by
  unfold State.writeLdr
  with_reducible repeat' first | assumption | apply State.owned_keeps | apply State.plainWrite_keeps | exact within_of (by decide +kernel) w | exact within_bit (by decide +kernel) w | apply keeps_id | apply keeps_foldl | (intro u; first | (refine keeps_then (W := W) (s0 := s0) (a := u) ?_ ?_; subst u; rotate_left; intro _) | subst u | skip) | lift_lets -underBinder | dsimp -zeta only | split

theorem State.writeLnk_keeps {a1 a2 a3 a4} (h : Keeps W s0 s) (w : Within (topMask ||| 0x867dea) W) :
    Keeps W s0 (State.writeLnk s a1 a2 a3 a4) := by
  unfold State.writeLnk
  with_reducible repeat' first | assumption | apply State.plainWrite_keeps | apply State.owned_keeps | apply State.forEach_keeps | apply State.storeField_keeps | apply State.disablePort_keeps | apply State.retrainWrite_keeps | exact within_of (by decide +kernel) w | exact within_bit (by decide +kernel) w | apply keeps_id | apply keeps_foldl | (intro u; first | (refine keeps_then (W := W) (s0 := s0) (a := u) ?_ ?_; subst u; rotate_left; intro _) | subst u | skip) | lift_lets -underBinder | dsimp -zeta only | split

theorem State.writeCal_keeps {a1 a2 a3 a4} (h : Keeps W s0 s) (w : Within (topMask ||| 0x844022) W) :
    Keeps W s0 (State.writeCal s a1 a2 a3 a4) := by
  unfold State.writeCal
  with_reducible repeat' first | assumption | apply State.owned_keeps | apply State.wr_keeps | apply State.calStart_keeps | apply State.calAbort_keeps | apply State.undeferStop_keeps | apply State.stop_keeps | apply State.plainWrite_keeps | exact within_of (by decide +kernel) w | exact within_bit (by decide +kernel) w | apply keeps_id | apply keeps_foldl | (intro u; first | (refine keeps_then (W := W) (s0 := s0) (a := u) ?_ ?_; subst u; rotate_left; intro _) | subst u | skip) | lift_lets -underBinder | dsimp -zeta only | split

theorem State.writeNapMask_keeps {a1 a2} (h : Keeps W s0 s) (w : Within 0x18000000000004000000000000000000000000000000000000000001000000000000000000000000000000000000000000000000000000020 W) :
    Keeps W s0 (State.writeNapMask s a1 a2) := by
  unfold State.writeNapMask
  with_reducible repeat' first | assumption | apply State.forEach_keeps | apply State.napWrite_keeps | exact within_of (by decide +kernel) w | exact within_bit (by decide +kernel) w | apply keeps_id | apply keeps_foldl | (intro u; first | (refine keeps_then (W := W) (s0 := s0) (a := u) ?_ ?_; subst u; rotate_left; intro _) | subst u | skip) | lift_lets -underBinder | dsimp -zeta only | split

theorem State.writePstate_keeps {a1} (h : Keeps W s0 s) (w : Within 0x113027f80624c38000fe7c03f3721e080193f1fffc46671ffc00fe1bc701b01fdffc00e7fffe3f7f0de700fffffe0003800fffffc0fc01f81ffffbffff00870f877ff006dbdfe W) :
    Keeps W s0 (State.writePstate s a1) := by
  unfold State.writePstate
  with_reducible repeat' first | assumption | apply State.commandNap_keeps | apply State.commandRest_keeps | apply State.commandActive_keeps | exact within_of (by decide +kernel) w | exact within_bit (by decide +kernel) w | apply keeps_id | apply keeps_foldl | (intro u; first | (refine keeps_then (W := W) (s0 := s0) (a := u) ?_ ?_; subst u; rotate_left; intro _) | subst u | skip) | lift_lets -underBinder | dsimp -zeta only | split

theorem State.writeTrm_keeps {a1 a2 a3 a4} (h : Keeps W s0 s) (w : Within (topMask ||| 0xedfdfe) W) :
    Keeps W s0 (State.writeTrm s a1 a2 a3 a4) := by
  unfold State.writeTrm
  with_reducible repeat' first | assumption | apply State.owned_keeps | apply State.writePstate_keeps | apply State.writeNapMask_keeps | apply State.ackTrips_keeps | apply State.plainWrite_keeps | exact within_of (by decide +kernel) w | exact within_bit (by decide +kernel) w | apply keeps_id | apply keeps_foldl | (intro u; first | (refine keeps_then (W := W) (s0 := s0) (a := u) ?_ ?_; subst u; rotate_left; intro _) | subst u | skip) | lift_lets -underBinder | dsimp -zeta only | split

theorem State.commandRung_keeps {a1} (h : Keeps W s0 s) (w : Within 0x113027f80024b7fb00000003f3421800018201c00400001f0400fe1bc7c1b01fdffc00e7fffe3f7f0de700fffffc0003f007ffffc0fc01e01ffff3e1ff00870f877ff00effdfe W) :
    Keeps W s0 (State.commandRung s a1) := by
  unfold State.commandRung
  with_reducible repeat' first | assumption | apply State.contextReset_keeps | apply State.startCourseReset_keeps | apply State.startPartitionReset_keeps | apply State.chipReset_keeps | exact within_of (by decide +kernel) w | exact within_bit (by decide +kernel) w | apply keeps_id | apply keeps_foldl | (intro u; first | (refine keeps_then (W := W) (s0 := s0) (a := u) ?_ ?_; subst u; rotate_left; intro _) | subst u | skip) | lift_lets -underBinder | dsimp -zeta only | split

theorem State.writeFlt_keeps {a1 a2 a3 a4} (h : Keeps W s0 s) (w : Within (topMask ||| 0xeffdfe) W) :
    Keeps W s0 (State.writeFlt s a1 a2 a3 a4) := by
  unfold State.writeFlt
  with_reducible repeat' first | assumption | apply State.owned_keeps | apply State.logRead_keeps | apply State.wr_keeps | apply State.clearFirst_keeps | apply State.fieldTestWrite_keeps | apply State.commandRung_keeps | apply State.plainWrite_keeps | exact within_of (by decide +kernel) w | exact within_bit (by decide +kernel) w | apply keeps_id | apply keeps_foldl | (intro u; first | (refine keeps_then (W := W) (s0 := s0) (a := u) ?_ ?_; subst u; rotate_left; intro _) | subst u | skip) | lift_lets -underBinder | dsimp -zeta only | split

theorem State.writeFirmware_keeps {a1} (h : Keeps W s0 s) (w : Within 0x25a000000000000000000000000000000000000000000000000000000000000000000000000000000000000000000000000000000000000000000000000001040000 W) :
    Keeps W s0 (State.writeFirmware s a1) := by
  unfold State.writeFirmware
  with_reducible repeat' first | assumption | apply State.draw_keeps | apply State.installImage_keeps | apply State.commitSvn_keeps | refine keeps_of_snd (by assumption) ?_ | exact within_of (by decide +kernel) w | exact within_bit (by decide +kernel) w | apply keeps_id | simp -zeta only [keepsS_mk_iff, keeps_snd_iff] | apply keepsS_foldl | apply keeps_foldl | (intro u; first | (refine keeps_then (W := W) (s0 := s0) (a := u) ?_ ?_; subst u; rotate_left; intro _) | subst u | skip) | lift_lets -underBinder | dsimp -zeta only | split

theorem State.writeStageCmd_keeps {a1} (h : Keeps W s0 s) (w : Within 0x6f80000000000000000000000000000000000000000000000000000000000000000000000000000000000000000000000000000000000000000000000000000001040000 W) :
    Keeps W s0 (State.writeStageCmd s a1) := by
  unfold State.writeStageCmd
  with_reducible repeat' first | assumption | apply State.sealStage_keeps | apply State.stageRollback_keeps | apply State.discardStage_keeps | exact within_of (by decide +kernel) w | exact within_bit (by decide +kernel) w | apply keeps_id | apply keeps_foldl | (intro u; first | (refine keeps_then (W := W) (s0 := s0) (a := u) ?_ ?_; subst u; rotate_left; intro _) | subst u | skip) | lift_lets -underBinder | dsimp -zeta only | split

theorem State.writeSec_keeps {a1 a2 a3 a4} (h : Keeps W s0 s) (w : Within (topMask ||| 0x1844002) W) :
    Keeps W s0 (State.writeSec s a1 a2 a3 a4) := by
  unfold State.writeSec
  with_reducible repeat' first | assumption | apply State.owned_keeps | apply State.writeFirmware_keeps | apply State.writeStageCmd_keeps | apply State.draw_keeps | apply State.stageKey_keeps | apply State.plainWrite_keeps | refine keeps_of_snd (by assumption) ?_ | exact within_of (by decide +kernel) w | exact within_bit (by decide +kernel) w | apply keeps_id | simp -zeta only [keepsS_mk_iff, keeps_snd_iff] | apply keepsS_foldl | apply keeps_foldl | (intro u; first | (refine keeps_then (W := W) (s0 := s0) (a := u) ?_ ?_; subst u; rotate_left; intro _) | subst u | skip) | lift_lets -underBinder | dsimp -zeta only | split

theorem State.writeClk_keeps {a1 a2 a3} (h : Keeps W s0 s) (w : Within 0x18000000000004000000000000000000300000000000000000000001000000000000000000000000000000000000000000000000000000020 W) :
    Keeps W s0 (State.writeClk s a1 a2 a3) := by
  unfold State.writeClk
  with_reducible repeat' first | assumption | apply State.wr_keeps | apply State.clockHold_keeps | exact within_of (by decide +kernel) w | exact within_bit (by decide +kernel) w | apply keeps_id | apply keeps_foldl | (intro u; first | (refine keeps_then (W := W) (s0 := s0) (a := u) ?_ ?_; subst u; rotate_left; intro _) | subst u | skip) | lift_lets -underBinder | dsimp -zeta only | split

theorem State.writeCoreCtrl_keeps {a1 a2} (h : Keeps W s0 s) (w : Within 0xb20000000000000000000000 W) :
    Keeps W s0 (State.writeCoreCtrl s a1 a2) := by
  unfold State.writeCoreCtrl
  with_reducible repeat' first | assumption | apply State.wr_keeps | apply State.haltCore_keeps | apply State.resumeCore_keeps | exact within_of (by decide +kernel) w | exact within_bit (by decide +kernel) w | apply keeps_id | apply keeps_foldl | (intro u; first | (refine keeps_then (W := W) (s0 := s0) (a := u) ?_ ?_; subst u; rotate_left; intro _) | subst u | skip) | lift_lets -underBinder | dsimp -zeta only | split

theorem State.writeCrs_keeps {a1 a2 a3 a4} (h : Keeps W s0 s) (w : Within (topMask ||| 0x844102) W) :
    Keeps W s0 (State.writeCrs s a1 a2 a3 a4) := by
  unfold State.writeCrs
  with_reducible repeat' first | assumption | apply State.capClear_keeps | apply State.owned_keeps | apply State.onCore_keeps | apply State.writeCoreCtrl_keeps | apply State.clearCoreFault_keeps | apply State.plainWrite_keeps | exact within_of (by decide +kernel) w | exact within_bit (by decide +kernel) w | apply keeps_id | apply keeps_foldl | (intro u; first | (refine keeps_then (W := W) (s0 := s0) (a := u) ?_ ?_; subst u; rotate_left; intro _) | subst u | skip) | lift_lets -underBinder | dsimp -zeta only | split

theorem State.writeVf_keeps {a1 a2 a3 a4} (h : Keeps W s0 s) (w : Within (topMask ||| 0x84405a) W) :
    Keeps W s0 (State.writeVf s a1 a2 a3 a4) := by
  unfold State.writeVf
  with_reducible repeat' first | assumption | apply State.storeRegister_keeps | apply State.writeRcb_keeps | apply State.plainWrite_keeps | exact within_of (by decide +kernel) w | exact within_bit (by decide +kernel) w | apply keeps_id | apply keeps_foldl | (intro u; first | (refine keeps_then (W := W) (s0 := s0) (a := u) ?_ ?_; subst u; rotate_left; intro _) | subst u | skip) | lift_lets -underBinder | dsimp -zeta only | split

theorem State.writeReg_keeps {a1 a2 a3} (h : Keeps W s0 s) (w : Within (topMask ||| 0x1effdfe) W) :
    Keeps W s0 (State.writeReg s a1 a2 a3) := by
  unfold State.writeReg
  with_reducible repeat' first | assumption | apply State.writeVf_keeps | apply State.writeHif_keeps | apply State.writeMbx_keeps | apply State.writeRcb_keeps | apply State.writeLdr_keeps | apply State.writeLnk_keeps | apply State.writeCal_keeps | apply State.writeTrm_keeps | apply State.writeFlt_keeps | apply State.writeSec_keeps | apply State.writeClk_keeps | apply State.writeCrs_keeps | apply State.plainWrite_keeps | exact within_of (by decide +kernel) w | exact within_bit (by decide +kernel) w | exact .inr (within_bit (by decide +kernel) w) | exact .inl rfl | apply keeps_id | simp -zeta only [keepsMk_iff] | apply keeps_mk | apply keeps_foldl | (intro u; first | (refine keeps_then (W := W) (s0 := s0) (a := u) ?_ ?_; subst u; rotate_left; intro _) | subst u | skip) | lift_lets -underBinder | dsimp -zeta only | split

theorem State.writeDoorbell_keeps {a1 a2 a3} (h : Keeps W s0 s) (w : Within 0x6000080000000000000000000000000000000000000c0027e0003f000000000000000000000000000000000000000000000000000000000810058 W) :
    Keeps W s0 (State.writeDoorbell s a1 a2 a3) := by
  unfold State.writeDoorbell
  with_reducible repeat' first | assumption | apply State.doorbell_keeps | apply State.newIndex_keeps | apply State.arm_keeps | exact within_of (by decide +kernel) w | exact within_bit (by decide +kernel) w | apply keeps_id | apply keeps_foldl | (intro u; first | (refine keeps_then (W := W) (s0 := s0) (a := u) ?_ ?_; subst u; rotate_left; intro _) | subst u | skip) | lift_lets -underBinder | dsimp -zeta only | split

theorem State.proceed_keeps {a1} (h : Keeps W s0 s) (w : Within (topMask ||| 0x1fffdfe) W) :
    Keeps W s0 (State.proceed s a1) := by
  unfold State.proceed
  with_reducible repeat' first | assumption | apply State.ungate_keeps | apply State.writeReg_keeps | apply State.readReg_keeps | apply State.writeDoorbell_keeps | apply State.bar4Do_keeps | exact within_of (by decide +kernel) w | exact within_bit (by decide +kernel) w | apply keeps_id | apply keeps_foldl | (intro u; first | (refine keeps_then (W := W) (s0 := s0) (a := u) ?_ ?_; subst u; rotate_left; intro _) | subst u | skip) | lift_lets -underBinder | dsimp -zeta only | split

theorem State.releaseHeld_keeps {a1} (h : Keeps W s0 s) (w : Within (topMask ||| 0x1fffdfe) W) :
    Keeps W s0 (State.releaseHeld s a1) := by
  unfold State.releaseHeld
  with_reducible repeat' first | assumption | apply State.proceed_keeps | apply State.setHeld_keeps | exact within_of (by decide +kernel) w | exact within_bit (by decide +kernel) w | apply keeps_id | apply keeps_foldl | (intro u; first | (refine keeps_then (W := W) (s0 := s0) (a := u) ?_ ?_; subst u; rotate_left; intro _) | subst u | skip) | lift_lets -underBinder | dsimp -zeta only | split

end Sys2Proof.Machine
end

