-- ==== Sys2Proof/Laws/Keeps/Registers.lean ====
section
/-! SUPPORT. Laws/Keeps/Registers.lean: what every operation of Machine/Registers.lean keeps (the relation of Laws/Keeps.lean). -/
set_option Elab.async false
set_option linter.all false
set_option linter.unusedSimpArgs false
set_option linter.tactic.unusedName false
namespace Sys2Proof.Machine
variable {W : Nat} {s0 s : State}

theorem execRegisterWrite_keeps {a0 a1 a2} (h : Keeps W s0 s) (w : Within (topMask ||| 0x1effdfe) W) :
    KeepsN W s0 (execRegisterWrite a0 a1 a2 s) := by
  unfold execRegisterWrite
  with_reducible repeat' first | assumption | apply keepsN_next | apply State.access_keeps | apply State.writeReg_keeps | exact within_of (by decide +kernel) w | exact within_bit (by decide +kernel) w | apply keeps_foldl | (intro u; first | (refine keeps_then (W := W) (s0 := s0) (a := u) ?_ ?_; subst u; rotate_left; intro _) | subst u | skip) | lift_lets -underBinder | dsimp -zeta only | split

theorem State.writeStaged_keeps {a1 a2 a3} (h : Keeps W s0 s) (w : Within (topMask ||| 0x1effdfe) W) :
    Keeps W s0 (State.writeStaged s a1 a2 a3) := by
  unfold State.writeStaged
  with_reducible repeat' first | assumption | apply State.writeReg_keeps | exact within_of (by decide +kernel) w | exact within_bit (by decide +kernel) w | apply keeps_foldl | (intro u; first | (refine keeps_then (W := W) (s0 := s0) (a := u) ?_ ?_; subst u; rotate_left; intro _) | subst u | skip) | lift_lets -underBinder | dsimp -zeta only | split

theorem execStagedWrite_keeps {a0 a1 a2} (h : Keeps W s0 s) (w : Within (topMask ||| 0x1effdfe) W) :
    KeepsN W s0 (execStagedWrite a0 a1 a2 s) := by
  unfold execStagedWrite
  with_reducible repeat' first | assumption | apply keepsN_next | apply State.access_keeps | apply State.writeStaged_keeps | exact within_of (by decide +kernel) w | exact within_bit (by decide +kernel) w | apply keeps_foldl | (intro u; first | (refine keeps_then (W := W) (s0 := s0) (a := u) ?_ ?_; subst u; rotate_left; intro _) | subst u | skip) | lift_lets -underBinder | dsimp -zeta only | split

theorem execLowHalfRead_keeps {a0 a1} (h : Keeps W s0 s) (w : Within 0x180018000000000000000000001800000000000000000000000000000000000000000000080000000000000000000000000000818024 W) :
    KeepsN W s0 (execLowHalfRead a0 a1 s) := by
  unfold execLowHalfRead
  with_reducible repeat' first | assumption | apply keepsN_next | apply State.access_keeps | apply State.readReg_keeps | exact within_of (by decide +kernel) w | exact within_bit (by decide +kernel) w | apply keeps_foldl | (intro u; first | (refine keeps_then (W := W) (s0 := s0) (a := u) ?_ ?_; subst u; rotate_left; intro _) | subst u | skip) | lift_lets -underBinder | dsimp -zeta only | split

theorem execTimeRead_keeps {a0} (h : Keeps W s0 s) (w : Within 0x180018000000000000000000001800000000000000000000000000000000000000000000080000000000000000000000000000818024 W) :
    KeepsN W s0 (execTimeRead a0 s) := by
  unfold execTimeRead
  with_reducible repeat' first | assumption | apply keepsN_next | apply State.access_keeps | apply State.readReg_keeps | exact within_of (by decide +kernel) w | exact within_bit (by decide +kernel) w | apply keeps_foldl | (intro u; first | (refine keeps_then (W := W) (s0 := s0) (a := u) ?_ ?_; subst u; rotate_left; intro _) | subst u | skip) | lift_lets -underBinder | dsimp -zeta only | split

theorem execHeldAccessRelease_keeps {a0} (h : Keeps W s0 s) (w : Within (topMask ||| 0x1fffdfe) W) :
    KeepsN W s0 (execHeldAccessRelease a0 s) := by
  unfold execHeldAccessRelease
  with_reducible repeat' first | assumption | apply keepsN_next | apply State.releaseHeld_keeps | exact within_of (by decide +kernel) w | exact within_bit (by decide +kernel) w | apply keeps_foldl | (intro u; first | (refine keeps_then (W := W) (s0 := s0) (a := u) ?_ ?_; subst u; rotate_left; intro _) | subst u | skip) | lift_lets -underBinder | dsimp -zeta only | split

end Sys2Proof.Machine
end

