-- ==== Sys2Proof/Laws/Keeps/Tick.lean ====
section
/-! SUPPORT. Laws/Keeps/Tick.lean: what every operation of Machine/Tick.lean keeps (the relation of Laws/Keeps.lean). -/
set_option Elab.async false
set_option linter.all false
set_option linter.unusedSimpArgs false
set_option linter.tactic.unusedName false
namespace Sys2Proof.Machine
variable {W : Nat} {s0 s : State}

theorem State.countMs_keeps (h : Keeps W s0 s) (w : Within 0x1c00000000000000000000000000000000000000000000000000000000000000000000000000000000000000000000000000000000000000 W) :
    Keeps W s0 (State.countMs s) := by
  unfold State.countMs
  with_reducible repeat' first | assumption | apply State.bump_keeps | exact within_of (by decide +kernel) w | exact within_bit (by decide +kernel) w | apply keeps_foldl | (intro u; first | (refine keeps_then (W := W) (s0 := s0) (a := u) ?_ ?_; subst u; rotate_left; intro _) | subst u | skip) | lift_lets -underBinder | dsimp -zeta only | split

theorem State.passTime_keeps (h : Keeps W s0 s) (w : Within 0x10001 W) :
    Keeps W s0 (State.passTime s) := by
  unfold State.passTime
  with_reducible repeat' first | assumption | exact within_of (by decide +kernel) w | exact within_bit (by decide +kernel) w | exact .inr (within_bit (by decide +kernel) w) | exact .inl rfl | simp -zeta only [keepsMk_iff] | apply keeps_mk | apply keeps_foldl | (intro u; first | (refine keeps_then (W := W) (s0 := s0) (a := u) ?_ ?_; subst u; rotate_left; intro _) | subst u | skip) | lift_lets -underBinder | dsimp -zeta only | split

theorem State.tick_keeps (h : Keeps W s0 s) (w : Within 0x400019c0000000000400000000004000000000000000000000000000000100000000000000078000000bfe000043f00000000000007e000e17de9 W) :
    Keeps W s0 (State.tick s) := by
  unfold State.tick
  with_reducible repeat' first | assumption | apply State.writerTick_keeps | apply State.loaderTick_keeps | apply State.mapTick_keeps | apply State.fabricTick_keeps | apply State.passTime_keeps | apply State.countMs_keeps | apply State.forEach_keeps | apply State.releaseStops_keeps | apply State.startWaiting_keeps | exact within_of (by decide +kernel) w | exact within_bit (by decide +kernel) w | apply keeps_foldl | (intro u; first | (refine keeps_then (W := W) (s0 := s0) (a := u) ?_ ?_; subst u; rotate_left; intro _) | subst u | skip) | lift_lets -underBinder | dsimp -zeta only | split

end Sys2Proof.Machine
end

