-- ==== Sys2Proof/Laws/Keeps/Tiers.lean ====
section
/-! SUPPORT. Laws/Keeps/Tiers.lean: what every operation of Machine/Tiers.lean keeps (the relation of Laws/Keeps.lean). -/
set_option Elab.async false
set_option linter.all false
set_option linter.unusedSimpArgs false
set_option linter.tactic.unusedName false
namespace Sys2Proof.Machine
variable {W : Nat} {s0 s : State}

theorem State.programStep_keeps {a1 a2} (h : Keeps W s0 s) (w : Within 0x8000000000006000000000000000000000000000400000000000000c0027c0000000000000000000300000678fc6000008000000000000000050067e000903398 W) :
    Keeps W s0 (State.programStep s a1 a2) := by
  unfold State.programStep
  with_reducible repeat' first | assumption | apply State.progSlot_keeps | apply State.takeTile_keeps | apply State.startTile_keeps | refine keeps_of_someSnd (by assumption) ?_ | exact within_of (by decide +kernel) w | exact within_bit (by decide +kernel) w | apply keeps_foldl | (intro u; first | (refine keeps_then (W := W) (s0 := s0) (a := u) ?_ ?_; subst u; rotate_left; intro _) | subst u | skip) | lift_lets -underBinder | dsimp -zeta only | split

theorem execProgramSlot_keeps {a0 a1 a2} (h : Keeps W s0 s) (w : Within 0x8000000000006000000000000000000000000000400000000000000c0027c0000000000000000000300000678fc6000008000000000000000050067e000903398 W) :
    KeepsN W s0 (execProgramSlot a0 a1 a2 s) := by
  unfold execProgramSlot
  with_reducible repeat' first | assumption | apply keepsN_next | apply State.programStep_keeps | exact within_of (by decide +kernel) w | exact within_bit (by decide +kernel) w | apply keeps_foldl | (intro u; first | (refine keeps_then (W := W) (s0 := s0) (a := u) ?_ ?_; subst u; rotate_left; intro _) | subst u | skip) | lift_lets -underBinder | dsimp -zeta only | split

theorem execSpareArrayMap_keeps {a0 a1} (h : Keeps W s0 s) (w : Within 0xe000a0000000080 W) :
    KeepsN W s0 (execSpareArrayMap a0 a1 s) := by
  unfold execSpareArrayMap
  with_reducible repeat' first | assumption | apply keepsN_next | apply State.settleSpareArray_keeps | apply State.mapSpareArray_keeps | exact within_of (by decide +kernel) w | exact within_bit (by decide +kernel) w | apply keeps_foldl | (intro u; first | (refine keeps_then (W := W) (s0 := s0) (a := u) ?_ ?_; subst u; rotate_left; intro _) | subst u | skip) | lift_lets -underBinder | dsimp -zeta only | split

theorem execSpareActive_keeps {a0} (h : Keeps W s0 s) (w : Within 0x400000000000000 W) :
    KeepsN W s0 (execSpareActive a0 s) := by
  unfold execSpareActive
  with_reducible repeat' first | assumption | apply keepsN_next | apply State.settleSpareArray_keeps | exact within_of (by decide +kernel) w | exact within_bit (by decide +kernel) w | apply keeps_foldl | (intro u; first | (refine keeps_then (W := W) (s0 := s0) (a := u) ?_ ?_; subst u; rotate_left; intro _) | subst u | skip) | lift_lets -underBinder | dsimp -zeta only | split

theorem State.switchFallback_keeps {a1} (h : Keeps W s0 s) (w : Within 0x1000007000000000000000000600c80 W) :
    Keeps W s0 (State.switchFallback s a1) := by
  unfold State.switchFallback
  with_reducible repeat' first | assumption | apply State.reloadCourse_keeps | apply State.wr_keeps | exact within_of (by decide +kernel) w | exact within_bit (by decide +kernel) w | exact .inr (within_bit (by decide +kernel) w) | exact .inl rfl | simp -zeta only [keepsMk_iff] | apply keeps_mk | apply keeps_foldl | (intro u; first | (refine keeps_then (W := W) (s0 := s0) (a := u) ?_ ?_; subst u; rotate_left; intro _) | subst u | skip) | lift_lets -underBinder | dsimp -zeta only | split

theorem State.courseBoundary_keeps {a1} (h : Keeps W s0 s) (w : Within (topMask ||| 0x646d80) W) :
    Keeps W s0 (State.courseBoundary s a1) := by
  unfold State.courseBoundary
  with_reducible repeat' first | assumption | apply State.takeConfig_keeps | apply State.handCourse_keeps | apply State.switchFallback_keeps | apply State.forEach_keeps | apply State.handRedundancy_keeps | exact within_of (by decide +kernel) w | exact within_bit (by decide +kernel) w | apply keeps_foldl | (intro u; first | (refine keeps_then (W := W) (s0 := s0) (a := u) ?_ ?_; subst u; rotate_left; intro _) | subst u | skip) | lift_lets -underBinder | dsimp -zeta only | split

theorem execCourseBoundary_keeps {a0} (h : Keeps W s0 s) (w : Within (topMask ||| 0x646d80) W) :
    KeepsN W s0 (execCourseBoundary a0 s) := by
  unfold execCourseBoundary
  with_reducible repeat' first | assumption | apply keepsN_next | apply State.courseBoundary_keeps | exact within_of (by decide +kernel) w | exact within_bit (by decide +kernel) w | apply keeps_foldl | (intro u; first | (refine keeps_then (W := W) (s0 := s0) (a := u) ?_ ?_; subst u; rotate_left; intro _) | subst u | skip) | lift_lets -underBinder | dsimp -zeta only | split

end Sys2Proof.Machine
end

