-- ==== Sys2Proof/Laws/Keeps/Vector.lean ====
section
/-! SUPPORT. Laws/Keeps/Vector.lean: what every operation of Machine/Vector.lean keeps (the relation of Laws/Keeps.lean). -/
set_option Elab.async false
set_option linter.all false
set_option linter.unusedSimpArgs false
set_option linter.tactic.unusedName false
namespace Sys2Proof.Machine
variable {W : Nat} {s0 s : State}

theorem execDtuTile_keeps {a0 a1} (h : Keeps W s0 s) (w : Within 0xfb00000000600000000000000000000000000040000000000000000000000000000000000000000000f0078000000000001e62002000000000007e000823dc8 W) :
    KeepsN W s0 (execDtuTile a0 a1 s) := by
  unfold execDtuTile
  with_reducible repeat' first | assumption | apply keepsOF_some | apply keepsOF_none | apply keepsN_next | apply State.issue_keeps | apply State.retired_keeps | apply State.advance_keeps | apply State.setCore_keeps | exact within_of (by decide +kernel) w | exact within_bit (by decide +kernel) w | apply keeps_foldl | (intro u; first | (refine keeps_then (W := W) (s0 := s0) (a := u) ?_ ?_; subst u; rotate_left; intro _) | subst u | skip) | lift_lets -underBinder | dsimp -zeta only | split

theorem State.dtuCommit_keeps {a1 a2} (h : Keeps W s0 s) (w : Within 0x20001c00000000000000200400 W) :
    Keeps W s0 (State.dtuCommit s a1 a2) := by
  unfold State.dtuCommit
  with_reducible repeat' first | assumption | apply State.writeOperand_keeps | apply State.writeWords_keeps | apply State.settlePass_keeps | apply State.retired_keeps | apply State.landed_keeps | apply State.setCore_keeps | exact within_of (by decide +kernel) w | exact within_bit (by decide +kernel) w | apply keeps_foldl | (intro u; first | (refine keeps_then (W := W) (s0 := s0) (a := u) ?_ ?_; subst u; rotate_left; intro _) | subst u | skip) | lift_lets -underBinder | dsimp -zeta only | split

theorem execDtuTileEnd_keeps {a0 a1} (h : Keeps W s0 s) (w : Within 0xfb00000020600000000000000000000000000040000000000000000000000000000000000000000000f00780000000000000420021c0000000007e000a23dc8 W) :
    KeepsN W s0 (execDtuTileEnd a0 a1 s) := by
  unfold execDtuTileEnd
  with_reducible repeat' first | assumption | apply keepsN_next | apply State.dtuCommit_keeps | apply State.report_keeps | apply State.dtuFailure_keeps | apply State.setCore_keeps | apply State.landed_keeps | apply State.stepAbortOf_keeps | exact within_of (by decide +kernel) w | exact within_bit (by decide +kernel) w | apply keeps_foldl | (intro u; first | (refine keeps_then (W := W) (s0 := s0) (a := u) ?_ ?_; subst u; rotate_left; intro _) | subst u | skip) | lift_lets -underBinder | dsimp -zeta only | split

theorem State.vec_keeps {a1 a2 a3 a4} (h : Keeps W s0 s) (w : Within 0xfb00000000600000000000000000000000000040000000000000000000000000000000000000000000f0078000000000001e62002000000000007e000823dc8 W) (h4 : ∀ a, Keeps W s0 a → Keeps W s0 (a4 a)) :
    Keeps W s0 (State.vec s a1 a2 a3 a4) := by
  unfold State.vec
  with_reducible repeat' first | assumption | apply h4 | apply keepsOF_some | apply keepsOF_none | apply State.issue_keeps | apply done_keeps | refine keeps_of_somePair (by assumption) ?_ | exact within_of (by decide +kernel) w | exact within_bit (by decide +kernel) w | apply keeps_foldl | (intro u; first | (refine keeps_then (W := W) (s0 := s0) (a := u) ?_ ?_; subst u; rotate_left; intro _) | subst u | skip) | lift_lets -underBinder | dsimp -zeta only | split

theorem State.vecBinary_keeps {a1 a2 a3 a4} (h : Keeps W s0 s) (w : Within 0xfb00000000600000000000000000000000000040000000000000000000000000000000000000000000f0078000000000001e620021c0000000007e000a23dc8 W) :
    Keeps W s0 (State.vecBinary s a1 a2 a3 a4) := by
  unfold State.vecBinary
  with_reducible repeat' first | assumption | apply State.vec_keeps | apply State.writeOperand_keeps | exact within_of (by decide +kernel) w | exact within_bit (by decide +kernel) w | apply keeps_foldl | (intro u; first | (refine keeps_then (W := W) (s0 := s0) (a := u) ?_ ?_; subst u; rotate_left; intro _) | subst u | skip) | lift_lets -underBinder | dsimp -zeta only | split

theorem State.vecUnary_keeps {a1 a2 a3 a4} (h : Keeps W s0 s) (w : Within 0xfb00000000600000000000000000000000000040000000000000000000000000000000000000000000f0078000000000001e620021c0000000007e000a23dc8 W) :
    Keeps W s0 (State.vecUnary s a1 a2 a3 a4) := by
  unfold State.vecUnary
  with_reducible repeat' first | assumption | apply State.vec_keeps | apply State.writeOperand_keeps | exact within_of (by decide +kernel) w | exact within_bit (by decide +kernel) w | apply keeps_foldl | (intro u; first | (refine keeps_then (W := W) (s0 := s0) (a := u) ?_ ?_; subst u; rotate_left; intro _) | subst u | skip) | lift_lets -underBinder | dsimp -zeta only | split

theorem State.vecReduce_keeps {a1 a2 a3 a4} (h : Keeps W s0 s) (w : Within 0xfb00000000600000000000000000000000000040000000000000000000000000000000000000000000f0078000000000001e62002000000000007e000a23dc8 W) :
    Keeps W s0 (State.vecReduce s a1 a2 a3 a4) := by
  unfold State.vecReduce
  with_reducible repeat' first | assumption | apply State.vec_keeps | apply State.writeWords_keeps | exact within_of (by decide +kernel) w | exact within_bit (by decide +kernel) w | apply keeps_foldl | (intro u; first | (refine keeps_then (W := W) (s0 := s0) (a := u) ?_ ?_; subst u; rotate_left; intro _) | subst u | skip) | lift_lets -underBinder | dsimp -zeta only | split

theorem execVecCopy_keeps {a0 a1} (h : Keeps W s0 s) (w : Within 0xfb00000000600000000000000000000000000040000000000000000000000000000000000000000000f0078000000000001e620021c0000000007e000a23dc8 W) :
    KeepsN W s0 (execVecCopy a0 a1 s) := by
  unfold execVecCopy
  with_reducible repeat' first | assumption | apply keepsN_next | apply State.vecUnary_keeps | exact within_of (by decide +kernel) w | exact within_bit (by decide +kernel) w | apply keeps_foldl | (intro u; first | (refine keeps_then (W := W) (s0 := s0) (a := u) ?_ ?_; subst u; rotate_left; intro _) | subst u | skip) | lift_lets -underBinder | dsimp -zeta only | split

theorem execVecAdd_keeps {a0 a1} (h : Keeps W s0 s) (w : Within 0xfb00000000600000000000000000000000000040000000000000000000000000000000000000000000f0078000000000001e620021c0000000007e000a23dc8 W) :
    KeepsN W s0 (execVecAdd a0 a1 s) := by
  unfold execVecAdd
  with_reducible repeat' first | assumption | apply keepsN_next | apply State.vecBinary_keeps | exact within_of (by decide +kernel) w | exact within_bit (by decide +kernel) w | apply keeps_foldl | (intro u; first | (refine keeps_then (W := W) (s0 := s0) (a := u) ?_ ?_; subst u; rotate_left; intro _) | subst u | skip) | lift_lets -underBinder | dsimp -zeta only | split

theorem execVecMul_keeps {a0 a1} (h : Keeps W s0 s) (w : Within 0xfb00000000600000000000000000000000000040000000000000000000000000000000000000000000f0078000000000001e620021c0000000007e000a23dc8 W) :
    KeepsN W s0 (execVecMul a0 a1 s) := by
  unfold execVecMul
  with_reducible repeat' first | assumption | apply keepsN_next | apply State.vecBinary_keeps | exact within_of (by decide +kernel) w | exact within_bit (by decide +kernel) w | apply keeps_foldl | (intro u; first | (refine keeps_then (W := W) (s0 := s0) (a := u) ?_ ?_; subst u; rotate_left; intro _) | subst u | skip) | lift_lets -underBinder | dsimp -zeta only | split

theorem execVecFma_keeps {a0 a1} (h : Keeps W s0 s) (w : Within 0xfb00000000600000000000000000000000000040000000000000000000000000000000000000000000f0078000000000001e620021c0000000007e000a23dc8 W) :
    KeepsN W s0 (execVecFma a0 a1 s) := by
  unfold execVecFma
  with_reducible repeat' first | assumption | apply keepsN_next | apply State.vec_keeps | apply State.writeOperand_keeps | exact within_of (by decide +kernel) w | exact within_bit (by decide +kernel) w | apply keeps_foldl | (intro u; first | (refine keeps_then (W := W) (s0 := s0) (a := u) ?_ ?_; subst u; rotate_left; intro _) | subst u | skip) | lift_lets -underBinder | dsimp -zeta only | split

theorem execVecMax_keeps {a0 a1} (h : Keeps W s0 s) (w : Within 0xfb00000000600000000000000000000000000040000000000000000000000000000000000000000000f0078000000000001e620021c0000000007e000a23dc8 W) :
    KeepsN W s0 (execVecMax a0 a1 s) := by
  unfold execVecMax
  with_reducible repeat' first | assumption | apply keepsN_next | apply State.vecBinary_keeps | exact within_of (by decide +kernel) w | exact within_bit (by decide +kernel) w | apply keeps_foldl | (intro u; first | (refine keeps_then (W := W) (s0 := s0) (a := u) ?_ ?_; subst u; rotate_left; intro _) | subst u | skip) | lift_lets -underBinder | dsimp -zeta only | split

theorem execRowscale_keeps {a0 a1} (h : Keeps W s0 s) (w : Within 0xfb00000000600000000000000000000000000040000000000000000000000000000000000000000000f0078000000000001e620021c0000000007e000a23dc8 W) :
    KeepsN W s0 (execRowscale a0 a1 s) := by
  unfold execRowscale
  with_reducible repeat' first | assumption | apply keepsN_next | apply State.vec_keeps | apply State.writeOperand_keeps | exact within_of (by decide +kernel) w | exact within_bit (by decide +kernel) w | apply keeps_foldl | (intro u; first | (refine keeps_then (W := W) (s0 := s0) (a := u) ?_ ?_; subst u; rotate_left; intro _) | subst u | skip) | lift_lets -underBinder | dsimp -zeta only | split

theorem execExp_keeps {a0 a1} (h : Keeps W s0 s) (w : Within 0xfb00000000600000000000000000000000000040000000000000000000000000000000000000000000f0078000000000001e620021c0000000007e000a23dc8 W) :
    KeepsN W s0 (execExp a0 a1 s) := by
  unfold execExp
  with_reducible repeat' first | assumption | apply keepsN_next | apply State.vecUnary_keeps | exact within_of (by decide +kernel) w | exact within_bit (by decide +kernel) w | apply keeps_foldl | (intro u; first | (refine keeps_then (W := W) (s0 := s0) (a := u) ?_ ?_; subst u; rotate_left; intro _) | subst u | skip) | lift_lets -underBinder | dsimp -zeta only | split

theorem execRcp_keeps {a0 a1} (h : Keeps W s0 s) (w : Within 0xfb00000000600000000000000000000000000040000000000000000000000000000000000000000000f0078000000000001e620021c0000000007e000a23dc8 W) :
    KeepsN W s0 (execRcp a0 a1 s) := by
  unfold execRcp
  with_reducible repeat' first | assumption | apply keepsN_next | apply State.vecUnary_keeps | exact within_of (by decide +kernel) w | exact within_bit (by decide +kernel) w | apply keeps_foldl | (intro u; first | (refine keeps_then (W := W) (s0 := s0) (a := u) ?_ ?_; subst u; rotate_left; intro _) | subst u | skip) | lift_lets -underBinder | dsimp -zeta only | split

theorem execRsqrt_keeps {a0 a1} (h : Keeps W s0 s) (w : Within 0xfb00000000600000000000000000000000000040000000000000000000000000000000000000000000f0078000000000001e620021c0000000007e000a23dc8 W) :
    KeepsN W s0 (execRsqrt a0 a1 s) := by
  unfold execRsqrt
  with_reducible repeat' first | assumption | apply keepsN_next | apply State.vecUnary_keeps | exact within_of (by decide +kernel) w | exact within_bit (by decide +kernel) w | apply keeps_foldl | (intro u; first | (refine keeps_then (W := W) (s0 := s0) (a := u) ?_ ?_; subst u; rotate_left; intro _) | subst u | skip) | lift_lets -underBinder | dsimp -zeta only | split

theorem execRowsum_keeps {a0 a1} (h : Keeps W s0 s) (w : Within 0xfb00000000600000000000000000000000000040000000000000000000000000000000000000000000f0078000000000001e62002000000000007e000a23dc8 W) :
    KeepsN W s0 (execRowsum a0 a1 s) := by
  unfold execRowsum
  with_reducible repeat' first | assumption | apply keepsN_next | apply State.vecReduce_keeps | exact within_of (by decide +kernel) w | exact within_bit (by decide +kernel) w | apply keeps_foldl | (intro u; first | (refine keeps_then (W := W) (s0 := s0) (a := u) ?_ ?_; subst u; rotate_left; intro _) | subst u | skip) | lift_lets -underBinder | dsimp -zeta only | split

theorem execRowmax_keeps {a0 a1} (h : Keeps W s0 s) (w : Within 0xfb00000000600000000000000000000000000040000000000000000000000000000000000000000000f0078000000000001e62002000000000007e000a23dc8 W) :
    KeepsN W s0 (execRowmax a0 a1 s) := by
  unfold execRowmax
  with_reducible repeat' first | assumption | apply keepsN_next | apply State.vecReduce_keeps | exact within_of (by decide +kernel) w | exact within_bit (by decide +kernel) w | apply keeps_foldl | (intro u; first | (refine keeps_then (W := W) (s0 := s0) (a := u) ?_ ?_; subst u; rotate_left; intro _) | subst u | skip) | lift_lets -underBinder | dsimp -zeta only | split

theorem execRowsumsq_keeps {a0 a1} (h : Keeps W s0 s) (w : Within 0xfb00000000600000000000000000000000000040000000000000000000000000000000000000000000f0078000000000001e62002000000000007e000a23dc8 W) :
    KeepsN W s0 (execRowsumsq a0 a1 s) := by
  unfold execRowsumsq
  with_reducible repeat' first | assumption | apply keepsN_next | apply State.vecReduce_keeps | exact within_of (by decide +kernel) w | exact within_bit (by decide +kernel) w | apply keeps_foldl | (intro u; first | (refine keeps_then (W := W) (s0 := s0) (a := u) ?_ ?_; subst u; rotate_left; intro _) | subst u | skip) | lift_lets -underBinder | dsimp -zeta only | split

theorem execSmaxn_keeps {a0 a1} (h : Keeps W s0 s) (w : Within 0xfb00000000600000000000000000000000000040000000000000000000000000000000000000000000f0078000000000001e620021c0000000007e000a23dc8 W) :
    KeepsN W s0 (execSmaxn a0 a1 s) := by
  unfold execSmaxn
  with_reducible repeat' first | assumption | apply keepsN_next | apply State.vec_keeps | apply State.writeOperand_keeps | apply State.writeWords_keeps | exact within_of (by decide +kernel) w | exact within_bit (by decide +kernel) w | apply keeps_foldl | (intro u; first | (refine keeps_then (W := W) (s0 := s0) (a := u) ?_ ?_; subst u; rotate_left; intro _) | subst u | skip) | lift_lets -underBinder | dsimp -zeta only | split

theorem execSmaxr_keeps {a0 a1} (h : Keeps W s0 s) (w : Within 0xfb00000000600000000000000000000000000040000000000000000000000000000000000000000000f0078000000000001e620021c0000000007e000a23dc8 W) :
    KeepsN W s0 (execSmaxr a0 a1 s) := by
  unfold execSmaxr
  with_reducible repeat' first | assumption | apply keepsN_next | apply State.vec_keeps | apply State.writeWords_keeps | apply State.writeOperand_keeps | exact within_of (by decide +kernel) w | exact within_bit (by decide +kernel) w | apply keeps_foldl | (intro u; first | (refine keeps_then (W := W) (s0 := s0) (a := u) ?_ ?_; subst u; rotate_left; intro _) | subst u | skip) | lift_lets -underBinder | dsimp -zeta only | split

theorem execTopk_keeps {a0 a1} (h : Keeps W s0 s) (w : Within 0xfb00000000600000000000000000000000000040000000000000000000000000000000000000000000f0078000000000001e62002000000000007e000a23dc8 W) :
    KeepsN W s0 (execTopk a0 a1 s) := by
  unfold execTopk
  with_reducible repeat' first | assumption | apply keepsN_next | apply State.vec_keeps | apply State.writeWords_keeps | exact within_of (by decide +kernel) w | exact within_bit (by decide +kernel) w | apply keeps_foldl | (intro u; first | (refine keeps_then (W := W) (s0 := s0) (a := u) ?_ ?_; subst u; rotate_left; intro _) | subst u | skip) | lift_lets -underBinder | dsimp -zeta only | split

theorem execSample_keeps {a0 a1} (h : Keeps W s0 s) (w : Within 0xfb00000000600000000000000000000000000040000000000000000000000000000000000000000000f0078000000000001e62002000000000007e000a23dc8 W) :
    KeepsN W s0 (execSample a0 a1 s) := by
  unfold execSample
  with_reducible repeat' first | assumption | apply keepsN_next | apply State.vec_keeps | apply State.writeWords_keeps | exact within_of (by decide +kernel) w | exact within_bit (by decide +kernel) w | apply keeps_foldl | (intro u; first | (refine keeps_then (W := W) (s0 := s0) (a := u) ?_ ?_; subst u; rotate_left; intro _) | subst u | skip) | lift_lets -underBinder | dsimp -zeta only | split

theorem execRand_keeps {a0 a1} (h : Keeps W s0 s) (w : Within 0xfb00000000600000000000000000000000000040000000000000000000000000000000000000000000f0078000000000001e62002000000000007e000a23dc8 W) :
    KeepsN W s0 (execRand a0 a1 s) := by
  unfold execRand
  with_reducible repeat' first | assumption | apply keepsOF_some | apply keepsOF_none | apply keepsN_next | apply State.issue_keeps | apply done_keeps | apply State.writeWords_keeps | refine keeps_of_somePair (by assumption) ?_ | exact within_of (by decide +kernel) w | exact within_bit (by decide +kernel) w | apply keeps_foldl | (intro u; first | (refine keeps_then (W := W) (s0 := s0) (a := u) ?_ ?_; subst u; rotate_left; intro _) | subst u | skip) | lift_lets -underBinder | dsimp -zeta only | split

theorem execScan_keeps {a0 a1} (h : Keeps W s0 s) (w : Within 0xfb00000000600000000000000000000000000040000000000000000000000000000000000000000000f0078000000000001e620021c0000000007e000a23dc8 W) :
    KeepsN W s0 (execScan a0 a1 s) := by
  unfold execScan
  with_reducible repeat' first | assumption | apply keepsN_next | apply State.vec_keeps | apply State.writeOperand_keeps | exact within_of (by decide +kernel) w | exact within_bit (by decide +kernel) w | apply keeps_foldl | (intro u; first | (refine keeps_then (W := W) (s0 := s0) (a := u) ?_ ?_; subst u; rotate_left; intro _) | subst u | skip) | lift_lets -underBinder | dsimp -zeta only | split

end Sys2Proof.Machine
end

