-- ==== Sys2Proof/Laws/Exec.lean ====
section
/-! SUPPORT. Laws/Exec.lean: what every command may change and what it keeps: the relation of Laws/Keeps.lean, one arm per command. -/
set_option Elab.async false
set_option linter.all false
namespace Sys2Proof.Machine

/-- What a command may change (Laws/Footprint.lean). -/
def footprint : Instr → Nat
  | .registerWrite _ _ _ => (topMask ||| 0x1effdfe)
  | .lowHalfRead _ _ => 0x180018000000000000000000001800000000000000000000000000000000000000000000080000000000000000000000000000818024
  | .timeRead _ => 0x180018000000000000000000001800000000000000000000000000000000000000000000080000000000000000000000000000818024
  | .tierMvm _ _ _ => 0xfb00000000600000000000000000000010000040000000000000000000000000000000001000000000f0078000000000001ee2002006000008007e000823dc8
  | .conversion _ _ => 0x60000001000108
  | .tierMvmComplete _ _ _ => 0xfb01001060600000000000000000000000000040000000000000000000000000000000000000000000f00780000000000000420001f500070980fe000a23dc8
  | .tmvmAbort _ _ => 0x500
  | .reemit _ _ _ _ => 0x800400
  | .replayBlocksArrive _ _ _ _ => 0x60000080000000800108
  | .recoveryPass _ _ _ => 0x80000080000000000108
  | .programSlot _ _ _ => 0x8000000000006000000000000000000000000000400000000000000c0027c0000000000000000000300000678fc6000008000000000000000050067e000903398
  | .capClear _ _ => 0x1800000000000000000000000000000000000000000000000000000000000000007000000000810120
  | .spareArrayMap _ _ => 0xe000a0000000080
  | .spareActive _ => 0x400000000000000
  | .courseBoundary _ => (topMask ||| 0x646d80)
  | .dtuTile _ _ => 0xfb00000000600000000000000000000000000040000000000000000000000000000000000000000000f0078000000000001e62002000000000007e000823dc8
  | .dtuTileEnd _ _ => 0xfb00000020600000000000000000000000000040000000000000000000000000000000000000000000f00780000000000000420021c0000000007e000a23dc8
  | .vecCopy _ _ => 0xfb00000000600000000000000000000000000040000000000000000000000000000000000000000000f0078000000000001e620021c0000000007e000a23dc8
  | .vecAdd _ _ => 0xfb00000000600000000000000000000000000040000000000000000000000000000000000000000000f0078000000000001e620021c0000000007e000a23dc8
  | .vecMul _ _ => 0xfb00000000600000000000000000000000000040000000000000000000000000000000000000000000f0078000000000001e620021c0000000007e000a23dc8
  | .vecFma _ _ => 0xfb00000000600000000000000000000000000040000000000000000000000000000000000000000000f0078000000000001e620021c0000000007e000a23dc8
  | .vecMax _ _ => 0xfb00000000600000000000000000000000000040000000000000000000000000000000000000000000f0078000000000001e620021c0000000007e000a23dc8
  | .rowscale _ _ => 0xfb00000000600000000000000000000000000040000000000000000000000000000000000000000000f0078000000000001e620021c0000000007e000a23dc8
  | .exp _ _ => 0xfb00000000600000000000000000000000000040000000000000000000000000000000000000000000f0078000000000001e620021c0000000007e000a23dc8
  | .rcp _ _ => 0xfb00000000600000000000000000000000000040000000000000000000000000000000000000000000f0078000000000001e620021c0000000007e000a23dc8
  | .rsqrt _ _ => 0xfb00000000600000000000000000000000000040000000000000000000000000000000000000000000f0078000000000001e620021c0000000007e000a23dc8
  | .rowsum _ _ => 0xfb00000000600000000000000000000000000040000000000000000000000000000000000000000000f0078000000000001e62002000000000007e000a23dc8
  | .rowmax _ _ => 0xfb00000000600000000000000000000000000040000000000000000000000000000000000000000000f0078000000000001e62002000000000007e000a23dc8
  | .rowsumsq _ _ => 0xfb00000000600000000000000000000000000040000000000000000000000000000000000000000000f0078000000000001e62002000000000007e000a23dc8
  | .smaxn _ _ => 0xfb00000000600000000000000000000000000040000000000000000000000000000000000000000000f0078000000000001e620021c0000000007e000a23dc8
  | .smaxr _ _ => 0xfb00000000600000000000000000000000000040000000000000000000000000000000000000000000f0078000000000001e620021c0000000007e000a23dc8
  | .topk _ _ => 0xfb00000000600000000000000000000000000040000000000000000000000000000000000000000000f0078000000000001e62002000000000007e000a23dc8
  | .sample _ _ => 0xfb00000000600000000000000000000000000040000000000000000000000000000000000000000000f0078000000000001e62002000000000007e000a23dc8
  | .rand _ _ => 0xfb00000000600000000000000000000000000040000000000000000000000000000000000000000000f0078000000000001e62002000000000007e000a23dc8
  | .scan _ _ => 0xfb00000000600000000000000000000000000040000000000000000000000000000000000000000000f0078000000000001e620021c0000000007e000a23dc8
  | .send _ _ => 0xfb00000000600000000000000000000000000040000000000000000000000000000000000000000000f0078000000000001e62002000000000007e000823dc8
  | .recv _ _ => 0xfb00000000600000000000000000000000000040000000000000000000000000000000000000000000f0078000000000001e62002000000000007e000a23dc8
  | .recvred _ _ => 0xfb00000000600000000000000000000000000040000000000000000000000000000000000000000000f0078000000000001e62002000000000007e000a23dc8
  | .redAdd _ _ => 0xfb00000000600000000000000000000000000040000000000000000000000000000000000000000000f0078000000000001e62002000000000007e000823dc8
  | .redMax _ _ => 0xfb00000000600000000000000000000000000040000000000000000000000000000000000000000000f0078000000000001e62002000000000007e000823dc8
  | .barArriveWait _ _ => 0xfb00000000600000000000000000000000000040000000000000000000000000000000000000000000f0078000000000001e62002000000000007e000823dc8
  | .flagAdd _ _ => 0xfb00000000600000000000000000000000000040000000000000000000000000000000000000000000f0078000000000001e62002000000000007e000823dc8
  | .waitGe _ _ => 0xfb00000000600000000000000000000000000040000000000000000000000000000000000000000000f0078000000000001e62002000000000007e000823dc8
  | .streamLoad _ _ => 0xfb00000000600000000000000000000000000040000000000000000000000000000000000000000000f0078000000000001e62002000000000007e000a23dc8
  | .streamStore _ _ => 0xfb00000000600000000000000000000000000040000000000000000000000000000000000000000000f0078000000000001e62002000000000007e000923dc8
  | .kvload _ _ => 0xfb00000000600000000000000000000000000040000000000000000000000000000000000000000000f0078000000000001e62002000000000007e000a23dc8
  | .kvstore _ _ => 0xfb00000000600000000000000000000000000040000000000000000000000000000000000000000000f0078000000000001e62002000000000007e000923dc8
  | .adload _ _ => 0xfb00000000600000000000000000000000000040000000000000000000000000000000000000000000f0078000000000001e62002000000000007e000a23dc8
  | .gather _ _ => 0xfb00000000600000000000000000000000000040000000000000000000000000000000000000000000f0078000000000001e62002000000000007e001a23dc8
  | .ctrlForeach _ _ => 0xfb00000000600000000000000000000000000040000000000000000000000000000000000000000000f0078000000000001e62002000000000007e000823dc8
  | .ctrlEndeach _ _ => 0xfb00000000600000000000000000000000000040000000000000000000000000000000000000000000f0078000000000001e62002000000000007e000823dc8
  | .ctrlSeti _ _ => 0xfb00000000600000000000000000000000000040000000000000000000000000000000000000000000f0078000000000001e62002000000000007e000823dc8
  | .ctrlAddi _ _ => 0xfb00000000600000000000000000000000000040000000000000000000000000000000000000000000f0078000000000001e62002000000000007e000823dc8
  | .ctrlDivc _ _ => 0xfb00000000600000000000000000000000000040000000000000000000000000000000000000000000f0078000000000001e62002000000000007e000823dc8
  | .ctrlBr _ _ => 0xfb00000000600000000000000000000000000040000000000000000000000000000000000000000000f0078000000000001e62002000000000007e000823dc8
  | .ctrlLoop _ _ => 0xfb00000000600000000000000000000000000040000000000000000000000000000000000000000000f0078000000000001e62002000000000007e000823dc8
  | .ctrlLayer _ _ => 0xfb00000000600000000000000000000000000040000000000000000000000000000000000800000000f0078000000000001e63802000000000007e000823dc8
  | .ctrlEnd _ _ => 0xfb00000000600000000000000000000000000040000000000000000000000000000000000000000000f0078000000000001e62002000000000007e000823dc8
  | .stepAbort _ _ _ => 0xfb00000000000000000000000000000000000040000000000000000000000000000000000000000000f0078000000000000042000000000000007e000823dc0
  | .cancelFlit _ _ => 0x600000000000000000000000000000000000000000000000000000000000000000000000000000000000000000420000000000000000000000508
  | .tabWatchdog _ => 0x1fb00000000e34000000000000000000000000040000000000000000000000000000000000000000000f0078000000000001ffff0e1ff00070f877ff00e23dc8
  | .tabScrub _ _ => 0xfb00000000600000000000000000000000000040000000000000000000000000000000000000000000f0078000000000001e72002000000000007e000823dc8
  | .tabReloadComplete _ => 0x20000000000000000000400
  | .coreHalt _ _ => 0x180000000000000003d000000000000000000000000000000000000000120000000000000000810020
  | .coreResume _ _ => 0x180000000000000003d000000000000000000000000000000000000000120000000000000000810020
  | .faultClear _ _ => 0x180000000000000000000000000000000000000000000000000001e000000000000000000000810020
  | .flitArrive _ _ _ _ _ _ => 0x6000000000000000000000000000400000000000000000000000000000000000000000000000000000f9800800420020000000000000000a01d08
  | .reductionContribution _ _ _ => 0x600000000000000000000000000000000000000000000000000000000000000000000000000000000060000800020020000000000000000200c08
  | .barrierArrive _ _ => 0x6000000000000000000000000000400000000000000000000000000000000000000000000000000000e0000800420020000000000000000a01d08
  | .barrierRelease _ _ _ => 0x6000000000000000000000000000000000000000000000000000000000000000000000000000000000c0000000020020000000000000000000c08
  | .flagAddArrive _ _ _ _ => 0x600000000000000000000000000000000000000000000000000000000000000000000000000000000040000000020020000000000000000200408
  | .mapUpdate _ => 0x4000000000000000000000000000000000000000000000078000000bfe000042700000000000007e000e03dc0
  | .mapApplied => 0xfb00000000000000000000000000000000000040000000000000000000000000000000000000000000f0078000000c00000042000000000000007e000823dc0
  | .linkWatchdog _ _ => 0x600000000000000000000000000000000000000000000000000000000000000000000000000000000009800000000000000000000000000000808
  | .fabricSelfTestDone _ _ => 0x113027f80024b47b0000000393420800018201c00000001f0400fe1bc7c1b01fdffc00e7fffe3f7f0de700fffffc00038007ffffc0fd81e01ffff3e1ff00870f877ff00effdfe
  | .beginLoad _ _ _ => 0x6000000000000000000000000000000000000000000c0027e0000000000000000000000000000ffe0000000000000000000000000000000800098
  | .shardPosted _ _ => 0x6000000000000000000000000000400000000000000c0027e00000000000000000000000000018000000000000000000000000000000000801098
  | .endStream _ _ => 0x6000000000000000000000000000400000000000000c0027e00000000000000000000000000000000000000000000000000000000000000801098
  | .commit _ _ => 0x8000000000006000000000000000000000000000400000000000000c0027e0000000000000000000300000078f86000000000000000000000000027e001803198
  | .rollback _ _ => 0x8000000000006000000000000000000000000000400000000000000c0027e0000000000000000000300000078f86000000000000000000000000027e001803198
  | .release _ _ => 0x6000000000000000000000000000400000000000000c0027e0000000000000000000000000078000000000000000000000000000007e000803098
  | .abort _ _ => 0x6000000000000000000000000000400000000000000c0027e0000000000000000000000000078f86000000000000000000000000027e000803198
  | .adapterLoad _ _ _ => 0x6000000000000000000000000000000000000000000c0027e00000000000000000000000fc0000000000000000000000000000000000000800098
  | .adapterFree _ _ => 0x6000000000000000000000000000000000000000000c0027e00000000000000000000000700000000000000000000000000000000000000800098
  | .shadowRebuild _ _ => 0x6000000000000000000000000000000000000000000c0027e00000000000000000000000000000000000000000000000000000000000000800098
  | .shadowRebuildDone _ => 0x6000000000000000000000000000000000000000000c0027c00000000000000000000000004000000000000000000000000000000000000800098
  | .manifestArrival _ _ _ _ => 0x8000000000006000000000000000000000000000400000000000000c0027c00000000000000000003000007f8fe6000000000000000000000000027e000803998
  | .manifestTimeout _ => 0x6000000000000000000000000000000000000000000c0027c0000000000000000000000000078f86000000000000000000000000027e000802198
  | .shardComplete _ _ _ _ _ => 0x8000000000006000000000000000000000000000400000000000000c0027c000000000000000000030000067efc6000000000000700000000000027e000e03598
  | .shardTimeout _ _ => 0x6000000000000000000000000000400000000000000c0027c0000000000000000000000000004f820000000000000000000000000000000801098
  | .relayHead _ _ _ _ _ _ => 0x6000000000000000000000000000c00000000000000c0027c0000000000000000000000000005f820000000000000000000000000000000801098
  | .relayData _ _ _ => 0xc0000000000000000000000000000000000000000000000000000000000000000000000000000000000801080
  | .relayReq _ _ _ _ => 0xc0000000000000000000000000000000000000000000000010000000000000000000000000000000000801000
  | .epochPrepare _ _ => 0x8000000000006000000000000000000000000000400000000000000c0027c0000000000000000000300000078f86000000000000000000000000027e000803198
  | .epochReady _ _ => 0x80
  | .scaleCalibrationDone _ _ _ => 0x8000000000006000000000000000000000000000400000000000000c0027c0000000000000000000300000078f86000000000000001e00000000027e000803198
  | .epochPrepared _ _ => 0x8000000000006000000000000000000000000000400000000000000c0027c0000000000000000000300000078f86000000000000000000000000027e000803198
  | .epochRefused _ _ => 0x6000000000000000000000000000400000000000000c0027c0000000000000000000000000078f86000000000000000000000000027e000803198
  | .epochCommit _ _ => 0x8000000000006000000000000000000000000000400000000000000c0027c0000000000000000000300000078f86000000000000000000000000027e000803198
  | .epochAbort _ _ => 0x6000000000000000000000000000000000000000000c0027c0000000000000000000000000078f86000000000000000000000000027e000802198
  | .epochRetire _ _ => 0x78000000000000000000000000000007e000002080
  | .prepareTimeout _ => 0x6000000000000000000000000000400000000000000c0027c0000000000000000000000000078f86000000000000000000000000027e000803198
  | .generate _ _ => 0x6000000000000000000000000000400000000000000c0027e000000000000003c0000000f0078000000000000042000000000000007e001823dd8
  | .cancel _ _ => 0x6000000000000000000000000000400000000000000c0027e00000000000000680000000f0078000000000000042000000000000007e000823dd8
  | .prefixDrop _ _ => 0x6000000000000000000000000000000000000000000c0027e00000000000000080000000000000000000000000000000000000000000000800058
  | .passFormation _ => 0x4000000000000000000000000000000000100000000000078000000000000043800000000000007e001b17dc8
  | .stepComplete _ _ => 0xfb0000000000000000000000000000000000004000000000000000000000000000000000e000000000f0078000000000000042000000000000007e000823dc0
  | .tokenWrite _ => 0x6000000000000000000000000000000000000000000c0027c00000000000001000000000000000000000000000000000000000000000000800058
  | .completionWrite _ => 0x6000000000000000000000000000400000000000000c0027c00000000000000000000000f000000000000000000000000000000000000008010d8
  | .admitMessage _ _ => 0x600000000000000000000000000040000000000000000000000000000000000000000000f000000000000000000000000000000000000008010c8
  | .passMessage _ _ _ => 0x600000000000000000000000000040000000000000000000000000000000000000000000000000000000000000018000000000000000001b15448
  | .short _ _ => 0x60000000000000000000000000004000000000000000000000000000000000100000000000078000000000000042000000000000007e000803dc8
  | .servingRelease _ _ => 0x600000000000000000000000000040000000000000000000000000000000000000000000f0078000000000000042000000000000007e000803dc8
  | .deadlineExpiry _ => 0x40000000000000000000000000000000000200000000f0078000000000000042000000000000007e000823dc0
  | .pagewaitTimeout _ => 0x4000000000000000000000000000000000000000000000078000000000000042000000000000007e000803dc0
  | .pauseResume _ => 0x6000000000000000000000000000000000000000000c0027c00000000000000000000000000000000000000000000000000000000000000800058
  | .cancelDrainComplete _ => 0x40000000000000000000000000000000000000000000f0078000000000000042000000000000007e000823dc0
  | .portReset _ _ => 0x400000003007dfe00027fffe003f08c0000200000000f0078000000000000042000000000000007e000823df8
  | .flr _ => 0x400000003007dfe00027fffe002008c0000200000000f0078000000000000042000000000000007e000823df8
  | .flrComplete _ _ => 0x10
  | .d3hotEntry _ => 0x6000000000000000000000000000000000000000000c0027c00000000000000000000000000000000000000000000000000000000000000800018
  | .ownClaim _ _ => 0x180000000000000003d000520000000000000000000000000000000000000000000000000000810020
  | .handoverOffer _ => 0x180000000000000003d0008c0000000000000000000000000000000000000000000000000000810030
  | .handoverAccept _ _ => 0x98000000000000000000000000000000000000000000000000000180000000000000003d000de0000000000000000000000000000000000000000000000000000850020
  | .handoverExpiry => 0x8c0000000000000000000000000000000000000000000000000000000000
  | .reclaim _ _ => 0x1980000000000000000000000000000000000000000000000000000000000000000000000000520000000000000000000000000000000000000000000000000000840000
  | .ringEnable _ _ => 0x6000000000000000000000000000000000018000000c0027e0103d000000000000000000000000000000000000000000000000000000000810078
  | .ringDisable _ _ => 0x6000000000000000000000000000000000018000000c0027e0103d000000000000000000000000000000000000000000000000000000000810078
  | .ringStop _ _ => 0x6000000000000000000000000000000000018000000c0027c0003d000000000000000000000000000000000000000000000000000000000810038
  | .ringResume _ _ => 0x6000000000000000000000000000000000018000000c0027c0003d000000000000000000000000000000000000000000000000000000000810038
  | .dbIndex _ _ _ => 0x6000080000000000000000000000000000018000000c0027e0003f000000000000000000000000000000000000000000000000000000000810078
  | .dbArm _ _ _ => 0x180000000000200003f000000000000000000000000000000000000000000000000000000000800030
  | .coalesceTimer _ => 0x2000000000000000000000000000000000000000000000000000000000000000800010
  | .copyIn _ _ => 0x6000000000000000000000000000000000000000000c0027e00000000000000000000000000000000000000000000000000000000000000800018
  | .copyOut _ _ => 0x6000000000000000000000000000000000000000000c0027e00000000000000000000000000000000000000000000000000000000000000800018
  | .zero _ _ => 0x6000000000000000000000000000000000000000000c0027e00000000000000000000000000000000000000000000000000000000000000800018
  | .dmaPiece _ _ => 0x6000000000000000000000000000000000000000000c0027c00000000000000000000000000000000000000000000000000000000000000900018
  | .pageRequestResponse _ _ => 0x6000000000000000000000000000000000000000000c0027c00000000000000000000000000000000000000000000000000000000000000800018
  | .pageRequestTimeout _ => 0x6000000000000000000000000000000000000000000c0027c00000000000000000000000000000000000000000000000000000000000000800018
  | .atsInvalidation _ _ _ => 0x100004000000000000000000000000000000000000000000000000000000000000000800010
  | .mailboxCommit _ _ _ => 0x18018cae0000000003c000000000000000000000000000000000000000000000000000000000810022
  | .mailboxAck _ _ _ => 0x18010cee0000000003c000000000000000000000000000000000000000000000000000000000810028
  | .mailboxWithdraw _ _ => 0x18010cbe0000000003c000000000000000000000000000000000000000000000000000000000810028
  | .mailboxTimeout _ => 0xc0800000000000000000000000000000000000000000000000000000000000000000000800020
  | .echo _ => 0xcee00000000000000000000000000000000000000000000000000000000000000000000800028
  | .mbxDbClear _ _ => 0x18000c0000000000000000000000000000000000000000000000000000000000000000000000810020
  | .mbxDbMaskWrite _ _ => 0x1800100000000000000000000000000000000000000000000000000000000000000000000000810020
  | .clockHold _ _ => 0x18000000000004000000000000000001900000000000000000000001000000000000000000000000000000000000000000000000000810020
  | .holdLapse _ => 0x18000000000004000000000000000000300000000000000000000001000000000000000000000000000000000000000000000000000000020
  | .heldAccessRelease _ => (topMask ||| 0x1fffdfe)
  | .trainingStart _ _ => 0x400006400000cae0000000000000000000000000000000078000000000000042000000000000007e000803de0
  | .trainingDone _ _ => 0x400002c00000cae00000000000000000000000000000000000000000000000000000000000000000001801020
  | .trainingTimeout _ => 0x3c00000cae00000000000000000000000000000000000000000000000000000000000000000000801020
  | .fullHello _ _ _ => 0x6000000000000000000000000000e01bc3c00000cae0000000000000000000000000000000078000000000000042000000000000007e001803de8
  | .helloTimeout _ => 0x6000000000000000000000000000000003c00000cae00000000000000000000000000000000000000000000000000000000000000000000801028
  | .shortHello _ _ => 0xc0000000000000000000000000000000000000000000000000000000000000000000000000000000000801000
  | .helloReq _ => 0xc0000000000000000000000000000000000000000000000000000000000000000000000000000000001801000
  | .helloTimer _ => 0x40000000000000000000000000000000000000000000000000000000000000000000000000000000001801000
  | .linkReplay _ _ => 0x6000000000000000000000000000c00007400000cae0000000000000000000000000000000078000000000000042000000000000007e000803de8
  | .laneFail _ _ => 0xfb000000006000000000000000000000000000400007c00000cae00000000000000000000000000000f0078000000000000042000000000000007e000823de8
  | .laneDrop _ _ _ => 0xfb000000006000000000000000000000000000c00007c00000cae00000000000000000000000000000f0078000000000000042000000000000007e000823de8
  | .goodbye _ => 0xfb000000006000000000000000000000000000400003c00000cae00000000000000000000000000000f0078000000000000042000000000000007e000823de8
  | .partnerLoss _ => 0xfb000000006000000000000000000000000000400003c00000cae00000000000000000000000000000f0078000000000000042000000000000007e000823de8
  | .retrain _ _ => 0x400006418000cae0000000003d00000000000000000000078000000000000042000000000000007e000813de0
  | .portDisable _ _ => 0xfb000000006000000000000000000000000000400003c38000cae0000000003d000000000000000000f0078000000000000042000000000000007e000873de8
  | .msg _ _ _ => 0x6000080000000000000000000000de0000000000000000000000000000000000000000000000000000e0000800420020000000000000000a11d08
  | .chainWaitTimeout _ => 0x4000000000000000000000000000000000000000000000078000000000000042000000000000007e000803dc0
  | .tierDue _ _ _ => 0x2000
  | .tierOverdue _ _ _ => 0x8000000000000000000000000000000000000000000000000000000000000000000000000000000000000000002000
  | .probePass _ _ _ => 0x9800000000000000000000000000000000000000000000000000000000000000000000000000000000000000002000
  | .verifyRead _ _ _ _ => 0x60000000000000000000000c800000000000000000000000000000000000000000000000000000000000000000000000000000000660000002288
  | .retuneSlot _ _ _ _ => 0x60000000000000000000000e000000000000000000000000000000000000000000000000000000000000000000000000000000100260000002088
  | .fullVerifySweep _ => 0x600008000000000000000006000000000000000000000000000000000007000000000000000000000000000000000000000000100260000192288
  | .sweepComplete => 0x18000000000004000000000000000000000000000000000000000007000000000000000000000000080000000000000000400000000062020
  | .calStart _ _ _ => 0x670000000000000180000000000000003d000000000000000000000000000000000000000000000000000000000814020
  | .calAbort _ => 0x180000000000000003d000000000000000000000000000000000000000000000000000000000814020
  | .calStep _ => 0x7800000000000000000000000000000004d87c00000000000000000000000000000000000000000000000000000000000000000000000000000000000000000044000
  | .recalibrationTrigger _ => 0x4000
  | .mcvResult _ _ => 0x200000000000000000000000000000000000018000000000000000000000000000000000000000000000000000000000000000000000000000000000000000000000000008000
  | .mcvResultRead _ => 0x8000000000000000000001800000000000000000000000000000000000000000000000000000000000000000000000000818020
  | .mcvDropRead _ => 0x10000000000000000000001800000000000000000000000000000000000000000000000000000000000000000000000000810020
  | .sensorSample _ _ => 0x60018000c7fc0000000000001000000000000000cae00000000000000007000000000000000000000000000000000000000000000000000812028
  | .powerInterval _ _ => 0x76800000000000000000000000000000000000000000000000000000000000000000000000000000000000000000000000000000010000
  | .capAlert => 0x17800000000000000000000000000000000000000000000000000000000000000000000000000000000000000000000000000000000000
  | .capAlertDeassert => 0x1000000000000000000000000000000000000000000000000000000000000000000000000000000000000000000000000000000000000
  | .trayCapSet _ _ => 0x300000000000000000000000000000000000000000000000000000000000000000000000000000000000000000000000000000000000000
  | .scanStall _ => 0x180004000000000000000000000000000000000000000000000000000000000000000000000000000000000000000000000000000000810000
  | .tripAck _ _ => 0x48000000000000000000000000000000180000000000000003d000003000000000000000000000000000000000000000000000000000850020
  | .idleGate _ => 0x10000
  | .courseNap _ _ _ => 0x1800000000000400000000000000000180000000000000003d000001000000000000000000000000000000000000000000000000000810020
  | .pstateNap _ _ => 0x1e00000000000400000000000000000180000000000000003d000001000000000000000000000000000000000000000000000000000810020
  | .napEntryComplete => 0x8000000000000000000000000000000000000000000000000000000000000000000000000000000000000000000000000000000000010000
  | .pstateRest _ _ => 0x1e00000000000400000000000000000180000000000000003d000001000000000000000000000000000000000000000000000000000810020
  | .restEntry => 0xfb000000000000080000000000000000000000400003c00000cae00000000000000001000000000000fc478000000000000042002000000000067e000fa3de8
  | .pstateActive _ _ => 0x113027f80624c38000fe7c03f3721e080193f1fffc46671ffc00fe1bc701b01fdffc00e7fffe3f7f0de700fffffe0003800fffffc0fc01f81ffffbffff00870f877ff00edbdfe
  | .patrolScrub _ _ => 0x1000000e000000000000000000000000000400000000000000c0027c00000000000000000000000f007ef82000000000042000000000000007e001923dd8
  | .redundancyCompare _ _ _ _ _ => 0xfb00000000600000000000000000000000000040000000000000000000000000000000000000000000f0078000000000000042002000000000007e000a23dc8
  | .twinWaitExpiry _ _ _ => 0x600000000000000000000000000000000000000000000000000000000000000000000000000000000000000000020020000000000000000200408
  | .auditComparison _ _ _ => 0xfb00000c60600000000000000000000000000040000000000000000000000000000000000000000000f007800000000000004200000000000000fe000823dc8
  | .auditAbandon _ _ => 0x1000000000000000000000000000000000000000000000000000000000000000000000000000000000000000000000000000000000000000000000008
  | .standAloneAudit _ _ _ _ => 0xfb00000c60600000000000000000000008000040000000000000000000000000000000000000000000f007800000000000004200000000000000fe000823dc8
  | .auditRollback _ _ _ _ _ => 0xfb000020006000000000000000000000000000400000000000000c0027c00000000000000000000000f0078000000000000042000000000000007e000823dd8
  | .confirmation _ _ _ => 0xc0600000000000000000000000000000000000000000000000000000000000000000000000000000000000000000000000000000000000000000008
  | .fieldTestStart _ _ => 0xfe400000000000000000000000000000000000000180000000000000003d000000000000000000000000000000000000000000000000000080000810528
  | .fieldTestAbort _ _ => 0xfe400000000000000000000000000000000000000180000000000000003d000000000000000000000000000000000000000000000000000080000810528
  | .fieldTestDone _ => 0xa00060600000000000000000000000000000000000000000000000000000000000000000000000000000000000000000000000000000000080000000508
  | .faultReport _ _ _ _ => 0x600000000000000000000000000000000000000000000000000000000000000000000000000000000000000000000000000000000000000002008
  | .aggregationWindowClose _ => 0xc34000000000000000000000000000000000000000000000000000000000000000000000000000000000000000000000000000000000000000008
  | .dieLogWrite => 0xc350000000000000000000000000000000000000cae00000000000000000000000000000000000000000000000000000000000000000000900828
  | .logRdWrite _ _ => 0x200000000000000000000000000000000180000000000000003d000000000000000000000000000000000000000000000000000000000810020
  | .ffcClear _ => 0x3000000000000000000000000000000000180000000000000003d000000000000000000000000000000000000000000000000000000000810028
  | .stepWatchdog _ _ => 0xfb00000000600000000000000000000000000040000000000000000000000000000000000000000000f0078000000000000042000000000000007e000823dc8
  | .courseHeartbeatMiss _ => 0x41fb00000000e34000000000000000000000000040000000000000000000000000000000000000000000f0078000000000001ffff0e1ff00070f877ff00e23dc8
  | .partitionHeartbeatMiss _ => 0x12fb00000000e340180000000000040000000000400000000000000c0027c0000000000100fffffc0000f0078ffe000000001ffff3e1ff00870f877ff00e23df8
  | .firmwareWatchdog => 0x113027f8003cb47b00000003f3420800018201c00000001f0400fe1bc7c1b01fdffc00e7fffe3f7f0de700fffffc00038007ffffc0fc01e01ffff3e1ff00870f877ff00effdfe
  | .resetOverrun _ => 0x113027f80024b7fb00000003f3421800018201c00400001f0400fe1bc7c1b01fdffc00e7fffe3f7f0de700fffffc0003f007ffffc0fc01e01ffff3e1ff00870f877ff00effdfe
  | .contextReset _ _ _ => 0xfb00000000000000000000000000000000000040000000000000000000000000000000000000000000f0078000000000000042000000000000007e000823dc0
  | .courseReset _ _ => 0x1fb00000000834000000000000000000000000040000000000000000000000000000000000000000000f0078000000000001ffff0e1ff00070f877ff00e23dc8
  | .courseResetComplete _ => 0x10000000000000001800000000000400000000004000000000000000000000000000000100000000000000078000000bfe000042700000000000067e000e23de8
  | .partitionReset _ _ => 0x12fb00000000e340180000000000040000000000400000000000000c0027c0000000000100fffffc0000f0078ffe000000001ffff3e1ff00870f877ff00e23df8
  | .chipReset _ => 0x113027f80024b47b0000000393420800018201c00000001f0400fe1bc7c1b01fdffc00e7fffe3f7f0de700fffffc00038007ffffc0fc01e01ffff3e1ff00870f877ff00effdfe
  | .devReset => 0x113027f80000b47b0000000393420800018201c00000001f0400fe1bc7c1b01fdffc00e7fffe3f7f0de700fffffc00038007ffffc0fc01e01ffff3e1ff00870f877ff00effdfe
  | .resetNotice _ _ => 0x60000000000000000000000000004000000000000000000000000000000000000000000000078000000000000042000000000000007e000803dc8
  | .powerUp _ => (topMask ||| 0xfffdff)
  | .aonPowerOnReset => 0x7ff93027ff87a4f7fff0fffc07f3f21ffffffffffffcc667fffc00fe1fc7d1fffffffc00fffffe3f7f1fff00fffffe0003fc4fffffe0fc01f83fffffffff008f0f87fff007ffdff
  | .railExcursion _ _ => 0x6c0000000000000fb000000006000000000000000000024000000400003c03007dfe00027fffe003f08c0000200000000f0078000000000000042000000000000007e0008a7df8
  | .railRecovery _ => 0xc00000000000000000000000000000000000000000000000000000000000000000000000000000000000000000000000000000000000000000000000000000000000000080000
  | .railExcursionTimeout _ => 0x820000
  | .stackRailTimeout => 0x600008000000000000000000000000000000000000000000000000000000000000000000000000000000000000000000000000000000000080008
  | .crystalLoss => 0x48000000000000000000000000600000000000000000000000000000000000000000000000000000000000000000000000000000000000000000000000000000000000000000008
  | .refclkSysLoss => 0x10113027f80000b47b0000000393420800018201c00000001f0400fe1bc7c1b01fdffc00e7fffe3f7f0de700fffffc00038007ffffc0fc01e01ffff3e1ff00870f877ff01effdfe
  | .refclkSysRestore => 0x10000000000024000000000000000000000000000000000000000000000000000000000000000000000007000000000000000000000000000000007000000000000000000e32480
  | .pcieRefclkLoss _ => 0x200000000000000000000000000000000000000000000000000000400000003007dfe00027fffe003f08c0000200000000f0078000000000000042000000000000007e000823df8
  | .dynamicAddressAssignment _ => 0x80000
  | .firmwareInstall _ _ _ => 0x21a00000000000000000000000000000000000000000000000180000000000000003d000000000000000000000000000000000000000000000000000000000850020
  | .commitSvn _ => 0x24000000000000000000000000000000000000000000000000180000000000000003d000000000000000000000000000000000000000000000000000000000810020
  | .stagedWrite _ _ _ => (topMask ||| 0x1effdfe)
  | .keyStage _ _ _ => 0x68000000000000000000000000000000000000000000000000000180000000000000003d000000000000000000000000000000000000000000000000000000000850020
  | .seal _ => 0x608000000000000000000000000000000000000000000000000000180000000000000003d000000000000000000000000000000000000000000000000000000001850020
  | .stageAbort _ => 0x98000000000000000000000000000000000000000000000000000180000000000000003d000000000000000000000000000000000000000000000000000000000850020
  | .configRollback _ => 0x78000000000000000000000000000000000000000000000000000180000000000000003d000000000000000000000000000000000000000000000000000000000850020
  | .approve _ _ => (topMask ||| 0x844020)
  | .stageTimeout => 0x980000000000000000000000000000000000000000000000000000000000000000000000000000000000000000000000000000000000000000000000000000000040000
  | .getStage _ _ => 0x800000
  | .getNonce _ => 0x1840000
  | .generationRecord => 0x7800000000000000000000000000000000000000000000000000000000000000000000000000000000000000000000000000000000000000000000000000000040000
  | .negotiateAlgorithms _ _ => 0x840000
  | .getMeasurements _ _ _ _ => 0x840000
  | .getCertificate _ _ _ _ => 0x840000
  | .challenge _ _ _ => 0x840000
  | .keyExchange _ _ _ _ => 0x1840000
  | .barMaxRead _ => 0x1800000000000000000000000000000000000000000000080000000000000000000000000000810020
  | .peakRead _ => 0x180000000000000000000000001800000000000000000000000000000000000000000000000000000000000000000000000000810020
  | .napExitComplete => 0x8000000000000000000000000000000000000000000000000000007000000000000000000000000000000007000000000000020000612480
  | .crystalReturn => 0x8000000000000000000000000000000000000000000000000000000000000000000000000000000000000000000000000000000000000000000000000000000000000000000000
  | .pcieLinkUp _ _ _ _ _ => 0x200000000000000000000000000000000000000000000000000000000000000000000000000000001f0000000000000000000000000000000000000000000000000000000000010
  | .devResetRelease => 0x24000000000000000000000000000000000000000000000000000000000000000000000007000000000000000000000000000000007000000000000000000e32480
  | .bar4Access _ _ _ => 0x180000000000000003d000000000000000000000000000000000000000000000000000000000900020
  | .atsTranslationCompletion _ _ _ => 0x6000000000000000000000000000000000000000000c0027c00000000000000000000000000000000000000000000000000000000000000800018

/-- A command changes nothing outside its footprint. -/
theorem exec_keeps {W : Nat} {s0 s : State} (i : Instr) (h : Keeps W s0 s) (w : Within (footprint i) W) : KeepsN W s0 (exec i s) :=
  match i, w with
  | .registerWrite _ _ _, w => execRegisterWrite_keeps h w
  | .lowHalfRead _ _, w => execLowHalfRead_keeps h w
  | .timeRead _, w => execTimeRead_keeps h w
  | .tierMvm _ _ _, w => execTierMvm_keeps h w
  | .conversion _ _, w => execConversion_keeps h w
  | .tierMvmComplete _ _ _, w => execTierMvmComplete_keeps h w
  | .tmvmAbort _ _, w => execTmvmAbort_keeps h w
  | .reemit _ _ _ _, w => execReemit_keeps h w
  | .replayBlocksArrive _ _ _ _, w => execReplayBlocksArrive_keeps h w
  | .recoveryPass _ _ _, w => execRecoveryPass_keeps h w
  | .programSlot _ _ _, w => execProgramSlot_keeps h w
  | .capClear _ _, w => execCapClear_keeps h w
  | .spareArrayMap _ _, w => execSpareArrayMap_keeps h w
  | .spareActive _, w => execSpareActive_keeps h w
  | .courseBoundary _, w => execCourseBoundary_keeps h w
  | .dtuTile _ _, w => execDtuTile_keeps h w
  | .dtuTileEnd _ _, w => execDtuTileEnd_keeps h w
  | .vecCopy _ _, w => execVecCopy_keeps h w
  | .vecAdd _ _, w => execVecAdd_keeps h w
  | .vecMul _ _, w => execVecMul_keeps h w
  | .vecFma _ _, w => execVecFma_keeps h w
  | .vecMax _ _, w => execVecMax_keeps h w
  | .rowscale _ _, w => execRowscale_keeps h w
  | .exp _ _, w => execExp_keeps h w
  | .rcp _ _, w => execRcp_keeps h w
  | .rsqrt _ _, w => execRsqrt_keeps h w
  | .rowsum _ _, w => execRowsum_keeps h w
  | .rowmax _ _, w => execRowmax_keeps h w
  | .rowsumsq _ _, w => execRowsumsq_keeps h w
  | .smaxn _ _, w => execSmaxn_keeps h w
  | .smaxr _ _, w => execSmaxr_keeps h w
  | .topk _ _, w => execTopk_keeps h w
  | .sample _ _, w => execSample_keeps h w
  | .rand _ _, w => execRand_keeps h w
  | .scan _ _, w => execScan_keeps h w
  | .send _ _, w => execSend_keeps h w
  | .recv _ _, w => execRecv_keeps h w
  | .recvred _ _, w => execRecvred_keeps h w
  | .redAdd _ _, w => execRedAdd_keeps h w
  | .redMax _ _, w => execRedMax_keeps h w
  | .barArriveWait _ _, w => execBarArriveWait_keeps h w
  | .flagAdd _ _, w => execFlagAdd_keeps h w
  | .waitGe _ _, w => execWaitGe_keeps h w
  | .streamLoad _ _, w => execStreamLoad_keeps h w
  | .streamStore _ _, w => execStreamStore_keeps h w
  | .kvload _ _, w => execKvload_keeps h w
  | .kvstore _ _, w => execKvstore_keeps h w
  | .adload _ _, w => execAdload_keeps h w
  | .gather _ _, w => execGather_keeps h w
  | .ctrlForeach _ _, w => execCtrlForeach_keeps h w
  | .ctrlEndeach _ _, w => execCtrlEndeach_keeps h w
  | .ctrlSeti _ _, w => execCtrlSeti_keeps h w
  | .ctrlAddi _ _, w => execCtrlAddi_keeps h w
  | .ctrlDivc _ _, w => execCtrlDivc_keeps h w
  | .ctrlBr _ _, w => execCtrlBr_keeps h w
  | .ctrlLoop _ _, w => execCtrlLoop_keeps h w
  | .ctrlLayer _ _, w => execCtrlLayer_keeps h w
  | .ctrlEnd _ _, w => execCtrlEnd_keeps h w
  | .stepAbort _ _ _, w => execStepAbort_keeps h w
  | .cancelFlit _ _, w => execCancelFlit_keeps h w
  | .tabWatchdog _, w => execTabWatchdog_keeps h w
  | .tabScrub _ _, w => execTabScrub_keeps h w
  | .tabReloadComplete _, w => execTabReloadComplete_keeps h w
  | .coreHalt _ _, w => execCoreHalt_keeps h w
  | .coreResume _ _, w => execCoreResume_keeps h w
  | .faultClear _ _, w => execFaultClear_keeps h w
  | .flitArrive _ _ _ _ _ _, w => execFlitArrive_keeps h w
  | .reductionContribution _ _ _, w => execReductionContribution_keeps h w
  | .barrierArrive _ _, w => execBarrierArrive_keeps h w
  | .barrierRelease _ _ _, w => execBarrierRelease_keeps h w
  | .flagAddArrive _ _ _ _, w => execFlagAddArrive_keeps h w
  | .mapUpdate _, w => execMapUpdate_keeps h w
  | .mapApplied, w => execMapApplied_keeps h w
  | .linkWatchdog _ _, w => execLinkWatchdog_keeps h w
  | .fabricSelfTestDone _ _, w => execFabricSelfTestDone_keeps h w
  | .beginLoad _ _ _, w => execBeginLoad_keeps h w
  | .shardPosted _ _, w => execShardPosted_keeps h w
  | .endStream _ _, w => execEndStream_keeps h w
  | .commit _ _, w => execCommit_keeps h w
  | .rollback _ _, w => execRollback_keeps h w
  | .release _ _, w => execRelease_keeps h w
  | .abort _ _, w => execAbort_keeps h w
  | .adapterLoad _ _ _, w => execAdapterLoad_keeps h w
  | .adapterFree _ _, w => execAdapterFree_keeps h w
  | .shadowRebuild _ _, w => execShadowRebuild_keeps h w
  | .shadowRebuildDone _, w => execShadowRebuildDone_keeps h w
  | .manifestArrival _ _ _ _, w => execManifestArrival_keeps h w
  | .manifestTimeout _, w => execManifestTimeout_keeps h w
  | .shardComplete _ _ _ _ _, w => execShardComplete_keeps h w
  | .shardTimeout _ _, w => execShardTimeout_keeps h w
  | .relayHead _ _ _ _ _ _, w => execRelayHead_keeps h w
  | .relayData _ _ _, w => execRelayData_keeps h w
  | .relayReq _ _ _ _, w => execRelayReq_keeps h w
  | .epochPrepare _ _, w => execEpochPrepare_keeps h w
  | .epochReady _ _, w => execEpochReady_keeps h w
  | .scaleCalibrationDone _ _ _, w => execScaleCalibrationDone_keeps h w
  | .epochPrepared _ _, w => execEpochPrepared_keeps h w
  | .epochRefused _ _, w => execEpochRefused_keeps h w
  | .epochCommit _ _, w => execEpochCommit_keeps h w
  | .epochAbort _ _, w => execEpochAbort_keeps h w
  | .epochRetire _ _, w => execEpochRetire_keeps h w
  | .prepareTimeout _, w => execPrepareTimeout_keeps h w
  | .generate _ _, w => execGenerate_keeps h w
  | .cancel _ _, w => execCancel_keeps h w
  | .prefixDrop _ _, w => execPrefixDrop_keeps h w
  | .passFormation _, w => execPassFormation_keeps h w
  | .stepComplete _ _, w => execStepComplete_keeps h w
  | .tokenWrite _, w => execTokenWrite_keeps h w
  | .completionWrite _, w => execCompletionWrite_keeps h w
  | .admitMessage _ _, w => execAdmitMessage_keeps h w
  | .passMessage _ _ _, w => execPassMessage_keeps h w
  | .short _ _, w => execShort_keeps h w
  | .servingRelease _ _, w => execServingRelease_keeps h w
  | .deadlineExpiry _, w => execDeadlineExpiry_keeps h w
  | .pagewaitTimeout _, w => execPagewaitTimeout_keeps h w
  | .pauseResume _, w => execPauseResume_keeps h w
  | .cancelDrainComplete _, w => execCancelDrainComplete_keeps h w
  | .portReset _ _, w => execPortReset_keeps h w
  | .flr _, w => execFlr_keeps h w
  | .flrComplete _ _, w => execFlrComplete_keeps h w
  | .d3hotEntry _, w => execD3hotEntry_keeps h w
  | .ownClaim _ _, w => execOwnClaim_keeps h w
  | .handoverOffer _, w => execHandoverOffer_keeps h w
  | .handoverAccept _ _, w => execHandoverAccept_keeps h w
  | .handoverExpiry, w => execHandoverExpiry_keeps h w
  | .reclaim _ _, w => execReclaim_keeps h w
  | .ringEnable _ _, w => execRingEnable_keeps h w
  | .ringDisable _ _, w => execRingDisable_keeps h w
  | .ringStop _ _, w => execRingStop_keeps h w
  | .ringResume _ _, w => execRingResume_keeps h w
  | .dbIndex _ _ _, w => execDbIndex_keeps h w
  | .dbArm _ _ _, w => execDbArm_keeps h w
  | .coalesceTimer _, w => execCoalesceTimer_keeps h w
  | .copyIn _ _, w => execCopyIn_keeps h w
  | .copyOut _ _, w => execCopyOut_keeps h w
  | .zero _ _, w => execZero_keeps h w
  | .dmaPiece _ _, w => execDmaPiece_keeps h w
  | .pageRequestResponse _ _, w => execPageRequestResponse_keeps h w
  | .pageRequestTimeout _, w => execPageRequestTimeout_keeps h w
  | .atsInvalidation _ _ _, w => execAtsInvalidation_keeps h w
  | .mailboxCommit _ _ _, w => execMailboxCommit_keeps h w
  | .mailboxAck _ _ _, w => execMailboxAck_keeps h w
  | .mailboxWithdraw _ _, w => execMailboxWithdraw_keeps h w
  | .mailboxTimeout _, w => execMailboxTimeout_keeps h w
  | .echo _, w => execEcho_keeps h w
  | .mbxDbClear _ _, w => execMbxDbClear_keeps h w
  | .mbxDbMaskWrite _ _, w => execMbxDbMaskWrite_keeps h w
  | .clockHold _ _, w => execClockHold_keeps h w
  | .holdLapse _, w => execHoldLapse_keeps h w
  | .heldAccessRelease _, w => execHeldAccessRelease_keeps h w
  | .trainingStart _ _, w => execTrainingStart_keeps h w
  | .trainingDone _ _, w => execTrainingDone_keeps h w
  | .trainingTimeout _, w => execTrainingTimeout_keeps h w
  | .fullHello _ _ _, w => execFullHello_keeps h w
  | .helloTimeout _, w => execHelloTimeout_keeps h w
  | .shortHello _ _, w => execShortHello_keeps h w
  | .helloReq _, w => execHelloReq_keeps h w
  | .helloTimer _, w => execHelloTimer_keeps h w
  | .linkReplay _ _, w => execLinkReplay_keeps h w
  | .laneFail _ _, w => execLaneFail_keeps h w
  | .laneDrop _ _ _, w => execLaneDrop_keeps h w
  | .goodbye _, w => execGoodbye_keeps h w
  | .partnerLoss _, w => execPartnerLoss_keeps h w
  | .retrain _ _, w => execRetrain_keeps h w
  | .portDisable _ _, w => execPortDisable_keeps h w
  | .msg _ _ _, w => execMsg_keeps h w
  | .chainWaitTimeout _, w => execChainWaitTimeout_keeps h w
  | .tierDue _ _ _, w => execTierDue_keeps h w
  | .tierOverdue _ _ _, w => execTierOverdue_keeps h w
  | .probePass _ _ _, w => execProbePass_keeps h w
  | .verifyRead _ _ _ _, w => execVerifyRead_keeps h w
  | .retuneSlot _ _ _ _, w => execRetuneSlot_keeps h w
  | .fullVerifySweep _, w => execFullVerifySweep_keeps h w
  | .sweepComplete, w => execSweepComplete_keeps h w
  | .calStart _ _ _, w => execCalStart_keeps h w
  | .calAbort _, w => execCalAbort_keeps h w
  | .calStep _, w => execCalStep_keeps h w
  | .recalibrationTrigger _, w => execRecalibrationTrigger_keeps h w
  | .mcvResult _ _, w => execMcvResult_keeps h w
  | .mcvResultRead _, w => execMcvResultRead_keeps h w
  | .mcvDropRead _, w => execMcvDropRead_keeps h w
  | .sensorSample _ _, w => execSensorSample_keeps h w
  | .powerInterval _ _, w => execPowerInterval_keeps h w
  | .capAlert, w => execCapAlert_keeps h w
  | .capAlertDeassert, w => execCapAlertDeassert_keeps h w
  | .trayCapSet _ _, w => execTrayCapSet_keeps h w
  | .scanStall _, w => execScanStall_keeps h w
  | .tripAck _ _, w => execTripAck_keeps h w
  | .idleGate _, w => execIdleGate_keeps h w
  | .courseNap _ _ _, w => execCourseNap_keeps h w
  | .pstateNap _ _, w => execPstateNap_keeps h w
  | .napEntryComplete, w => execNapEntryComplete_keeps h w
  | .pstateRest _ _, w => execPstateRest_keeps h w
  | .restEntry, w => execRestEntry_keeps h w
  | .pstateActive _ _, w => execPstateActive_keeps h w
  | .patrolScrub _ _, w => execPatrolScrub_keeps h w
  | .redundancyCompare _ _ _ _ _, w => execRedundancyCompare_keeps h w
  | .twinWaitExpiry _ _ _, w => execTwinWaitExpiry_keeps h w
  | .auditComparison _ _ _, w => execAuditComparison_keeps h w
  | .auditAbandon _ _, w => execAuditAbandon_keeps h w
  | .standAloneAudit _ _ _ _, w => execStandAloneAudit_keeps h w
  | .auditRollback _ _ _ _ _, w => execAuditRollback_keeps h w
  | .confirmation _ _ _, w => execConfirmation_keeps h w
  | .fieldTestStart _ _, w => execFieldTestStart_keeps h w
  | .fieldTestAbort _ _, w => execFieldTestAbort_keeps h w
  | .fieldTestDone _, w => execFieldTestDone_keeps h w
  | .faultReport _ _ _ _, w => execFaultReport_keeps h w
  | .aggregationWindowClose _, w => execAggregationWindowClose_keeps h w
  | .dieLogWrite, w => execDieLogWrite_keeps h w
  | .logRdWrite _ _, w => execLogRdWrite_keeps h w
  | .ffcClear _, w => execFfcClear_keeps h w
  | .stepWatchdog _ _, w => execStepWatchdog_keeps h w
  | .courseHeartbeatMiss _, w => execCourseHeartbeatMiss_keeps h w
  | .partitionHeartbeatMiss _, w => execPartitionHeartbeatMiss_keeps h w
  | .firmwareWatchdog, w => execFirmwareWatchdog_keeps h w
  | .resetOverrun _, w => execResetOverrun_keeps h w
  | .contextReset _ _ _, w => execContextReset_keeps h w
  | .courseReset _ _, w => execCourseReset_keeps h w
  | .courseResetComplete _, w => execCourseResetComplete_keeps h w
  | .partitionReset _ _, w => execPartitionReset_keeps h w
  | .chipReset _, w => execChipReset_keeps h w
  | .devReset, w => execDevReset_keeps h w
  | .resetNotice _ _, w => execResetNotice_keeps h w
  | .powerUp _, w => execPowerUp_keeps h w
  | .aonPowerOnReset, w => execAonPowerOnReset_keeps h w
  | .railExcursion _ _, w => execRailExcursion_keeps h w
  | .railRecovery _, w => execRailRecovery_keeps h w
  | .railExcursionTimeout _, w => execRailExcursionTimeout_keeps h w
  | .stackRailTimeout, w => execStackRailTimeout_keeps h w
  | .crystalLoss, w => execCrystalLoss_keeps h w
  | .refclkSysLoss, w => execRefclkSysLoss_keeps h w
  | .refclkSysRestore, w => execRefclkSysRestore_keeps h w
  | .pcieRefclkLoss _, w => execPcieRefclkLoss_keeps h w
  | .dynamicAddressAssignment _, w => execDynamicAddressAssignment_keeps h w
  | .firmwareInstall _ _ _, w => execFirmwareInstall_keeps h w
  | .commitSvn _, w => execCommitSvn_keeps h w
  | .stagedWrite _ _ _, w => execStagedWrite_keeps h w
  | .keyStage _ _ _, w => execKeyStage_keeps h w
  | .seal _, w => execSeal_keeps h w
  | .stageAbort _, w => execStageAbort_keeps h w
  | .configRollback _, w => execConfigRollback_keeps h w
  | .approve _ _, w => execApprove_keeps h w
  | .stageTimeout, w => execStageTimeout_keeps h w
  | .getStage _ _, w => execGetStage_keeps h w
  | .getNonce _, w => execGetNonce_keeps h w
  | .generationRecord, w => execGenerationRecord_keeps h w
  | .negotiateAlgorithms _ _, w => execNegotiateAlgorithms_keeps h w
  | .getMeasurements _ _ _ _, w => execGetMeasurements_keeps h w
  | .getCertificate _ _ _ _, w => execGetCertificate_keeps h w
  | .challenge _ _ _, w => execChallenge_keeps h w
  | .keyExchange _ _ _ _, w => execKeyExchange_keeps h w
  | .barMaxRead _, w => execBarMaxRead_keeps h w
  | .peakRead _, w => execPeakRead_keeps h w
  | .napExitComplete, w => execNapExitComplete_keeps h w
  | .crystalReturn, w => execCrystalReturn_keeps h w
  | .pcieLinkUp _ _ _ _ _, w => execPcieLinkUp_keeps h w
  | .devResetRelease, w => execDevResetRelease_keeps h w
  | .bar4Access _ _ _, w => execBar4Access_keeps h w
  | .atsTranslationCompletion _ _ _, w => execAtsTranslationCompletion_keeps h w

/-- What an idle nanosecond may change. -/
def tickFootprint : Nat := 0x400019c0000000000400000000004000000000000000000000000000000100000000000000078000000bfe000043f00000000000007e000e17de9
theorem tick_keeps {W : Nat} {s0 s : State} (h : Keeps W s0 s) (w : Within tickFootprint W) : Keeps W s0 s.tick := State.tick_keeps h w

end Sys2Proof.Machine
end

