-- ==== Sys2Proof/Laws/State.lean ====
section
/-! SUPPORT. Laws/State.lean: what each update of the state leaves as it was, one lemma for each field and update, and what the typed
parts of the state hold after they are set. -/
set_option Elab.async false
set_option linter.all false
namespace Sys2Proof.Machine


/-! `wr` -/

@[simp] theorem State.wr_pending (s : State) (f : Field) (i v : Nat) : (s.wr f i v).pending = s.pending := rfl
@[simp] theorem State.wr_time (s : State) (f : Field) (i v : Nat) : (s.wr f i v).time = s.time := rfl
@[simp] theorem State.wr_fresh (s : State) (f : Field) (i v : Nat) : (s.wr f i v).fresh = s.fresh := rfl
@[simp] theorem State.wr_out (s : State) (f : Field) (i v : Nat) : (s.wr f i v).out = s.out := rfl
@[simp] theorem State.wr_latches (s : State) (f : Field) (i v : Nat) : (s.wr f i v).latches = s.latches := rfl
@[simp] theorem State.wr_snapshots (s : State) (f : Field) (i v : Nat) : (s.wr f i v).snapshots = s.snapshots := rfl
@[simp] theorem State.wr_fault (s : State) (f : Field) (i v : Nat) : (s.wr f i v).fault = s.fault := rfl
@[simp] theorem State.wr_host (s : State) (f : Field) (i v : Nat) : (s.wr f i v).host = s.host := rfl
@[simp] theorem State.wr_mail (s : State) (f : Field) (i v : Nat) : (s.wr f i v).mail = s.mail := rfl
@[simp] theorem State.wr_serving (s : State) (f : Field) (i v : Nat) : (s.wr f i v).serving = s.serving := rfl
@[simp] theorem State.wr_loader (s : State) (f : Field) (i v : Nat) : (s.wr f i v).loader = s.loader := rfl
@[simp] theorem State.wr_arrays (s : State) (f : Field) (i v : Nat) : (s.wr f i v).arrays = s.arrays := rfl
@[simp] theorem State.wr_cells (s : State) (f : Field) (i v : Nat) : (s.wr f i v).cells = s.cells := rfl
@[simp] theorem State.wr_cores (s : State) (f : Field) (i v : Nat) : (s.wr f i v).cores = s.cores := rfl
@[simp] theorem State.wr_fabric (s : State) (f : Field) (i v : Nat) : (s.wr f i v).fabric = s.fabric := rfl
@[simp] theorem State.wr_link (s : State) (f : Field) (i v : Nat) : (s.wr f i v).link = s.link := rfl
@[simp] theorem State.wr_peg (s : State) (f : Field) (i v : Nat) : (s.wr f i v).peg = s.peg := rfl
@[simp] theorem State.wr_cal (s : State) (f : Field) (i v : Nat) : (s.wr f i v).cal = s.cal := rfl
@[simp] theorem State.wr_mcv (s : State) (f : Field) (i v : Nat) : (s.wr f i v).mcv = s.mcv := rfl
@[simp] theorem State.wr_thermal (s : State) (f : Field) (i v : Nat) : (s.wr f i v).thermal = s.thermal := rfl
@[simp] theorem State.wr_recovery (s : State) (f : Field) (i v : Nat) : (s.wr f i v).recovery = s.recovery := rfl
@[simp] theorem State.wr_sec (s : State) (f : Field) (i v : Nat) : (s.wr f i v).sec = s.sec := rfl
@[simp] theorem State.wr_board (s : State) (f : Field) (i v : Nat) : (s.wr f i v).board = s.board := rfl
@[simp] theorem State.wr_stack (s : State) (f : Field) (i v : Nat) : (s.wr f i v).stack = s.stack := rfl
@[simp] theorem State.wr_dsram (s : State) (f : Field) (i v : Nat) : (s.wr f i v).dsram = s.dsram := rfl
@[simp] theorem State.wr_tsram (s : State) (f : Field) (i v : Nat) : (s.wr f i v).tsram = s.tsram := rfl

/-! `bump` -/

@[simp] theorem State.bump_pending (s : State) (f : Field) (i n : Nat) : (s.bump f i n).pending = s.pending := rfl
@[simp] theorem State.bump_time (s : State) (f : Field) (i n : Nat) : (s.bump f i n).time = s.time := rfl
@[simp] theorem State.bump_fresh (s : State) (f : Field) (i n : Nat) : (s.bump f i n).fresh = s.fresh := rfl
@[simp] theorem State.bump_out (s : State) (f : Field) (i n : Nat) : (s.bump f i n).out = s.out := rfl
@[simp] theorem State.bump_latches (s : State) (f : Field) (i n : Nat) : (s.bump f i n).latches = s.latches := rfl
@[simp] theorem State.bump_snapshots (s : State) (f : Field) (i n : Nat) : (s.bump f i n).snapshots = s.snapshots := rfl
@[simp] theorem State.bump_fault (s : State) (f : Field) (i n : Nat) : (s.bump f i n).fault = s.fault := rfl
@[simp] theorem State.bump_host (s : State) (f : Field) (i n : Nat) : (s.bump f i n).host = s.host := rfl
@[simp] theorem State.bump_mail (s : State) (f : Field) (i n : Nat) : (s.bump f i n).mail = s.mail := rfl
@[simp] theorem State.bump_serving (s : State) (f : Field) (i n : Nat) : (s.bump f i n).serving = s.serving := rfl
@[simp] theorem State.bump_loader (s : State) (f : Field) (i n : Nat) : (s.bump f i n).loader = s.loader := rfl
@[simp] theorem State.bump_arrays (s : State) (f : Field) (i n : Nat) : (s.bump f i n).arrays = s.arrays := rfl
@[simp] theorem State.bump_cells (s : State) (f : Field) (i n : Nat) : (s.bump f i n).cells = s.cells := rfl
@[simp] theorem State.bump_cores (s : State) (f : Field) (i n : Nat) : (s.bump f i n).cores = s.cores := rfl
@[simp] theorem State.bump_fabric (s : State) (f : Field) (i n : Nat) : (s.bump f i n).fabric = s.fabric := rfl
@[simp] theorem State.bump_link (s : State) (f : Field) (i n : Nat) : (s.bump f i n).link = s.link := rfl
@[simp] theorem State.bump_peg (s : State) (f : Field) (i n : Nat) : (s.bump f i n).peg = s.peg := rfl
@[simp] theorem State.bump_cal (s : State) (f : Field) (i n : Nat) : (s.bump f i n).cal = s.cal := rfl
@[simp] theorem State.bump_mcv (s : State) (f : Field) (i n : Nat) : (s.bump f i n).mcv = s.mcv := rfl
@[simp] theorem State.bump_thermal (s : State) (f : Field) (i n : Nat) : (s.bump f i n).thermal = s.thermal := rfl
@[simp] theorem State.bump_recovery (s : State) (f : Field) (i n : Nat) : (s.bump f i n).recovery = s.recovery := rfl
@[simp] theorem State.bump_sec (s : State) (f : Field) (i n : Nat) : (s.bump f i n).sec = s.sec := rfl
@[simp] theorem State.bump_board (s : State) (f : Field) (i n : Nat) : (s.bump f i n).board = s.board := rfl
@[simp] theorem State.bump_stack (s : State) (f : Field) (i n : Nat) : (s.bump f i n).stack = s.stack := rfl
@[simp] theorem State.bump_dsram (s : State) (f : Field) (i n : Nat) : (s.bump f i n).dsram = s.dsram := rfl
@[simp] theorem State.bump_tsram (s : State) (f : Field) (i n : Nat) : (s.bump f i n).tsram = s.tsram := rfl

/-! `emit` -/

@[simp] theorem State.emit_pending (s : State) (o : Output) : (s.emit o).pending = s.pending := rfl
@[simp] theorem State.emit_time (s : State) (o : Output) : (s.emit o).time = s.time := rfl
@[simp] theorem State.emit_fresh (s : State) (o : Output) : (s.emit o).fresh = s.fresh := rfl
@[simp] theorem State.emit_regs (s : State) (o : Output) : (s.emit o).regs = s.regs := rfl
@[simp] theorem State.emit_latches (s : State) (o : Output) : (s.emit o).latches = s.latches := rfl
@[simp] theorem State.emit_snapshots (s : State) (o : Output) : (s.emit o).snapshots = s.snapshots := rfl
@[simp] theorem State.emit_fault (s : State) (o : Output) : (s.emit o).fault = s.fault := rfl
@[simp] theorem State.emit_host (s : State) (o : Output) : (s.emit o).host = s.host := rfl
@[simp] theorem State.emit_mail (s : State) (o : Output) : (s.emit o).mail = s.mail := rfl
@[simp] theorem State.emit_serving (s : State) (o : Output) : (s.emit o).serving = s.serving := rfl
@[simp] theorem State.emit_loader (s : State) (o : Output) : (s.emit o).loader = s.loader := rfl
@[simp] theorem State.emit_arrays (s : State) (o : Output) : (s.emit o).arrays = s.arrays := rfl
@[simp] theorem State.emit_cells (s : State) (o : Output) : (s.emit o).cells = s.cells := rfl
@[simp] theorem State.emit_cores (s : State) (o : Output) : (s.emit o).cores = s.cores := rfl
@[simp] theorem State.emit_fabric (s : State) (o : Output) : (s.emit o).fabric = s.fabric := rfl
@[simp] theorem State.emit_link (s : State) (o : Output) : (s.emit o).link = s.link := rfl
@[simp] theorem State.emit_peg (s : State) (o : Output) : (s.emit o).peg = s.peg := rfl
@[simp] theorem State.emit_cal (s : State) (o : Output) : (s.emit o).cal = s.cal := rfl
@[simp] theorem State.emit_mcv (s : State) (o : Output) : (s.emit o).mcv = s.mcv := rfl
@[simp] theorem State.emit_thermal (s : State) (o : Output) : (s.emit o).thermal = s.thermal := rfl
@[simp] theorem State.emit_recovery (s : State) (o : Output) : (s.emit o).recovery = s.recovery := rfl
@[simp] theorem State.emit_sec (s : State) (o : Output) : (s.emit o).sec = s.sec := rfl
@[simp] theorem State.emit_board (s : State) (o : Output) : (s.emit o).board = s.board := rfl
@[simp] theorem State.emit_stack (s : State) (o : Output) : (s.emit o).stack = s.stack := rfl
@[simp] theorem State.emit_dsram (s : State) (o : Output) : (s.emit o).dsram = s.dsram := rfl
@[simp] theorem State.emit_tsram (s : State) (o : Output) : (s.emit o).tsram = s.tsram := rfl
@[simp] theorem State.emit_rd (s : State) (o : Output) (g : Field) (j : Nat) : (s.emit o).rd g j = s.rd g j := rfl

/-! `stackWrite` -/

@[simp] theorem State.stackWrite_pending (s : State) (a : Nat) (l : List Byte) : (s.stackWrite a l).pending = s.pending := rfl
@[simp] theorem State.stackWrite_time (s : State) (a : Nat) (l : List Byte) : (s.stackWrite a l).time = s.time := rfl
@[simp] theorem State.stackWrite_fresh (s : State) (a : Nat) (l : List Byte) : (s.stackWrite a l).fresh = s.fresh := rfl
@[simp] theorem State.stackWrite_out (s : State) (a : Nat) (l : List Byte) : (s.stackWrite a l).out = s.out := rfl
@[simp] theorem State.stackWrite_regs (s : State) (a : Nat) (l : List Byte) : (s.stackWrite a l).regs = s.regs := rfl
@[simp] theorem State.stackWrite_latches (s : State) (a : Nat) (l : List Byte) : (s.stackWrite a l).latches = s.latches := rfl
@[simp] theorem State.stackWrite_snapshots (s : State) (a : Nat) (l : List Byte) : (s.stackWrite a l).snapshots = s.snapshots := rfl
@[simp] theorem State.stackWrite_fault (s : State) (a : Nat) (l : List Byte) : (s.stackWrite a l).fault = s.fault := rfl
@[simp] theorem State.stackWrite_host (s : State) (a : Nat) (l : List Byte) : (s.stackWrite a l).host = s.host := rfl
@[simp] theorem State.stackWrite_mail (s : State) (a : Nat) (l : List Byte) : (s.stackWrite a l).mail = s.mail := rfl
@[simp] theorem State.stackWrite_serving (s : State) (a : Nat) (l : List Byte) : (s.stackWrite a l).serving = s.serving := rfl
@[simp] theorem State.stackWrite_loader (s : State) (a : Nat) (l : List Byte) : (s.stackWrite a l).loader = s.loader := rfl
@[simp] theorem State.stackWrite_arrays (s : State) (a : Nat) (l : List Byte) : (s.stackWrite a l).arrays = s.arrays := rfl
@[simp] theorem State.stackWrite_cells (s : State) (a : Nat) (l : List Byte) : (s.stackWrite a l).cells = s.cells := rfl
@[simp] theorem State.stackWrite_cores (s : State) (a : Nat) (l : List Byte) : (s.stackWrite a l).cores = s.cores := rfl
@[simp] theorem State.stackWrite_fabric (s : State) (a : Nat) (l : List Byte) : (s.stackWrite a l).fabric = s.fabric := rfl
@[simp] theorem State.stackWrite_link (s : State) (a : Nat) (l : List Byte) : (s.stackWrite a l).link = s.link := rfl
@[simp] theorem State.stackWrite_peg (s : State) (a : Nat) (l : List Byte) : (s.stackWrite a l).peg = s.peg := rfl
@[simp] theorem State.stackWrite_cal (s : State) (a : Nat) (l : List Byte) : (s.stackWrite a l).cal = s.cal := rfl
@[simp] theorem State.stackWrite_mcv (s : State) (a : Nat) (l : List Byte) : (s.stackWrite a l).mcv = s.mcv := rfl
@[simp] theorem State.stackWrite_thermal (s : State) (a : Nat) (l : List Byte) : (s.stackWrite a l).thermal = s.thermal := rfl
@[simp] theorem State.stackWrite_recovery (s : State) (a : Nat) (l : List Byte) : (s.stackWrite a l).recovery = s.recovery := rfl
@[simp] theorem State.stackWrite_sec (s : State) (a : Nat) (l : List Byte) : (s.stackWrite a l).sec = s.sec := rfl
@[simp] theorem State.stackWrite_board (s : State) (a : Nat) (l : List Byte) : (s.stackWrite a l).board = s.board := rfl
@[simp] theorem State.stackWrite_dsram (s : State) (a : Nat) (l : List Byte) : (s.stackWrite a l).dsram = s.dsram := rfl
@[simp] theorem State.stackWrite_tsram (s : State) (a : Nat) (l : List Byte) : (s.stackWrite a l).tsram = s.tsram := rfl
@[simp] theorem State.stackWrite_rd (s : State) (a : Nat) (l : List Byte) (g : Field) (j : Nat) : (s.stackWrite a l).rd g j = s.rd g j := rfl

/-! `stackZero` -/

@[simp] theorem State.stackZero_pending (s : State) (a n : Nat) : (s.stackZero a n).pending = s.pending := rfl
@[simp] theorem State.stackZero_time (s : State) (a n : Nat) : (s.stackZero a n).time = s.time := rfl
@[simp] theorem State.stackZero_fresh (s : State) (a n : Nat) : (s.stackZero a n).fresh = s.fresh := rfl
@[simp] theorem State.stackZero_out (s : State) (a n : Nat) : (s.stackZero a n).out = s.out := rfl
@[simp] theorem State.stackZero_regs (s : State) (a n : Nat) : (s.stackZero a n).regs = s.regs := rfl
@[simp] theorem State.stackZero_latches (s : State) (a n : Nat) : (s.stackZero a n).latches = s.latches := rfl
@[simp] theorem State.stackZero_snapshots (s : State) (a n : Nat) : (s.stackZero a n).snapshots = s.snapshots := rfl
@[simp] theorem State.stackZero_fault (s : State) (a n : Nat) : (s.stackZero a n).fault = s.fault := rfl
@[simp] theorem State.stackZero_host (s : State) (a n : Nat) : (s.stackZero a n).host = s.host := rfl
@[simp] theorem State.stackZero_mail (s : State) (a n : Nat) : (s.stackZero a n).mail = s.mail := rfl
@[simp] theorem State.stackZero_serving (s : State) (a n : Nat) : (s.stackZero a n).serving = s.serving := rfl
@[simp] theorem State.stackZero_loader (s : State) (a n : Nat) : (s.stackZero a n).loader = s.loader := rfl
@[simp] theorem State.stackZero_arrays (s : State) (a n : Nat) : (s.stackZero a n).arrays = s.arrays := rfl
@[simp] theorem State.stackZero_cells (s : State) (a n : Nat) : (s.stackZero a n).cells = s.cells := rfl
@[simp] theorem State.stackZero_cores (s : State) (a n : Nat) : (s.stackZero a n).cores = s.cores := rfl
@[simp] theorem State.stackZero_fabric (s : State) (a n : Nat) : (s.stackZero a n).fabric = s.fabric := rfl
@[simp] theorem State.stackZero_link (s : State) (a n : Nat) : (s.stackZero a n).link = s.link := rfl
@[simp] theorem State.stackZero_peg (s : State) (a n : Nat) : (s.stackZero a n).peg = s.peg := rfl
@[simp] theorem State.stackZero_cal (s : State) (a n : Nat) : (s.stackZero a n).cal = s.cal := rfl
@[simp] theorem State.stackZero_mcv (s : State) (a n : Nat) : (s.stackZero a n).mcv = s.mcv := rfl
@[simp] theorem State.stackZero_thermal (s : State) (a n : Nat) : (s.stackZero a n).thermal = s.thermal := rfl
@[simp] theorem State.stackZero_recovery (s : State) (a n : Nat) : (s.stackZero a n).recovery = s.recovery := rfl
@[simp] theorem State.stackZero_sec (s : State) (a n : Nat) : (s.stackZero a n).sec = s.sec := rfl
@[simp] theorem State.stackZero_board (s : State) (a n : Nat) : (s.stackZero a n).board = s.board := rfl
@[simp] theorem State.stackZero_dsram (s : State) (a n : Nat) : (s.stackZero a n).dsram = s.dsram := rfl
@[simp] theorem State.stackZero_tsram (s : State) (a n : Nat) : (s.stackZero a n).tsram = s.tsram := rfl
@[simp] theorem State.stackZero_rd (s : State) (a n : Nat) (g : Field) (j : Nat) : (s.stackZero a n).rd g j = s.rd g j := rfl

/-! `dataWrite` -/

@[simp] theorem State.dataWrite_pending (s : State) (k a : Nat) (l : List Byte) : (s.dataWrite k a l).pending = s.pending := rfl
@[simp] theorem State.dataWrite_time (s : State) (k a : Nat) (l : List Byte) : (s.dataWrite k a l).time = s.time := rfl
@[simp] theorem State.dataWrite_fresh (s : State) (k a : Nat) (l : List Byte) : (s.dataWrite k a l).fresh = s.fresh := rfl
@[simp] theorem State.dataWrite_out (s : State) (k a : Nat) (l : List Byte) : (s.dataWrite k a l).out = s.out := rfl
@[simp] theorem State.dataWrite_regs (s : State) (k a : Nat) (l : List Byte) : (s.dataWrite k a l).regs = s.regs := rfl
@[simp] theorem State.dataWrite_latches (s : State) (k a : Nat) (l : List Byte) : (s.dataWrite k a l).latches = s.latches := rfl
@[simp] theorem State.dataWrite_snapshots (s : State) (k a : Nat) (l : List Byte) : (s.dataWrite k a l).snapshots = s.snapshots := rfl
@[simp] theorem State.dataWrite_fault (s : State) (k a : Nat) (l : List Byte) : (s.dataWrite k a l).fault = s.fault := rfl
@[simp] theorem State.dataWrite_host (s : State) (k a : Nat) (l : List Byte) : (s.dataWrite k a l).host = s.host := rfl
@[simp] theorem State.dataWrite_mail (s : State) (k a : Nat) (l : List Byte) : (s.dataWrite k a l).mail = s.mail := rfl
@[simp] theorem State.dataWrite_serving (s : State) (k a : Nat) (l : List Byte) : (s.dataWrite k a l).serving = s.serving := rfl
@[simp] theorem State.dataWrite_loader (s : State) (k a : Nat) (l : List Byte) : (s.dataWrite k a l).loader = s.loader := rfl
@[simp] theorem State.dataWrite_arrays (s : State) (k a : Nat) (l : List Byte) : (s.dataWrite k a l).arrays = s.arrays := rfl
@[simp] theorem State.dataWrite_cells (s : State) (k a : Nat) (l : List Byte) : (s.dataWrite k a l).cells = s.cells := rfl
@[simp] theorem State.dataWrite_cores (s : State) (k a : Nat) (l : List Byte) : (s.dataWrite k a l).cores = s.cores := rfl
@[simp] theorem State.dataWrite_fabric (s : State) (k a : Nat) (l : List Byte) : (s.dataWrite k a l).fabric = s.fabric := rfl
@[simp] theorem State.dataWrite_link (s : State) (k a : Nat) (l : List Byte) : (s.dataWrite k a l).link = s.link := rfl
@[simp] theorem State.dataWrite_peg (s : State) (k a : Nat) (l : List Byte) : (s.dataWrite k a l).peg = s.peg := rfl
@[simp] theorem State.dataWrite_cal (s : State) (k a : Nat) (l : List Byte) : (s.dataWrite k a l).cal = s.cal := rfl
@[simp] theorem State.dataWrite_mcv (s : State) (k a : Nat) (l : List Byte) : (s.dataWrite k a l).mcv = s.mcv := rfl
@[simp] theorem State.dataWrite_thermal (s : State) (k a : Nat) (l : List Byte) : (s.dataWrite k a l).thermal = s.thermal := rfl
@[simp] theorem State.dataWrite_recovery (s : State) (k a : Nat) (l : List Byte) : (s.dataWrite k a l).recovery = s.recovery := rfl
@[simp] theorem State.dataWrite_sec (s : State) (k a : Nat) (l : List Byte) : (s.dataWrite k a l).sec = s.sec := rfl
@[simp] theorem State.dataWrite_board (s : State) (k a : Nat) (l : List Byte) : (s.dataWrite k a l).board = s.board := rfl
@[simp] theorem State.dataWrite_stack (s : State) (k a : Nat) (l : List Byte) : (s.dataWrite k a l).stack = s.stack := rfl
@[simp] theorem State.dataWrite_tsram (s : State) (k a : Nat) (l : List Byte) : (s.dataWrite k a l).tsram = s.tsram := rfl
@[simp] theorem State.dataWrite_rd (s : State) (k a : Nat) (l : List Byte) (g : Field) (j : Nat) : (s.dataWrite k a l).rd g j = s.rd g j := rfl

/-! `tabWrite` -/

@[simp] theorem State.tabWrite_pending (s : State) (k a : Nat) (l : List Byte) : (s.tabWrite k a l).pending = s.pending := rfl
@[simp] theorem State.tabWrite_time (s : State) (k a : Nat) (l : List Byte) : (s.tabWrite k a l).time = s.time := rfl
@[simp] theorem State.tabWrite_fresh (s : State) (k a : Nat) (l : List Byte) : (s.tabWrite k a l).fresh = s.fresh := rfl
@[simp] theorem State.tabWrite_out (s : State) (k a : Nat) (l : List Byte) : (s.tabWrite k a l).out = s.out := rfl
@[simp] theorem State.tabWrite_regs (s : State) (k a : Nat) (l : List Byte) : (s.tabWrite k a l).regs = s.regs := rfl
@[simp] theorem State.tabWrite_latches (s : State) (k a : Nat) (l : List Byte) : (s.tabWrite k a l).latches = s.latches := rfl
@[simp] theorem State.tabWrite_snapshots (s : State) (k a : Nat) (l : List Byte) : (s.tabWrite k a l).snapshots = s.snapshots := rfl
@[simp] theorem State.tabWrite_fault (s : State) (k a : Nat) (l : List Byte) : (s.tabWrite k a l).fault = s.fault := rfl
@[simp] theorem State.tabWrite_host (s : State) (k a : Nat) (l : List Byte) : (s.tabWrite k a l).host = s.host := rfl
@[simp] theorem State.tabWrite_mail (s : State) (k a : Nat) (l : List Byte) : (s.tabWrite k a l).mail = s.mail := rfl
@[simp] theorem State.tabWrite_serving (s : State) (k a : Nat) (l : List Byte) : (s.tabWrite k a l).serving = s.serving := rfl
@[simp] theorem State.tabWrite_loader (s : State) (k a : Nat) (l : List Byte) : (s.tabWrite k a l).loader = s.loader := rfl
@[simp] theorem State.tabWrite_arrays (s : State) (k a : Nat) (l : List Byte) : (s.tabWrite k a l).arrays = s.arrays := rfl
@[simp] theorem State.tabWrite_cells (s : State) (k a : Nat) (l : List Byte) : (s.tabWrite k a l).cells = s.cells := rfl
@[simp] theorem State.tabWrite_cores (s : State) (k a : Nat) (l : List Byte) : (s.tabWrite k a l).cores = s.cores := rfl
@[simp] theorem State.tabWrite_fabric (s : State) (k a : Nat) (l : List Byte) : (s.tabWrite k a l).fabric = s.fabric := rfl
@[simp] theorem State.tabWrite_link (s : State) (k a : Nat) (l : List Byte) : (s.tabWrite k a l).link = s.link := rfl
@[simp] theorem State.tabWrite_peg (s : State) (k a : Nat) (l : List Byte) : (s.tabWrite k a l).peg = s.peg := rfl
@[simp] theorem State.tabWrite_cal (s : State) (k a : Nat) (l : List Byte) : (s.tabWrite k a l).cal = s.cal := rfl
@[simp] theorem State.tabWrite_mcv (s : State) (k a : Nat) (l : List Byte) : (s.tabWrite k a l).mcv = s.mcv := rfl
@[simp] theorem State.tabWrite_thermal (s : State) (k a : Nat) (l : List Byte) : (s.tabWrite k a l).thermal = s.thermal := rfl
@[simp] theorem State.tabWrite_recovery (s : State) (k a : Nat) (l : List Byte) : (s.tabWrite k a l).recovery = s.recovery := rfl
@[simp] theorem State.tabWrite_sec (s : State) (k a : Nat) (l : List Byte) : (s.tabWrite k a l).sec = s.sec := rfl
@[simp] theorem State.tabWrite_board (s : State) (k a : Nat) (l : List Byte) : (s.tabWrite k a l).board = s.board := rfl
@[simp] theorem State.tabWrite_stack (s : State) (k a : Nat) (l : List Byte) : (s.tabWrite k a l).stack = s.stack := rfl
@[simp] theorem State.tabWrite_dsram (s : State) (k a : Nat) (l : List Byte) : (s.tabWrite k a l).dsram = s.dsram := rfl
@[simp] theorem State.tabWrite_rd (s : State) (k a : Nat) (l : List Byte) (g : Field) (j : Nat) : (s.tabWrite k a l).rd g j = s.rd g j := rfl

/-! `clearData` -/

@[simp] theorem State.clearData_pending (s : State) (k : Nat) : (s.clearData k).pending = s.pending := rfl
@[simp] theorem State.clearData_time (s : State) (k : Nat) : (s.clearData k).time = s.time := rfl
@[simp] theorem State.clearData_fresh (s : State) (k : Nat) : (s.clearData k).fresh = s.fresh := rfl
@[simp] theorem State.clearData_out (s : State) (k : Nat) : (s.clearData k).out = s.out := rfl
@[simp] theorem State.clearData_regs (s : State) (k : Nat) : (s.clearData k).regs = s.regs := rfl
@[simp] theorem State.clearData_latches (s : State) (k : Nat) : (s.clearData k).latches = s.latches := rfl
@[simp] theorem State.clearData_snapshots (s : State) (k : Nat) : (s.clearData k).snapshots = s.snapshots := rfl
@[simp] theorem State.clearData_fault (s : State) (k : Nat) : (s.clearData k).fault = s.fault := rfl
@[simp] theorem State.clearData_host (s : State) (k : Nat) : (s.clearData k).host = s.host := rfl
@[simp] theorem State.clearData_mail (s : State) (k : Nat) : (s.clearData k).mail = s.mail := rfl
@[simp] theorem State.clearData_serving (s : State) (k : Nat) : (s.clearData k).serving = s.serving := rfl
@[simp] theorem State.clearData_loader (s : State) (k : Nat) : (s.clearData k).loader = s.loader := rfl
@[simp] theorem State.clearData_arrays (s : State) (k : Nat) : (s.clearData k).arrays = s.arrays := rfl
@[simp] theorem State.clearData_cells (s : State) (k : Nat) : (s.clearData k).cells = s.cells := rfl
@[simp] theorem State.clearData_cores (s : State) (k : Nat) : (s.clearData k).cores = s.cores := rfl
@[simp] theorem State.clearData_fabric (s : State) (k : Nat) : (s.clearData k).fabric = s.fabric := rfl
@[simp] theorem State.clearData_link (s : State) (k : Nat) : (s.clearData k).link = s.link := rfl
@[simp] theorem State.clearData_peg (s : State) (k : Nat) : (s.clearData k).peg = s.peg := rfl
@[simp] theorem State.clearData_cal (s : State) (k : Nat) : (s.clearData k).cal = s.cal := rfl
@[simp] theorem State.clearData_mcv (s : State) (k : Nat) : (s.clearData k).mcv = s.mcv := rfl
@[simp] theorem State.clearData_thermal (s : State) (k : Nat) : (s.clearData k).thermal = s.thermal := rfl
@[simp] theorem State.clearData_recovery (s : State) (k : Nat) : (s.clearData k).recovery = s.recovery := rfl
@[simp] theorem State.clearData_sec (s : State) (k : Nat) : (s.clearData k).sec = s.sec := rfl
@[simp] theorem State.clearData_board (s : State) (k : Nat) : (s.clearData k).board = s.board := rfl
@[simp] theorem State.clearData_stack (s : State) (k : Nat) : (s.clearData k).stack = s.stack := rfl
@[simp] theorem State.clearData_tsram (s : State) (k : Nat) : (s.clearData k).tsram = s.tsram := rfl
@[simp] theorem State.clearData_rd (s : State) (k : Nat) (g : Field) (j : Nat) : (s.clearData k).rd g j = s.rd g j := rfl

/-! `clearTab` -/

@[simp] theorem State.clearTab_pending (s : State) (k : Nat) : (s.clearTab k).pending = s.pending := rfl
@[simp] theorem State.clearTab_time (s : State) (k : Nat) : (s.clearTab k).time = s.time := rfl
@[simp] theorem State.clearTab_fresh (s : State) (k : Nat) : (s.clearTab k).fresh = s.fresh := rfl
@[simp] theorem State.clearTab_out (s : State) (k : Nat) : (s.clearTab k).out = s.out := rfl
@[simp] theorem State.clearTab_regs (s : State) (k : Nat) : (s.clearTab k).regs = s.regs := rfl
@[simp] theorem State.clearTab_latches (s : State) (k : Nat) : (s.clearTab k).latches = s.latches := rfl
@[simp] theorem State.clearTab_snapshots (s : State) (k : Nat) : (s.clearTab k).snapshots = s.snapshots := rfl
@[simp] theorem State.clearTab_fault (s : State) (k : Nat) : (s.clearTab k).fault = s.fault := rfl
@[simp] theorem State.clearTab_host (s : State) (k : Nat) : (s.clearTab k).host = s.host := rfl
@[simp] theorem State.clearTab_mail (s : State) (k : Nat) : (s.clearTab k).mail = s.mail := rfl
@[simp] theorem State.clearTab_serving (s : State) (k : Nat) : (s.clearTab k).serving = s.serving := rfl
@[simp] theorem State.clearTab_loader (s : State) (k : Nat) : (s.clearTab k).loader = s.loader := rfl
@[simp] theorem State.clearTab_arrays (s : State) (k : Nat) : (s.clearTab k).arrays = s.arrays := rfl
@[simp] theorem State.clearTab_cells (s : State) (k : Nat) : (s.clearTab k).cells = s.cells := rfl
@[simp] theorem State.clearTab_cores (s : State) (k : Nat) : (s.clearTab k).cores = s.cores := rfl
@[simp] theorem State.clearTab_fabric (s : State) (k : Nat) : (s.clearTab k).fabric = s.fabric := rfl
@[simp] theorem State.clearTab_link (s : State) (k : Nat) : (s.clearTab k).link = s.link := rfl
@[simp] theorem State.clearTab_peg (s : State) (k : Nat) : (s.clearTab k).peg = s.peg := rfl
@[simp] theorem State.clearTab_cal (s : State) (k : Nat) : (s.clearTab k).cal = s.cal := rfl
@[simp] theorem State.clearTab_mcv (s : State) (k : Nat) : (s.clearTab k).mcv = s.mcv := rfl
@[simp] theorem State.clearTab_thermal (s : State) (k : Nat) : (s.clearTab k).thermal = s.thermal := rfl
@[simp] theorem State.clearTab_recovery (s : State) (k : Nat) : (s.clearTab k).recovery = s.recovery := rfl
@[simp] theorem State.clearTab_sec (s : State) (k : Nat) : (s.clearTab k).sec = s.sec := rfl
@[simp] theorem State.clearTab_board (s : State) (k : Nat) : (s.clearTab k).board = s.board := rfl
@[simp] theorem State.clearTab_stack (s : State) (k : Nat) : (s.clearTab k).stack = s.stack := rfl
@[simp] theorem State.clearTab_dsram (s : State) (k : Nat) : (s.clearTab k).dsram = s.dsram := rfl
@[simp] theorem State.clearTab_rd (s : State) (k : Nat) (g : Field) (j : Nat) : (s.clearTab k).rd g j = s.rd g j := rfl

/-! `setArray` -/

@[simp] theorem State.setArray_pending (s : State) (k : Nat) (x : ArrayState) : (s.setArray k x).pending = s.pending := rfl
@[simp] theorem State.setArray_time (s : State) (k : Nat) (x : ArrayState) : (s.setArray k x).time = s.time := rfl
@[simp] theorem State.setArray_fresh (s : State) (k : Nat) (x : ArrayState) : (s.setArray k x).fresh = s.fresh := rfl
@[simp] theorem State.setArray_out (s : State) (k : Nat) (x : ArrayState) : (s.setArray k x).out = s.out := rfl
@[simp] theorem State.setArray_regs (s : State) (k : Nat) (x : ArrayState) : (s.setArray k x).regs = s.regs := rfl
@[simp] theorem State.setArray_latches (s : State) (k : Nat) (x : ArrayState) : (s.setArray k x).latches = s.latches := rfl
@[simp] theorem State.setArray_snapshots (s : State) (k : Nat) (x : ArrayState) : (s.setArray k x).snapshots = s.snapshots := rfl
@[simp] theorem State.setArray_fault (s : State) (k : Nat) (x : ArrayState) : (s.setArray k x).fault = s.fault := rfl
@[simp] theorem State.setArray_host (s : State) (k : Nat) (x : ArrayState) : (s.setArray k x).host = s.host := rfl
@[simp] theorem State.setArray_mail (s : State) (k : Nat) (x : ArrayState) : (s.setArray k x).mail = s.mail := rfl
@[simp] theorem State.setArray_serving (s : State) (k : Nat) (x : ArrayState) : (s.setArray k x).serving = s.serving := rfl
@[simp] theorem State.setArray_loader (s : State) (k : Nat) (x : ArrayState) : (s.setArray k x).loader = s.loader := rfl
@[simp] theorem State.setArray_cells (s : State) (k : Nat) (x : ArrayState) : (s.setArray k x).cells = s.cells := rfl
@[simp] theorem State.setArray_cores (s : State) (k : Nat) (x : ArrayState) : (s.setArray k x).cores = s.cores := rfl
@[simp] theorem State.setArray_fabric (s : State) (k : Nat) (x : ArrayState) : (s.setArray k x).fabric = s.fabric := rfl
@[simp] theorem State.setArray_link (s : State) (k : Nat) (x : ArrayState) : (s.setArray k x).link = s.link := rfl
@[simp] theorem State.setArray_peg (s : State) (k : Nat) (x : ArrayState) : (s.setArray k x).peg = s.peg := rfl
@[simp] theorem State.setArray_cal (s : State) (k : Nat) (x : ArrayState) : (s.setArray k x).cal = s.cal := rfl
@[simp] theorem State.setArray_mcv (s : State) (k : Nat) (x : ArrayState) : (s.setArray k x).mcv = s.mcv := rfl
@[simp] theorem State.setArray_thermal (s : State) (k : Nat) (x : ArrayState) : (s.setArray k x).thermal = s.thermal := rfl
@[simp] theorem State.setArray_recovery (s : State) (k : Nat) (x : ArrayState) : (s.setArray k x).recovery = s.recovery := rfl
@[simp] theorem State.setArray_sec (s : State) (k : Nat) (x : ArrayState) : (s.setArray k x).sec = s.sec := rfl
@[simp] theorem State.setArray_board (s : State) (k : Nat) (x : ArrayState) : (s.setArray k x).board = s.board := rfl
@[simp] theorem State.setArray_stack (s : State) (k : Nat) (x : ArrayState) : (s.setArray k x).stack = s.stack := rfl
@[simp] theorem State.setArray_dsram (s : State) (k : Nat) (x : ArrayState) : (s.setArray k x).dsram = s.dsram := rfl
@[simp] theorem State.setArray_tsram (s : State) (k : Nat) (x : ArrayState) : (s.setArray k x).tsram = s.tsram := rfl
@[simp] theorem State.setArray_rd (s : State) (k : Nat) (x : ArrayState) (g : Field) (j : Nat) : (s.setArray k x).rd g j = s.rd g j := rfl

/-! `setCore` -/

@[simp] theorem State.setCore_pending (s : State) (k : Nat) (x : CoreState) : (s.setCore k x).pending = s.pending := rfl
@[simp] theorem State.setCore_time (s : State) (k : Nat) (x : CoreState) : (s.setCore k x).time = s.time := rfl
@[simp] theorem State.setCore_fresh (s : State) (k : Nat) (x : CoreState) : (s.setCore k x).fresh = s.fresh := rfl
@[simp] theorem State.setCore_out (s : State) (k : Nat) (x : CoreState) : (s.setCore k x).out = s.out := rfl
@[simp] theorem State.setCore_regs (s : State) (k : Nat) (x : CoreState) : (s.setCore k x).regs = s.regs := rfl
@[simp] theorem State.setCore_latches (s : State) (k : Nat) (x : CoreState) : (s.setCore k x).latches = s.latches := rfl
@[simp] theorem State.setCore_snapshots (s : State) (k : Nat) (x : CoreState) : (s.setCore k x).snapshots = s.snapshots := rfl
@[simp] theorem State.setCore_fault (s : State) (k : Nat) (x : CoreState) : (s.setCore k x).fault = s.fault := rfl
@[simp] theorem State.setCore_host (s : State) (k : Nat) (x : CoreState) : (s.setCore k x).host = s.host := rfl
@[simp] theorem State.setCore_mail (s : State) (k : Nat) (x : CoreState) : (s.setCore k x).mail = s.mail := rfl
@[simp] theorem State.setCore_serving (s : State) (k : Nat) (x : CoreState) : (s.setCore k x).serving = s.serving := rfl
@[simp] theorem State.setCore_loader (s : State) (k : Nat) (x : CoreState) : (s.setCore k x).loader = s.loader := rfl
@[simp] theorem State.setCore_arrays (s : State) (k : Nat) (x : CoreState) : (s.setCore k x).arrays = s.arrays := rfl
@[simp] theorem State.setCore_cells (s : State) (k : Nat) (x : CoreState) : (s.setCore k x).cells = s.cells := rfl
@[simp] theorem State.setCore_fabric (s : State) (k : Nat) (x : CoreState) : (s.setCore k x).fabric = s.fabric := rfl
@[simp] theorem State.setCore_link (s : State) (k : Nat) (x : CoreState) : (s.setCore k x).link = s.link := rfl
@[simp] theorem State.setCore_peg (s : State) (k : Nat) (x : CoreState) : (s.setCore k x).peg = s.peg := rfl
@[simp] theorem State.setCore_cal (s : State) (k : Nat) (x : CoreState) : (s.setCore k x).cal = s.cal := rfl
@[simp] theorem State.setCore_mcv (s : State) (k : Nat) (x : CoreState) : (s.setCore k x).mcv = s.mcv := rfl
@[simp] theorem State.setCore_thermal (s : State) (k : Nat) (x : CoreState) : (s.setCore k x).thermal = s.thermal := rfl
@[simp] theorem State.setCore_recovery (s : State) (k : Nat) (x : CoreState) : (s.setCore k x).recovery = s.recovery := rfl
@[simp] theorem State.setCore_sec (s : State) (k : Nat) (x : CoreState) : (s.setCore k x).sec = s.sec := rfl
@[simp] theorem State.setCore_board (s : State) (k : Nat) (x : CoreState) : (s.setCore k x).board = s.board := rfl
@[simp] theorem State.setCore_stack (s : State) (k : Nat) (x : CoreState) : (s.setCore k x).stack = s.stack := rfl
@[simp] theorem State.setCore_dsram (s : State) (k : Nat) (x : CoreState) : (s.setCore k x).dsram = s.dsram := rfl
@[simp] theorem State.setCore_tsram (s : State) (k : Nat) (x : CoreState) : (s.setCore k x).tsram = s.tsram := rfl
@[simp] theorem State.setCore_rd (s : State) (k : Nat) (x : CoreState) (g : Field) (j : Nat) : (s.setCore k x).rd g j = s.rd g j := rfl

/-! `setRouter` -/

@[simp] theorem State.setRouter_pending (s : State) (k : Nat) (x : RouterState) : (s.setRouter k x).pending = s.pending := rfl
@[simp] theorem State.setRouter_time (s : State) (k : Nat) (x : RouterState) : (s.setRouter k x).time = s.time := rfl
@[simp] theorem State.setRouter_fresh (s : State) (k : Nat) (x : RouterState) : (s.setRouter k x).fresh = s.fresh := rfl
@[simp] theorem State.setRouter_out (s : State) (k : Nat) (x : RouterState) : (s.setRouter k x).out = s.out := rfl
@[simp] theorem State.setRouter_regs (s : State) (k : Nat) (x : RouterState) : (s.setRouter k x).regs = s.regs := rfl
@[simp] theorem State.setRouter_latches (s : State) (k : Nat) (x : RouterState) : (s.setRouter k x).latches = s.latches := rfl
@[simp] theorem State.setRouter_snapshots (s : State) (k : Nat) (x : RouterState) : (s.setRouter k x).snapshots = s.snapshots := rfl
@[simp] theorem State.setRouter_fault (s : State) (k : Nat) (x : RouterState) : (s.setRouter k x).fault = s.fault := rfl
@[simp] theorem State.setRouter_host (s : State) (k : Nat) (x : RouterState) : (s.setRouter k x).host = s.host := rfl
@[simp] theorem State.setRouter_mail (s : State) (k : Nat) (x : RouterState) : (s.setRouter k x).mail = s.mail := rfl
@[simp] theorem State.setRouter_serving (s : State) (k : Nat) (x : RouterState) : (s.setRouter k x).serving = s.serving := rfl
@[simp] theorem State.setRouter_loader (s : State) (k : Nat) (x : RouterState) : (s.setRouter k x).loader = s.loader := rfl
@[simp] theorem State.setRouter_arrays (s : State) (k : Nat) (x : RouterState) : (s.setRouter k x).arrays = s.arrays := rfl
@[simp] theorem State.setRouter_cells (s : State) (k : Nat) (x : RouterState) : (s.setRouter k x).cells = s.cells := rfl
@[simp] theorem State.setRouter_cores (s : State) (k : Nat) (x : RouterState) : (s.setRouter k x).cores = s.cores := rfl
@[simp] theorem State.setRouter_link (s : State) (k : Nat) (x : RouterState) : (s.setRouter k x).link = s.link := rfl
@[simp] theorem State.setRouter_peg (s : State) (k : Nat) (x : RouterState) : (s.setRouter k x).peg = s.peg := rfl
@[simp] theorem State.setRouter_cal (s : State) (k : Nat) (x : RouterState) : (s.setRouter k x).cal = s.cal := rfl
@[simp] theorem State.setRouter_mcv (s : State) (k : Nat) (x : RouterState) : (s.setRouter k x).mcv = s.mcv := rfl
@[simp] theorem State.setRouter_thermal (s : State) (k : Nat) (x : RouterState) : (s.setRouter k x).thermal = s.thermal := rfl
@[simp] theorem State.setRouter_recovery (s : State) (k : Nat) (x : RouterState) : (s.setRouter k x).recovery = s.recovery := rfl
@[simp] theorem State.setRouter_sec (s : State) (k : Nat) (x : RouterState) : (s.setRouter k x).sec = s.sec := rfl
@[simp] theorem State.setRouter_board (s : State) (k : Nat) (x : RouterState) : (s.setRouter k x).board = s.board := rfl
@[simp] theorem State.setRouter_stack (s : State) (k : Nat) (x : RouterState) : (s.setRouter k x).stack = s.stack := rfl
@[simp] theorem State.setRouter_dsram (s : State) (k : Nat) (x : RouterState) : (s.setRouter k x).dsram = s.dsram := rfl
@[simp] theorem State.setRouter_tsram (s : State) (k : Nat) (x : RouterState) : (s.setRouter k x).tsram = s.tsram := rfl
@[simp] theorem State.setRouter_rd (s : State) (k : Nat) (x : RouterState) (g : Field) (j : Nat) : (s.setRouter k x).rd g j = s.rd g j := rfl

/-! `setRequest` -/

@[simp] theorem State.setRequest_pending (s : State) (k : Nat) (x : Request) : (s.setRequest k x).pending = s.pending := rfl
@[simp] theorem State.setRequest_time (s : State) (k : Nat) (x : Request) : (s.setRequest k x).time = s.time := rfl
@[simp] theorem State.setRequest_fresh (s : State) (k : Nat) (x : Request) : (s.setRequest k x).fresh = s.fresh := rfl
@[simp] theorem State.setRequest_out (s : State) (k : Nat) (x : Request) : (s.setRequest k x).out = s.out := rfl
@[simp] theorem State.setRequest_regs (s : State) (k : Nat) (x : Request) : (s.setRequest k x).regs = s.regs := rfl
@[simp] theorem State.setRequest_latches (s : State) (k : Nat) (x : Request) : (s.setRequest k x).latches = s.latches := rfl
@[simp] theorem State.setRequest_snapshots (s : State) (k : Nat) (x : Request) : (s.setRequest k x).snapshots = s.snapshots := rfl
@[simp] theorem State.setRequest_fault (s : State) (k : Nat) (x : Request) : (s.setRequest k x).fault = s.fault := rfl
@[simp] theorem State.setRequest_host (s : State) (k : Nat) (x : Request) : (s.setRequest k x).host = s.host := rfl
@[simp] theorem State.setRequest_mail (s : State) (k : Nat) (x : Request) : (s.setRequest k x).mail = s.mail := rfl
@[simp] theorem State.setRequest_loader (s : State) (k : Nat) (x : Request) : (s.setRequest k x).loader = s.loader := rfl
@[simp] theorem State.setRequest_arrays (s : State) (k : Nat) (x : Request) : (s.setRequest k x).arrays = s.arrays := rfl
@[simp] theorem State.setRequest_cells (s : State) (k : Nat) (x : Request) : (s.setRequest k x).cells = s.cells := rfl
@[simp] theorem State.setRequest_cores (s : State) (k : Nat) (x : Request) : (s.setRequest k x).cores = s.cores := rfl
@[simp] theorem State.setRequest_fabric (s : State) (k : Nat) (x : Request) : (s.setRequest k x).fabric = s.fabric := rfl
@[simp] theorem State.setRequest_link (s : State) (k : Nat) (x : Request) : (s.setRequest k x).link = s.link := rfl
@[simp] theorem State.setRequest_peg (s : State) (k : Nat) (x : Request) : (s.setRequest k x).peg = s.peg := rfl
@[simp] theorem State.setRequest_cal (s : State) (k : Nat) (x : Request) : (s.setRequest k x).cal = s.cal := rfl
@[simp] theorem State.setRequest_mcv (s : State) (k : Nat) (x : Request) : (s.setRequest k x).mcv = s.mcv := rfl
@[simp] theorem State.setRequest_thermal (s : State) (k : Nat) (x : Request) : (s.setRequest k x).thermal = s.thermal := rfl
@[simp] theorem State.setRequest_recovery (s : State) (k : Nat) (x : Request) : (s.setRequest k x).recovery = s.recovery := rfl
@[simp] theorem State.setRequest_sec (s : State) (k : Nat) (x : Request) : (s.setRequest k x).sec = s.sec := rfl
@[simp] theorem State.setRequest_board (s : State) (k : Nat) (x : Request) : (s.setRequest k x).board = s.board := rfl
@[simp] theorem State.setRequest_stack (s : State) (k : Nat) (x : Request) : (s.setRequest k x).stack = s.stack := rfl
@[simp] theorem State.setRequest_dsram (s : State) (k : Nat) (x : Request) : (s.setRequest k x).dsram = s.dsram := rfl
@[simp] theorem State.setRequest_tsram (s : State) (k : Nat) (x : Request) : (s.setRequest k x).tsram = s.tsram := rfl
@[simp] theorem State.setRequest_rd (s : State) (k : Nat) (x : Request) (g : Field) (j : Nat) : (s.setRequest k x).rd g j = s.rd g j := rfl

/-! `setRingState` -/

@[simp] theorem State.setRingState_pending (s : State) (k : Nat) (x : RingState) : (s.setRingState k x).pending = s.pending := rfl
@[simp] theorem State.setRingState_time (s : State) (k : Nat) (x : RingState) : (s.setRingState k x).time = s.time := rfl
@[simp] theorem State.setRingState_fresh (s : State) (k : Nat) (x : RingState) : (s.setRingState k x).fresh = s.fresh := rfl
@[simp] theorem State.setRingState_out (s : State) (k : Nat) (x : RingState) : (s.setRingState k x).out = s.out := rfl
@[simp] theorem State.setRingState_regs (s : State) (k : Nat) (x : RingState) : (s.setRingState k x).regs = s.regs := rfl
@[simp] theorem State.setRingState_latches (s : State) (k : Nat) (x : RingState) : (s.setRingState k x).latches = s.latches := rfl
@[simp] theorem State.setRingState_snapshots (s : State) (k : Nat) (x : RingState) : (s.setRingState k x).snapshots = s.snapshots := rfl
@[simp] theorem State.setRingState_fault (s : State) (k : Nat) (x : RingState) : (s.setRingState k x).fault = s.fault := rfl
@[simp] theorem State.setRingState_mail (s : State) (k : Nat) (x : RingState) : (s.setRingState k x).mail = s.mail := rfl
@[simp] theorem State.setRingState_serving (s : State) (k : Nat) (x : RingState) : (s.setRingState k x).serving = s.serving := rfl
@[simp] theorem State.setRingState_loader (s : State) (k : Nat) (x : RingState) : (s.setRingState k x).loader = s.loader := rfl
@[simp] theorem State.setRingState_arrays (s : State) (k : Nat) (x : RingState) : (s.setRingState k x).arrays = s.arrays := rfl
@[simp] theorem State.setRingState_cells (s : State) (k : Nat) (x : RingState) : (s.setRingState k x).cells = s.cells := rfl
@[simp] theorem State.setRingState_cores (s : State) (k : Nat) (x : RingState) : (s.setRingState k x).cores = s.cores := rfl
@[simp] theorem State.setRingState_fabric (s : State) (k : Nat) (x : RingState) : (s.setRingState k x).fabric = s.fabric := rfl
@[simp] theorem State.setRingState_link (s : State) (k : Nat) (x : RingState) : (s.setRingState k x).link = s.link := rfl
@[simp] theorem State.setRingState_peg (s : State) (k : Nat) (x : RingState) : (s.setRingState k x).peg = s.peg := rfl
@[simp] theorem State.setRingState_cal (s : State) (k : Nat) (x : RingState) : (s.setRingState k x).cal = s.cal := rfl
@[simp] theorem State.setRingState_mcv (s : State) (k : Nat) (x : RingState) : (s.setRingState k x).mcv = s.mcv := rfl
@[simp] theorem State.setRingState_thermal (s : State) (k : Nat) (x : RingState) : (s.setRingState k x).thermal = s.thermal := rfl
@[simp] theorem State.setRingState_recovery (s : State) (k : Nat) (x : RingState) : (s.setRingState k x).recovery = s.recovery := rfl
@[simp] theorem State.setRingState_sec (s : State) (k : Nat) (x : RingState) : (s.setRingState k x).sec = s.sec := rfl
@[simp] theorem State.setRingState_board (s : State) (k : Nat) (x : RingState) : (s.setRingState k x).board = s.board := rfl
@[simp] theorem State.setRingState_stack (s : State) (k : Nat) (x : RingState) : (s.setRingState k x).stack = s.stack := rfl
@[simp] theorem State.setRingState_dsram (s : State) (k : Nat) (x : RingState) : (s.setRingState k x).dsram = s.dsram := rfl
@[simp] theorem State.setRingState_tsram (s : State) (k : Nat) (x : RingState) : (s.setRingState k x).tsram = s.tsram := rfl
@[simp] theorem State.setRingState_rd (s : State) (k : Nat) (x : RingState) (g : Field) (j : Nat) : (s.setRingState k x).rd g j = s.rd g j := rfl

/-! `setFnState` -/

@[simp] theorem State.setFnState_pending (s : State) (k : Nat) (x : FnState) : (s.setFnState k x).pending = s.pending := rfl
@[simp] theorem State.setFnState_time (s : State) (k : Nat) (x : FnState) : (s.setFnState k x).time = s.time := rfl
@[simp] theorem State.setFnState_fresh (s : State) (k : Nat) (x : FnState) : (s.setFnState k x).fresh = s.fresh := rfl
@[simp] theorem State.setFnState_out (s : State) (k : Nat) (x : FnState) : (s.setFnState k x).out = s.out := rfl
@[simp] theorem State.setFnState_regs (s : State) (k : Nat) (x : FnState) : (s.setFnState k x).regs = s.regs := rfl
@[simp] theorem State.setFnState_latches (s : State) (k : Nat) (x : FnState) : (s.setFnState k x).latches = s.latches := rfl
@[simp] theorem State.setFnState_snapshots (s : State) (k : Nat) (x : FnState) : (s.setFnState k x).snapshots = s.snapshots := rfl
@[simp] theorem State.setFnState_fault (s : State) (k : Nat) (x : FnState) : (s.setFnState k x).fault = s.fault := rfl
@[simp] theorem State.setFnState_mail (s : State) (k : Nat) (x : FnState) : (s.setFnState k x).mail = s.mail := rfl
@[simp] theorem State.setFnState_serving (s : State) (k : Nat) (x : FnState) : (s.setFnState k x).serving = s.serving := rfl
@[simp] theorem State.setFnState_loader (s : State) (k : Nat) (x : FnState) : (s.setFnState k x).loader = s.loader := rfl
@[simp] theorem State.setFnState_arrays (s : State) (k : Nat) (x : FnState) : (s.setFnState k x).arrays = s.arrays := rfl
@[simp] theorem State.setFnState_cells (s : State) (k : Nat) (x : FnState) : (s.setFnState k x).cells = s.cells := rfl
@[simp] theorem State.setFnState_cores (s : State) (k : Nat) (x : FnState) : (s.setFnState k x).cores = s.cores := rfl
@[simp] theorem State.setFnState_fabric (s : State) (k : Nat) (x : FnState) : (s.setFnState k x).fabric = s.fabric := rfl
@[simp] theorem State.setFnState_link (s : State) (k : Nat) (x : FnState) : (s.setFnState k x).link = s.link := rfl
@[simp] theorem State.setFnState_peg (s : State) (k : Nat) (x : FnState) : (s.setFnState k x).peg = s.peg := rfl
@[simp] theorem State.setFnState_cal (s : State) (k : Nat) (x : FnState) : (s.setFnState k x).cal = s.cal := rfl
@[simp] theorem State.setFnState_mcv (s : State) (k : Nat) (x : FnState) : (s.setFnState k x).mcv = s.mcv := rfl
@[simp] theorem State.setFnState_thermal (s : State) (k : Nat) (x : FnState) : (s.setFnState k x).thermal = s.thermal := rfl
@[simp] theorem State.setFnState_recovery (s : State) (k : Nat) (x : FnState) : (s.setFnState k x).recovery = s.recovery := rfl
@[simp] theorem State.setFnState_sec (s : State) (k : Nat) (x : FnState) : (s.setFnState k x).sec = s.sec := rfl
@[simp] theorem State.setFnState_board (s : State) (k : Nat) (x : FnState) : (s.setFnState k x).board = s.board := rfl
@[simp] theorem State.setFnState_stack (s : State) (k : Nat) (x : FnState) : (s.setFnState k x).stack = s.stack := rfl
@[simp] theorem State.setFnState_dsram (s : State) (k : Nat) (x : FnState) : (s.setFnState k x).dsram = s.dsram := rfl
@[simp] theorem State.setFnState_tsram (s : State) (k : Nat) (x : FnState) : (s.setFnState k x).tsram = s.tsram := rfl
@[simp] theorem State.setFnState_rd (s : State) (k : Nat) (x : FnState) (g : Field) (j : Nat) : (s.setFnState k x).rd g j = s.rd g j := rfl

/-! `setPortState` -/

@[simp] theorem State.setPortState_pending (s : State) (k : Nat) (x : PortState) : (s.setPortState k x).pending = s.pending := rfl
@[simp] theorem State.setPortState_time (s : State) (k : Nat) (x : PortState) : (s.setPortState k x).time = s.time := rfl
@[simp] theorem State.setPortState_fresh (s : State) (k : Nat) (x : PortState) : (s.setPortState k x).fresh = s.fresh := rfl
@[simp] theorem State.setPortState_out (s : State) (k : Nat) (x : PortState) : (s.setPortState k x).out = s.out := rfl
@[simp] theorem State.setPortState_regs (s : State) (k : Nat) (x : PortState) : (s.setPortState k x).regs = s.regs := rfl
@[simp] theorem State.setPortState_latches (s : State) (k : Nat) (x : PortState) : (s.setPortState k x).latches = s.latches := rfl
@[simp] theorem State.setPortState_snapshots (s : State) (k : Nat) (x : PortState) : (s.setPortState k x).snapshots = s.snapshots := rfl
@[simp] theorem State.setPortState_fault (s : State) (k : Nat) (x : PortState) : (s.setPortState k x).fault = s.fault := rfl
@[simp] theorem State.setPortState_mail (s : State) (k : Nat) (x : PortState) : (s.setPortState k x).mail = s.mail := rfl
@[simp] theorem State.setPortState_serving (s : State) (k : Nat) (x : PortState) : (s.setPortState k x).serving = s.serving := rfl
@[simp] theorem State.setPortState_loader (s : State) (k : Nat) (x : PortState) : (s.setPortState k x).loader = s.loader := rfl
@[simp] theorem State.setPortState_arrays (s : State) (k : Nat) (x : PortState) : (s.setPortState k x).arrays = s.arrays := rfl
@[simp] theorem State.setPortState_cells (s : State) (k : Nat) (x : PortState) : (s.setPortState k x).cells = s.cells := rfl
@[simp] theorem State.setPortState_cores (s : State) (k : Nat) (x : PortState) : (s.setPortState k x).cores = s.cores := rfl
@[simp] theorem State.setPortState_fabric (s : State) (k : Nat) (x : PortState) : (s.setPortState k x).fabric = s.fabric := rfl
@[simp] theorem State.setPortState_link (s : State) (k : Nat) (x : PortState) : (s.setPortState k x).link = s.link := rfl
@[simp] theorem State.setPortState_peg (s : State) (k : Nat) (x : PortState) : (s.setPortState k x).peg = s.peg := rfl
@[simp] theorem State.setPortState_cal (s : State) (k : Nat) (x : PortState) : (s.setPortState k x).cal = s.cal := rfl
@[simp] theorem State.setPortState_mcv (s : State) (k : Nat) (x : PortState) : (s.setPortState k x).mcv = s.mcv := rfl
@[simp] theorem State.setPortState_thermal (s : State) (k : Nat) (x : PortState) : (s.setPortState k x).thermal = s.thermal := rfl
@[simp] theorem State.setPortState_recovery (s : State) (k : Nat) (x : PortState) : (s.setPortState k x).recovery = s.recovery := rfl
@[simp] theorem State.setPortState_sec (s : State) (k : Nat) (x : PortState) : (s.setPortState k x).sec = s.sec := rfl
@[simp] theorem State.setPortState_board (s : State) (k : Nat) (x : PortState) : (s.setPortState k x).board = s.board := rfl
@[simp] theorem State.setPortState_stack (s : State) (k : Nat) (x : PortState) : (s.setPortState k x).stack = s.stack := rfl
@[simp] theorem State.setPortState_dsram (s : State) (k : Nat) (x : PortState) : (s.setPortState k x).dsram = s.dsram := rfl
@[simp] theorem State.setPortState_tsram (s : State) (k : Nat) (x : PortState) : (s.setPortState k x).tsram = s.tsram := rfl
@[simp] theorem State.setPortState_rd (s : State) (k : Nat) (x : PortState) (g : Field) (j : Nat) : (s.setPortState k x).rd g j = s.rd g j := rfl

/-! `setZl` -/

@[simp] theorem State.setZl_pending (s : State) (k : Nat) (x : ZlState) : (s.setZl k x).pending = s.pending := rfl
@[simp] theorem State.setZl_time (s : State) (k : Nat) (x : ZlState) : (s.setZl k x).time = s.time := rfl
@[simp] theorem State.setZl_fresh (s : State) (k : Nat) (x : ZlState) : (s.setZl k x).fresh = s.fresh := rfl
@[simp] theorem State.setZl_out (s : State) (k : Nat) (x : ZlState) : (s.setZl k x).out = s.out := rfl
@[simp] theorem State.setZl_regs (s : State) (k : Nat) (x : ZlState) : (s.setZl k x).regs = s.regs := rfl
@[simp] theorem State.setZl_latches (s : State) (k : Nat) (x : ZlState) : (s.setZl k x).latches = s.latches := rfl
@[simp] theorem State.setZl_snapshots (s : State) (k : Nat) (x : ZlState) : (s.setZl k x).snapshots = s.snapshots := rfl
@[simp] theorem State.setZl_fault (s : State) (k : Nat) (x : ZlState) : (s.setZl k x).fault = s.fault := rfl
@[simp] theorem State.setZl_host (s : State) (k : Nat) (x : ZlState) : (s.setZl k x).host = s.host := rfl
@[simp] theorem State.setZl_mail (s : State) (k : Nat) (x : ZlState) : (s.setZl k x).mail = s.mail := rfl
@[simp] theorem State.setZl_serving (s : State) (k : Nat) (x : ZlState) : (s.setZl k x).serving = s.serving := rfl
@[simp] theorem State.setZl_loader (s : State) (k : Nat) (x : ZlState) : (s.setZl k x).loader = s.loader := rfl
@[simp] theorem State.setZl_arrays (s : State) (k : Nat) (x : ZlState) : (s.setZl k x).arrays = s.arrays := rfl
@[simp] theorem State.setZl_cells (s : State) (k : Nat) (x : ZlState) : (s.setZl k x).cells = s.cells := rfl
@[simp] theorem State.setZl_cores (s : State) (k : Nat) (x : ZlState) : (s.setZl k x).cores = s.cores := rfl
@[simp] theorem State.setZl_fabric (s : State) (k : Nat) (x : ZlState) : (s.setZl k x).fabric = s.fabric := rfl
@[simp] theorem State.setZl_peg (s : State) (k : Nat) (x : ZlState) : (s.setZl k x).peg = s.peg := rfl
@[simp] theorem State.setZl_cal (s : State) (k : Nat) (x : ZlState) : (s.setZl k x).cal = s.cal := rfl
@[simp] theorem State.setZl_mcv (s : State) (k : Nat) (x : ZlState) : (s.setZl k x).mcv = s.mcv := rfl
@[simp] theorem State.setZl_thermal (s : State) (k : Nat) (x : ZlState) : (s.setZl k x).thermal = s.thermal := rfl
@[simp] theorem State.setZl_recovery (s : State) (k : Nat) (x : ZlState) : (s.setZl k x).recovery = s.recovery := rfl
@[simp] theorem State.setZl_sec (s : State) (k : Nat) (x : ZlState) : (s.setZl k x).sec = s.sec := rfl
@[simp] theorem State.setZl_board (s : State) (k : Nat) (x : ZlState) : (s.setZl k x).board = s.board := rfl
@[simp] theorem State.setZl_stack (s : State) (k : Nat) (x : ZlState) : (s.setZl k x).stack = s.stack := rfl
@[simp] theorem State.setZl_dsram (s : State) (k : Nat) (x : ZlState) : (s.setZl k x).dsram = s.dsram := rfl
@[simp] theorem State.setZl_tsram (s : State) (k : Nat) (x : ZlState) : (s.setZl k x).tsram = s.tsram := rfl
@[simp] theorem State.setZl_rd (s : State) (k : Nat) (x : ZlState) (g : Field) (j : Nat) : (s.setZl k x).rd g j = s.rd g j := rfl

/-! `setSensor` -/

@[simp] theorem State.setSensor_pending (s : State) (k : Nat) (x : SensorState) : (s.setSensor k x).pending = s.pending := rfl
@[simp] theorem State.setSensor_time (s : State) (k : Nat) (x : SensorState) : (s.setSensor k x).time = s.time := rfl
@[simp] theorem State.setSensor_fresh (s : State) (k : Nat) (x : SensorState) : (s.setSensor k x).fresh = s.fresh := rfl
@[simp] theorem State.setSensor_out (s : State) (k : Nat) (x : SensorState) : (s.setSensor k x).out = s.out := rfl
@[simp] theorem State.setSensor_regs (s : State) (k : Nat) (x : SensorState) : (s.setSensor k x).regs = s.regs := rfl
@[simp] theorem State.setSensor_latches (s : State) (k : Nat) (x : SensorState) : (s.setSensor k x).latches = s.latches := rfl
@[simp] theorem State.setSensor_snapshots (s : State) (k : Nat) (x : SensorState) : (s.setSensor k x).snapshots = s.snapshots := rfl
@[simp] theorem State.setSensor_fault (s : State) (k : Nat) (x : SensorState) : (s.setSensor k x).fault = s.fault := rfl
@[simp] theorem State.setSensor_host (s : State) (k : Nat) (x : SensorState) : (s.setSensor k x).host = s.host := rfl
@[simp] theorem State.setSensor_mail (s : State) (k : Nat) (x : SensorState) : (s.setSensor k x).mail = s.mail := rfl
@[simp] theorem State.setSensor_serving (s : State) (k : Nat) (x : SensorState) : (s.setSensor k x).serving = s.serving := rfl
@[simp] theorem State.setSensor_loader (s : State) (k : Nat) (x : SensorState) : (s.setSensor k x).loader = s.loader := rfl
@[simp] theorem State.setSensor_arrays (s : State) (k : Nat) (x : SensorState) : (s.setSensor k x).arrays = s.arrays := rfl
@[simp] theorem State.setSensor_cells (s : State) (k : Nat) (x : SensorState) : (s.setSensor k x).cells = s.cells := rfl
@[simp] theorem State.setSensor_cores (s : State) (k : Nat) (x : SensorState) : (s.setSensor k x).cores = s.cores := rfl
@[simp] theorem State.setSensor_fabric (s : State) (k : Nat) (x : SensorState) : (s.setSensor k x).fabric = s.fabric := rfl
@[simp] theorem State.setSensor_link (s : State) (k : Nat) (x : SensorState) : (s.setSensor k x).link = s.link := rfl
@[simp] theorem State.setSensor_peg (s : State) (k : Nat) (x : SensorState) : (s.setSensor k x).peg = s.peg := rfl
@[simp] theorem State.setSensor_cal (s : State) (k : Nat) (x : SensorState) : (s.setSensor k x).cal = s.cal := rfl
@[simp] theorem State.setSensor_mcv (s : State) (k : Nat) (x : SensorState) : (s.setSensor k x).mcv = s.mcv := rfl
@[simp] theorem State.setSensor_recovery (s : State) (k : Nat) (x : SensorState) : (s.setSensor k x).recovery = s.recovery := rfl
@[simp] theorem State.setSensor_sec (s : State) (k : Nat) (x : SensorState) : (s.setSensor k x).sec = s.sec := rfl
@[simp] theorem State.setSensor_board (s : State) (k : Nat) (x : SensorState) : (s.setSensor k x).board = s.board := rfl
@[simp] theorem State.setSensor_stack (s : State) (k : Nat) (x : SensorState) : (s.setSensor k x).stack = s.stack := rfl
@[simp] theorem State.setSensor_dsram (s : State) (k : Nat) (x : SensorState) : (s.setSensor k x).dsram = s.dsram := rfl
@[simp] theorem State.setSensor_tsram (s : State) (k : Nat) (x : SensorState) : (s.setSensor k x).tsram = s.tsram := rfl
@[simp] theorem State.setSensor_rd (s : State) (k : Nat) (x : SensorState) (g : Field) (j : Nat) : (s.setSensor k x).rd g j = s.rd g j := rfl

/-! `setEpochInfo` -/

@[simp] theorem State.setEpochInfo_pending (s : State) (k : Nat) (x : EpochInfo) : (s.setEpochInfo k x).pending = s.pending := rfl
@[simp] theorem State.setEpochInfo_time (s : State) (k : Nat) (x : EpochInfo) : (s.setEpochInfo k x).time = s.time := rfl
@[simp] theorem State.setEpochInfo_fresh (s : State) (k : Nat) (x : EpochInfo) : (s.setEpochInfo k x).fresh = s.fresh := rfl
@[simp] theorem State.setEpochInfo_out (s : State) (k : Nat) (x : EpochInfo) : (s.setEpochInfo k x).out = s.out := rfl
@[simp] theorem State.setEpochInfo_regs (s : State) (k : Nat) (x : EpochInfo) : (s.setEpochInfo k x).regs = s.regs := rfl
@[simp] theorem State.setEpochInfo_latches (s : State) (k : Nat) (x : EpochInfo) : (s.setEpochInfo k x).latches = s.latches := rfl
@[simp] theorem State.setEpochInfo_snapshots (s : State) (k : Nat) (x : EpochInfo) : (s.setEpochInfo k x).snapshots = s.snapshots := rfl
@[simp] theorem State.setEpochInfo_fault (s : State) (k : Nat) (x : EpochInfo) : (s.setEpochInfo k x).fault = s.fault := rfl
@[simp] theorem State.setEpochInfo_host (s : State) (k : Nat) (x : EpochInfo) : (s.setEpochInfo k x).host = s.host := rfl
@[simp] theorem State.setEpochInfo_mail (s : State) (k : Nat) (x : EpochInfo) : (s.setEpochInfo k x).mail = s.mail := rfl
@[simp] theorem State.setEpochInfo_serving (s : State) (k : Nat) (x : EpochInfo) : (s.setEpochInfo k x).serving = s.serving := rfl
@[simp] theorem State.setEpochInfo_arrays (s : State) (k : Nat) (x : EpochInfo) : (s.setEpochInfo k x).arrays = s.arrays := rfl
@[simp] theorem State.setEpochInfo_cells (s : State) (k : Nat) (x : EpochInfo) : (s.setEpochInfo k x).cells = s.cells := rfl
@[simp] theorem State.setEpochInfo_cores (s : State) (k : Nat) (x : EpochInfo) : (s.setEpochInfo k x).cores = s.cores := rfl
@[simp] theorem State.setEpochInfo_fabric (s : State) (k : Nat) (x : EpochInfo) : (s.setEpochInfo k x).fabric = s.fabric := rfl
@[simp] theorem State.setEpochInfo_link (s : State) (k : Nat) (x : EpochInfo) : (s.setEpochInfo k x).link = s.link := rfl
@[simp] theorem State.setEpochInfo_peg (s : State) (k : Nat) (x : EpochInfo) : (s.setEpochInfo k x).peg = s.peg := rfl
@[simp] theorem State.setEpochInfo_cal (s : State) (k : Nat) (x : EpochInfo) : (s.setEpochInfo k x).cal = s.cal := rfl
@[simp] theorem State.setEpochInfo_mcv (s : State) (k : Nat) (x : EpochInfo) : (s.setEpochInfo k x).mcv = s.mcv := rfl
@[simp] theorem State.setEpochInfo_thermal (s : State) (k : Nat) (x : EpochInfo) : (s.setEpochInfo k x).thermal = s.thermal := rfl
@[simp] theorem State.setEpochInfo_recovery (s : State) (k : Nat) (x : EpochInfo) : (s.setEpochInfo k x).recovery = s.recovery := rfl
@[simp] theorem State.setEpochInfo_sec (s : State) (k : Nat) (x : EpochInfo) : (s.setEpochInfo k x).sec = s.sec := rfl
@[simp] theorem State.setEpochInfo_board (s : State) (k : Nat) (x : EpochInfo) : (s.setEpochInfo k x).board = s.board := rfl
@[simp] theorem State.setEpochInfo_stack (s : State) (k : Nat) (x : EpochInfo) : (s.setEpochInfo k x).stack = s.stack := rfl
@[simp] theorem State.setEpochInfo_dsram (s : State) (k : Nat) (x : EpochInfo) : (s.setEpochInfo k x).dsram = s.dsram := rfl
@[simp] theorem State.setEpochInfo_tsram (s : State) (k : Nat) (x : EpochInfo) : (s.setEpochInfo k x).tsram = s.tsram := rfl
@[simp] theorem State.setEpochInfo_rd (s : State) (k : Nat) (x : EpochInfo) (g : Field) (j : Nat) : (s.setEpochInfo k x).rd g j = s.rd g j := rfl

/-! `setLoad` -/

@[simp] theorem State.setLoad_pending (s : State) (k : Nat) (x : Option Load) : (s.setLoad k x).pending = s.pending := rfl
@[simp] theorem State.setLoad_time (s : State) (k : Nat) (x : Option Load) : (s.setLoad k x).time = s.time := rfl
@[simp] theorem State.setLoad_fresh (s : State) (k : Nat) (x : Option Load) : (s.setLoad k x).fresh = s.fresh := rfl
@[simp] theorem State.setLoad_out (s : State) (k : Nat) (x : Option Load) : (s.setLoad k x).out = s.out := rfl
@[simp] theorem State.setLoad_regs (s : State) (k : Nat) (x : Option Load) : (s.setLoad k x).regs = s.regs := rfl
@[simp] theorem State.setLoad_latches (s : State) (k : Nat) (x : Option Load) : (s.setLoad k x).latches = s.latches := rfl
@[simp] theorem State.setLoad_snapshots (s : State) (k : Nat) (x : Option Load) : (s.setLoad k x).snapshots = s.snapshots := rfl
@[simp] theorem State.setLoad_fault (s : State) (k : Nat) (x : Option Load) : (s.setLoad k x).fault = s.fault := rfl
@[simp] theorem State.setLoad_host (s : State) (k : Nat) (x : Option Load) : (s.setLoad k x).host = s.host := rfl
@[simp] theorem State.setLoad_mail (s : State) (k : Nat) (x : Option Load) : (s.setLoad k x).mail = s.mail := rfl
@[simp] theorem State.setLoad_serving (s : State) (k : Nat) (x : Option Load) : (s.setLoad k x).serving = s.serving := rfl
@[simp] theorem State.setLoad_arrays (s : State) (k : Nat) (x : Option Load) : (s.setLoad k x).arrays = s.arrays := rfl
@[simp] theorem State.setLoad_cells (s : State) (k : Nat) (x : Option Load) : (s.setLoad k x).cells = s.cells := rfl
@[simp] theorem State.setLoad_cores (s : State) (k : Nat) (x : Option Load) : (s.setLoad k x).cores = s.cores := rfl
@[simp] theorem State.setLoad_fabric (s : State) (k : Nat) (x : Option Load) : (s.setLoad k x).fabric = s.fabric := rfl
@[simp] theorem State.setLoad_link (s : State) (k : Nat) (x : Option Load) : (s.setLoad k x).link = s.link := rfl
@[simp] theorem State.setLoad_peg (s : State) (k : Nat) (x : Option Load) : (s.setLoad k x).peg = s.peg := rfl
@[simp] theorem State.setLoad_cal (s : State) (k : Nat) (x : Option Load) : (s.setLoad k x).cal = s.cal := rfl
@[simp] theorem State.setLoad_mcv (s : State) (k : Nat) (x : Option Load) : (s.setLoad k x).mcv = s.mcv := rfl
@[simp] theorem State.setLoad_thermal (s : State) (k : Nat) (x : Option Load) : (s.setLoad k x).thermal = s.thermal := rfl
@[simp] theorem State.setLoad_recovery (s : State) (k : Nat) (x : Option Load) : (s.setLoad k x).recovery = s.recovery := rfl
@[simp] theorem State.setLoad_sec (s : State) (k : Nat) (x : Option Load) : (s.setLoad k x).sec = s.sec := rfl
@[simp] theorem State.setLoad_board (s : State) (k : Nat) (x : Option Load) : (s.setLoad k x).board = s.board := rfl
@[simp] theorem State.setLoad_stack (s : State) (k : Nat) (x : Option Load) : (s.setLoad k x).stack = s.stack := rfl
@[simp] theorem State.setLoad_dsram (s : State) (k : Nat) (x : Option Load) : (s.setLoad k x).dsram = s.dsram := rfl
@[simp] theorem State.setLoad_tsram (s : State) (k : Nat) (x : Option Load) : (s.setLoad k x).tsram = s.tsram := rfl
@[simp] theorem State.setLoad_rd (s : State) (k : Nat) (x : Option Load) (g : Field) (j : Nat) : (s.setLoad k x).rd g j = s.rd g j := rfl

/-! Typed parts -/

@[simp] theorem State.array_setArray (s : State) (k : Nat) (x : ArrayState) : (s.setArray k x).array k = x := SMap.get_put_self _ _ _ _
theorem State.array_setArray_ne {s : State} {k j : Nat} {x : ArrayState} (h : k ≠ j) : (s.setArray k x).array j = s.array j := SMap.get_put_ne _ _ _ h
@[simp] theorem State.router_setRouter (s : State) (k : Nat) (x : RouterState) : (s.setRouter k x).router k = x := SMap.get_put_self _ _ _ _
theorem State.router_setRouter_ne {s : State} {k j : Nat} {x : RouterState} (h : k ≠ j) : (s.setRouter k x).router j = s.router j := SMap.get_put_ne _ _ _ h
@[simp] theorem State.request_setRequest (s : State) (k : Nat) (x : Request) : (s.setRequest k x).request k = x := SMap.get_put_self _ _ _ _
theorem State.request_setRequest_ne {s : State} {k j : Nat} {x : Request} (h : k ≠ j) : (s.setRequest k x).request j = s.request j := SMap.get_put_ne _ _ _ h
@[simp] theorem State.ringState_setRingState (s : State) (k : Nat) (x : RingState) : (s.setRingState k x).ringState k = x := SMap.get_put_self _ _ _ _
theorem State.ringState_setRingState_ne {s : State} {k j : Nat} {x : RingState} (h : k ≠ j) : (s.setRingState k x).ringState j = s.ringState j := SMap.get_put_ne _ _ _ h
@[simp] theorem State.fnState_setFnState (s : State) (k : Nat) (x : FnState) : (s.setFnState k x).fnState k = x := SMap.get_put_self _ _ _ _
theorem State.fnState_setFnState_ne {s : State} {k j : Nat} {x : FnState} (h : k ≠ j) : (s.setFnState k x).fnState j = s.fnState j := SMap.get_put_ne _ _ _ h
@[simp] theorem State.portState_setPortState (s : State) (k : Nat) (x : PortState) : (s.setPortState k x).portState k = x := SMap.get_put_self _ _ _ _
theorem State.portState_setPortState_ne {s : State} {k j : Nat} {x : PortState} (h : k ≠ j) : (s.setPortState k x).portState j = s.portState j := SMap.get_put_ne _ _ _ h
@[simp] theorem State.zl_setZl (s : State) (k : Nat) (x : ZlState) : (s.setZl k x).zl k = x := SMap.get_put_self _ _ _ _
theorem State.zl_setZl_ne {s : State} {k j : Nat} {x : ZlState} (h : k ≠ j) : (s.setZl k x).zl j = s.zl j := SMap.get_put_ne _ _ _ h
@[simp] theorem State.sensor_setSensor (s : State) (k : Nat) (x : SensorState) : (s.setSensor k x).sensor k = x := SMap.get_put_self _ _ _ _
theorem State.sensor_setSensor_ne {s : State} {k j : Nat} {x : SensorState} (h : k ≠ j) : (s.setSensor k x).sensor j = s.sensor j := SMap.get_put_ne _ _ _ h
@[simp] theorem State.epochInfo_setEpochInfo (s : State) (k : Nat) (x : EpochInfo) : (s.setEpochInfo k x).epochInfo k = x := SMap.get_put_self _ _ _ _
theorem State.epochInfo_setEpochInfo_ne {s : State} {k j : Nat} {x : EpochInfo} (h : k ≠ j) : (s.setEpochInfo k x).epochInfo j = s.epochInfo j := SMap.get_put_ne _ _ _ h

end Sys2Proof.Machine
end

