-- ==== Sys2Proof/Laws/Spec.lean ====
section
/-! SUPPORT. Laws/Spec.lean: what the shared operations do, said once: registers, accesses, issue, and the terms of Safety.lean. -/
set_option Elab.async false
set_option linter.all false
namespace Sys2Proof.Machine

/-! Registers -/

/-- A field reads as it was last stored, cut to its width. -/
theorem State.rd_wr_self (s : State) (f : Field) (i v : Nat) : (s.wr f i v).rd f i = v % 2 ^ f.width := SMap.get_put_self _ _ _ _

/-- A store into one copy leaves the other copies. -/
theorem State.rd_wr_other {s : State} {f : Field} {i j v : Nat} (h : j % 16777216 ≠ i % 16777216) : (s.wr f i v).rd f j = s.rd f j :=
  SMap.get_put_ne' _ _ _ _ (by unfold Field.key; omega)

/-- A store that fits its field. -/
theorem State.rd_wr_fit {s : State} {f : Field} {i v : Nat} (h : v < 2 ^ f.width) : (s.wr f i v).rd f i = v := by
  rw [State.rd_wr_self, Nat.mod_eq_of_lt h]

/-- A read of a field after a store into another. -/
theorem State.rd_wr_field {s : State} {f g : Field} {i j v : Nat} (h : (f.id == g.id) = false) : (s.wr f i v).rd g j = s.rd g j :=
  State.rd_wr_ne (by simpa using h)

/-! Accesses -/

/-- An access that reaches its register is made, on the state with a course's clock ungated. -/
theorem State.access_of_reaches {s : State} {who : Requester} {a : Nat} (h : s.reaches who a = true) (v : Option W32) (f : State → State) :
    s.access who a v f = f (s.ungate a) := by
  simp only [State.reaches, Bool.and_eq_true, Bool.not_eq_true', Option.isNone_iff_eq_none] at h
  obtain ⟨⟨⟨a1, a2⟩, a3⟩, a4⟩ := h
  simp [State.access, a1, a2, a3, a4]

/-- Outside the course windows nothing is ungated. -/
theorem State.ungate_of_lt {s : State} {a : Nat} (h : a < 0x1000000) : s.ungate a = s := by
  unfold State.ungate; rw [if_neg (by omega)]

/-- The same of an offset below the course windows. -/
theorem State.access_low {s : State} {who : Requester} {a : Nat} (h : s.reaches who a = true) (l : a < 0x1000000) (v : Option W32)
    (f : State → State) : s.access who a v f = f s := by
  rw [State.access_of_reaches h, State.ungate_of_lt l]

@[simp] theorem State.ungate_rd (s : State) (a i : Nat) (f : Field) : (s.ungate a).rd f i = s.rd f i := by
  unfold State.ungate; split <;> rfl

/-- What only the owner's PF and the firmware may do is done for them. -/
theorem State.owned_of {s : State} {who : Requester} (h : s.mayRwo who = true) (a : Nat) (f : State → State) : s.owned who a f = f s := by
  unfold State.owned; rw [if_pos h]

theorem State.mayRwo_ungate (s : State) (who : Requester) (a : Nat) : (s.ungate a).mayRwo who = s.mayRwo who := by
  unfold State.ungate; split <;> rfl

/-- An owned access that reaches its register is made. -/
theorem State.ownedAccess_of {s : State} {who : Requester} {a : Nat} (h : s.reachesOwned who a = true) (v : W32) (f : State → State) :
    s.ownedAccess who a v f = f (s.ungate a) := by
  simp only [State.reachesOwned, Bool.and_eq_true] at h
  unfold State.ownedAccess
  rw [State.access_of_reaches h.1, State.owned_of (by rw [State.mayRwo_ungate]; exact h.2)]

/-- The same below the course windows. -/
theorem State.ownedAccess_low {s : State} {who : Requester} {a : Nat} (h : s.reachesOwned who a = true) (l : a < 0x1000000) (v : W32)
    (f : State → State) : s.ownedAccess who a v f = f s := by
  rw [State.ownedAccess_of h, State.ungate_of_lt l]

/-- A doorbell write that reaches its page is made. -/
theorem State.doorbellAccess_of {s : State} {fn : PciFn} (h : s.reachesDoorbell fn = true) (a : Nat) (v : W32) (f : State → State) :
    s.doorbellAccess fn a v f = f s := by
  simp only [State.reachesDoorbell, Bool.and_eq_true, Bool.not_eq_true'] at h
  unfold State.doorbellAccess
  simp [h.1, h.2]

/-! Issue -/

/-- An instruction that the sequencer issues has its effect. -/
theorem State.issue_of {s : State} {core : Nat} {w : W128} {cls op : Nat} (h : s.issues core w cls op = true)
    (act : State → Option (State × Bool)) : s.issue core w cls op act = match act s with
      | none => s
      | some (t, retires) => (if retires then (t.advance core).retired core else t).stepHalt core := by
  simp only [State.issues, Bool.and_eq_true, Bool.not_eq_true', decide_eq_true_eq, beq_iff_eq] at h
  obtain ⟨⟨⟨⟨⟨a, b⟩, c⟩, d⟩, e⟩, f⟩ := h
  unfold State.issue
  rw [if_neg (by simp [a]), if_neg (by omega), if_neg (by simp [c, d]), if_neg (by simp [e]), if_neg (by simp [f])]
  try rfl

/-- An instruction that completes at once: its effect, then the next instruction. -/
theorem State.issue_done {s : State} {core : Nat} {w : W128} {cls op : Nat} (h : s.issues core w cls op = true) (f : State → State) :
    s.issue core w cls op (done f) = (((f s).advance core).retired core).stepHalt core := by
  rw [State.issue_of h]; rfl

/-- A vector instruction with a source of some length. -/
theorem State.vec_of {s : State} {core : Nat} {w : W128} {op : Nat} (h : s.issues core w 2 op = true) (f : State → State) :
    s.vec core w op f = (((if (s.operand core (wDesc w)).len = 0 then s else f s).advance core).retired core).stepHalt core :=
  State.issue_done h _

/-! The core's own state through completion -/

@[simp] theorem State.core_setCore (s : State) (k : Nat) (c : CoreState) : (s.setCore k c).core k = c := SMap.get_put_self _ _ _ _
theorem State.core_setCore_ne {s : State} {k j : Nat} {c : CoreState} (h : k ≠ j) : (s.setCore k c).core j = s.core j := SMap.get_put_ne _ _ _ h
@[simp] theorem State.core_wr (s : State) (f : Field) (i v k : Nat) : (s.wr f i v).core k = s.core k := rfl
@[simp] theorem State.core_bump (s : State) (f : Field) (i n k : Nat) : (s.bump f i n).core k = s.core k := rfl
@[simp] theorem State.core_stepHalt (s : State) (k j : Nat) : (s.stepHalt k).core j = s.core j := by unfold State.stepHalt; split <;> rfl

/-- Completion moves the sequencer to the next instruction. -/
theorem State.complete_pc (s : State) (k : Nat) : ((((s.advance k).retired k).stepHalt k).core k).pc = (s.core k).pc + 1 := by
  rw [State.core_stepHalt]; unfold State.retired; rw [State.core_setCore]; simp [State.advance]

/-! Frames from masks -/

/-- The mask bit of a part. -/
def StatePart.bit : StatePart → Nat
  | .time => 0 | .latches => 1 | .snapshots => 2 | .fault => 3 | .host => 4 | .mail => 5 | .serving => 6 | .loader => 7 | .arrays => 8
  | .cells => 9 | .cores => 10 | .fabric => 11 | .link => 12 | .peg => 13 | .cal => 14 | .mcv => 15 | .thermal => 16 | .recovery => 17
  | .sec => 18 | .board => 19 | .stack => 20 | .dsram => 21 | .tsram => 22 | .out => 23 | .fresh => 24

/-- A part outside the mask is the same. -/
theorem Keeps.part {W : Nat} {s t : State} (k : Keeps W s t) (p : StatePart) (h : W.testBit p.bit = false) : p.same s t := by
  cases p
  · exact k.time h
  · exact k.latches h
  · exact k.snapshots h
  · exact k.fault h
  · exact k.host h
  · exact k.mail h
  · exact k.serving h
  · exact k.loader h
  · exact k.arrays h
  · exact k.cells h
  · exact k.cores h
  · exact k.fabric h
  · exact k.link h
  · exact k.peg h
  · exact k.cal h
  · exact k.mcv h
  · exact k.thermal h
  · exact k.recovery h
  · exact k.sec h
  · exact k.board h
  · exact k.stack h
  · exact k.dsram h
  · exact k.tsram h
  · exact k.out h
  · exact k.fresh h

/-- The places of the fields of the table are their numbers. -/
theorem table_ids : Reg.table.map Field.id = List.range 539 := by decide +kernel

theorem table_lt {f : Field} (hf : f ∈ Reg.table) : f.id < 539 := by
  have : f.id ∈ List.range 539 := by rw [← table_ids]; exact List.mem_map_of_mem hf
  exact List.mem_range.1 this

/-- A mask names nothing but these parts and fields. -/
def covers (ps : List StatePart) (fs : List Field) (W : Nat) : Bool :=
  let m := ps.foldr (fun p m => (1 <<< p.bit) ||| m) (listMask fs)
  m &&& W % (1 <<< 571) == W % (1 <<< 571)

theorem testBit_listMask {fs : List Field} {n : Nat} (h : (listMask fs).testBit n = true) : ∃ f ∈ fs, n = 32 + f.id := by
  induction fs with
  | nil => simp [listMask] at h
  | cons f fs ih =>
    rw [listMask, List.foldr_cons, Nat.testBit_or, Bool.or_eq_true] at h
    rcases h with h | h
    · refine ⟨f, by simp, ?_⟩
      rw [wrMask, Nat.one_shiftLeft, Nat.testBit_two_pow] at h
      exact (of_decide_eq_true h).symm
    · obtain ⟨g, hg, e⟩ := ih h
      exact ⟨g, by simp [hg], e⟩

theorem testBit_parts {ps : List StatePart} {m n : Nat} (h : (ps.foldr (fun p m => (1 <<< p.bit) ||| m) m).testBit n = true) :
    m.testBit n = true ∨ ∃ p ∈ ps, n = p.bit := by
  induction ps with
  | nil => exact .inl h
  | cons p ps ih =>
    rw [List.foldr_cons, Nat.testBit_or, Bool.or_eq_true] at h
    rcases h with h | h
    · rw [Nat.one_shiftLeft, Nat.testBit_two_pow] at h
      exact .inr ⟨p, by simp, (of_decide_eq_true h).symm⟩
    · rcases ih h with h | ⟨q, hq, e⟩
      · exact .inl h
      · exact .inr ⟨q, by simp [hq], e⟩

theorem StatePart.bit_inj {p q : StatePart} (h : p.bit = q.bit) : p = q := by cases p <;> cases q <;> first | rfl | cases h
theorem StatePart.bit_lt (p : StatePart) : p.bit < 32 := by cases p <;> decide

/-- What an operation keeps, as a frame: everything but the parts and fields that cover its mask. -/
theorem Keeps.sameBut {W : Nat} {s t : State} (k : Keeps W s t) {ps : List StatePart} {fs : List Field} (h : covers ps fs W = true) :
    s.sameBut t ps fs := by
  unfold covers at h
  rw [beq_iff_eq] at h
  have w : ∀ n, n < 571 → W.testBit n = true → (listMask fs).testBit n = true ∨ ∃ p ∈ ps, n = p.bit := fun n hl hn =>
    testBit_parts (by
      have hn : (W % (1 <<< 571)).testBit n = true := by rw [Nat.one_shiftLeft, Nat.testBit_mod_two_pow, hn, decide_eq_true hl]; rfl
      rw [← h, Nat.testBit_and, Bool.and_eq_true] at hn; exact hn.1)
  constructor
  · intro p hp
    refine k.part p (Bool.eq_false_iff.2 (fun hb => ?_))
    rcases w _ (by have := p.bit_lt; omega) hb with hb | ⟨q, hq, e⟩
    · obtain ⟨f, _, e⟩ := testBit_listMask hb
      have := p.bit_lt
      omega
    · exact hp (StatePart.bit_inj e ▸ hq)
  · intro f hf hn i
    refine k.rd f i (by have := table_lt hf; omega) (Bool.eq_false_iff.2 (fun hb => ?_))
    rcases w _ (by have := table_lt hf; omega) hb with hb | ⟨q, _, e⟩
    · obtain ⟨g, hg, e⟩ := testBit_listMask hb
      exact hn g hg (by omega)
    · have := q.bit_lt
      omega

end Sys2Proof.Machine
end

