-- ==== Sys2Proof/Tests/Slice0.lean ====
section
/-! SUPPORT. Tests/Slice0.lean: the well-formedness checks refuse ill-formed commands; a step on small states; and for each statement
of Obligations.lean a state and operands that meet its hypotheses. -/
open Sys2Proof Sys2Proof.Machine

section
set_option Elab.async false
set_option linter.all false

/-! Well-formed commands, and ill-formed ones that each check refuses -/
/-- An instruction word of the right CLASS and OP is well formed for its command (Table 4.4). -/
theorem test_wf_words :
    [Instr.tierMvm 0 (BitVec.ofNat 128 0) [],
     Instr.dtuTile 0 (BitVec.ofNat 128 1),
     Instr.vecCopy 0 (BitVec.ofNat 128 2),
     Instr.vecAdd 0 (BitVec.ofNat 128 18),
     Instr.vecMul 0 (BitVec.ofNat 128 34),
     Instr.vecFma 0 (BitVec.ofNat 128 50),
     Instr.vecMax 0 (BitVec.ofNat 128 66),
     Instr.rowscale 0 (BitVec.ofNat 128 82),
     Instr.exp 0 (BitVec.ofNat 128 98),
     Instr.rcp 0 (BitVec.ofNat 128 114),
     Instr.rsqrt 0 (BitVec.ofNat 128 130),
     Instr.rowsum 0 (BitVec.ofNat 128 146),
     Instr.rowmax 0 (BitVec.ofNat 128 162),
     Instr.rowsumsq 0 (BitVec.ofNat 128 178),
     Instr.smaxn 0 (BitVec.ofNat 128 194),
     Instr.smaxr 0 (BitVec.ofNat 128 210),
     Instr.topk 0 (BitVec.ofNat 128 226),
     Instr.sample 0 (BitVec.ofNat 128 242),
     Instr.rand 0 (BitVec.ofNat 128 258),
     Instr.scan 0 (BitVec.ofNat 128 274),
     Instr.send 0 (BitVec.ofNat 128 3),
     Instr.recv 0 (BitVec.ofNat 128 4),
     Instr.recvred 0 (BitVec.ofNat 128 20),
     Instr.redAdd 0 (BitVec.ofNat 128 5),
     Instr.redMax 0 (BitVec.ofNat 128 21),
     Instr.barArriveWait 0 (BitVec.ofNat 128 6),
     Instr.flagAdd 0 (BitVec.ofNat 128 7),
     Instr.waitGe 0 (BitVec.ofNat 128 8),
     Instr.streamLoad 0 (BitVec.ofNat 128 9),
     Instr.streamStore 0 (BitVec.ofNat 128 25),
     Instr.kvload 0 (BitVec.ofNat 128 41),
     Instr.kvstore 0 (BitVec.ofNat 128 57),
     Instr.adload 0 (BitVec.ofNat 128 73),
     Instr.gather 0 (BitVec.ofNat 128 89),
     Instr.ctrlForeach 0 (BitVec.ofNat 128 10),
     Instr.ctrlEndeach 0 (BitVec.ofNat 128 26),
     Instr.ctrlSeti 0 (BitVec.ofNat 128 42),
     Instr.ctrlAddi 0 (BitVec.ofNat 128 58),
     Instr.ctrlDivc 0 (BitVec.ofNat 128 74),
     Instr.ctrlBr 0 (BitVec.ofNat 128 90),
     Instr.ctrlLoop 0 (BitVec.ofNat 128 106),
     Instr.ctrlLayer 0 (BitVec.ofNat 128 122),
     Instr.ctrlEnd 0 (BitVec.ofNat 128 138)].all Instr.wf = true := by decide +kernel
/-- A word of another OP is refused. -/
theorem test_wf_word_op :
    [Instr.tierMvm 0 (BitVec.ofNat 128 512) [],
     Instr.dtuTile 0 (BitVec.ofNat 128 513),
     Instr.vecCopy 0 (BitVec.ofNat 128 514),
     Instr.vecAdd 0 (BitVec.ofNat 128 530),
     Instr.vecMul 0 (BitVec.ofNat 128 546),
     Instr.vecFma 0 (BitVec.ofNat 128 562),
     Instr.vecMax 0 (BitVec.ofNat 128 578),
     Instr.rowscale 0 (BitVec.ofNat 128 594),
     Instr.exp 0 (BitVec.ofNat 128 610),
     Instr.rcp 0 (BitVec.ofNat 128 626),
     Instr.rsqrt 0 (BitVec.ofNat 128 642),
     Instr.rowsum 0 (BitVec.ofNat 128 658),
     Instr.rowmax 0 (BitVec.ofNat 128 674),
     Instr.rowsumsq 0 (BitVec.ofNat 128 690),
     Instr.smaxn 0 (BitVec.ofNat 128 706),
     Instr.smaxr 0 (BitVec.ofNat 128 722),
     Instr.topk 0 (BitVec.ofNat 128 738),
     Instr.sample 0 (BitVec.ofNat 128 754),
     Instr.rand 0 (BitVec.ofNat 128 770),
     Instr.scan 0 (BitVec.ofNat 128 786),
     Instr.send 0 (BitVec.ofNat 128 515),
     Instr.recv 0 (BitVec.ofNat 128 516),
     Instr.recvred 0 (BitVec.ofNat 128 532),
     Instr.redAdd 0 (BitVec.ofNat 128 517),
     Instr.redMax 0 (BitVec.ofNat 128 533),
     Instr.barArriveWait 0 (BitVec.ofNat 128 518),
     Instr.flagAdd 0 (BitVec.ofNat 128 519),
     Instr.waitGe 0 (BitVec.ofNat 128 520),
     Instr.streamLoad 0 (BitVec.ofNat 128 521),
     Instr.streamStore 0 (BitVec.ofNat 128 537),
     Instr.kvload 0 (BitVec.ofNat 128 553),
     Instr.kvstore 0 (BitVec.ofNat 128 569),
     Instr.adload 0 (BitVec.ofNat 128 585),
     Instr.gather 0 (BitVec.ofNat 128 601),
     Instr.ctrlForeach 0 (BitVec.ofNat 128 522),
     Instr.ctrlEndeach 0 (BitVec.ofNat 128 538),
     Instr.ctrlSeti 0 (BitVec.ofNat 128 554),
     Instr.ctrlAddi 0 (BitVec.ofNat 128 570),
     Instr.ctrlDivc 0 (BitVec.ofNat 128 586),
     Instr.ctrlBr 0 (BitVec.ofNat 128 602),
     Instr.ctrlLoop 0 (BitVec.ofNat 128 618),
     Instr.ctrlLayer 0 (BitVec.ofNat 128 634),
     Instr.ctrlEnd 0 (BitVec.ofNat 128 650)].any Instr.wf = false := by decide +kernel
/-- A word of another CLASS is refused. -/
theorem test_wf_word_class :
    [Instr.tierMvm 0 (BitVec.ofNat 128 1) [],
     Instr.dtuTile 0 (BitVec.ofNat 128 2),
     Instr.vecCopy 0 (BitVec.ofNat 128 3),
     Instr.vecAdd 0 (BitVec.ofNat 128 19),
     Instr.vecMul 0 (BitVec.ofNat 128 35),
     Instr.vecFma 0 (BitVec.ofNat 128 51),
     Instr.vecMax 0 (BitVec.ofNat 128 67),
     Instr.rowscale 0 (BitVec.ofNat 128 83),
     Instr.exp 0 (BitVec.ofNat 128 99),
     Instr.rcp 0 (BitVec.ofNat 128 115),
     Instr.rsqrt 0 (BitVec.ofNat 128 131),
     Instr.rowsum 0 (BitVec.ofNat 128 147),
     Instr.rowmax 0 (BitVec.ofNat 128 163),
     Instr.rowsumsq 0 (BitVec.ofNat 128 179),
     Instr.smaxn 0 (BitVec.ofNat 128 195),
     Instr.smaxr 0 (BitVec.ofNat 128 211),
     Instr.topk 0 (BitVec.ofNat 128 227),
     Instr.sample 0 (BitVec.ofNat 128 243),
     Instr.rand 0 (BitVec.ofNat 128 259),
     Instr.scan 0 (BitVec.ofNat 128 275),
     Instr.send 0 (BitVec.ofNat 128 4),
     Instr.recv 0 (BitVec.ofNat 128 5),
     Instr.recvred 0 (BitVec.ofNat 128 21),
     Instr.redAdd 0 (BitVec.ofNat 128 6),
     Instr.redMax 0 (BitVec.ofNat 128 22),
     Instr.barArriveWait 0 (BitVec.ofNat 128 7),
     Instr.flagAdd 0 (BitVec.ofNat 128 8),
     Instr.waitGe 0 (BitVec.ofNat 128 9),
     Instr.streamLoad 0 (BitVec.ofNat 128 10),
     Instr.streamStore 0 (BitVec.ofNat 128 26),
     Instr.kvload 0 (BitVec.ofNat 128 42),
     Instr.kvstore 0 (BitVec.ofNat 128 58),
     Instr.adload 0 (BitVec.ofNat 128 74),
     Instr.gather 0 (BitVec.ofNat 128 90),
     Instr.ctrlForeach 0 (BitVec.ofNat 128 11),
     Instr.ctrlEndeach 0 (BitVec.ofNat 128 27),
     Instr.ctrlSeti 0 (BitVec.ofNat 128 43),
     Instr.ctrlAddi 0 (BitVec.ofNat 128 59),
     Instr.ctrlDivc 0 (BitVec.ofNat 128 75),
     Instr.ctrlBr 0 (BitVec.ofNat 128 91),
     Instr.ctrlLoop 0 (BitVec.ofNat 128 107),
     Instr.ctrlLayer 0 (BitVec.ofNat 128 123),
     Instr.ctrlEnd 0 (BitVec.ofNat 128 139)].any Instr.wf = false := by decide +kernel
/-- A ring entry of the right OP is well formed for its command (Tables 6.3, 7.4, 8.7). -/
theorem test_wf_entries :
    [Instr.beginLoad 0 (BitVec.ofNat 512 1) none,
     Instr.shardPosted 0 (BitVec.ofNat 512 2),
     Instr.endStream 0 (BitVec.ofNat 512 3),
     Instr.commit 0 (BitVec.ofNat 512 4),
     Instr.rollback 0 (BitVec.ofNat 512 5),
     Instr.release 0 (BitVec.ofNat 512 6),
     Instr.abort 0 (BitVec.ofNat 512 7),
     Instr.adapterLoad 0 (BitVec.ofNat 512 8) ⟨true, true, 0, true⟩,
     Instr.adapterFree 0 (BitVec.ofNat 512 9),
     Instr.shadowRebuild 0 (BitVec.ofNat 512 10),
     Instr.generate 0 (BitVec.ofNat 512 1),
     Instr.cancel 0 (BitVec.ofNat 512 2),
     Instr.prefixDrop 0 (BitVec.ofNat 512 3),
     Instr.copyIn 0 (BitVec.ofNat 256 1),
     Instr.copyOut 0 (BitVec.ofNat 256 2),
     Instr.zero 0 (BitVec.ofNat 256 3)].all Instr.wf = true := by decide +kernel
/-- An entry of another OP is refused. -/
theorem test_wf_entry_op :
    [Instr.beginLoad 0 (BitVec.ofNat 512 129) none,
     Instr.shardPosted 0 (BitVec.ofNat 512 130),
     Instr.endStream 0 (BitVec.ofNat 512 131),
     Instr.commit 0 (BitVec.ofNat 512 132),
     Instr.rollback 0 (BitVec.ofNat 512 133),
     Instr.release 0 (BitVec.ofNat 512 134),
     Instr.abort 0 (BitVec.ofNat 512 135),
     Instr.adapterLoad 0 (BitVec.ofNat 512 136) ⟨true, true, 0, true⟩,
     Instr.adapterFree 0 (BitVec.ofNat 512 137),
     Instr.shadowRebuild 0 (BitVec.ofNat 512 138),
     Instr.generate 0 (BitVec.ofNat 512 129),
     Instr.cancel 0 (BitVec.ofNat 512 130),
     Instr.prefixDrop 0 (BitVec.ofNat 512 131),
     Instr.copyIn 0 (BitVec.ofNat 256 129),
     Instr.copyOut 0 (BitVec.ofNat 256 130),
     Instr.zero 0 (BitVec.ofNat 256 131)].any Instr.wf = false := by decide +kernel
/-- A register offset that is not a multiple of 4 is refused. -/
theorem test_wf_offsets :
    [Instr.registerWrite (.fn ⟨0, 0⟩) 2 0, .lowHalfRead (.fn ⟨0, 0⟩) 5, .stagedWrite (.fn ⟨0, 0⟩) 7 0].any Instr.wf = false ∧
    [Instr.registerWrite (.fn ⟨0, 0⟩) 4 0, .lowHalfRead (.fn ⟨0, 0⟩) 8, .stagedWrite (.fn ⟨0, 0⟩) 0 0].all Instr.wf = true := by decide
/-- A probe pass has 64 conversions of 34 codes each, below 64 (R71, R333). -/
theorem test_wf_probe :
    (Instr.probePass 0 0 (List.replicate 64 (List.replicate 34 63))).wf = true ∧
    (Instr.probePass 0 0 (List.replicate 63 (List.replicate 34 63))).wf = false ∧
    (Instr.probePass 0 0 (List.replicate 64 (List.replicate 33 63))).wf = false ∧
    (Instr.probePass 0 0 (List.replicate 64 (List.replicate 34 64))).wf = false := by decide
/-- A row is read as 35 cells (R334, R335). -/
theorem test_wf_cells :
    (Instr.verifyRead 0 0 0 (List.replicate 35 0)).wf = true ∧ (Instr.verifyRead 0 0 0 (List.replicate 34 0)).wf = false ∧
    (Instr.retuneSlot 0 0 0 (List.replicate 35 0)).wf = true ∧ (Instr.retuneSlot 0 0 0 (List.replicate 36 0)).wf = false := by decide
/-- A sweep reads 256 rows of 35 cells of each tier (R340). -/
theorem test_wf_sweep :
    (Instr.fullVerifySweep [⟨0, 0, 0, List.replicate 256 (List.replicate 35 0), false⟩]).wf = true ∧
    (Instr.fullVerifySweep [⟨0, 0, 0, List.replicate 255 (List.replicate 35 0), false⟩]).wf = false ∧
    (Instr.fullVerifySweep [⟨0, 0, 0, List.replicate 256 (List.replicate 34 0), false⟩]).wf = false := by decide +kernel
/-- Expected codes are below 64; a stand-alone audit has as many codes as expected codes (R391). -/
theorem test_wf_audits :
    (Instr.auditComparison 0 0 [63]).wf = true ∧ (Instr.auditComparison 0 0 [64]).wf = false ∧
    (Instr.standAloneAudit 0 0 [1] [1]).wf = true ∧ (Instr.standAloneAudit 0 0 [64] [1]).wf = false ∧
    (Instr.standAloneAudit 0 0 [1] [64]).wf = false ∧ (Instr.standAloneAudit 0 0 [1] [1, 2]).wf = false := by decide
/-- Rail 7 names no rail. -/
theorem test_wf_rails :
    (Instr.railExcursion 7 true).wf = false ∧ (Instr.railRecovery 7).wf = false ∧ (Instr.railExcursionTimeout 7).wf = false ∧
    (Instr.railExcursion 6 true).wf = true := by decide

/-! A step: the command at the front of the queue, and local time on an empty queue -/

/-- A command leaves the queue and runs; the second waits (FIRST IN, FIRST OUT). -/
theorem test_step_front :
    step { State.reset with pending := [.mapApplied, .crystalLoss] } = exec .mapApplied { State.reset with pending := [.crystalLoss] } := rfl
/-- No word spells a command. -/
theorem test_decode_none : decodeTableWord 8 1 = none ∧ State.reset.withFetchWord 8 1 = State.reset := ⟨rfl, rfl⟩

/-! States for the tests: small changes to the reset state -/

namespace TestState

/-- Both ports' PFs are configured. -/
def hosts : State := { State.reset with host := { fns := [(0, { memory := true }), (32, { memory := true })] } }
/-- Port 0 owns the device. -/
def owned : State := hosts.wr Reg.HIF_OWN_STATUS_OWNER 0 1
/-- The PFs of the two ports. -/
def pf0 : Requester := .fn ⟨0, 0⟩
def pf1 : Requester := .fn ⟨1, 0⟩

/-- Core 0 runs a pass with one slot. -/
def run : State := State.reset.setCore 0 { running := true, slots := [{ slotRec := ⟨5, 0, 0, 1, 0, 0xFFFFFFFF, 1, 1, 0xFFF⟩ }] }
/-- Its array 0 has tier 0 verified. -/
def mvm : State := (run.wr Reg.CRS_ARR_TFMT_WIDTH 0 4).wr Reg.CRS_ARR_TFMT_VERIFIED 0 1
/-- Array 0 of core 0 holds a tier MVM. -/
def holding (m : Mvm) : State := mvm.setArray 0 { mvm := some m }
def idleMvm : Mvm := { word := 2 ^ 91, slot := 0, tag := 0, tier := 0, gain := 8, width := 4, signed := false, acc := List.replicate 34 0, satThr := 255 }
def converting : State := holding { idleMvm with todo := [{ weight := 1, rows := [0] }] }
def ending : State := holding idleMvm
def waiting (level : Nat) : State := holding { idleMvm with waiting := true, level := level }
/-- A producer holds a replay source. -/
def source : State := run.setCore 0 { run.core 0 with sources := [{ tag := tagOf 0 5 0 1 0 0 0, channel := 3, ts := 0x3F800000, width := 4, signed := false, values := [] }] }
/-- The device is powered, outside reset. -/
def live : State := { State.reset with board := { State.reset.board with powered := true } }
/-- A tile of tier 5 of array 0 of core 0, as a repair; the array programs it, or its last row; the repair waits. -/
def tile : Tile := { tier := 5, shard := 0xFFFFFFFF, format := 0x44, levels := List.replicate 8192 1 }
def programs : State := live.setArray 0 { prog := some { tile := tile } }
def lastRow : State := live.setArray 0 { prog := some { tile := tile, row := 255 } }
def repair : State := { live with loader := { live.loader with repairs := [tile] } }
/-- A calibration set waits for course 0. -/
def staged : State := { live with cal := { live.cal with waiting := [0], pending := [{}], gen := 7 } }
/-- Core 0 holds descriptor 0: one row of 2 elements in FP32. -/
def vecs : State := run.tabWrite 0 32736 (leBytes 32 (0x3F800000 + 15 * 2 ^ 36 + 2 * 2 ^ 64 + 2 ^ 96))
/-- A vector instruction with A at granule 0, B at 1 and D at 4. -/
def vecWord (op : Nat) : W128 := BitVec.ofNat 128 (2 + 16 * op + 2 ^ 36 + 4 * 2 ^ 48)
/-- A DTU tile of one block of 32 columns. -/
def dtuWord : W128 := BitVec.ofNat 128 (1 + 2 ^ 84)
def tileDone : State := run.setCore 0 { run.core 0 with dtu := some { word := dtuWord, slot := 0, tag := 0, out := [1, 2] } }
/-- An instruction of a class, with IMM 1; a STREAM instruction of one granule, or one token. -/
def seqWord (cls op : Nat) : W128 := BitVec.ofNat 128 (cls + 16 * op + 2 ^ 96)
def streamWord (op : Nat) : W128 := BitVec.ofNat 128 (9 + 16 * op + 2 ^ 84 + 2 ^ 112)
/-- A message and a reduction for the slot of core 0 wait there; flag 0 holds 3. -/
def packet : Packet := { channel := 0, tag := run.coreTag 0, granules := [(0, List.replicate 8 7)], closed := true }
def reduction : RedBuffer := { channel := 0, tag := run.coreTag 0, max := false, int := false, granules := [(0, List.replicate 8 7, 1)] }
def got : State := run.setCore 0 { run.core 0 with packets := [packet], reductions := [reduction], flags := [(0, 3)] }
/-- The pass of core 0 has no slot; a second slot, with the body open. -/
def noSlots : State := run.setCore 0 { run.core 0 with slots := [] }
def inBody : State := run.setCore 0 { run.core 0 with body := some 4, slots := (run.core 0).slots ++ (run.core 0).slots }
/-- Request 5 of partition 0 decodes; its course is assigned; its pass has been quiet for 1 s. -/
def serving : State := run.setRequest 5 { state := .decode, step := 1, inFlight := true, kvlen := 8, promptLen := 8 }
def assigned : State := serving.wr Reg.PRT_COURSE_ASSIGNED 0 1
def late : State := { serving with time := 1000000000, thermal := { serving.thermal with scaled := 256000000000000 } }
/-- Course 0 is partition 0's, whose epoch 1 is CURRENT. -/
def fabric : State := ((assigned.wr Reg.LDR_EPOCH_STATE 0 3).wr Reg.LDR_EPOCH_NUMBER 0 1)
/-- A flit of kind `kind` to the core at x in row 0; an ARRIVE flit for barrier 0; a first contribution has been folded. -/
def flit (x kind off : Nat) : Flit := { route := BitVec.ofNat 64 (x + x * 2 ^ 14 + kind * 2 ^ 28 + off * 2 ^ 42 + 2 ^ 54), tag := tagOf 0 5 1 1 1 0 0, payload := List.replicate 8 7 }
def arrival : Flit := { route := 2 ^ 54, tag := tagOf 0 5 1 1 0 0 0, payload := [1] }
def manyArrive : State := { fabric with fabric := { fabric.fabric with participants := [(0, 4)] } }
def folding : State := fabric.setCore 0 { fabric.core 0 with reductions := [{ channel := 0, tag := (flit 0 1 0).tag, max := false, int := false, granules := [(0, List.replicate 8 7, 1)] }] }
def inBarrier : State := fabric.setCore 0 { fabric.core 0 with park := some (.bar 3) }
def releasing : State := { inBarrier with fabric := { inBarrier.fabric with releases := [(⟨0, 5, 3, 1, 4⟩, 0)] } }
/-- ZL port 0 is enabled, in a state, with four lanes and a partner; later. -/
def port : State := live.wr Reg.LNK_CTRL_ENABLE 0 1
def greeting : Hello := { serial := 9, identity := 0, fwGen := 0, cfgGen := 0, port := 0, part := 0, chain := 1, member := 1, admitting := false, txns := [], nonce := 7, own := 8 }
def portIn (mode : Nat) : State := ((port.wr Reg.LNK_STATUS_STATE 0 mode).wr Reg.LNK_STATUS_LANES 0 15).setZl 0 { nonce := 7, peerNonce := 8, partner := some greeting }
def ownHello : Hello := (portIn 3).helloBody 0 7
def sentHello : State := (portIn 3).setZl 0 { (portIn 3).zl 0 with sent := some ownHello }
def zlFlit : ZlFlit := { tag := tagOf 0 5 0 1 1 0 0, seq := 0, ack := 0, cvc := 0, cred := 0, rch := 0xFF0, off := 0, granule := 1 }
def mapped : State := (portIn 3).setZl 0 { (portIn 3).zl 0 with map := some (0, 0) }
def replayed : State := (portIn 3).setZl 0 { (portIn 3).zl 0 with replaySeq := some 0, replays := 7 }
/-- The chain of partition 0's image of two members is not whole, and request 5 waits for it. -/
def chainLost : State := ({ fabric with loader := { fabric.loader with epochs := [(0, { members := 2 })] }, time := 1000000000000 }).setRequest 5 { state := .decode, chainWait := some 0 }
/-- A ring of a kind is active with one entry at hand, its window grants, and its pair is ring 9, active too; landing buffers lie at 0. -/
def ringOn (s : State) (r kind used : Nat) : State :=
  ((((((s.wr Reg.RCB_ASSIGN_VALID r 1).wr Reg.RCB_CFG_KIND r kind).wr Reg.RCB_CFG_SIZE_EXP r 6).wr Reg.RCB_STATUS_STATE r 1).wr Reg.RCB_TAIL_INDEX r used).wr Reg.RCB_PAIR_CPL r 9).wr Reg.RCB_WB_ADDR r 8192
def window (s : State) : State :=
  ((((s.wr Reg.DMA_WIN_ATTR_RD 0 1).wr Reg.DMA_WIN_ATTR_WR 0 1).wr Reg.DMA_WIN_SIZE_PAGES 0 1024).wr Reg.LDR_LAND_SIZE_BUFFERS 0 2).wr Reg.LDR_LAND_BASE_OFFSET 0 0
def rings (kind : Nat) : State := ringOn (ringOn (window hosts) 0 kind 1) 9 5 0
def loads : State := rings 2
/-- A load descriptor of partition 0: epoch 1, head and tail of the Relay, one buffer page. -/
def desc (op : Nat) : BitVec 512 := BitVec.ofNat 512 (op + 0x10000 + 4096 * 2 ^ 192 + 15 * 2 ^ 240 + 15 * 2 ^ 244)
def endDesc : BitVec 512 := 3
def entry : ShardEntry := { index := 0, member := 255, kind := 4, len := 16, digest := 0 }
def manifest : Manifest := { keyslot := 0, members := 1, redundant := false, update := false, model := 0, base := 0, courses := 0, tabDigest := 0, kvPages := 0, rings := 0, layerNs := 0, shards := [entry], digest := 0 }
def bare : Load := { ring := 0, cookie := 0, started := 0, plan := [], shadow := false, upport := 0, dnport := 15, addr := 0, len := 0, timeoutMs := 1 }
def load : Load := { bare with upport := 15, manifest := some manifest }
def loading : State := (loads.setLoad 0 (some load)).wr Reg.LDR_LOAD_STATE 0 3
def ended : State := { (loads.setLoad 0 (some { load with endSeen := true })).wr Reg.LDR_LOAD_STATE 0 3 with time := 1000000 }
/-- A manifest of one member and one shard, and a load that waits for it. -/
def manifestBytes : List Byte := leBytes 48 (1 + 2 ^ 40) ++ leBytes 16 (1 + 1280 * 2 ^ 32) ++ List.replicate 64 0 ++ leBytes 64 (255 * 2 ^ 32 + 4 * 2 ^ 40 + 16 * 2 ^ 64) ++ List.replicate 1280 0
def begun : State :=
  let s := (loads.setLoad 0 (some bare)).wr Reg.LDR_LOAD_STATE 0 1
  { s with time := 1000000, loader := { s.loader with streams := [(0, { part := 0, kind := .manifest, index := 0, len := 1472 })] } }
/-- Partition 0 admits; its epoch 2 in slot 0 is CURRENT, and epoch 1 in slot 1 PREPARED, or DRAINING. -/
def staging : State := ((((loads.wr Reg.LDR_PART_INFO_ADMITTING 0 1).wr Reg.LDR_EPOCH_STATE 0 3).wr Reg.LDR_EPOCH_NUMBER 0 2).wr Reg.LDR_EPOCH_STATE 1 2).wr Reg.LDR_EPOCH_NUMBER 1 1
def draining : State := staging.wr Reg.LDR_EPOCH_STATE 1 4
/-- A member that does not admit, with epoch 1 in a state, under a transaction. -/
def epochMsg : BitVec 256 := 0x10000
def member (st ld : Nat) : State := (((staging.wr Reg.LDR_PART_INFO_ADMITTING 0 0).wr Reg.LDR_EPOCH_STATE 1 st).wr Reg.LDR_LOAD_STATE 0 ld).setMemberTxn 0 (some (1, 0))
def txn : Txn := { id := 0, epoch := 1, rollback := false, opened := 0, timeoutMs := 1, nohold := false, ring := 0, cookie := 0, members := 1 }
def txns : State := staging.setTxn 0 (some txn)
/-- Adapter slot 5 is partition 0's; the pool has room; a refill is under way. -/
def adapters : State := (loads.wr Reg.LDR_ADP_SLOT_VALID 5 1).wr Reg.LDR_ADP_POOL_SIZE_UNITS 0 1
def adapterDesc : BitVec 512 := desc 8 + 5 * 2 ^ 32 + 2 ^ 336
def refilling : State := { loads with loader := { loads.loader with refills := [(0, (0, 0))] } }
/-- A load that the Relay brings through port 0, with stream 0 open; one whose shard is verified. -/
def relaying : State :=
  let s := (portIn 3).setLoad 0 (some { bare with manifest := some manifest })
  { s with loader := { s.loader with streams := [(0, { part := 0, kind := .shard, index := 0, len := 40 })] } }
def relayed : State := (portIn 3).setLoad 0 (some { load with shards := [(0, { verified := true })] })
/-- Port 0, the owner, has offered the device; it has been down for 2 s in a provisioned device, whose nonce 7 is live. -/
def offered : State := owned.wr Reg.HIF_OWN_STATUS_OFFER 0 1
def gone : State :=
  let s := ((owned.wr Reg.SEC_KEY_INFO_VALID 1 1).wr Reg.SEC_KEY_INFO_ROLES 1 4).wr Reg.HIF_OWN_POLICY_RECLAIM_EN 0 1
  { s.setPortState 0 { downSince := some 0 } with time := 2000000000, sec := { s.sec with nonces := [(7, 0)] } }
/-- Port 0's link is up; its LOAD ring 0 waits to be enabled; ring 9 is armed, and one entry of it is not signalled. -/
def linked (s : State) : State := ((s.wr Reg.HIF_PORT_STATUS_DL_UP 0 1).wr Reg.HIF_PORT_STATUS_RATE 0 5).wr Reg.HIF_PORT_STATUS_WIDTH 0 16
def disabled : State := linked ((loads.wr Reg.RCB_STATUS_STATE 0 0).wr Reg.RCB_CFG_CFMT 9 1)
def armed : State := ((loads.wr Reg.RCB_INTR_INTR_EN 9 1).wr Reg.RCB_STATUS_ARMED 9 1).setRingState 9 { unsignalled := 1, firstTime := some 0 }
/-- Ring 0 is a DMA ring of a partition with a data window; a descriptor of four bytes; a transfer of it. -/
def dma : State := linked ((rings 3).wr Reg.DMA_DATA_COUNT_FRAME 0 1)
def copy (op : Nat) : BitVec 256 := BitVec.ofNat 256 (op + 4 * 2 ^ 32)
def job : DmaJob := { op := 1, bytes := 4, host := 0, offset := 0, cookie := 0 }
def moving : State := dma.setRingState 0 { job := some job }
def parkedJob : State := dma.setRingState 0 { job := some { job with parked := some 0 } }
def translatingJob : State := dma.setRingState 0 { job := some { job with translating := true } }
/-- Mailboxes 0 and 32 are full, the one with an ECHO; an event waits for the other; doorbell bit 0 of port 0 is set; port 0 holds. -/
def mailed : State := (((hosts.wr Reg.MBX_STATUS_FULL 0 1).wr Reg.MBX_STATUS_FULL 32 1).wr Reg.MBX_DATA_WORD 0 (2 ^ 56)).setTimer 0 ⟨0, 10, true⟩
def backlogged : State := { mailed with mail := { mailed.mail with backlog := [(32, [7])] } }
def belled : State := (hosts.wr Reg.MBX_DB_IN 0 1).wr Reg.MBX_IRQ_EN 0 1
def held : State := { hosts.wr Reg.CLK_KEEP_HOLD 0 1 with mail := { hosts.mail with holdSince := [(0, 0)] } }
/-- The step of entry 5 is past its CTRL.END. -/
def stepped : State := serving.setCore 0 {}
/-- A SUBMIT ring of partition 0, which admits and has an epoch 1 CURRENT and four entries; one entry taken; one entry alone, taken; a prefix. -/
def submits : State :=
  ((((((rings 1).wr Reg.HIF_DEV_STATE_STATE 0 2).wr Reg.SRV_PART_SLICE_COUNT 0 4).wr Reg.LDR_PART_INFO_ADMITTING 0 1).wr Reg.LDR_EPOCH_STATE 0 3).wr Reg.LDR_EPOCH_NUMBER 0 1).wr Reg.SRV_PART_POOL_COUNT_FRAMES 0 64
def submission (op : Nat) : BitVec 512 := BitVec.ofNat 512 (op + 0xFFFF * 2 ^ 16 + 2 ^ 32 + 2 ^ 64)
def oneEntry : State := (submits.wr Reg.SRV_PART_SLICE_COUNT 0 1).setRequest 0 { state := .queued }
def prefixOf (refs : Nat) : PrefixEntry := { handle := 0, part := 0, epoch := 1, adapter := 0xFFFF, length := 4, pages := [], refs := refs, created := 0, parent := none }
def kept (refs : Nat) : State := submits.setPrefix 4 (some (prefixOf refs))
/-- Entry 5 decodes, or is to be prefilled, and no core runs; what the review before a pass leaves. -/
def deciding : State := submits.setRequest 5 { state := .decode, promptLen := 8, prefillPos := 8, kvlen := 8, epoch := 1 }
def prefilling : State := submits.setRequest 5 { state := .queued, promptLen := 8, epoch := 1 }
def reviewed (s : State) : State := s.forEach (s.entriesOf 0) (fun s i => (s.tryReserve i).reviewDraft i)
/-- Ring 9 is a token or a completion ring with room; entry 5 holds a token, or is done. -/
def tokens : State := ((ringOn (window hosts) 9 4 0).wr Reg.RCB_PAIR_TOKEN 0 9).setRequest 5 { state := .decode, heldTokens := [7] }
def completes : State := ((ringOn (window hosts) 9 5 0).wr Reg.RCB_PAIR_CPL 0 9).setRequest 5 { state := .done }
/-- Entry 5 is paused for pages, past its deadline and its wait. -/
def ends : State := { (State.reset.wr Reg.SRV_PART_KVGEO_STREAMS 0 0).setRequest 5 { state := .paused, cause := .pages, dlAbort := true, deadline := 1 } with time := 1000000000000 }
/-- Entry 5 is a member entry, and a pass runs; a slot record for it. -/
def memberEntry : State := ((submits.wr Reg.LDR_PART_INFO_ADMITTING 0 0).setRequest 5 { state := .queued, member := true }).setCore 0 { running := true }
def slotWord : BitVec 256 := BitVec.ofNat 256 (5 + 2 ^ 64 + 3 * 2 ^ 96 + 2 ^ 160 + 9 * 2 ^ 192)
/-- Tier 0 of array 0 of core 0 is verified, the Peg engine runs, and an hour has passed; the tier is due; a job of it. -/
def pegged : State := { ((live.wr Reg.CAL_PEG_CTRL_EN 0 1).wr Reg.CRS_ARR_TFMT_WIDTH 0 4).wr Reg.CRS_ARR_TFMT_VERIFIED 0 1 with time := 3600000000000 }
def due (named : List Nat) : State := { pegged with peg := { pegged.peg with due := [(0, [0])], named := SMap.put [] [] 0 named } }
def cellsAt (row : Nat) : List Int := List.replicate 34 0 ++ [64 * ((row / 16 : Nat) : Int)]
def rjob (judged : Bool) : RetuneJob :=
  let j := newJob 0 [(0, 0)]
  { j with judged := judged, marked := [0], reads := ((jobRows j).filter (· != 0)).foldl (fun m r => SMap.insert m r (cellsAt r)) [] }
def jobs (j : RetuneJob) : State := pegged.setJobs 0 [j]
/-- The sweep runs, with tier 0 untreated or treated; a reading of every row. -/
def sweep : State := { live.wr Reg.CRS_ARR_TFMT_WIDTH 0 4 with peg := { live.peg with sweeping := true } }
def swept : State := { sweep with peg := { sweep.peg with treated := [0] } }
def allRows : List (List Int) := (List.range 256).map cellsAt
/-- A calibration sequence is at a step; a course is to be calibrated every hour, and is older. -/
def calAt (step : Nat) : State := ((owned.wr Reg.CAL_STATUS_STATE 0 1).wr Reg.CAL_STATUS_STEP 0 step).wr Reg.CAL_MCV_EN_EN 0 1
def old : State := { live.wr Reg.CAL_TRACK_HOURS 0 1 with time := 3600000000000 }
/-- The metrology converter runs scan entry 0, of channel 5; its setting is of that channel, or of channel 0. -/
def mcvOn (queue : List W32) (switch : Nat) : State :=
  let s := (((((hosts.wr Reg.CAL_MCV_EN_EN 0 1).wr Reg.MCV_CTRL_RUN 0 1).wr Reg.MCV_CTRL_SCAN_LEN 0 1).wr Reg.MCV_SCAN_CH 0 5).wr Reg.MCV_SCAN_REPEAT 0 2)
  { s with board := live.board, mcv := { queue := queue, setting := some (if switch = 0 then 5 else 0, 0, s.scanOrder 0, s.scanOsr 0, s.is Reg.MCV_CTRL_NOTCH_EN) } }
/-- Sensor 3 was sampled at 0, long ago. -/
def stalling : State := { live.setSensor 3 { seen := true } with time := 1000000000 }
/-- Signatures lie from frame 10 up, and the die log from frame 50,000; request 5 holds frame 0 of partition 0's pool. -/
def signed : State := (live.wr Reg.CAL_SIG_BASE_FRAME 0 10).wr Reg.FLT_LOG_BASE_FRAME 0 50000
def paged : State := (live.wr Reg.SRV_PART_POOL_COUNT_FRAMES 0 4).setRequest 5 { state := .queued, pages := [(0, { frame := 0, shared := false })] }
/-- Core 0 waits for channel 0, of which both copies, or one, have come. -/
def twinPacket (v : Nat) : Packet := { packet with tag := packet.tag + 2 ^ 62, granules := [(0, List.replicate 8 (BitVec.ofNat 32 v))] }
def copies (v : Nat) : State := run.setCore 0 { run.core 0 with packets := [packet, twinPacket v], park := some (.recv (seqWord 4 0)) }
def alone : State := run.setCore 0 { run.core 0 with packets := [packet], park := some (.recv (seqWord 4 0)) }
/-- A sample of tier 0 waits at core 0, in a partition of so many passes; its codes. -/
def sample (codes : List Nat) : AuditSample := { waiting := true, conversions := 1, rows := [[]], codes := codes }
def sampled (passes : Nat) (codes : List Nat) : State :=
  let s := ((pegged.wr Reg.PRT_COURSE_ASSIGNED 0 1)).setSample 0 3 (sample codes)
  { s with fault := { s.fault with passCount := [(0, passes)] } }
/-- The pass log holds a checkpoint of request 5, which is in a state. -/
def slotOf : PassLogSlot := { context := 5, version := 0, step := 0, kvlen := 4, gen := 1, prefillPos := 3, token := 9 }
def logged (st : ReqState) : State :=
  let s := live.setRequest 5 { state := st, kvlen := 6, gen := 3, prefillPos := 3, promptLen := 3 }
  { s with fault := { s.fault with passLog := [(0, [{ number := 1, slots := [slotOf] }])] } }
/-- Array 2 of core 0 is quarantined, and its course is nobody's. -/
def quarantined : State := live.awaitConfirm (unitArray 0 2 0) 3
/-- A field test runs on course 0, with array 1 of core 0 in it. -/
def testing : State := { live.wr Reg.CRS_ARR_STATUS_STATE (arrayKey 0 1) 3 with fault := { live.fault with fieldTest := some { course := 0 } } }
/-- A record of core 0 is open at its course; its window has passed; a queue holds records; the writer holds one. -/
def rec : FaultRecord := recordOf { sender := unitCore 0 1, unit := unitCore 0 1, cls := 4 } 0 0
def counted : State := owned.setAgg 0 { records := [rec], units := [rec.unit] }
def closing : State := { counted with time := 1000000 }
def queued (l : List FaultRecord) : State := { live with fault := { live.fault with queues := [(0, l)] } }
def holdingRec : State := { live with time := 1000000, fault := { live.fault with held := [(0, rec)] } }
/-- Course 0 is in reset; images that boot, and none; the chip is held in reset; a rung has passed its bound. -/
def inReset : State := { live with recovery := { live.recovery with courses := [0] } }
def bootable : State := { live with sec := { live.sec with imageA := { live.sec.imageA with valid := true } } }
def unbootable : State := { live with sec := { live.sec with imageA := { live.sec.imageA with valid := false }, imageB := { live.sec.imageB with valid := false } } }
def down : State := { live with recovery := { live.recovery with held := true } }
def rungOf (level target : Nat) : State := { live with time := 10, recovery := { live.recovery with rungs := [⟨level, target, 0, 10⟩] } }
/-- Rail 2 has been outside its window, and the stacks' rails awaited, for 1 s; REFCLK_SYS is lost. -/
def excursion : State := { live with time := 1000000000, board := { live.board with excursions := [(2, 0)], stkRise := some 0 } }
def refGone : State := { bootable with recovery := { bootable.recovery with held := true, refLost := true } }
/-- The stage is open, or sealed, with a field entry and an approver key. -/
def sealed (st : Nat) : State :=
  let s := owned.wr Reg.SEC_TP_STATUS_STATE 0 st
  { s with sec := { s.sec with entries := [{ offset := 0x34, selector := 0, value := 5 }], keys := [{ slot := 2, roles := 4, op := 0, digest := 0, whole := true }] } }

end TestState

/-! What the hypotheses of O2 (IdleStepPassesTime) are met by -/

theorem test_idle_step : ∃ s : State, s.pending = [] ∧ s.board.powered = true := ⟨State.reset, by decide⟩
theorem test_idle_unpowered : ∃ s : State, s.pending = [] ∧ s.board.powered = false := ⟨{ State.reset with board := { powered := false } }, by decide⟩

/-! What the hypotheses of O5 (EveryStepKeepsGood) are met by -/

theorem test_good_reset : State.reset.good = true ∧ ∃ t, step State.reset = .next t := ⟨by decide, _, rfl⟩

/-! What the hypotheses of O6 (StepConsumesOneCommand) are met by -/

theorem test_consumes : ∃ s t : State, s.pending = .handoverExpiry :: [.echo 0] ∧ step s = .next t := ⟨{ State.reset with pending := [.handoverExpiry, .echo 0] }, _, rfl, rfl⟩

/-! What the hypotheses of O7 (EveryCommandChangesOnly) are met by -/

theorem test_changes_only : ∃ (c : Instr) (s t : State), exec c s = .next t := ⟨.handoverExpiry, State.reset, _, rfl⟩

/-! What the hypotheses of O8 (MemoriesChangeOnlyBy) are met by -/

theorem test_memories_change : StatePart.stack ∉ changesParts .handoverExpiry ∧ StatePart.tsram ∉ changesParts .handoverExpiry ∧ StatePart.dsram ∉ changesParts .handoverExpiry := by decide

/-! What the hypotheses of O9 (NvFieldsSurvive) are met by -/

theorem test_nv_survives : Reg.LDR_TIMEOUT_SHARD_MS ∈ Reg.table ∧ Reg.LDR_TIMEOUT_SHARD_MS.survives = .nv ∧ (∃ t, exec (.chipReset 0) State.reset = .next t) :=
  ⟨by decide +kernel, by decide, _, rfl⟩

/-! What the hypotheses of O10 (RegisterWritesStore) are met by -/

theorem test_wit_register_write : TestState.owned.reaches TestState.pf1 0x80000 = true ∧ TestState.owned.reachesOwned TestState.pf0 0x60030 = true ∧
    TestState.owned.reachesOwned TestState.pf0 0xA0004 = true ∧ isVf TestState.pf0 = false := by decide +kernel

/-! What the hypotheses of O11 (ForeignWriteIsDiscarded) are met by -/

theorem test_wit_foreign_write : TestState.owned.reaches TestState.pf1 0x60030 = true ∧ TestState.owned.mayRwo TestState.pf1 = false ∧
    TestState.owned.reaches TestState.pf1 0xA0004 = true ∧ TestState.owned.reaches TestState.pf1 0x34 = true ∧ isVf TestState.pf1 = false := by decide +kernel
theorem test_wit_no_register : regPlace 0xF0000 = none ∧ regPlace 0x170000 = none ∧ regPlace 0x1640000 = none ∧
    TestState.owned.reaches TestState.pf1 0xF0000 = true ∧ TestState.owned.reaches TestState.pf1 0x1640000 = true := by decide +kernel

/-! What the hypotheses of O12 (ReadsSnapshotTheHighHalf) are met by -/

theorem test_wit_snapshot : TestState.owned.reaches TestState.pf1 0x18 = true ∧ isLowHalf 0x18 = true ∧ TestState.owned.reaches TestState.pf1 0x1C = true ∧
    SMap.find? (TestState.owned.setSnapshot TestState.pf1 0x18 (some 7)).snapshots (latchKey TestState.pf1 0x18) = some 7 ∧
    (TestState.owned.setSnapshot TestState.pf1 0x18 (some 7)).reaches TestState.pf1 0x1C = true := by decide +kernel

/-! What the hypotheses of O13 (AccessHeldAtStoppedDomain) are met by -/

theorem test_wit_stopped : TestState.owned.served TestState.pf0 = true ∧ (isVf TestState.pf0 && vfHidden 0x110000) = false ∧
    (TestState.owned.wr Reg.CAL_MCV_EN_EN 0 0).stoppedDomain 0x110000 = some 112 := by decide +kernel
theorem test_wit_release : (TestState.owned.setHeld 0 [⟨TestState.pf0, 0, 0x80000, some 3, 112, none⟩]).heldAt 0 = ⟨TestState.pf0, 0, 0x80000, some 3, 112, none⟩ :: [] ∧
    ((TestState.owned.setHeld 0 [⟨TestState.pf0, 0, 0x80000, some 3, 112, none⟩]).setHeld 0 []).reaches TestState.pf0 0x80000 = true := by decide +kernel

/-! What the hypotheses of O14 (TierMvmIssues) are met by -/

theorem test_wit_tier_mvm : TestState.mvm.issues 0 0 0 0 = true ∧ (TestState.mvm.curSlot 0).isSome = true ∧ TestState.mvm.physArray 0 (wArg0 0 % 8) = some 0 ∧
    (TestState.mvm.array (arrayKey 0 0)).mvm = none ∧ TestState.mvm.tierReady 0 0 (TestState.mvm.physTier 0 1 (wArg1 0 % 128)) = true := by decide +kernel
theorem test_wit_tier_missing : TestState.run.issues 0 0 0 0 = true ∧ (TestState.run.array (arrayKey 0 0)).mvm = none ∧
    TestState.run.tierReady 0 0 (TestState.run.physTier 0 1 (wArg1 0 % 128)) = false := by decide +kernel

/-! What the hypotheses of O15 (ConversionAccumulates) are met by -/

theorem test_wit_conversion : ∃ m c, (TestState.converting.array (arrayKey 0 0)).mvm = some m ∧ m.todo = c :: [] := ⟨_, _, rfl, rfl⟩

/-! What the hypotheses of O16 (TierMvmEnds) are met by -/

theorem test_wit_mvm_end : ∃ m, (TestState.ending.array (arrayKey 0 0)).mvm = some m ∧ m.waiting = false ∧ m.todo = [] ∧ m.parts = [] ∧ m.level = 0 ∧ m.nan = false ∧
    m.flushTrip = false ∧ bit (wArg1 m.word) 7 = true ∧ bit (wArg0 m.word) 4 = false ∧ checkPasses (TestState.ending.band 0 m.gain) m.checked m.d0 m.d1 = (true, true) ∧
    above (TestState.ending.satThr (courseOf 0) m.satThr) (m.carried + m.saturated.length) = false ∧
    checkPasses (TestState.ending.band 0 4) m.laneChecked m.laneD0 m.laneD1 = (true, true) ∧ TestState.ending.is Reg.CRS_ARR_TFMT_PARTIAL_FMT (128 * 0 + m.tier) = false :=
  ⟨_, rfl, by decide +kernel⟩

/-! What the hypotheses of O17 (ReplayRunsOnce) are met by -/

theorem test_wit_reemit : ∃ x ∈ (TestState.source.core 0).sources, x.channel = 3 ∧ tagHits 0 5 (some 1) x.tag = true ∧ tagLayer x.tag = tagLayer (tagOf 0 5 0 1 0 0 0) ∧ 1 ∉ x.answered :=
  ⟨_, .head _, by decide +kernel⟩
theorem test_wit_replay : ∃ m, ((TestState.waiting 1).array (arrayKey 0 0)).mvm = some m ∧ m.waiting = true ∧ m.level ≠ 3 ∧ m.level ≤ 1 := ⟨_, rfl, by decide⟩
theorem test_wit_recovery : ∃ m, ((TestState.waiting 3).array (arrayKey 0 0)).mvm = some m ∧ m.waiting = true ∧ m.level = 3 := ⟨_, rfl, by decide⟩

/-! What the hypotheses of O18 (ProgrammingStoresRows) are met by -/

theorem test_wit_program : ∃ j, (TestState.programs.array (arrayKey 0 0)).prog = some j ∧ TestState.programs.slotAllowed (arrayKey 0 0) j.tile.tier = true ∧ j.row + 1 < 256 ∧
    j.tile.levels.length = 8192 := ⟨_, rfl, by decide +kernel, by decide, List.length_replicate ..⟩
theorem test_wit_program_last : ∃ j, (TestState.lastRow.array (arrayKey 0 0)).prog = some j ∧ TestState.lastRow.slotAllowed (arrayKey 0 0) j.tile.tier = true ∧ j.row = 255 ∧
    j.tile.shard = 0xFFFFFFFF := ⟨_, rfl, by decide +kernel, rfl, rfl⟩
theorem test_wit_program_start : (TestState.repair.array (arrayKey 0 0)).prog = none ∧ (∃ u, TestState.repair.takeTile (arrayKey 0 0) = some (TestState.tile, u)) ∧
    TestState.repair.slotAllowed (arrayKey 0 0) TestState.tile.tier = true ∧ TestState.repair.tileAllowed TestState.tile = true := ⟨rfl, ⟨_, rfl⟩, by decide +kernel, by decide +kernel⟩
theorem test_wit_spare_array : TestState.live.rd Reg.CRS_ARR_STATUS_STATE (arrayKey 0 8) = 1 ∧ TestState.live.rd Reg.CRS_ARR_SPARE_MAP_REPLACED 0 = 15 ∧
    (TestState.live.wr Reg.CRS_ARR_SPARE_MAP_REPLACED 0 3).rd Reg.CRS_ARR_SPARE_MAP_REPLACED 0 < 8 ∧
    (TestState.live.wr Reg.CRS_ARR_SPARE_MAP_REPLACED 0 3).arrayVerified (arrayKey 0 8) = true := by decide +kernel

/-! What the hypotheses of O19 (BoundaryTakesWhatWaits) are met by -/

theorem test_wit_boundary : TestState.staged.courseIdle 0 = true ∧ TestState.staged.cal.waiting.contains (0 : Course).val = true ∧ TestState.staged.cal.pending.length = 1 ∧
    TestState.staged.cal.waiting.length ≤ 100 ∧ TestState.staged.cal.gen < 65536 ∧ TestState.run.courseIdle 0 = false := by decide +kernel
theorem test_wit_captures : TestState.owned.reaches TestState.pf0 (crsOffset 0 0x4034) = true ∧ TestState.owned.selArray (reqCode TestState.pf0) 0 = some 0 := by decide +kernel

/-! What the hypotheses of O20 (DtuTileComputesAndCommits) are met by -/

theorem test_wit_dtu : TestState.run.issues 0 TestState.dtuWord 1 0 = true ∧ (TestState.run.core 0).dtu = none ∧ (TestState.vecs.core 0).dtu = none ∧
    TestState.vecs.issues 0 TestState.dtuWord 1 0 = true ∧ (TestState.vecs.operand 0 (wDesc TestState.dtuWord)).len ≠ 0 ∧ wArg1 TestState.dtuWord % 64 ≠ 0 := by decide +kernel
theorem test_wit_dtu_end : ∃ j, (TestState.tileDone.core 0).dtu = some j ∧ bit (wArg0 j.word) 2 = false ∧
    32 * TestState.tileDone.granD 0 j.word + 4 * j.out.length ≤ batchWindow := ⟨_, rfl, by decide +kernel⟩

/-! What the hypotheses of O21 (VectorArithmetic) are met by -/

theorem test_wit_vec : (TestState.vecs.operand 0 0).len ≠ 0 ∧ 32 * TestState.vecs.granD 0 0x1000000000020 + 4 * ((TestState.vecs.operand 0 0).rows * (TestState.vecs.operand 0 0).len) ≤ batchWindow ∧
    TestState.vecs.issues 0 (TestState.vecWord 1) 2 1 = true ∧ TestState.vecs.issues 0 (TestState.vecWord 2) 2 2 = true ∧ TestState.vecs.issues 0 (TestState.vecWord 3) 2 3 = true ∧
    TestState.vecs.issues 0 (TestState.vecWord 4) 2 4 = true ∧ TestState.vecs.issues 0 (TestState.vecWord 5) 2 5 = true ∧ wDesc (TestState.vecWord 1) = 0 ∧
    TestState.run.issues 0 (TestState.vecWord 1) 2 1 = true ∧ (TestState.run.operand 0 0).len = 0 := by decide +kernel
theorem test_wit_vec_rows : fp32Rows { TestState.vecs.operand 0 (wDesc (TestState.vecWord 5)) with rows := vecRows (TestState.vecWord 5) } := by
  unfold fp32Rows; decide +kernel

/-! What the hypotheses of O22 (VectorFunctions) are met by -/

theorem test_wit_vec_functions : TestState.vecs.issues 0 (TestState.vecWord 0) 2 0 = true ∧ TestState.vecs.issues 0 (TestState.vecWord 6) 2 6 = true ∧
    TestState.vecs.issues 0 (TestState.vecWord 7) 2 7 = true ∧ TestState.vecs.issues 0 (TestState.vecWord 8) 2 8 = true ∧ wDesc (TestState.vecWord 0) = 0 ∧
    (TestState.vecs.operand 0 0).len ≠ 0 := by decide +kernel
theorem test_wit_function_bounds : expOk 0x3F800000 (expNearest 0x3F800000) = true ∧ rcpOk 0x40400000 (rcpNearest 0x40400000) = true ∧
    rsqrtOk 0x40400000 (rsqrtNearest 0x40400000) = true ∧ expOk 0x3F800000 0x402DF854 = true ∧ expOk 0x3F800000 0x402DF859 = false ∧
    rsqrtOk 0x40800000 0x3F000000 = true := by decide +kernel

/-! What the hypotheses of O23 (RowReductions) are met by -/

theorem test_wit_rows : TestState.vecs.issues 0 (TestState.vecWord 9) 2 9 = true ∧ TestState.vecs.issues 0 (TestState.vecWord 10) 2 10 = true ∧
    TestState.vecs.issues 0 (TestState.vecWord 11) 2 11 = true ∧ TestState.vecs.issues 0 (TestState.vecWord 12) 2 12 = true ∧ TestState.vecs.issues 0 (TestState.vecWord 13) 2 13 = true ∧
    (TestState.vecs.operand 0 (wDesc (TestState.vecWord 9))).len ≠ 0 ∧ 32 * TestState.vecs.granD 0 (TestState.vecWord 9) + 4 * vecRows (TestState.vecWord 9) ≤ batchWindow ∧
    32 * (TestState.vecs.granB 0 (TestState.vecWord 12) + (vecRows (TestState.vecWord 12) + 7) / 8) + 4 * vecRows (TestState.vecWord 12) ≤ batchWindow ∧
    32 * (TestState.vecs.granB 0 (TestState.vecWord 13) + (vecRows (TestState.vecWord 13) + 7) / 8) + 4 * vecRows (TestState.vecWord 13) ≤ batchWindow := by decide +kernel

/-! What the hypotheses of O24 (SelectionAndSampling) are met by -/

theorem test_wit_selection : TestState.vecs.issues 0 (TestState.vecWord 14) 2 14 = true ∧ TestState.vecs.issues 0 (TestState.vecWord 15) 2 15 = true ∧
    TestState.vecs.issues 0 (TestState.vecWord 16) 2 16 = true ∧ TestState.vecs.issues 0 (TestState.vecWord 17) 2 17 = true ∧ (TestState.vecs.curSlot 0).isSome = true ∧
    32 * (TestState.vecs.granD 0 (TestState.vecWord 14) + 1) + 4 ≤ batchWindow ∧ max 1 (min 64 (wImm (TestState.vecWord 14))) = 1 := by decide +kernel

/-! What the hypotheses of O25 (MessagesLeaveTheCore) are met by -/

theorem test_wit_send : TestState.vecs.issues 0 (TestState.seqWord 3 0) 3 0 = true ∧ TestState.vecs.issues 0 (TestState.seqWord 5 0) 5 0 = true ∧
    TestState.vecs.issues 0 (TestState.seqWord 5 1) 5 1 = true ∧ TestState.vecs.issues 0 (TestState.seqWord 6 0) 6 0 = true ∧ TestState.vecs.issues 0 (TestState.seqWord 7 0) 7 0 = true ∧
    (TestState.vecs.operand 0 (wDesc (TestState.seqWord 3 0))).len = 2 ∧ (TestState.run.operand 0 0).len = 0 ∧ TestState.run.issues 0 (TestState.seqWord 3 0) 3 0 = true := by decide +kernel

/-! What the hypotheses of O26 (ReceivesCompleteOrPark) are met by -/

theorem test_wit_recv : TestState.got.issues 0 (TestState.seqWord 4 0) 4 0 = true ∧ TestState.got.redundant 0 = false ∧
    (TestState.got.core 0).packets.find? (fun k => k.channel == wArg1 (TestState.seqWord 4 0) % 4096 && TestState.got.tagMatches 0 k.tag && packetWhole k) = some TestState.packet ∧
    (TestState.packet.granules.map Prod.fst).Nodup ∧ (∀ e ∈ TestState.packet.granules, e.2.length = 8 ∧ 32 * (TestState.got.granD 0 (TestState.seqWord 4 0) + e.1 + 1) ≤ batchWindow) ∧
    TestState.run.issues 0 (TestState.seqWord 4 0) 4 0 = true ∧ (TestState.run.core 0).packets = [] := by decide +kernel
theorem test_wit_recvred : TestState.got.issues 0 (TestState.seqWord 4 1) 4 1 = true ∧
    (TestState.got.core 0).reductions.find? (fun b => b.channel == wArg1 (TestState.seqWord 4 1) % 4096 && TestState.got.tagMatches 0 b.tag && redWhole b (TestState.got.redGranules 0 (TestState.seqWord 4 1) b) (TestState.got.contributors 0 (TestState.seqWord 4 1))) = some TestState.reduction ∧
    (∀ e ∈ TestState.reduction.granules, e.2.1.length = 8) ∧ 32 * (TestState.got.granD 0 (TestState.seqWord 4 1) + TestState.got.redGranules 0 (TestState.seqWord 4 1) TestState.reduction) ≤ batchWindow ∧
    TestState.run.issues 0 (TestState.seqWord 4 1) 4 1 = true ∧ (TestState.run.core 0).reductions = [] ∧ TestState.run.redundant 0 = false := by decide +kernel
theorem test_wit_wait : TestState.run.issues 0 (TestState.seqWord 8 0) 8 0 = true ∧ wImm (TestState.seqWord 8 0) % 65536 = 1 ∧
    SMap.get 0 (TestState.run.core 0).flags 0 = 0 ∧ TestState.got.issues 0 (TestState.seqWord 8 0) 8 0 = true ∧ SMap.get 0 (TestState.got.core 0).flags 0 = 3 := by decide +kernel

/-! What the hypotheses of O27 (StreamsMoveBytes) are met by -/

theorem test_wit_streams : 32 * streamLen (TestState.streamWord 0) ≠ 0 ∧ TestState.vecs.issues 0 (TestState.streamWord 0) 9 0 = true ∧ TestState.vecs.issues 0 (TestState.streamWord 1) 9 1 = true ∧
    TestState.vecs.issues 0 (TestState.streamWord 2) 9 2 = true ∧ TestState.vecs.issues 0 (TestState.streamWord 3) 9 3 = true ∧ TestState.vecs.issues 0 (TestState.streamWord 4) 9 4 = true ∧
    TestState.vecs.issues 0 (TestState.streamWord 5) 9 5 = true ∧ 32 * TestState.vecs.granD 0 (TestState.streamWord 0) + 32 * streamLen (TestState.streamWord 0) ≤ batchWindow ∧
    bits (wImm (TestState.streamWord 2)) 16 16 = 1 ∧ (TestState.vecs.curSlot 0).isSome = true ∧
    32 * TestState.vecs.granD 0 (TestState.streamWord 2) + TestState.vecs.tokenBytes 0 ≤ batchWindow ∧
    32 * TestState.vecs.granD 0 (TestState.streamWord 5) + 32 * opGranules (TestState.vecs.operand 0 (wDescb (TestState.streamWord 5))) ≤ batchWindow := by decide +kernel

/-! What the hypotheses of O28 (ControlMovesTheSequencer) are met by -/

theorem test_wit_ctrl : (List.range 9).all (fun op => op == 1 || TestState.vecs.issues 0 (TestState.seqWord 10 op) 10 op) = true ∧
    TestState.vecs.nextSlot 0 0 = some 0 ∧ (TestState.vecs.core 0).slots[0]?.isSome = true ∧ wImm (TestState.seqWord 10 4) ≠ 0 ∧
    TestState.vecs.issues 0 (10 + 16 * 4) 10 4 = true ∧ wImm (10 + 16 * 4) = 0 ∧ (TestState.noSlots.core 0).slots = [] ∧ TestState.noSlots.issues 0 (TestState.seqWord 10 0) 10 0 = true := by decide +kernel
theorem test_wit_endeach : TestState.inBody.sequencing 0 = true ∧ wClass (TestState.seqWord 10 1) = 10 ∧ wOp (TestState.seqWord 10 1) = 1 ∧ TestState.inBody.mayIssue 0 (TestState.seqWord 10 1) = true ∧
    (TestState.inBody.core 0).body = some 4 ∧ TestState.inBody.nextSlot 0 ((TestState.inBody.core 0).cur + 1) = some 1 ∧ (TestState.inBody.core 0).slots[1]?.isSome = true := by decide +kernel

/-! What the hypotheses of O29 (StopsDropWork) are met by -/

theorem test_wit_abort : (TestState.serving.request 5).part = 0 ∧ runState (TestState.serving.request 5).state = true ∧ (TestState.serving.request 5).isCompanion = false ∧
    (TestState.serving.request 5).step % 65536 = (1 : W16).toNat ∧ (TestState.serving.request 5).aborts + 1 < max 1 (TestState.serving.rd Reg.FLT_WD_CTRL_RERUN_MAX) ∧
    (TestState.serving.core 0).part = 0 := by decide +kernel
theorem test_wit_cancel_flit : bit (withFlag (tagOf 0 5 0 1 0 0 0) flagCancel).toNat 60 = true ∧ tagClass (withFlag (tagOf 0 5 0 1 0 0 0) flagCancel) = 0 ∧
    TestState.assigned.corePart 0 = some (tagPart (withFlag (tagOf 0 5 0 1 0 0 0) flagCancel)) ∧ (TestState.assigned.core 0).part = 0 := by decide +kernel
theorem test_wit_watchdogs : (TestState.late.core 0).running = true ∧ (TestState.late.core 0).park = none ∧ 10485760 ≤ 33 * (TestState.late.time - (TestState.late.core 0).lastRetire) ∧
    (TestState.late.core 0).watchdogs = [] ∧ (∃ x, (TestState.late.core 0).slots[(0 : Fin 64).val]? = some x ∧ x.dropped = false) ∧
    TestState.late.rd Reg.FLT_WD_CTRL_STEP_MS ≠ 0 ∧ (TestState.late.core 0).markAt + TestState.late.rd Reg.FLT_WD_CTRL_STEP_MS * 256000000 ≤ TestState.late.thermal.scaled := by
  refine ⟨rfl, rfl, by decide +kernel, rfl, ⟨_, rfl, rfl⟩, by decide +kernel, by decide +kernel⟩
theorem test_wit_tab : TestState.live.is Reg.CRS_CORE_CTRL_SCRUB_EN 0 = true ∧ ((TestState.live.setCore 0 { reload := true }).core 0).reload = true ∧
    ((TestState.live.setCore 0 { reload := true }).core 0).quarantined = false := by decide +kernel
theorem test_wit_halt : TestState.owned.selCore (reqCode TestState.pf0) 0 = some 0 ∧ TestState.owned.reachesOwned TestState.pf0 (crsOffset 0 0x4804) = true ∧
    TestState.owned.reaches TestState.pf0 (crsOffset 0 0x4824) = true := by decide +kernel

/-! What the hypotheses of O30 (FlitsRouteAndDeliver) are met by -/

theorem test_wit_route : routeRect (TestState.flit 3 0 0) = (3, 0, 3, 0) ∧ routeKind (TestState.flit 3 0 0) = 0 ∧ isControl (TestState.flit 3 0 0) = false ∧ bit (TestState.flit 3 0 0).tag.toNat 60 = false ∧
    TestState.fabric.physOf 3 0 = some 3 ∧ TestState.fabric.outPort 0 (portCode .core) (.core 3) = some 1 ∧
    SMap.get 0 (TestState.fabric.router 0).retries (portCode .core) + 1 ≤ max 1 (TestState.fabric.rd Reg.NOC_CTRL_RETRY_MAX) := by decide +kernel
theorem test_wit_deliver : TestState.fabric.physOf 0 0 = some 0 ∧ TestState.fabric.ownPacket 0 (TestState.flit 0 0 0).tag = true ∧ TestState.fabric.cancelling (TestState.flit 0 0 0).tag = false ∧
    TestState.fabric.epochLive (TestState.flit 0 0 0).tag = true ∧ (TestState.fabric.core 0).park = none ∧ (TestState.fabric.core 0).packets = [] ∧ (TestState.flit 0 0 0).payload ≠ [] ∧
    routeRect (TestState.flit 0 0 0) = (0, 0, 0, 0) ∧ TestState.fabric.ownPacket 0 (tagOf 5 5 1 1 1 0 0) = false := by decide +kernel
theorem test_wit_contribution : isReduction (TestState.flit 0 1 0) = true ∧ routeKind (TestState.flit 0 1 0) = 1 ∧ (TestState.fabric.core 0).closedReds = [] ∧
    (TestState.fabric.router 0).combineOff = false ∧ TestState.fabric.inFallback 0 (tagPart (TestState.flit 0 1 0).tag) = false ∧ (TestState.fabric.core 0).reductions = [] ∧
    (∃ b g n, (TestState.folding.core 0).reductions = [b] ∧ b.channel = routeRch (TestState.flit 0 1 0) ∧ combineKey b.tag = combineKey (TestState.flit 0 1 0).tag ∧ b.max = routeMax (TestState.flit 0 1 0) ∧
      b.int = routeInt (TestState.flit 0 1 0) ∧ SMap.find? b.granules (routeOff (TestState.flit 0 1 0)) = some (g, n)) ∧ TestState.folding.epochLive (TestState.flit 0 1 0).tag = true := by
  refine ⟨by decide +kernel, by decide +kernel, rfl, rfl, by decide +kernel, rfl, ⟨_, _, _, rfl, by decide +kernel, by decide +kernel, by decide +kernel, by decide +kernel, rfl⟩, by decide +kernel⟩
theorem test_wit_link_watchdog : (senderOf 1 .west).1 < 11000 ∧ (senderOf 1 .west).2 < 4 := by decide +kernel

/-! What the hypotheses of O31 (BarriersAndMaps) are met by -/

theorem test_wit_barrier : isArrive TestState.arrival = true ∧ TestState.fabric.gate (TestState.fabric.rd Reg.NOC_COURSE_MAP_PHYS (10 * ((routeRect TestState.arrival).2.1 / 10) + (routeRect TestState.arrival).1 / 10)) = (0 : Course).val ∧
    TestState.fabric.cancelling TestState.arrival.tag = false ∧ controlArg TestState.arrival % 4 = 0 ∧ SMap.get [] TestState.fabric.fabric.barriers 0 = [] ∧
    TestState.fabric.participants (tagPart TestState.arrival.tag) 0 (routeRch TestState.arrival) ≤ routeCnt TestState.arrival ∧
    routeCnt TestState.arrival < TestState.manyArrive.participants (tagPart TestState.arrival.tag) 0 (routeRch TestState.arrival) := by decide +kernel
theorem test_wit_release_barrier : TestState.inBarrier.ownPacket 0 (tagOf 0 5 1 1 0 0 0) = true ∧ TestState.inBarrier.cancelling (tagOf 0 5 1 1 0 0 0) = false ∧ TestState.inBarrier.epochLive (tagOf 0 5 1 1 0 0 0) = true ∧
    (∃ x, TestState.inBarrier.curSlot 0 = some x ∧ x.slotRec.context = tagContext (tagOf 0 5 1 1 0 0 0) ∧ x.slotRec.step % 65536 = tagStep (tagOf 0 5 1 1 0 0 0)) ∧
    (TestState.inBarrier.core 0).park = some (.bar (3 : Fin 4096)) ∧ (TestState.inBarrier.core 0).part = tagPart (tagOf 0 5 1 1 0 0 0) ∧ (TestState.fabric.core 0).park = none := by
  refine ⟨by decide +kernel, by decide +kernel, by decide +kernel, ⟨_, rfl, by decide +kernel, by decide +kernel⟩, rfl, by decide +kernel, rfl⟩
theorem test_wit_maps : TestState.fabric.mapsHeld = false ∧ TestState.releasing.mapsHeld = true ∧ TestState.fabric.rd Reg.NOC_SPARE_MAP_REPLACED 0 = 15 ∧ TestState.fabric.rd Reg.NOC_SPARE_MAP_SPARE_FAILED 0 = 0 ∧
    (TestState.fabric.wr Reg.NOC_MAP_GEN_PENDING 0 1).rd Reg.NOC_MAP_GEN_PENDING = 1 ∧ TestState.fabric.rd Reg.NOC_MAP_GEN_PENDING = 0 := by decide +kernel

/-! What the hypotheses of O32 (LinksTrainAndGreet) are met by -/

theorem test_wit_training : TestState.port.zlMode 0 = 0 ∧ TestState.port.resting = false ∧ TestState.port.is Reg.LNK_CTRL_ENABLE 0 = true ∧
    TestState.port.lanesEnough 0 (TestState.port.laneMask 0 0xF) = true ∧ (TestState.port.zl 0).retryAt ≤ TestState.port.time ∧
    (TestState.portIn 1).zlMode 0 = 1 ∧ (TestState.portIn 1).lanesEnough 0 ((TestState.portIn 1).laneMask 0 0xF) = true ∧
    (TestState.portIn 1).time ≤ ((TestState.portIn 1).zl 0).since + trainingLimit ((TestState.portIn 1).zl 0).optical ∧
    ({ TestState.portIn 1 with time := 1000000000 }).zlMode 0 = 1 ∧ (({ TestState.portIn 1 with time := 1000000000 }).zl 0).since + trainingLimit (({ TestState.portIn 1 with time := 1000000000 }).zl 0).optical ≤ ({ TestState.portIn 1 with time := 1000000000 }).time ∧
    ({ TestState.portIn 2 with time := 1000000000 }).zlMode 0 = 2 ∧ (({ TestState.portIn 2 with time := 1000000000 }).zl 0).since + 100000000 ≤ ({ TestState.portIn 2 with time := 1000000000 }).time := by decide +kernel
theorem test_wit_hello : (TestState.portIn 2).zlMode 0 = 2 ∧ TestState.greeting.nonce = ((TestState.portIn 2).zl 0).nonce ∧ TestState.greeting.nonce ≠ 0 ∧ (TestState.portIn 3).zlMode 0 = 3 ∧
    ({ TestState.greeting with nonce := 6 } : Hello).nonce ≠ ((TestState.portIn 2).zl 0).nonce ∧ ((TestState.portIn 3).zl 0).partner = some TestState.greeting := by decide +kernel
theorem helloBody_sent (s : State) (p : Nat) (own : W64) (x : Option Hello) :
    (s.setZl p { s.zl p with sent := x }).helloBody p own = s.helloBody p own := by
  have h : (s.setZl p { s.zl p with sent := x }).zl p = { s.zl p with sent := x } := SMap.get_put_self ..
  unfold State.helloBody
  simp only [h]
  rfl
theorem test_wit_hello_sent : (TestState.sentHello.zl 0).sent = some TestState.ownHello := by
  unfold TestState.sentHello
  rw [State.zl_setZl]
theorem test_wit_hello_timer : { TestState.sentHello.helloBody 0 TestState.ownHello.own with nonce := TestState.ownHello.nonce } = TestState.ownHello := by
  unfold TestState.sentHello
  rw [helloBody_sent]
  rfl
theorem test_wit_hello_fresh : TestState.sentHello.time < (TestState.sentHello.zl 0).lastFull + 1000000000 ∧ TestState.sentHello.time < (TestState.sentHello.zl 0).lastShort + 1000000 := by
  unfold TestState.sentHello
  rw [State.zl_setZl]
  decide +kernel

/-! What the hypotheses of O33 (LinksCarryAndFail) are met by -/

theorem test_wit_msg : (TestState.portIn 3).zlUp 0 = true ∧ ((TestState.portIn 3).zl 0).queue = [] ∧ ((TestState.portIn 3).zl 0).map = none ∧ TestState.zlFlit.seq.toNat = ((TestState.portIn 3).zl 0).rxSeq ∧
    (TestState.mapped.zl 0).map = some (0, 0) ∧ TestState.mapped.zlUp 0 = true ∧ (TestState.mapped.zl 0).queue = [] ∧ tagPart TestState.zlFlit.tag = 0 ∧ TestState.zlFlit.rch.toNat = chainServing ∧
    bit TestState.zlFlit.tag.toNat 60 = false ∧ (TestState.mapped.expressPort (blockCourse (8 + (0 : ZlPort).val)) 4 (.block 0)) = some 1 ∧
    (TestState.mapped.router (expressRouter (blockCourse (8 + (0 : ZlPort).val)))).waiting = [] := by decide +kernel
theorem test_wit_replays : ((TestState.portIn 3).zl 0).replaySeq ≠ some (0 : BitVec 12).toNat ∧ (TestState.replayed.zl 0).replaySeq = some (0 : BitVec 12).toNat ∧ (TestState.replayed.zl 0).replays = 7 ∧ 2 ≤ TestState.replayed.zlMode 0 := by decide +kernel
theorem test_wit_lanes : bit ((TestState.portIn 3).zlLanes 0) (0 : Fin 4) = true ∧ ((TestState.portIn 3).wr Reg.LNK_CTRL_MIN_LANES 0 0).lanesEnough 0 (setBit ((TestState.portIn 3).zlLanes 0) (0 : Fin 4) false) = false ∧
    ((TestState.portIn 3).wr Reg.LNK_CTRL_MIN_LANES 0 1).lanesEnough 0 (setBit (((TestState.portIn 3).wr Reg.LNK_CTRL_MIN_LANES 0 1).zlLanes 0) (0 : Fin 4) false) = true := by decide +kernel
theorem test_wit_retrain : TestState.owned.reachesOwned TestState.pf0 (lnkOffset 0 0) = true ∧ TestState.owned.zlUp 0 = false ∧
    ((TestState.owned.wr Reg.LNK_STATUS_STATE 0 3).reachesOwned TestState.pf0 (lnkOffset 0 0) = true) ∧ (TestState.owned.wr Reg.LNK_STATUS_STATE 0 3).zlUp 0 = true := by decide +kernel
theorem test_wit_chain_wait : TestState.chainLost.chainWhole 0 = false ∧ 5 ∈ TestState.chainLost.entriesOf 0 ∧ liveState (TestState.chainLost.request 5).state = true ∧
    (TestState.chainLost.request 5).chainWait = some 0 ∧ 0 + TestState.chainLost.chainPatience 0 ≤ TestState.chainLost.time := by decide +kernel

/-! What the hypotheses of O34 (LoadsTakeManifestsAndShards) are met by -/

theorem test_wit_begin : TestState.loads.takesLoad 0 1 (TestState.desc 1) = true ∧ TestState.loads.beginOk (TestState.desc 1) = true ∧ TestState.loads.load? (ldPart (TestState.desc 1)) = none ∧
    TestState.loads.planOf 0 (TestState.desc 1) none = some [] ∧ TestState.loads.takesLoad 0 1 (TestState.desc 1 - 0x10000) = true ∧ TestState.loads.beginOk (TestState.desc 1 - 0x10000) = false := by decide +kernel
theorem test_wit_shard : TestState.loading.takesLoad 0 2 (TestState.desc 2) = true ∧ TestState.loading.load? (ldPart (TestState.desc 2)) = some TestState.load ∧ TestState.loading.loadState 0 = 3 ∧
    TestState.loading.inBuffer (ldAddr (TestState.desc 2)) (ldLen (TestState.desc 2)) = true ∧ shardEntry? TestState.load (ldArg (TestState.desc 2)) = some TestState.entry ∧
    TestState.loading.keepsShard 0 TestState.load TestState.entry = true ∧ (shardState TestState.load 0).verified = false ∧ TestState.entry.kind ≠ 0 ∧ (shardState TestState.load 0).programmed = false ∧
    SMap.find? TestState.loading.loader.memberTxn 0 = none ∧ TestState.load.manifest = some TestState.manifest ∧ TestState.loading.takesLoad 0 7 (TestState.desc 7) = true := by decide +kernel
theorem test_wit_end : TestState.loading.takesLoad 0 3 TestState.endDesc = true ∧ bits TestState.endDesc.toNat 12 52 = 0 ∧ bits TestState.endDesc.toNat 128 384 = 0 ∧ TestState.load.upport = 15 ∧
    TestState.load.endSeen = false := by decide +kernel
theorem test_wit_manifest : TestState.begun.load? 0 = some TestState.bare ∧ TestState.begun.loadState 0 = 1 ∧ headerOk TestState.manifestBytes (TestState.begun.manifestLen 0 TestState.bare) TestState.bare.plan.isEmpty = true ∧
    TestState.bare.len = 0 ∧ TestState.bare.started + TestState.bare.timeoutMs * 1000000 ≤ TestState.begun.time := by decide +kernel
theorem test_wit_shard_timeout : (TestState.ended.load? 0 = some { TestState.load with endSeen := true }) ∧ TestState.ended.loadState 0 = 3 ∧ shardEntry? { TestState.load with endSeen := true } (0 : W32).toNat = some TestState.entry ∧
    TestState.ended.keepsShard 0 { TestState.load with endSeen := true } TestState.entry = true ∧ TestState.ended.shardClockStopped = false ∧
    max TestState.load.endAt (shardState TestState.load 0).since + TestState.load.timeoutMs * 1000000 ≤ TestState.ended.time ∧ (shardState TestState.load 0).attempts < 3 := by decide +kernel

/-! What the hypotheses of O35 (EpochTransactions) are met by -/

theorem test_wit_commit : TestState.staging.takesLoad 0 4 (TestState.desc 4) = true ∧ TestState.staging.admits (ldPart (TestState.desc 4)) = true ∧ TestState.staging.txn? 0 = none ∧
    TestState.staging.slotIn? 0 2 = some 1 ∧ TestState.staging.rd Reg.LDR_EPOCH_NUMBER (epochKey 0 1) = 1 ∧ TestState.staging.epochSlot? 0 1 = some 1 ∧ (TestState.staging.epochInfo (epochKey 0 1)).members ≤ 1 ∧
    TestState.staging.currentSlot? 0 = some 0 ∧ ldNoHold (TestState.desc 4) = false ∧ TestState.staging.takesLoad 0 6 (TestState.desc 6) = true ∧ ldEpoch (TestState.desc 6) ≠ 0 ∧
    (TestState.staging.wr Reg.LDR_PART_INFO_ADMITTING 0 0).takesLoad 0 4 (TestState.desc 4) = true ∧ (TestState.staging.wr Reg.LDR_PART_INFO_ADMITTING 0 0).admits 0 = false ∧
    (TestState.staging.wr Reg.LDR_EPOCH_STATE 1 0).takesLoad 0 4 (TestState.desc 4) = true ∧ (TestState.staging.wr Reg.LDR_EPOCH_STATE 1 0).slotIn? 0 2 = none ∧ (TestState.staging.wr Reg.LDR_EPOCH_STATE 1 0).loadState 0 ≠ 4 := by decide +kernel
theorem test_wit_rollback : TestState.draining.takesLoad 0 5 (TestState.desc 5) = true ∧ TestState.draining.admits 0 = true ∧ TestState.draining.txn? 0 = none ∧ TestState.draining.lastDraining 0 = some 1 ∧
    TestState.draining.progLost 0 = false ∧ TestState.draining.epochSlot? 0 1 = some 1 ∧ TestState.draining.takesLoad 0 6 (TestState.desc 6) = true ∧
    TestState.staging.takesLoad 0 5 (TestState.desc 5) = true ∧ TestState.staging.lastDraining 0 = none := by decide +kernel
theorem test_wit_member_txn : (TestState.member 1 4).admits 0 = false ∧ (TestState.member 1 4).epochSlot? 0 (emEpoch TestState.epochMsg) = some 1 ∧ (TestState.member 1 4).rd Reg.LDR_EPOCH_STATE (epochKey 0 1) = 1 ∧
    (TestState.member 1 4).loadState 0 = 4 ∧ (TestState.member 2 6).rd Reg.LDR_EPOCH_STATE (epochKey 0 1) = 2 ∧ (TestState.member 2 6).progLost 0 = false ∧ (TestState.member 2 6).epochSlot? 0 1 = some 1 ∧
    SMap.find? (TestState.member 2 6).loader.memberTxn 0 = some (emEpoch TestState.epochMsg, emTxn TestState.epochMsg) ∧ (TestState.member 4 0).rd Reg.LDR_EPOCH_STATE (epochKey 0 1) = 4 ∧
    ((TestState.member 1 5).setLoad 0 (some TestState.load)).loadState 0 = 5 ∧ ((TestState.member 1 5).setLoad 0 (some TestState.load)).load? 0 = some TestState.load ∧ (TestState.member 1 5).txn? 0 = none ∧ (TestState.member 1 5).admits 0 = false := by decide +kernel
theorem test_wit_txn : TestState.txns.txn? 0 = some TestState.txn ∧ TestState.txn.id = emTxn TestState.epochMsg ∧ TestState.txn.epoch = emEpoch TestState.epochMsg ∧ TestState.txn.members ≤ (TestState.txn.prepared ++ [emMember TestState.epochMsg]).eraseDups.length ∧
    TestState.txns.epochSlot? 0 TestState.txn.epoch = some 1 ∧ TestState.txn.rollback = false ∧ TestState.txns.load? 0 = none ∧ TestState.txn.opened + TestState.txn.timeoutMs * 1000000 ≤ ({ TestState.txns with time := 1000000 }).time ∧
    TestState.txns.time < TestState.txn.opened + TestState.txn.timeoutMs * 1000000 ∧ ({ TestState.txn with members := 2 } : Txn).members > (TestState.txn.prepared ++ [emMember TestState.epochMsg]).eraseDups.length := by decide +kernel

/-! What the hypotheses of O36 (AdaptersAndRelay) are met by -/

theorem test_wit_adapter : TestState.adapters.takesLoad 0 8 TestState.adapterDesc = true ∧ 1 ≤ ldRank TestState.adapterDesc ∧ ldRank TestState.adapterDesc ≤ 256 ∧ TestState.adapters.inBuffer (ldAddr TestState.adapterDesc) (ldLen TestState.adapterDesc) = true ∧
    ldArg TestState.adapterDesc = 5 ∧ TestState.adapters.adapterValid (ldPart TestState.adapterDesc) 5 = true ∧ TestState.adapters.is Reg.LDR_ADP_SLOT_SUPERSEDED (adapterSlot 5) = false ∧
    ((List.range 1024).find? (fun k => !TestState.adapters.is Reg.LDR_ADP_SLOT_VALID k)) = some 0 ∧ TestState.adapters.poolUsed + ldLen TestState.adapterDesc ≤ 268435456 * TestState.adapters.rd Reg.LDR_ADP_POOL_SIZE_UNITS ∧
    TestState.adapters.streams (ldPart TestState.adapterDesc) 0 = true ∧ TestState.adapters.takesLoad 0 9 (TestState.desc 9 + 5 * 2 ^ 32) = true ∧ ldArg (TestState.desc 9 + 5 * 2 ^ 32) = 5 ∧
    TestState.adapters.takesLoad 0 9 (TestState.desc 9) = true ∧ TestState.adapters.adapterValid 0 (ldArg (TestState.desc 9)) = false := by decide +kernel
theorem test_wit_adapter_full : (TestState.loads.wr Reg.LDR_ADP_POOL_SIZE_UNITS 0 0).takesLoad 0 8 (TestState.adapterDesc + 0xFFFFFFFA * 2 ^ 32) = true ∧ ldArg (TestState.adapterDesc + 0xFFFFFFFA * 2 ^ 32) = 0xFFFFFFFF ∧
    268435456 * (TestState.loads.wr Reg.LDR_ADP_POOL_SIZE_UNITS 0 0).rd Reg.LDR_ADP_POOL_SIZE_UNITS < (TestState.loads.wr Reg.LDR_ADP_POOL_SIZE_UNITS 0 0).poolUsed + ldLen (TestState.adapterDesc + 0xFFFFFFFA * 2 ^ 32) := by decide +kernel
theorem test_wit_shadow : TestState.loads.takesLoad 0 10 (TestState.desc 10) = true ∧ SMap.find? TestState.loads.loader.refills 0 = none ∧ bit (TestState.loads.rd Reg.LDR_SHADOW_EN) 0 = false ∧
    (TestState.loads.wr Reg.LDR_SHADOW_EN 0 1).takesLoad 0 10 (TestState.desc 10) = true ∧ bit ((TestState.loads.wr Reg.LDR_SHADOW_EN 0 1).rd Reg.LDR_SHADOW_EN) 0 = true ∧
    bit ((TestState.loads.wr Reg.LDR_SHADOW_EN 0 1).rd Reg.LDR_SHADOW_READY) 0 = false ∧ ((TestState.loads.wr Reg.LDR_SHADOW_EN 0 1).wr Reg.LDR_SHADOW_READY 0 1).takesLoad 0 10 (TestState.desc 10) = true ∧
    SMap.find? TestState.refilling.loader.refills 0 = some (0, 0) := by decide +kernel
theorem test_wit_relay : TestState.relaying.zlUp 0 = true ∧ TestState.relaying.load? 0 = some { TestState.bare with manifest := some TestState.manifest } ∧ TestState.bare.upport = 0 ∧ TestState.relaying.stream? (4 * 0 + 1) = none ∧
    TestState.bare.endSeen = false ∧ shardEntry? { TestState.bare with manifest := some TestState.manifest } 0 = some TestState.entry ∧
    TestState.relaying.stream? (4 * 0 + 0) = some { part := 0, kind := .shard, index := 0, len := 40 } ∧ TestState.relayed.zlUp 0 = true ∧
    TestState.relayed.keepsShard 0 { TestState.load with shards := [(0, { verified := true })] } TestState.entry = true ∧ TestState.relayed.load? 0 = some { TestState.load with shards := [(0, { verified := true })] } ∧
    (shardState { TestState.load with shards := [(0, { verified := true })] } TestState.entry.index).verified = true ∧ 8 ≤ TestState.load.upport ∧ (shardState TestState.load 0).verified = false := by decide +kernel

/-! What the hypotheses of O37 (PortsAndFunctionsReset) are met by -/

theorem test_wit_port_reset : TestState.loads.is Reg.RCB_ASSIGN_VALID 0 = true ∧ TestState.loads.ringFn 0 / 32 = (0 : Fin 2) ∧ TestState.loads.ringFn 0 = fnCode ⟨0, 0⟩ ∧ TestState.loads.ringActive 0 = true ∧
    hostProducer (TestState.loads.ringKind 0) = true ∧ (TestState.owned.wr Reg.HIF_OWN_STATUS_OFFER 0 1).is Reg.HIF_OWN_STATUS_OFFER = true ∧ (TestState.owned.wr Reg.HIF_OWN_STATUS_OFFER 0 1).owner = (0 : Fin 2) + 1 ∧
    ((TestState.loads.wr Reg.RCB_ASSIGN_FUNCTION 0 1).ringFn 0 = fnCode ⟨0, 1⟩) ∧ (⟨0, 1⟩ : PciFn).idx ≠ 0 := by decide +kernel
theorem test_wit_flr_complete : ((TestState.hosts.setFnState 0 { flr := true }).fnState (fnCode ⟨0, 0⟩)).flr = true ∧ TestState.live.board.powered = true ∧ (5 : Fin 6) ≠ 0 ∧ (16 : Fin 17) ≠ 0 := by decide +kernel

/-! What the hypotheses of O38 (OwnershipPasses) are met by -/

theorem test_wit_claim : TestState.hosts.reaches TestState.pf0 0x20 = true ∧ pfPort TestState.pf0 = some 0 ∧ (1 : W32) ≠ 0 ∧ TestState.hosts.owner = 0 ∧ TestState.hosts.is Reg.HIF_OWN_STATUS_OFFER = false ∧
    TestState.hosts.claimBarred 0 = false ∧ TestState.owned.reaches TestState.pf1 0x20 = true ∧ TestState.owned.owner ≠ 0 ∧ (TestState.hosts.wr Reg.HIF_OWN_POLICY_CLAIM_PORTS 0 2).reaches TestState.pf0 0x20 = true ∧
    (TestState.hosts.wr Reg.HIF_OWN_POLICY_CLAIM_PORTS 0 2).claimBarred 0 = true := by decide +kernel
theorem test_wit_offer : TestState.owned.reaches TestState.pf0 0x2C = true ∧ isVf TestState.pf0 = false ∧ TestState.owned.mayRwo TestState.pf0 = true ∧ TestState.owned.is Reg.HIF_OWN_STATUS_OFFER = false ∧
    TestState.owned.reaches TestState.pf1 0x2C = true ∧ TestState.owned.mayRwo TestState.pf1 = false ∧ TestState.offered.reaches TestState.pf1 0x30 = true ∧ TestState.offered.is Reg.HIF_OWN_STATUS_OFFER = true ∧
    TestState.offered.offerExpired = false ∧ TestState.offered.owner ≠ 1 + 1 ∧ ({ TestState.offered with time := 200000000 }).offerExpired = true ∧ ({ TestState.offered with time := 200000000 }).reaches TestState.pf1 0x30 = true ∧
    (TestState.offered.wr Reg.SEC_TP_STATUS_STATE 0 1).rd Reg.SEC_TP_STATUS_STATE ≠ 0 ∧ (TestState.offered.wr Reg.SEC_TP_STATUS_STATE 0 1).reaches TestState.pf1 0x30 = true := by decide +kernel
theorem test_wit_reclaim : TestState.gone.provisioned = true ∧ TestState.gone.approverKey (some 0) = true ∧ TestState.gone.sec.nonces.any (fun e => e.1 == 7 && decide (TestState.gone.time ≤ e.2 + 10000000000)) = true ∧
    TestState.gone.ownerGone = true ∧ TestState.gone.is Reg.HIF_OWN_POLICY_RECLAIM_EN = true ∧ TestState.gone.approverKey none = false := by decide +kernel

/-! What the hypotheses of O39 (RingsRunAndStop) are met by -/

theorem test_wit_enable : TestState.disabled.reaches TestState.pf0 (0x20004 + 64 * 0) = true ∧ TestState.disabled.mayRing TestState.pf0 0 = true ∧ TestState.disabled.ringMode 0 = 0 ∧ TestState.disabled.enableCheck 0 = 0 ∧
    hostProducer (TestState.disabled.ringKind 0) = true ∧ (TestState.disabled.ringState 0).held = [] ∧ (TestState.disabled.fnState (TestState.disabled.ringFn 0)).ats = false ∧
    TestState.loads.reaches TestState.pf0 (0x20004 + 64 * 0) = true ∧ TestState.loads.mayRing TestState.pf0 0 = true ∧ TestState.loads.ringMode 0 ≠ 0 ∧
    (TestState.loads.wr Reg.RCB_STATUS_STATE 0 0).enableCheck 0 = 8 ∧ (TestState.loads.wr Reg.RCB_STATUS_STATE 0 0).ringMode 0 = 0 := by decide +kernel
theorem test_wit_stop : TestState.loads.reaches TestState.pf0 (0x2002C + 64 * 0) = true ∧ TestState.loads.writebackOk 0 = true ∧ TestState.loads.ringActive 0 = true ∧ hostProducer (TestState.loads.ringKind 0) = true ∧
    (TestState.loads.ringState 0).job = none ∧ (TestState.loads.wr Reg.RCB_STATUS_STATE 0 2).ringMode 0 = 2 ∧ (TestState.loads.wr Reg.RCB_STATUS_STATE 0 2).reaches TestState.pf0 (0x2002C + 64 * 0) = true ∧ TestState.loads.ringMode 0 ≠ 2 := by decide +kernel
theorem test_wit_doorbell : TestState.loads.reachesDoorbell ⟨0, 0⟩ = true ∧ TestState.loads.is Reg.RCB_ASSIGN_VALID 0 = true ∧ TestState.loads.ringFn 0 = fnCode ⟨0, 0⟩ ∧ (64 + 2 ^ 32 - TestState.loads.rd Reg.RCB_HEAD_INDEX 0) % 2 ^ 32 ≤ TestState.loads.ringCap 0 ∧
    TestState.loads.ringCap 0 < (65 + 2 ^ 32 - TestState.loads.rd Reg.RCB_HEAD_INDEX 0) % 2 ^ 32 ∧ hostProducer (TestState.loads.ringKind 9) = false ∧ TestState.loads.ringActive 9 = true ∧ (0 + 2 ^ 32 - TestState.loads.rd Reg.RCB_HEAD_INDEX 9) % 2 ^ 32 ≤ TestState.loads.ringUsed 9 ∧
    TestState.loads.coalesced 0 = false ∧ TestState.armed.coalesced 9 = true ∧ TestState.armed.is Reg.RCB_INTR_INTR_EN 9 = true ∧ TestState.armed.rd Reg.RCB_INTR_VECTOR 9 < vectorsOf (fnCode ⟨0, 0⟩) ∧ TestState.armed.ringActive 9 = true ∧
    TestState.armed.is Reg.RCB_STATUS_ARMED 9 = true ∧ TestState.armed.reachesDoorbell ⟨0, 0⟩ = true ∧ TestState.loads.is Reg.RCB_ASSIGN_VALID 1 = false ∧ (TestState.armed.setRingState 9 {}).coalesced 9 = false := by decide +kernel

/-! What the hypotheses of O40 (TransfersMoveBytes) are met by -/

theorem test_wit_dma : TestState.dma.takes 0 kindDma = true ∧ (TestState.dma.ringState 0).job = none ∧ TestState.dma.linkFit (TestState.dma.ringFn 0 / 32) = true ∧ dmaBytes (TestState.copy 1) ≠ 0 ∧
    TestState.dma.dmaFieldsOk 0 (TestState.copy 1) = true ∧ TestState.dma.xlate (TestState.dma.ringFn 0) (dmaHost (TestState.copy 1)) false = .granted ∧ TestState.dma.dmaFieldsOk 0 (TestState.copy 2) = true ∧
    TestState.dma.xlate (TestState.dma.ringFn 0) (dmaHost (TestState.copy 2)) true = .granted ∧ TestState.dma.dmaFieldsOk 0 (TestState.copy 3) = true ∧ TestState.dma.dmaFieldsOk 0 (TestState.copy 1 + 256) = false := by decide +kernel
theorem test_wit_piece : (TestState.moving.ringState 0).job = some TestState.job ∧ TestState.job.done < TestState.job.bytes ∧ TestState.job.done + pieceLength TestState.job = TestState.job.bytes ∧ ([1, 2, 3, 4] : List Byte).length = pieceLength TestState.job ∧
    (TestState.moving.dataWindow (TestState.moving.ringPart 0)).1 + TestState.job.offset + TestState.job.done + pieceLength TestState.job ≤ stackSize ∧ TestState.moving.linkFit (TestState.moving.ringFn 0 / 32) = true ∧
    TestState.moving.windowOk (TestState.moving.ringPart 0) (TestState.moving.ringFn 0) (TestState.job.host + TestState.job.done) (pieceLength TestState.job) (TestState.job.op == 2) = true := by decide +kernel
theorem test_wit_pages : (TestState.parkedJob.ringState 0).wait = none ∧ (TestState.parkedJob.ringState 0).job = some { TestState.job with parked := some 0 } ∧ ({ TestState.parkedJob with time := 1000000000 }).pageTimeout ≤ ({ TestState.parkedJob with time := 1000000000 }).time ∧
    TestState.parkedJob.time < 0 + TestState.parkedJob.pageTimeout ∧ (TestState.translatingJob.ringState 0).job = some { TestState.job with translating := true } ∧ (TestState.translatingJob.ringState 0).wait = none ∧
    (TestState.moving.setFnState 0 { ats := true }).ringFn 0 / 32 = (0 : Fin 2) ∧ ((TestState.moving.setFnState 0 { ats := true }).fnState 0).ats = true ∧ (TestState.job.host + TestState.job.done) / 4096 < (0 : BitVec 52).toNat + 1 := by decide +kernel
theorem test_wit_window : TestState.loads.served (.fn ⟨0, 0⟩) = true ∧ TestState.loads.resting = false ∧ TestState.loads.blocked (.fn ⟨0, 0⟩) = false ∧ TestState.loads.inLanding (0 : BitVec 36).toNat 4 = true ∧
    TestState.loads.bar4Address 0 + 4 ≤ stackSize ∧ TestState.loads.inLanding (2 ^ 30 : BitVec 36).toNat 4 = false := by decide +kernel

/-! What the hypotheses of O41 (MailboxesAndHolds) are met by -/

theorem test_wit_commit_mail : TestState.hosts.reaches TestState.pf0 (mailOffset 0 4) = true ∧ isSender TestState.pf0 0 = true ∧ TestState.hosts.is Reg.MBX_STATUS_FULL 0 = false ∧ sentByHost 0 = true ∧
    TestState.mailed.reaches TestState.pf0 (mailOffset 0 4) = true ∧ TestState.mailed.is Reg.MBX_STATUS_FULL 0 = true ∧ TestState.mailed.reaches (.fw 0) (mailOffset 0 12) = true ∧ isReceiver (.fw 0) 0 = true ∧
    isReceiver TestState.pf0 0 = false ∧ TestState.mailed.reaches TestState.pf0 (mailOffset 0 12) = true ∧ TestState.mailed.reaches TestState.pf0 (mailOffset 0 20) = true ∧ TestState.hosts.reaches TestState.pf0 (mailOffset 0 20) = true ∧
    TestState.mailed.reaches TestState.pf0 (mailOffset 32 12) = true ∧ isReceiver TestState.pf0 32 = true ∧ TestState.mailed.is Reg.MBX_STATUS_FULL 32 = true ∧ sentByHost 32 = false ∧
    SMap.get [] TestState.mailed.mail.backlog 32 = [] ∧ SMap.get [] TestState.backlogged.mail.backlog 32 = [7] ∧ TestState.backlogged.reaches TestState.pf0 (mailOffset 32 12) = true := by decide +kernel
theorem test_wit_mail_time : SMap.get {} TestState.mailed.mail.timers 0 = ⟨0, 10, true⟩ ∧ (0 : Nat) + 1000 * 10 ≤ ({ TestState.mailed with time := 10000 }).time ∧ TestState.mailed.time < 0 + 1000 * 10 ∧
    TestState.mailed.rd Reg.MBX_DATA_WORD 0 >>> 56 = 1 := by decide +kernel
theorem test_wit_doorbells : TestState.hosts.reaches (.fn ⟨0, 0⟩) 0x10800 = true ∧ TestState.hosts.reaches (.fn ⟨0, 0⟩) 0x10804 = true ∧ TestState.hosts.doorbells 0 &&& (2 ^ 32 - 1 - (0 : W32).toNat) = 0 ∧
    TestState.belled.reaches (.fn ⟨0, 0⟩) 0x10804 = true ∧ TestState.belled.doorbells 0 &&& (2 ^ 32 - 1 - (0 : W32).toNat) ≠ 0 ∧ TestState.belled.is Reg.MBX_IRQ_EN 0 = true ∧ TestState.belled.rd Reg.MBX_IRQ_VECTOR 0 < 512 ∧
    TestState.hosts.reaches (.fn ⟨0, 0⟩) 0x150020 = true ∧ TestState.hosts.is Reg.CLK_KEEP_HOLD 0 = false ∧ SMap.find? TestState.held.mail.holdSince 0 = some 0 ∧ TestState.held.is Reg.CLK_KEEP_HOLD 0 = true ∧
    TestState.held.time < 0 + 100000000 := by decide +kernel

/-! What the hypotheses of O42 (SubmissionsAreTaken) are met by -/

theorem test_wit_generate : TestState.submits.takesSubmit 0 1 (TestState.submission 1) = true ∧ (TestState.submits.generateCheck (TestState.submits.ringPart 0) (TestState.submission 1)).1 = codeOk ∧
    TestState.submits.freeEntry? (TestState.submits.ringPart 0) = some 0 ∧ TestState.submits.chainWhole 0 = true ∧ sbDlAbort (TestState.submission 1) = false ∧ sbDraftLen (TestState.submission 1) = 0 ∧
    TestState.submits.epochSlot? 0 (TestState.submits.currentEpoch 0) = some 0 ∧ TestState.submits.takesSubmit 0 1 1 = true ∧ TestState.submits.generateCheck 0 1 = (codeInvalid, 0) ∧
    TestState.oneEntry.takesSubmit 0 1 (TestState.submission 1) = true ∧ (TestState.oneEntry.generateCheck 0 (TestState.submission 1)).1 = codeOk ∧ TestState.oneEntry.freeEntry? 0 = none := by decide +kernel
theorem test_wit_cancel : TestState.oneEntry.takesSubmit 0 2 2 = true ∧ sbOnly 2 (0xFF + 0xFFFF * 2 ^ 32 + (2 ^ 64 - 1) * 2 ^ 128) = true ∧ liveState (TestState.oneEntry.request (sbContext 2)).state = true ∧
    (TestState.oneEntry.request 0).part = TestState.oneEntry.ringPart 0 ∧ (TestState.oneEntry.request 0).userId = sbUser 2 ∧ (TestState.oneEntry.request 0).state = .queued ∧
    (TestState.oneEntry.setRequest 0 { state := .decode }).takesSubmit 0 2 2 = true ∧ runState ((TestState.oneEntry.setRequest 0 { state := .decode }).request 0).state = true ∧
    TestState.submits.takesSubmit 0 2 2 = true ∧ liveState (TestState.submits.request 0).state = false := by decide +kernel
theorem test_wit_prefix : TestState.submits.takesSubmit 0 3 3 = true ∧ sbOnly 3 (0xFF + (2 ^ 64 - 1) * 2 ^ 128 + (2 ^ 64 - 1) * 2 ^ 256) = true ∧ TestState.submits.prefixEntry? (TestState.submits.ringPart 0) (sbPrefix 3) = none ∧
    (TestState.kept 0).takesSubmit 0 3 3 = true ∧ (TestState.kept 0).prefixEntry? 0 (sbPrefix 3) = some 4 ∧ (TestState.kept 0).prefixEntry 4 = some (TestState.prefixOf 0) ∧ (TestState.prefixOf 0).refs = 0 ∧
    (TestState.kept 1).takesSubmit 0 3 3 = true ∧ (TestState.kept 1).prefixEntry? 0 (sbPrefix 3) = some 4 ∧ (TestState.kept 1).prefixEntry 4 = some (TestState.prefixOf 1) ∧ (TestState.prefixOf 1).refs ≠ 0 := by decide +kernel

/-! What the hypotheses of O43 (RequestsRun) are met by -/

theorem test_wit_pass : TestState.deciding.admits 0 = true ∧ TestState.deciding.passIdle 0 = true ∧ TestState.deciding.passes 0 = true ∧ TestState.deciding.chainWhole 0 = true ∧
    (TestState.reviewed TestState.deciding).candidates 0 = [(5, TestState.deciding.request 5)] ∧ readyRequest ((TestState.reviewed TestState.deciding).request 5) = true ∧
    ((TestState.reviewed TestState.deciding).request 5).prefillPos ≥ ((TestState.reviewed TestState.deciding).request 5).promptLen ∧ specOn ((TestState.reviewed TestState.deciding).request 5) = false ∧
    ((TestState.reviewed TestState.deciding).request 5).drafts = [] ∧ (((TestState.reviewed TestState.deciding).setRequest 5 { (TestState.reviewed TestState.deciding).request 5 with drafts := [] }).getPages 5 1).isSome = true ∧
    (TestState.reviewed TestState.prefilling).candidates 0 = [(5, TestState.prefilling.request 5)] ∧ readyRequest ((TestState.reviewed TestState.prefilling).request 5) = true ∧ TestState.prefilling.passes 0 = true ∧
    ((TestState.reviewed TestState.prefilling).request 5).prefillPos < ((TestState.reviewed TestState.prefilling).request 5).promptLen ∧
    (∀ lat, ((TestState.reviewed TestState.prefilling).getPages 5 ((TestState.reviewed TestState.prefilling).chunkTokens ((TestState.reviewed TestState.prefilling).request 5).part ((TestState.reviewed TestState.prefilling).request 5) lat)).isSome = true) ∧
    (TestState.reviewed (TestState.deciding.setRequest 5 {})).candidates 0 = [] ∧ (TestState.deciding.setRequest 5 {}).passes 0 = true ∧ (TestState.deciding.wr Reg.HIF_DEV_STATE_STATE 0 0).passes 0 = false := by decide +kernel
theorem test_wit_step : (TestState.stepped.request 5).inFlight = true ∧ (TestState.stepped.request 5).member = false ∧ (TestState.stepped.request 5).isCompanion = false ∧ (TestState.stepped.request 5).state = .decode ∧
    TestState.stepped.slotRuns (TestState.stepped.request 5).part 5 = false ∧ (TestState.stepped.request 5).suspectStore = false ∧ (TestState.stepped.request 5).companion = 0xFFFF ∧
    (TestState.stepped.request 5).aborts + 1 < max 1 ((TestState.stepped.wr Reg.FLT_WD_CTRL_RERUN_MAX 0 3).rd Reg.FLT_WD_CTRL_RERUN_MAX) := by decide +kernel
theorem test_wit_tokens : (TestState.tokens.request 5).heldTokens ≠ [] ∧ TestState.tokens.ringKind (TestState.tokens.tokenRing (TestState.tokens.request 5)) = kindToken ∧ (TestState.tokens.request 5).state = .decode ∧
    TestState.tokens.writesNow (TestState.tokens.tokenRing (TestState.tokens.request 5)) 8 (TestState.tokens.request 5).heldTokens.length = true ∧
    (TestState.tokens.wr Reg.RCB_STATUS_STATE 9 0).ringRoom (TestState.tokens.tokenRing (TestState.tokens.request 5)) (TestState.tokens.request 5).heldTokens.length = false := by decide +kernel
theorem test_wit_completion : (TestState.completes.request 5).heldTokens = [] ∧ (TestState.completes.request 5).state = .done ∧ TestState.completes.ringKind (TestState.completes.completionRing (TestState.completes.request 5)) = kindCompletion ∧
    (TestState.completes.ringState (TestState.completes.completionRing (TestState.completes.request 5))).held = [] ∧ TestState.completes.writesNow (TestState.completes.completionRing (TestState.completes.request 5)) 32 1 = true ∧
    (TestState.completes.wr Reg.RCB_STATUS_STATE 9 0).ringRoom (TestState.completes.completionRing (TestState.completes.request 5)) 1 = false := by decide +kernel
theorem test_wit_ends : (TestState.ends.request 5).dlAbort = true ∧ (TestState.ends.request 5).deadline ≠ 0 ∧ (TestState.ends.request 5).deadline < TestState.ends.now ∧ (TestState.ends.request 5).state = .paused ∧
    (TestState.ends.request 5).cause = .pages ∧ (TestState.ends.request 5).pausedAt + TestState.ends.rd Reg.SRV_PART_WAIT_PAGEWAIT_MS (TestState.ends.request 5).part * 1000000 < TestState.ends.time ∧
    TestState.ends.pauseCleared 5 = true ∧ (TestState.ends.wr Reg.SRV_PART_KVGEO_STREAMS 0 1).pauseCleared 5 = false ∧ ((TestState.ends.setRequest 5 { state := .cancelling }).request 5).ringless = false ∧
    TestState.serving.now ≤ (TestState.serving.request 5).deadline := by decide +kernel

/-! What the hypotheses of O44 (MembersFollow) are met by -/

theorem test_wit_admit : smKind 1 = 1 ∧ TestState.submits.inSlice 0 (smContext 1) = true ∧ (TestState.submits.wr Reg.LDR_PART_INFO_ADMITTING 0 0).admits 0 = false ∧
    (TestState.submits.wr Reg.LDR_PART_INFO_ADMITTING 0 0).inSlice 0 (smContext 1) = true ∧ smKind (2 + 256) = 2 ∧ smCount (2 + 256) = 1 ∧ TestState.memberEntry.admits 0 = false ∧
    bit (TestState.memberEntry.rd Reg.FLT_PROG_LOST_PART) 0 = false ∧ (TestState.memberEntry.request (slotOf TestState.slotWord).context).state ≠ .free ∧ (TestState.memberEntry.request 5).part = 0 ∧ (TestState.memberEntry.request 5).member = true ∧
    TestState.memberEntry.passes 0 = false ∧ ({ TestState.memberEntry with cores := [] }.wr Reg.HIF_DEV_STATE_STATE 0 2).passes 0 = true := by decide +kernel
theorem test_wit_pass_pages : ((TestState.memberEntry.setRequest 5 { TestState.memberEntry.request 5 with kvlen := 3, ntok := 1, epoch := 1, step := 9 }).getPages 5 1).isSome = true ∧
    (slotOf TestState.slotWord).kvlen = 3 ∧ (slotOf TestState.slotWord).ntok = 1 ∧ (slotOf TestState.slotWord).epoch = 1 ∧ (slotOf TestState.slotWord).step = 9 ∧ (slotOf TestState.slotWord).context = 5 ∧
    (TestState.memberEntry.setRequest 5 {}).request 5 = {} := by decide +kernel
theorem test_wit_short : smKind (3 + 5 * 2 ^ 16) = 3 ∧ smContext (3 + 5 * 2 ^ 16) = 5 ∧ (TestState.serving.wr Reg.LDR_PART_INFO_ADMITTING 0 1).admits 0 = true ∧ (TestState.serving.request 5).part = 0 ∧
    runState (TestState.serving.request 5).state = true ∧ (TestState.serving.request 5).inFlight = true ∧ (TestState.serving.wr Reg.SRV_PART_WAIT_PAGEWAIT_MS 0 5).rd Reg.SRV_PART_WAIT_PAGEWAIT_MS ≠ 0 ∧
    (TestState.serving.wr Reg.SRV_PART_POOL_COUNT_FRAMES 0 5).rd Reg.SRV_PART_POOL_COUNT_FRAMES ≠ 0 ∧ smKind (4 + 5 * 2 ^ 16) = 4 ∧ smPrefix (4 + 5 * 2 ^ 16) = 0 ∧ smKind 0 = 0 := by decide +kernel

/-! What the hypotheses of O45 (PegFindsAndRetunes) are met by -/

theorem test_wit_due : TestState.pegged.is Reg.CAL_PEG_CTRL_EN = true ∧ TestState.pegged.swept 0 = true ∧ TestState.pegged.probeOlder 0 1 = true ∧ TestState.pegged.probeOlder 0 2 = true ∧
    0 ∉ SMap.get [] TestState.pegged.peg.due 0 ∧ 0 ∉ SMap.get [] TestState.pegged.peg.named 0 ∧ TestState.pegged.pegJobs 0 = [] ∧ 0 ∉ TestState.pegged.peg.overdue ∧
    TestState.pegged.swept 127 = true ∧ TestState.pegged.probeOlder 127 1 = true ∧ State.reset.probeOlder 0 1 = false ∧
    0 ∈ { TestState.pegged.peg with overdue := [0] }.overdue := by decide +kernel
theorem test_wit_probe : (TestState.due []).nextProbe 0 = some 0 ∧ (TestState.due []).swept 0 = true ∧ ((TestState.due []).startUnit 0 probeUnit false).isSome = true ∧
    (TestState.due []).suspectGroups 0 0 [] = [] ∧ (TestState.due [0]).nextProbe 0 = some 0 ∧
    ((TestState.due [0]).stackWrite (TestState.pegged.signatureAddress 0 0 0 0) (leBytes 4 (2 ^ 31 + 100))).suspectGroups 0 0 [] = [(0, 0)] ∧
    ({ TestState.due [] with thermal := { State.reset.thermal with tripped := true } }).startUnit 0 probeUnit false = none := by decide +kernel
theorem test_wit_read : ((TestState.jobs (TestState.rjob false)).pegJobs 0).find? (fun x => !x.judged) = some (TestState.rjob false) ∧ (0 : Nat) ∈ jobRows (TestState.rjob false) ∧
    (8 : Nat) ∈ jobRows (TestState.rjob false) ∧ ((TestState.jobs (TestState.rjob false)).startUnit 0 readUnit false).isSome = true ∧
    (∀ r ∈ jobRows (TestState.rjob false), (SMap.find? (SMap.insert (TestState.rjob false).reads 0 (TestState.cellsAt 0)) r).isSome) ∧
    SMap.find? (SMap.insert (TestState.rjob false).reads 8 (TestState.cellsAt 8)) 0 = none := by decide +kernel
theorem test_wit_judge :
    let reads := SMap.insert (TestState.rjob false).reads 0 (TestState.cellsAt 0)
    let read := fun r => (SMap.get [] reads r).map (level64 (refReadings (fun r => SMap.get [] reads r)))
    (∀ r ∈ probeRows 0 0, ∀ e ∈ cellErrors r (((read r).take 32).map nearestLevel) (read r), e ≤ 528) ∧
    ((probeRows 0 0).flatMap (fun r => ((read r).take 32).map nearestLevel)).sum = bits (((TestState.jobs (TestState.rjob false)).signatureWords 0).getD 0 0) 0 11 := by decide +kernel
theorem test_wit_wrong :
    let reads := SMap.insert (TestState.rjob false).reads 0 (List.replicate 32 128 ++ [0, 0, 0])
    let read := fun r => (SMap.get [] reads r).map (level64 (refReadings (fun r => SMap.get [] reads r)))
    ∃ e ∈ cellErrors 0 (((read 0).take 32).map nearestLevel) (read 0), 3168 < e := by decide +kernel
theorem test_wit_retune : ((TestState.jobs (TestState.rjob true)).pegJobs 0).find? (fun x => x.judged) = some (TestState.rjob true) ∧ (TestState.rjob true).marked.head? = some 0 ∧
    ((TestState.jobs (TestState.rjob true)).startUnit 0 slotUnit true).isSome = true ∧ (TestState.rjob true).marked = [0] ∧ (TestState.rjob true).slots < 5 ∧
    (∀ e ∈ cellErrors 0 ((TestState.jobs (TestState.rjob true)).rowLevels 0 0) (TestState.cellsAt 0), e ≤ 528) ∧
    (¬ ∀ e ∈ cellErrors 0 ((TestState.jobs (TestState.rjob true)).rowLevels 0 0) (List.replicate 35 64), e ≤ 528) := by decide +kernel

/-! What the hypotheses of O46 (SweepTreatsEveryTier) are met by -/

theorem test_wit_sweep : (TestState.sweep.board.powered = true ∧ TestState.sweep.thermal.tripped = false ∧ TestState.sweep.recovery.held = false ∧ TestState.sweep.rd Reg.TRM_PSTATE_STATE ≠ 5 ∧
    TestState.sweep.peg.sweeping = true ∧ 0 ∉ TestState.sweep.peg.treated ∧ TestState.sweep.rd Reg.CRS_ARR_TFMT_WIDTH 0 ≠ 0 ∧ TestState.sweep.residueWrong 0 (fun _ => []) = false) ∧
    (∃ k ∈ TestState.sweep.formatted, k ∉ TestState.sweep.peg.treated) ∧ TestState.sweep.rd Reg.CRS_ARR_TFMT_WIDTH 1 = 0 ∧
    (TestState.sweep.wr Reg.TRM_PSTATE_STATE 0 5).rd Reg.TRM_PSTATE_STATE = 5 ∧ (TestState.swept).peg.sweeping = true ∧ (∀ k ∈ TestState.swept.formatted, k ∈ TestState.swept.peg.treated) ∧
    TestState.swept.mail.deferred = [] := by decide +kernel
theorem test_wit_refs : refReadings (fun r => TestState.allRows.getD r []) = (List.range 16).map (fun m : Nat => 64 * (m : Int)) ∧
    ∀ m < 16, level64 ((List.range 16).map (fun m : Nat => 64 * (m : Int))) (64 * ((m : Nat) : Int)) = 64 * (m : Int) := by decide +kernel
theorem test_wit_cells : ∀ m < 16, ∀ e ∈ cellErrors (16 * m) (((TestState.cellsAt (16 * m)).take 32).map nearestLevel) (TestState.cellsAt (16 * m)), e ≤ 528 := by decide +kernel
theorem test_wit_clean : let row := fun r => TestState.allRows.getD r []; let read := fun r => (row r).map (level64 (refReadings row))
    ∀ r < 256, ∀ e ∈ cellErrors r (((read r).take 32).map nearestLevel) (read r), e ≤ 528 := by
  intro row read r h
  have hr : row r = TestState.cellsAt r := by simp [row, TestState.allRows, h]
  have l0 := test_wit_refs.2 0 (by decide)
  have lm := test_wit_refs.2 (r / 16) (by omega)
  have e : read r = TestState.cellsAt r := by
    simp only [read, hr, test_wit_refs.1, row] at *
    simp only [TestState.cellsAt, List.map_append, List.map_replicate, List.map_cons, List.map_nil, lm]
    rw [show ((0 : Int) = 64 * ((0 : Nat) : Int)) from rfl, l0]
  have c := test_wit_cells (r / 16) (by omega)
  have d : 16 * (r / 16) / 16 = r / 16 := by omega
  simp only [TestState.cellsAt, cellErrors, cellTargets, d] at c
  rw [e]; simpa only [TestState.cellsAt, cellErrors, cellTargets] using c
theorem test_wit_off : let row := fun r => TestState.allRows.getD r []; let read := fun _ : Nat => (List.replicate 35 128).map (level64 (refReadings row))
    ∃ e ∈ cellErrors 0 (((read 0).take 32).map nearestLevel) (read 0), 3168 < e := by
  simp only [test_wit_refs.1]; decide +kernel

/-! What the hypotheses of O47 (CalibrationRuns) are met by -/

theorem test_wit_cal : TestState.owned.reachesOwned TestState.pf0 0x100040 = true ∧ TestState.owned.rd Reg.CAL_STATUS_STATE ≠ 1 ∧ (TestState.calAt 1).reachesOwned TestState.pf0 0x100040 = true ∧
    (TestState.calAt 1).rd Reg.CAL_STATUS_STATE = 1 := by decide +kernel
theorem test_wit_calstep : (TestState.calAt 3).rd Reg.CAL_STATUS_STEP = 3 ∧ (TestState.calAt 3).is Reg.CAL_MCV_EN_EN = true ∧ SMap.find? (TestState.calAt 3).board.excursions 8 = none ∧
    (TestState.calAt 3).rd Reg.CAL_REF_UV_UV = 0 ∧ ((TestState.calAt 3).wr Reg.CAL_REF_UV_UV 0 2500000).rd Reg.CAL_REF_UV_UV = 2500000 ∧
    ((TestState.calAt 3).wr Reg.CAL_REF_PPM_PPM 0 50).rd Reg.CAL_REF_PPM_PPM ≠ 0 ∧ (100 < 200 * ((0 : Int) - 100).natAbs) ∧ (TestState.calAt 6).rd Reg.CAL_STATUS_STEP = 6 ∧
    (TestState.calAt 2).stepError {} = 0 ∧ (TestState.calAt 2).cal.aborting = false ∧ ({ TestState.calAt 2 with cal := { aborting := true } }).cal.aborting = true ∧
    (TestState.calAt 2).rd Reg.CAL_STATUS_STEP < 9 ∧ (TestState.calAt 9).rd Reg.CAL_STATUS_STEP = 9 ∧ (TestState.calAt 9).cal.aborting = false := by decide +kernel
theorem test_wit_recal : TestState.old.recalDue 3 = true ∧ 3 ∉ TestState.old.cal.recal ∧ State.reset.recalDue 3 = false ∧ ({ TestState.old with cal := { recal := [3] } }).cal.recal = [3] ∧
    TestState.old.rd Reg.CAL_STATUS_STATE ≠ 1 := by decide +kernel

/-! What the hypotheses of O48 (MetrologyConverts) are met by -/

theorem test_wit_mcv : (TestState.mcvOn [] 0).converts = true ∧ (TestState.mcvOn [] 0).scanNext (TestState.mcvOn [] 0).mcv.entry = some 0 ∧
    (TestState.mcvOn [] 0).mcv.setting = some ((TestState.mcvOn [] 0).rd Reg.MCV_SCAN_CH 0, (TestState.mcvOn [] 0).scanSel 0, (TestState.mcvOn [] 0).scanOrder 0, (TestState.mcvOn [] 0).scanOsr 0,
      (TestState.mcvOn [] 0).is Reg.MCV_CTRL_NOTCH_EN) ∧ (TestState.mcvOn [] 0).mcv.settle = 0 ∧ (TestState.mcvOn [] 0).mcv.taken + 1 < (TestState.mcvOn [] 0).rd Reg.MCV_SCAN_REPEAT 0 ∧
    ((TestState.mcvOn [] 0).wr Reg.MCV_SCAN_REPEAT 0 1).rd Reg.MCV_SCAN_REPEAT 0 ≤ 1 ∧ (TestState.mcvOn (List.replicate 256 0) 0).mcv.queue.length = 256 ∧
    (TestState.mcvOn [] 1).converts = true ∧ (TestState.mcvOn [] 1).scanNext (TestState.mcvOn [] 1).mcv.entry = some 0 ∧
    4 ≤ (TestState.mcvOn [] 0).rd Reg.MCV_SCAN_CH 0 ∧ (TestState.mcvOn [] 0).rd Reg.MCV_SCAN_CH 0 ≤ 12 ∧ State.reset.converts = false := by decide +kernel
theorem test_wit_mcvread : (TestState.mcvOn [7] 0).reaches TestState.pf0 0x110010 = true ∧ (TestState.mcvOn [7] 0).mcv.queue = [7] ∧ (TestState.mcvOn [7] 0).reaches TestState.pf0 0x110018 = true := by decide +kernel
theorem test_wit_mcvswitch : ∃ old, (TestState.mcvOn [] 1).mcv.setting = some old ∧ old.1 ≠ (TestState.mcvOn [] 1).rd Reg.MCV_SCAN_CH 0 := ⟨_, rfl, by decide +kernel⟩

/-! What the hypotheses of O49 (HeatAndPowerClampIssue) are met by -/

theorem test_wit_sample : TestState.live.board.powered = true ∧ TestState.live.is Reg.TRM_SENSOR_FAILED 3 = false ∧ (TestState.live.takeReading 3 2000).readingFails 3 = false ∧
    (TestState.live.takeReading 3 2000).hottest = some (3, 2000) ∧ (TestState.live.setSensor 3 { hot := 1 }).thermal.tripped = false ∧
    1 ≤ ((TestState.live.setSensor 3 { hot := 1 }).sensor 3).hot ∧ ((TestState.live.setSensor 3 { hot := 1 }).takeReading 3 2000).readingFails 3 = false ∧
    (2401 : Int) + SMap.get 0 TestState.live.cal.offsets 3 > 2400 := by decide +kernel
theorem test_wit_stall : (TestState.stalling).sensorUsed 3 = true ∧ ((TestState.stalling).sensor 3).time + 10000000 ≤ TestState.stalling.time ∧ TestState.stalling.thermal.tripped = false ∧
    State.reset.sensorUsed 3 = false := by decide +kernel
theorem test_wit_ack : TestState.owned.reachesOwned TestState.pf0 0x120068 = true ∧ TestState.owned.thermal.trips = [] ∧ TestState.hosts.reaches TestState.pf0 0x12000C = true ∧
    TestState.hosts.reaches TestState.pf0 0xC003C = true ∧ (TestState.owned.wr Reg.HIF_DEV_STATE_STATE 0 1).rd Reg.HIF_DEV_STATE_STATE = 1 ∧ TestState.owned.is Reg.HIF_DEV_STATE_VERIFY = false := by decide +kernel
theorem test_wit_cap : ({ TestState.owned with thermal := { TestState.owned.thermal with powers := [6400] } }).thermal.powers = 6400 :: [] := rfl

/-! What the hypotheses of O50 (PowerStatesChange) are met by -/

theorem test_wit_idle : TestState.old.rd Reg.TRM_IDLE_US ≠ 0 ∧ TestState.old.cores.any (fun e => e.2.running && courseOf e.1 == 3) = false ∧ TestState.old.courseNapped 3 = false ∧ 3 ∉ TestState.old.thermal.gated ∧
    SMap.get 0 TestState.old.thermal.lastPass 3 + 1000 * TestState.old.rd Reg.TRM_IDLE_US ≤ TestState.old.time ∧ TestState.owned.reachesOwned TestState.pf0 0x120048 = true ∧
    TestState.owned.clockHeld = false ∧ TestState.owned.rungBusy = false ∧ TestState.owned.coursePart 3 = none ∧ TestState.fabric.coursePart 0 ≠ none ∧
    (TestState.held.wr Reg.HIF_OWN_STATUS_OWNER 0 1).reachesOwned TestState.pf0 0x120048 = true ∧ TestState.held.clockHeld = true := by decide +kernel
theorem test_wit_pstates : TestState.owned.reachesOwned TestState.pf0 0x120040 = true ∧ ((State.reset.wr Reg.TRM_PSTATE_STATE 0 1).rd Reg.TRM_PSTATE_STATE = 1 ∧ State.reset.cores.all (fun e => !e.2.running) = true) ∧
    (State.reset.wr Reg.TRM_PSTATE_STATE 0 3).rd Reg.TRM_PSTATE_STATE = 3 ∧ (State.reset.wr Reg.TRM_PSTATE_STATE 0 4).rd Reg.TRM_PSTATE_STATE = 4 ∧
    (State.reset.wr Reg.HIF_DEV_STATE_STATE 0 3).rd Reg.HIF_DEV_STATE_STATE = 3 ∧ (State.reset.wr Reg.HIF_DEV_STATE_STATE 0 3).serving.requests.all (fun e => e.2.state == .free) = true ∧
    State.reset.rungBusy = false ∧ State.reset.clockHeld = false ∧ (State.reset.wr Reg.HIF_DEV_STATE_STATE 0 3).rd Reg.TRM_PSTATE_STATE = 0 ∧
    (State.reset.wr Reg.TRM_PSTATE_STATE 0 2).rd Reg.TRM_PSTATE_STATE = 2 := by decide +kernel
theorem test_wit_commander : ∀ who, Commander.tray = .register who → State.reset.reachesOwned who 0x120040 = true := by intro _ h; cases h
theorem test_wit_nap_since : ({ TestState.old with thermal := { TestState.old.thermal with napSince := some 5 } }).thermal.napSince = some 5 := rfl

/-! What the hypotheses of O51 (ErrorsAreScrubbedAndCompared) are met by -/

theorem test_wit_scrub : (0 : BitVec 39).toNat < stackSize ∧ TestState.live.resting = false ∧ TestState.live.board.powered = true ∧ TestState.signed.poolOf? 10 = none ∧
    (10 < TestState.signed.rd Reg.FLT_LOG_BASE_FRAME ∨ TestState.signed.rd Reg.FLT_LOG_BASE_FRAME + 531 ≤ 10) ∧ 65536 * TestState.signed.rd Reg.CAL_SIG_BASE_FRAME ≤ (655360 : BitVec 39).toNat ∧
    (TestState.paged.poolOf? 0).isSome = true ∧ TestState.paged.serving.prefixes = [] ∧
    (TestState.paged.serving.requests.filter (fun e => e.2.state != .free && e.2.pages.any (fun p => p.2.frame == 0))).map Prod.fst = [5] ∧
    (TestState.paged.request 5).state = .queued ∧ (TestState.paged.request 5).companion = 0xFFFF := by decide +kernel
theorem test_wit_copies : (TestState.copies 7).streamCopy 0 0 false = some ((TestState.copies 7).takePacket 0 (TestState.seqWord 4 0) TestState.packet, 0, 1, TestState.seqWord 4 0) ∧
    (TestState.copies 7).streamCopy 0 0 true = some ((TestState.copies 7).takePacket 0 (TestState.seqWord 4 0) (TestState.twinPacket 7), 0, 1, TestState.seqWord 4 0) ∧
    (((TestState.copies 7).takePacket 0 (TestState.seqWord 4 0) TestState.packet).received 0 1 (TestState.seqWord 4 0)).length =
      (((TestState.copies 7).takePacket 0 (TestState.seqWord 4 0) (TestState.twinPacket 7)).received 0 1 (TestState.seqWord 4 0)).length := by decide +kernel
theorem test_wit_copies_agree : ∀ e ∈ ((((TestState.copies 7).takePacket 0 (TestState.seqWord 4 0) TestState.packet).received 0 1 (TestState.seqWord 4 0)).zip (((TestState.copies 7).takePacket 0 (TestState.seqWord 4 0) (TestState.twinPacket 7)).received 0 1 (TestState.seqWord 4 0))), agrees ((TestState.copies 7).bandOf 0 1 (TestState.seqWord 4 0)) e.1 e.2 = true := List.all_eq_true.mp (by decide +kernel)
theorem test_wit_copies_differ : ¬ ∀ e ∈ ((((TestState.copies 8).takePacket 0 (TestState.seqWord 4 0) TestState.packet).received 0 1 (TestState.seqWord 4 0)).zip (((TestState.copies 8).takePacket 0 (TestState.seqWord 4 0) (TestState.twinPacket 8)).received 0 1 (TestState.seqWord 4 0))), agrees ((TestState.copies 8).bandOf 0 1 (TestState.seqWord 4 0)) e.1 e.2 = true := fun h => absurd (List.all_eq_true.mpr h) (by decide +kernel)
theorem test_wit_late : TestState.alone.streamCopy 0 0 false = some (TestState.alone.takePacket 0 (TestState.seqWord 4 0) TestState.packet, 0, 1, TestState.seqWord 4 0) ∧
    TestState.alone.streamCopy 0 0 true = none ∧ 100 * (TestState.alone.core 0).part + courseOf 5000 ∉ TestState.alone.fault.absent ∧ TestState.alone.time < 0 + TestState.alone.twinWait ∧
    ({ TestState.alone with time := 1000000 }).streamCopy 0 0 true = none ∧ 0 + ({ TestState.alone with time := 1000000 }).twinWait ≤ 1000000 := by decide +kernel

/-! What the hypotheses of O52 (AuditsJudgeAndRollBack) are met by -/

theorem test_wit_audit : (TestState.sampled 0 []).auditSample 0 3 = TestState.sample [] ∧ (TestState.sample []).waiting = true ∧ (TestState.sampled 0 []).sampling 0 3 = false ∧
    (TestState.sampled 0 []).passNow 0 ≤ (TestState.sample []).pass + 64 ∧ (TestState.sample []).pass + 64 ≤ (TestState.sampled 65 []).passNow 0 ∧
    auditPasses ((TestState.sampled 0 []).band 0 1) 1 (TestState.sample []).codes ((TestState.sampled 0 []).expectedCodes 0 (TestState.sample []) []) = true ∧
    auditPasses ((TestState.sampled 0 [63]).band 0 1) 1 (TestState.sample [63]).codes ((TestState.sampled 0 [63]).expectedCodes 0 (TestState.sample [63]) []) = false := by decide +kernel
theorem test_wit_stand_alone : ((TestState.sampled 0 []).auditSample 0 3).conversions ≠ 0 ∧ ((TestState.sampled 0 []).auditSample 0 3).tier = 0 ∧ (TestState.sampled 0 []).tierReady 0 0 0 = true ∧
    ((TestState.sampled 0 []).startUnit 0 240 false).isSome = true ∧ auditPasses ((TestState.sampled 0 []).band 0 1) 0 [] [] = true ∧ State.reset.tierReady 0 0 0 = false := by decide +kernel
theorem test_wit_audit_rollback : (TestState.logged .queued).checkpoint 0 5 0 0 = some TestState.slotOf ∧ (TestState.logged .queued).serving.prefixes = [] ∧ (TestState.logged .queued).checkpoint 0 6 0 0 = none ∧
    (∀ st ∈ [ReqState.queued, .cancelling, .faulted], ((TestState.logged st).request 5).state = st ∧ ((TestState.logged st).request 5).version = 0 ∧ ((TestState.logged st).request 5).part = 0 ∧
      ((TestState.logged st).request 5).rolledBack = false ∧ ((TestState.logged st).request 5).companion = 0xFFFF ∧ ((TestState.logged st).request 5).pfxEntry = 0xFFFF ∧
      ((TestState.logged st).request 5).promptLen ≤ TestState.slotOf.prefillPos) := by decide +kernel
theorem test_wit_confirm : TestState.quarantined.quarantinedUnit 0 (some 2) = some (unitArray 0 2 0, 3) ∧ TestState.quarantined.replaced 0 (some 2) = true ∧ State.reset.quarantinedUnit 0 (some 2) = none := by decide +kernel

/-! What the hypotheses of O53 (FieldTestsRun) are met by -/

theorem test_wit_field : TestState.owned.reachesOwned TestState.pf0 0x130060 = true ∧ bit (2 : W32).toNat 8 = false ∧ bit (2 : W32).toNat 7 = false ∧ TestState.owned.fault.fieldTest = none ∧
    bits (2 : W32).toNat 0 7 = 2 ∧ TestState.owned.logicalOf 2 = some 2 ∧ 2 ∉ TestState.owned.recovery.courses ∧ TestState.owned.is Reg.NOC_COURSE_MAP_OUT 2 = false ∧ TestState.owned.coursePart 2 = none ∧
    (TestState.owned.wr Reg.PRT_COURSE_ASSIGNED 2 1).coursePart 2 = some 0 ∧ (TestState.owned.wr Reg.PRT_COURSE_ASSIGNED 2 1).is Reg.PRT_PCTRL_REDUNDANT 0 = false ∧
    100 ≤ bits (127 : W32).toNat 0 7 ∧ bit (127 : W32).toNat 8 = false := by decide +kernel
theorem test_wit_field_done : TestState.testing.fault.fieldTest = some { course := 0 } ∧ courseOf (0 : Core) = 0 ∧ TestState.testing.rd Reg.CRS_ARR_STATUS_STATE (arrayKey 0 1) = 3 := by decide +kernel

/-! What the hypotheses of O54 (ReportsBecomeRecords) are met by -/

theorem test_wit_report : State.reset.fault.aggs = [] ∧ TestState.owned.chipResetting = false ∧ TestState.counted.chipResetting = false ∧
    (SMap.get {} TestState.counted.fault.aggs (aggregatorOf { sender := unitCore 0 1, unit := unitCore 0 1, cls := 4 })).records = [TestState.rec] ∧ TestState.rec.unit = unitCore 0 1 ∧ TestState.rec.cls = 4 ∧
    auditCompleted TestState.rec = false ∧ TestState.counted.time ≤ TestState.rec.time + TestState.counted.aggWindow ∧ TestState.owned.pegJobs (arrayKey 0 0) = [] ∧
    3 ∉ SMap.get [] TestState.owned.peg.named (arrayKey 0 0) := by decide +kernel
theorem test_wit_close : ((SMap.get {} TestState.closing.fault.aggs 0).records.filter (fun c => decide (c.time + TestState.closing.aggWindow ≤ TestState.closing.time))) = [TestState.rec] ∧
    (SMap.get [] TestState.closing.fault.queues 0).length + 1 ≤ 64 ∧ (64 ≤ (SMap.get [] (TestState.queued (List.replicate 64 TestState.rec)).fault.queues 0).length) := by decide +kernel
theorem test_wit_log : earliestQueue (TestState.queued [TestState.rec]).fault.queues = some (0, TestState.rec) ∧ (TestState.queued [TestState.rec]).fault.held = [] ∧
    earliestQueue TestState.holdingRec.fault.queues = none ∧ TestState.holdingRec.fault.held.find? (fun e => decide (e.1 + TestState.holdingRec.aggWindow ≤ TestState.holdingRec.time)) = some (0, TestState.rec) ∧
    TestState.holdingRec.logHeld ≠ 4096 ∧ TestState.holdingRec.logAddress 0 + 32 ≤ stackSize ∧ (TestState.holdingRec.wr Reg.FLT_LOG_WR_INDEX 0 4096).logHeld = 4096 ∧
    State.reset.fault.held.find? (fun e => decide (e.1 + State.reset.aggWindow ≤ State.reset.time)) = none := by decide +kernel
theorem test_wit_log_read : TestState.owned.reachesOwned TestState.pf0 0x130008 = true ∧ ((0 : W32).toNat + 2 ^ 32 - TestState.owned.rd Reg.FLT_LOG_RD_INDEX) % 2 ^ 32 ≤ TestState.owned.logHeld ∧
    TestState.owned.logHeld < ((1 : W32).toNat + 2 ^ 32 - TestState.owned.rd Reg.FLT_LOG_RD_INDEX) % 2 ^ 32 ∧ TestState.owned.reachesOwned TestState.pf0 0x13002C = true := by decide +kernel

/-! What the hypotheses of O55 (ContextAndCourseResets) are met by -/

theorem test_wit_context_reset : (TestState.deciding.request 5).part = 0 ∧ TestState.deciding.absorbed 0 = false ∧ (TestState.deciding.request 5).member = false ∧ (TestState.deciding.request 5).ringless = false ∧
    runState (TestState.deciding.request 5).state = true ∧ (TestState.prefilling.request 5).state = .queued ∧ TestState.prefilling.absorbed 0 = false ∧ liveState (State.reset.request 5).state = false := by decide +kernel
theorem test_wit_course_reset : TestState.live.mayResetCourse 3 = true ∧ TestState.live.cores.any (fun e => courseOf e.1 == 3 && e.2.running) = false ∧ TestState.assigned.cores.any (fun e => e.2.running && courseOf e.1 == 0) = true ∧
    TestState.assigned.courseNapped 0 = false ∧ 0 ∉ TestState.assigned.thermal.gated ∧ TestState.assigned.mayResetCourse 0 = true ∧ 0 ∈ TestState.inReset.recovery.courses ∧ TestState.inReset.mayResetCourse 0 = false := by decide +kernel
theorem test_wit_notice : noticeScope (256 + 5 * 65536) = 1 ∧ noticeContext (256 + 5 * 65536) = 5 ∧ TestState.submits.admits 0 = true ∧ liveState (TestState.deciding.request 5).state = true ∧
    TestState.deciding.admits 0 = true ∧ TestState.memberEntry.admits 0 = false ∧ (TestState.memberEntry.request 5).member = true ∧ 2 ≤ noticeScope 512 := by decide +kernel

/-! What the hypotheses of O56 (PartitionAndChipResets) are met by -/

theorem test_wit_partition_reset : TestState.submits.absorbed 0 = false ∧ TestState.deciding.entriesOf 0 = [5] ∧ (TestState.deciding.request 5).member = false ∧ (TestState.deciding.request 5).isCompanion = false ∧
    TestState.assigned.physCoursesOf 0 ≠ [] ∧ TestState.assigned.absorbed 0 = false ∧ SMap.sorted TestState.memberEntry.serving.requests = true ∧ (TestState.memberEntry.request 5).member = true ∧ 5 ∈ TestState.memberEntry.entriesOf 0 := by decide +kernel
theorem test_wit_chip_reset : TestState.live.recovery.held = false ∧ TestState.live.thermal.tripped = false ∧ TestState.live.board.powered = true ∧ TestState.live.thermal.cooling = false ∧
    TestState.bootable.bootImage = some 0 ∧ TestState.unbootable.bootImage = none ∧ TestState.down.recovery.held = true ∧ TestState.down.board.powered = true ∧ TestState.down.thermal.tripped = false ∧
    TestState.down.recovery.refLost = false ∧ ({ TestState.live with fabric := { TestState.live.fabric with selfTest := true } }).fabric.selfTest = true := by decide +kernel
theorem test_wit_overrun : (TestState.rungOf 2 3).recovery.rungs.find? (fun h => h.level == 2 && h.target == 3) = some ⟨2, 3, 0, 10⟩ ∧ (0 : Nat) + 10 ≤ (TestState.rungOf 2 3).time ∧
    (TestState.rungOf 3 0).recovery.rungs.find? (fun h => h.level == 3 && h.target == 0) = some ⟨3, 0, 0, 10⟩ ∧
    (TestState.rungOf 1 0).recovery.rungs.find? (fun h => h.level == 1 && h.target == 0) = some ⟨1, 0, 0, 10⟩ ∧
    ((TestState.rungOf 1 0).wr Reg.PRT_COURSE_ASSIGNED 0 1).coursePart 0 = some 0 ∧ ((TestState.rungOf 1 0).wr Reg.PRT_COURSE_ASSIGNED 0 1).absorbed 0 = false := by decide +kernel

/-! What the hypotheses of O57 (PowerRailsAndClocks) are met by -/

theorem test_wit_power : (∀ e ∈ TestState.live.sec.current.fields, keyIsConfig e.1 = true) ∧ TestState.live.rd Reg.SEC_FW_STATUS_ACTIVE = 0 ∧ TestState.live.is Reg.SEC_FW_STATUS_FAIL_A = false ∧
    TestState.live.rd Reg.SEC_FW_STATUS_MIN_SVN ≤ TestState.live.sec.imageA.svn ∧ TestState.live.rd Reg.TRM_TRIP_STATUS_UNACK = 0 ∧ (TestState.live.wr Reg.TRM_TRIP_STATUS_UNACK 0 1).rd Reg.TRM_TRIP_STATUS_UNACK ≠ 0 := by decide +kernel
theorem test_wit_rails : TestState.live.railArmed 2 = true ∧ TestState.live.railArmed 6 = true ∧ TestState.live.railArmed 8 = true ∧ TestState.live.railArmed 7 = false ∧
    (TestState.live.wr Reg.CAL_STATUS_STATE 0 1).rd Reg.CAL_STATUS_STATE = 1 ∧ SMap.find? TestState.excursion.board.excursions 2 = some 0 ∧ 0 + 10000000 < TestState.excursion.time ∧
    (TestState.excursion.wr Reg.TRM_PSTATE_STATE 0 5).rd Reg.TRM_PSTATE_STATE = 5 ∧ TestState.excursion.board.stkRise = some 0 ∧ 0 + 20000000 ≤ TestState.excursion.time := by decide +kernel
theorem test_wit_clocks : TestState.live.recovery.refLost = false ∧ TestState.live.recovery.held = false ∧ TestState.live.thermal.tripped = false ∧ TestState.refGone.recovery.refLost = true ∧
    TestState.refGone.recovery.devLow = false ∧ TestState.refGone.recovery.held = true ∧ TestState.refGone.thermal.cooling = false ∧ TestState.refGone.bootImage = some 0 ∧ TestState.refGone.board.powered = true := by decide +kernel

/-! What the hypotheses of O58 (StagesGatherAndCommit) are met by -/

theorem test_wit_stage : TestState.owned.reachesOwned TestState.pf0 0x34 = true ∧ isVf TestState.pf0 = false ∧ TestState.owned.stageClosed = false ∧ (TestState.sealed 2).stageClosed = true ∧ TestState.owned.sec.entries = [] ∧
    TestState.owned.reachesOwned TestState.pf0 0x1400A0 = true ∧ TestState.owned.sec.keys = [] ∧ bit (0x115 : W32).toNat 8 = true ∧ bit (0x15 : W32).toNat 8 = false ∧ bits (0x15 : W32).toNat 4 4 ≠ 0 ∧
    ((TestState.owned.wr Reg.LDR_LAND_SIZE_BUFFERS 0 1).wr Reg.LDR_LAND_BASE_OFFSET 0 0).inLanding 0 1793 = true ∧ TestState.owned.reachesOwned TestState.pf0 0x140030 = true ∧
    (TestState.sealed 1).rd Reg.SEC_TP_STATUS_STATE = 1 ∧ TestState.owned.rd Reg.SEC_TP_STATUS_STATE = 0 ∧ TestState.owned.sec.other = none ∧
    ({ TestState.sealed 2 with time := 10 ^ 15 }).sec.sealedAt + 1000000000 * max 1 ((TestState.sealed 2).rd Reg.SEC_TP_CTRL_TIMEOUT_S) ≤ 10 ^ 15 := by decide +kernel
theorem test_wit_other : ({ TestState.owned with sec := { TestState.owned.sec with other := some { valid := true }, dirty := some 0 } }).sec.other = some { valid := true } := rfl
theorem test_wit_approve : (TestState.sealed 2).approveChannel .mctp = true ∧ (TestState.sealed 2).rd Reg.SEC_TP_STATUS_STATE = 2 ∧ (TestState.sealed 2).provisioned = false ∧
    (TestState.sealed 1).rd Reg.SEC_TP_STATUS_STATE ≠ 2 ∧ (TestState.sealed 2).stagedApprovers ≠ [] ∧ (TestState.sealed 2).cal.boundary = [] ∧ (TestState.sealed 2).sec.other = none ∧
    (TestState.sealed 2).sec.entries = [{ offset := 0x34, selector := 0, value := 5 }] := by decide +kernel
theorem test_wit_approval : (TestState.sealed 2).approvesStage { serial := Config.serialNumber, gen := 0, nonce := 0, digest := 0, signer := some 0 } = true ∧
    (TestState.sealed 2).approvalVerifies { serial := Config.serialNumber, gen := 0, nonce := 0, digest := 0, signer := some 0 } = true := by
  constructor
  · unfold State.approvesStage
    simp only [beq_self_eq_true, Bool.true_and]
    decide +kernel
  · decide +kernel

/-! What the hypotheses of O59 (FirmwareAndAttestation) are met by -/

theorem test_wit_firmware : TestState.owned.reachesOwned TestState.pf0 0x140008 = true ∧ TestState.owned.rd Reg.SEC_FW_STATUS_RUNNING = 0 ∧ (TestState.owned.wr Reg.SEC_FW_STATUS_RUNNING 0 1).rd Reg.SEC_FW_STATUS_RUNNING = 1 ∧
    TestState.owned.rd Reg.SEC_FW_STATUS_MIN_SVN ≤ (0 : BitVec 12).toNat ∧ (0 : BitVec 12).toNat < (TestState.owned.wr Reg.SEC_FW_STATUS_MIN_SVN 0 1).rd Reg.SEC_FW_STATUS_MIN_SVN ∧
    TestState.owned.rd Reg.SEC_FW_STATUS_SVN ≤ TestState.owned.sec.imageB.svn ∧ TestState.owned.is Reg.SEC_FW_STATUS_FAIL_B = false ∧
    TestState.owned.sec.imageB.svn < (TestState.owned.wr Reg.SEC_FW_STATUS_SVN 0 1).rd Reg.SEC_FW_STATUS_SVN := by decide +kernel
theorem test_wit_spdm : ((TestState.live.setSpdm .mctp { negotiated := true }).spdm .mctp).negotiated = true ∧ (TestState.live.spdm .mctp).negotiated = false ∧ (4 : Byte).toNat ∈ measurementIndices ∧
    (9 : Byte).toNat ∉ measurementIndices ∧ (TestState.sealed 2).rd Reg.SEC_TP_STATUS_STATE = 2 := by decide +kernel

end
end

namespace Sys2Proof.Machine

/-! What a command keeps -/

/-- What a command keeps, with its own footprint as the mask. -/
theorem keeps_of_exec {c : Instr} {s t : State} (h : exec c s = .next t) : Keeps (footprint c) s t :=
  (exec_keeps c (Keeps.refl _ s) (Nat.and_self _)).keeps t h

/-- A command that answers a next state by a computation of that state. -/
theorem does_next {c : Instr} {s t : State} {P : State → Prop} (h : exec c s = .next t) (p : P t) : s.does c P := ⟨t, h, p⟩

/-- A mask names none of these fields. -/
def sparesFields (fs : List Field) (W : Nat) : Bool := fs.all (fun f => decide (f.id < 1024) && !W.testBit (32 + f.id))

theorem Keeps.spared {W : Nat} {s t : State} (k : Keeps W s t) {fs : List Field} (h : sparesFields fs W = true) {f : Field} (hf : f ∈ fs)
    (i : Nat) : t.rd f i = s.rd f i := by
  have := List.all_eq_true.1 h f hf
  simp only [Bool.and_eq_true, decide_eq_true_eq, Bool.not_eq_true'] at this
  exact k.rd f i this.1 this.2

/-! What a state keeps, put together -/

theorem StatePart.same.trans {s t u : State} {p : StatePart} (h : p.same s t) (g : p.same t u) : p.same s u := by
  cases p <;> exact Eq.trans g h

theorem State.sameBut_refl (s : State) (ps : List StatePart) (fs : List Field) : s.sameBut s ps fs :=
  ⟨fun p _ => by cases p <;> rfl, fun _ _ _ _ => rfl⟩

theorem State.sameBut.trans {s t u : State} {ps : List StatePart} {fs : List Field} (h : s.sameBut t ps fs) (g : t.sameBut u ps fs) :
    s.sameBut u ps fs :=
  ⟨fun p hp => (h.1 p hp).trans (g.1 p hp), fun f hf hn i => (g.2 f hf hn i).trans (h.2 f hf hn i)⟩

theorem State.sameBut.mono {s t : State} {ps qs : List StatePart} {fs gs : List Field} (h : s.sameBut t ps fs) (hp : ps ⊆ qs)
    (hf : fs ⊆ gs) : s.sameBut t qs gs :=
  ⟨fun p hn => h.1 p (fun hm => hn (hp hm)), fun f ht hn => h.2 f ht (fun g hg => hn g (hf hg))⟩

/-- A store into a field changes nothing but that field. -/
theorem State.sameBut_wr (s : State) (f : Field) (i v : Nat) : s.sameBut (s.wr f i v) [] [f] :=
  ⟨fun p _ => by cases p <;> rfl, fun _ _ hn _ => State.rd_wr_ne (fun e => hn f (by simp) e.symm)⟩

/-- A store into a field among those named. -/
theorem State.sameBut_wr_mem (s : State) {f : Field} {fs : List Field} (h : f ∈ fs) (ps : List StatePart) (i v : Nat) :
    s.sameBut (s.wr f i v) ps fs :=
  (s.sameBut_wr f i v).mono (List.nil_subset _) (by simpa using h)

theorem State.otherCopies_wr (s : State) (f : Field) (i v : Nat) : s.otherCopies (s.wr f i v) f i := fun _ h => State.rd_wr_other h

theorem State.sameBut_emit (s : State) (o : Output) (fs : List Field) : s.sameBut (s.emit o) [.out] fs :=
  ⟨fun p hp => by cases p with | out => exact absurd (List.mem_singleton_self _) hp | _ => rfl, fun _ _ _ _ => rfl⟩

@[simp] theorem State.rd_noteNv (s : State) (f : Field) (i : Nat) : s.noteNv.rd f i = s.rd f i := rfl

theorem State.sameBut_mail (s : State) (x : MailState) (fs : List Field) : s.sameBut { s with mail := x } [.mail] fs :=
  ⟨fun p hp => by cases p with | mail => exact absurd (List.mem_singleton_self _) hp | _ => rfl, fun _ _ _ _ => rfl⟩

theorem State.sameBut_noteNv (s : State) (fs : List Field) : s.sameBut s.noteNv [.sec] fs :=
  ⟨fun p hp => by cases p with | sec => exact absurd (List.mem_singleton_self _) hp | _ => rfl, fun _ _ _ _ => rfl⟩

/-! NV fields through resets and power states (R7, R8) -/

/-- The NV fields that survive every reset and power state: all but those of an epoch that retires, the report of lost programs, and
the array states of power-on. -/
def nvFields : List Field :=
  Reg.table.filter (fun f => decide (f.survives = .nv) && decide (f ∉ Reg.retirement) && decide (f ≠ Reg.FLT_PROG_LOST_PART) &&
    decide (f ≠ Reg.CRS_ARR_STATUS_STATE))

theorem mem_nvFields {f : Field} : f ∈ nvFields ↔ f ∈ Reg.table ∧ f.survives = .nv ∧ f ∉ Reg.retirement ∧ f ≠ Reg.FLT_PROG_LOST_PART ∧
    f ≠ Reg.CRS_ARR_STATUS_STATE := by
  simp only [nvFields, List.mem_filter, Bool.and_eq_true, decide_eq_true_eq, and_assoc]

/-- Their mask. -/
def nvMask : Nat :=
  0x6cfd800785b08000f0003f80c0de000000000000339980003ff01e0382e00000003ff000001c080e000ff000001fffc03b000001f03fe07c000000000ff70f07800000000000

theorem listMask_nvFields : listMask nvFields = nvMask := by decide +kernel

/-- An operation whose mask names none of them leaves every copy of them. -/
theorem Keeps.nv {W : Nat} {s t : State} (k : Keeps W s t) (h : nvMask &&& W = 0) {f : Field} (hf : f ∈ nvFields) (i : Nat) :
    t.rd f i = s.rd f i := by
  have named : nvMask.testBit (32 + f.id) = true := listMask_nvFields ▸ within_wr (listMask_mem hf)
  have both : (nvMask &&& W).testBit (32 + f.id) = false := by rw [h, Nat.zero_testBit]
  rw [Nat.testBit_and, named, Bool.true_and] at both
  exact k.rd f i (by have := table_lt (mem_nvFields.1 hf).1; omega) both

/-- Settles O9: no reset and no power state has one of those fields in its footprint. -/
theorem nvFieldsSurvive : Obligations.NvFieldsSurvive := by
  unfold Obligations.NvFieldsSurvive
  intro c s t f hf hnv hret hlost harr hc h i
  have spares : nvMask &&& footprint c = 0 := by
    cases c
    case portReset | flr | contextReset | courseReset | partitionReset | chipReset | devReset | courseHeartbeatMiss |
        partitionHeartbeatMiss | stepWatchdog | pstateNap | pstateRest | restEntry | pstateActive | napExitComplete | refclkSysLoss |
        refclkSysRestore | pcieRefclkLoss | devResetRelease | aonPowerOnReset =>
      unfold footprint
      dsimp only
      decide +kernel
    all_goals exact hc.elim
  exact (keeps_of_exec h).nv spares (mem_nvFields.2 ⟨hf, hnv, hret, hlost, harr⟩) i

/-! Storing a field -/

/-- A field reads as it was stored, cut to its width. -/
theorem State.rd_storeField_self (s : State) (f : Field) (i v : Nat) : (s.storeField f i v).rd f i = v % 2 ^ f.width := by
  unfold State.storeField
  split
  · assumption
  · split <;> simp [State.rd_wr_self]

theorem State.rd_storeField_ne {s : State} {f g : Field} {i j v : Nat} (h : f.id ≠ g.id) : (s.storeField f i v).rd g j = s.rd g j := by
  unfold State.storeField
  split
  · rfl
  · split <;> simp [State.rd_wr_ne h]

theorem State.otherCopies_storeField (s : State) (f : Field) (i v : Nat) : s.otherCopies (s.storeField f i v) f i := by
  intro j hj
  unfold State.storeField
  split
  · rfl
  · split <;> simp [State.rd_wr_other hj]

/-- Storing a field that is not NV changes nothing else. -/
theorem State.sameBut_storeField (s : State) {f : Field} (h : f.survives ≠ .nv) (i v : Nat) : s.sameBut (s.storeField f i v) [] [f] := by
  unfold State.storeField
  split
  · exact s.sameBut_refl _ _
  · exact s.sameBut_wr f i v

/-- Storing an NV field changes nothing else but that it may wait to be recorded (R440). -/
theorem State.sameBut_storeField_nv (s : State) (f : Field) (i v : Nat) : s.sameBut (s.storeField f i v) [.sec] [f] := by
  unfold State.storeField
  have stored := s.sameBut_wr_mem (f := f) (List.mem_singleton_self f) [.sec] i v
  split
  · exact s.sameBut_refl _ _
  · split
    · exact stored.trans (State.sameBut_noteNv _ _)
    · exact stored

/-! Register writes -/

/-- A register write below the course windows that reaches its register is made. -/
theorem exec_registerWrite {s : State} {who : Requester} {offset : BitVec 26} {a : Nat} (at' : offset.toNat = a)
    (h : s.reaches who a = true) (low : a < 0x1000000) (v : W32) : exec (.registerWrite who offset v) s = .next (s.writeReg who a v.toNat) := by
  subst at'
  exact congrArg _ (State.access_low h low _ _)

/-- Above a PF's MSI-X table lies none of its words. -/
theorem msixWord_of_high {who : Requester} {a : Nat} (h : 0xA000 ≤ a) : msixWord who a = none := by
  unfold msixWord
  split
  · have : ∀ n, vectorsOf n ≤ 512 := fun n => by unfold vectorsOf; split <;> omega
    rw [if_neg]
    rintro ⟨_, hlt, _⟩
    have := this (fnCode ‹PciFn›)
    omega
  · rfl

theorem fieldsAt_srvPsel : fieldsAt ⟨.srv, 0, 0⟩ = [Reg.SRV_PSEL_PART] := by decide +kernel
theorem fieldsAt_priCtrl : fieldsAt ⟨.dma, 0x30, 0⟩ = [Reg.DMA_PRI_CTRL_TIMEOUT_MS] := by decide +kernel
theorem fieldsAt_ldrTimeout : fieldsAt ⟨.ldr, 4, 0⟩ = [Reg.LDR_TIMEOUT_SHARD_MS, Reg.LDR_TIMEOUT_PREP_10MS] := by decide +kernel

/-- A write of `SRV_PSEL` stores the writer's own selector, whatever function it is. -/
theorem State.writeReg_srvPsel (s : State) (who : Requester) (v : Nat) :
    s.writeReg who 0x80000 v = s.storeField Reg.SRV_PSEL_PART (reqCode who) (bits v 0 4) := by
  have place : regPlace 0x80000 = some ⟨.srv, 0, 0⟩ := rfl
  have stored : s.storeRegister who ⟨.srv, 0, 0⟩ 0x80000 v = s.storeField Reg.SRV_PSEL_PART (reqCode who) (bits v 0 4) := by
    unfold State.storeRegister
    rw [fieldsAt_srvPsel]
    rfl
  unfold State.writeReg
  rw [msixWord_of_high (by decide), place]
  unfold State.writeVf State.plainWrite
  simp only [fieldsAt_srvPsel, stored]
  cases isVf who <;> rfl

/-- A write of `DMA_PRI_CTRL` by the owner's PF or the firmware stores its timeout. -/
theorem State.writeReg_priCtrl {s : State} {who : Requester} (vf : isVf who = false) (own : s.mayRwo who = true) (v : Nat) :
    s.writeReg who 0x60030 v = s.storeField Reg.DMA_PRI_CTRL_TIMEOUT_MS 0 (bits v 0 16) := by
  have place : regPlace 0x60030 = some ⟨.dma, 0x30, 0⟩ := rfl
  have stored : s.storeRegister who ⟨.dma, 0x30, 0⟩ 0x60030 v = s.storeField Reg.DMA_PRI_CTRL_TIMEOUT_MS 0 (bits v 0 16) := by
    unfold State.storeRegister
    rw [fieldsAt_priCtrl]
    rfl
  unfold State.writeReg
  rw [msixWord_of_high (by decide), place]
  unfold State.plainWrite
  simp only [fieldsAt_priCtrl, vf, State.owned_of own, stored]
  rfl

/-- A write of `LDR_TIMEOUT` by the owner's PF or the firmware stores both timeouts. -/
theorem State.writeReg_ldrTimeout {s : State} {who : Requester} (vf : isVf who = false) (own : s.mayRwo who = true) (v : Nat) :
    s.writeReg who 0xA0004 v =
      (s.storeField Reg.LDR_TIMEOUT_SHARD_MS 0 (bits v 0 16)).storeField Reg.LDR_TIMEOUT_PREP_10MS 0 (bits v 16 16) := by
  have place : regPlace 0xA0004 = some ⟨.ldr, 4, 0⟩ := rfl
  have stored : s.storeRegister who ⟨.ldr, 4, 0⟩ 0xA0004 v =
      (s.storeField Reg.LDR_TIMEOUT_SHARD_MS 0 (bits v 0 16)).storeField Reg.LDR_TIMEOUT_PREP_10MS 0 (bits v 16 16) := by
    unfold State.storeRegister
    rw [fieldsAt_ldrTimeout]
    rfl
  unfold State.writeReg
  rw [msixWord_of_high (by decide), place]
  unfold State.writeLdr State.plainWrite
  simp only [fieldsAt_ldrTimeout, vf, State.owned_of own, stored]
  rfl

/-- An access that only the owner's side may make reaches its register. -/
theorem State.reaches_of_owned {s : State} {who : Requester} {a : Nat} (h : s.reachesOwned who a = true) :
    s.reaches who a = true ∧ s.mayRwo who = true := by
  simpa only [State.reachesOwned, Bool.and_eq_true] using h

/-- Settles O10: each write stores its fields, cut out of the word, and nothing else. -/
theorem registerWritesStore : Obligations.RegisterWritesStore := by
  unfold Obligations.RegisterWritesStore
  refine ⟨fun s who v h => ?_, fun s who v h vf => ?_, fun s who v h vf => ?_⟩
  · refine does_next (exec_registerWrite (a := 0x80000) (by decide) h (by decide) v) ?_
    rw [State.writeReg_srvPsel]
    exact ⟨State.rd_storeField_self _ _ _ _ |>.trans (by simp [bits, Reg.SRV_PSEL_PART]), s.otherCopies_storeField _ _ _,
      s.sameBut_storeField (by decide) _ _⟩
  · obtain ⟨reach, own⟩ := State.reaches_of_owned h
    refine does_next (exec_registerWrite (a := 0x60030) (by decide) reach (by decide) v) ?_
    rw [State.writeReg_priCtrl vf own]
    exact ⟨State.rd_storeField_self _ _ _ _ |>.trans (by simp [bits, Reg.DMA_PRI_CTRL_TIMEOUT_MS]), s.sameBut_storeField_nv _ _ _⟩
  · obtain ⟨reach, own⟩ := State.reaches_of_owned h
    refine does_next (exec_registerWrite (a := 0xA0004) (by decide) reach (by decide) v) ?_
    rw [State.writeReg_ldrTimeout vf own]
    have := v.isLt
    refine ⟨?_, ?_, ?_⟩
    · rw [State.rd_storeField_ne (by decide), State.rd_storeField_self]
      simp [bits, Reg.LDR_TIMEOUT_SHARD_MS]
    · rw [State.rd_storeField_self]
      simp only [bits, Reg.LDR_TIMEOUT_PREP_10MS, Nat.shiftRight_eq_div_pow]
      omega
    · exact ((s.sameBut_storeField_nv _ _ _).mono (List.Subset.refl _) (by simp)).trans
        ((State.sameBut_storeField_nv _ _ _ _).mono (List.Subset.refl _) (by simp))

/-! Bits of a word -/

theorem bit_eq_testBit (w i : Nat) : bit w i = w.testBit i := by
  simp [bit, bits, Nat.testBit, Nat.and_comm]

theorem bit_mod {n i : Nat} (w : Nat) (h : i < n) : bit (w % 2 ^ n) i = bit w i := by
  rw [bit_eq_testBit, bit_eq_testBit, Nat.testBit_mod_two_pow, decide_eq_true h, Bool.true_and]

/-- A count that stays at its field's greatest value fits the field. -/
theorem saturated_lt (v n : Nat) : min v (2 ^ n - 1) < 2 ^ n :=
  Nat.lt_of_le_of_lt (Nat.min_le_right _ _) (Nat.sub_lt (Nat.two_pow_pos n) Nat.one_pos)

/-- A bit reads as it was set. -/
theorem bit_setBit (w i : Nat) (b : Bool) : bit (setBit w i b) i = b := by
  have split : setBit w i b = w % 2 ^ i + 2 ^ i * (b.toNat % 2 + 2 * (w >>> (i + 1))) := by
    rw [setBit, setBits, Nat.mul_add, Nat.pow_one, Nat.pow_succ, Nat.add_assoc, Nat.mul_comm (b.toNat % 2), Nat.mul_comm (w >>> (i + 1)),
      Nat.mul_assoc (2 ^ i)]
  rw [split, bit, bits, Nat.shiftRight_eq_div_pow, Nat.add_mul_div_left _ _ (Nat.two_pow_pos i),
    Nat.div_eq_of_lt (Nat.mod_lt _ (Nat.two_pow_pos i))]
  cases b <;> simp

/-! Doorbells -/

@[simp] theorem State.doorbellIrq_rd (s : State) (p : Nat) (f : Field) (i : Nat) : (s.doorbellIrq p).rd f i = s.rd f i := by
  unfold State.doorbellIrq State.msix
  split
  · split <;> rfl
  · rfl

@[simp] theorem State.doorbellIrq_mail (s : State) (p : Nat) : (s.doorbellIrq p).mail = s.mail := by
  unfold State.doorbellIrq State.msix
  split
  · split <;> rfl
  · rfl

@[simp] theorem State.setDoorbells_mail (s : State) (p v : Nat) : (s.setDoorbells p v).mail = s.mail := rfl

theorem State.rd_setDoorbells {s : State} {p v i : Nat} {f : Field} (hin : Reg.MBX_DB_IN.id ≠ f.id) (hout : Reg.MBX_DB_OUT.id ≠ f.id) :
    (s.setDoorbells p v).rd f i = s.rd f i := by
  unfold State.setDoorbells
  rw [State.rd_wr_ne hout, State.rd_wr_ne hin]

/-- A port's doorbells read as they were set. -/
theorem State.doorbells_setDoorbells (s : State) (p v : Nat) : (s.setDoorbells p v).doorbells p = v % 2 ^ 32 := by
  unfold State.doorbells State.setDoorbells
  rw [State.rd_wr_self, State.rd_wr_ne (by decide), State.rd_wr_self]
  simp only [Reg.MBX_DB_IN, Reg.MBX_DB_OUT]
  omega

/-- Ringing sets a bit of the port's doorbells, and may interrupt. -/
theorem State.ring_cases (s : State) (p i : Nat) : s.ring p i = s.setDoorbells p (setBit (s.doorbells p) i true) ∨
    s.ring p i = (s.setDoorbells p (setBit (s.doorbells p) i true)).doorbellIrq p := by
  unfold State.ring
  dsimp only
  split
  · exact .inr rfl
  · exact .inl rfl

@[simp] theorem State.ring_mail (s : State) (p i : Nat) : (s.ring p i).mail = s.mail := by
  rcases s.ring_cases p i with e | e <;> simp [e]

theorem State.rd_ring {s : State} {p k i : Nat} {f : Field} (hin : Reg.MBX_DB_IN.id ≠ f.id) (hout : Reg.MBX_DB_OUT.id ≠ f.id) :
    (s.ring p k).rd f i = s.rd f i := by
  rcases s.ring_cases p k with e | e <;> simp only [e, State.doorbellIrq_rd, State.rd_setDoorbells hin hout]

/-- A bit that is rung is set. -/
theorem State.bit_ring (s : State) (p : Nat) {i : Nat} (h : i < 32) : bit ((s.ring p i).doorbells p) i = true := by
  have set : bit ((s.setDoorbells p (setBit (s.doorbells p) i true)).doorbells p) i = true := by
    rw [State.doorbells_setDoorbells, bit_mod _ h, bit_setBit]
  rcases s.ring_cases p i with e | e
  · rw [e]; exact set
  · simpa [e, State.doorbells] using set

/-! Mailboxes -/

@[simp] theorem State.setFirmware_rd (s : State) (k : Nat) (b : Bool) (f : Field) (i : Nat) : (s.setFirmware k b).rd f i = s.rd f i := rfl
@[simp] theorem State.setFirmware_backlog (s : State) (k : Nat) (b : Bool) : (s.setFirmware k b).mail.backlog = s.mail.backlog := rfl
@[simp] theorem State.setTimer_rd (s : State) (m : Nat) (x : MailTimer) (f : Field) (i : Nat) : (s.setTimer m x).rd f i = s.rd f i := rfl
@[simp] theorem State.setTimer_backlog (s : State) (m : Nat) (x : MailTimer) : (s.setTimer m x).mail.backlog = s.mail.backlog := rfl
@[simp] theorem State.setTimer_firmware (s : State) (m : Nat) (x : MailTimer) : (s.setTimer m x).mail.firmware = s.mail.firmware := rfl
@[simp] theorem State.setLatch_rd (s : State) (who : Requester) (a : Nat) (v : Option Nat) (f : Field) (i : Nat) :
    (s.setLatch who a v).rd f i = s.rd f i := rfl

theorem State.bit_setFirmware (s : State) {m : Nat} (h : m < 64) (b : Bool) : bit (s.setFirmware m b).mail.firmware.toNat m = b := by
  simp only [State.setFirmware, BitVec.toNat_ofNat, bit_mod _ h, bit_setBit]

theorem State.rd_receiverBell {s : State} {m i : Nat} {b : Bool} {f : Field} (hin : Reg.MBX_DB_IN.id ≠ f.id)
    (hout : Reg.MBX_DB_OUT.id ≠ f.id) : (s.receiverBell m b).rd f i = s.rd f i := by
  unfold State.receiverBell
  split
  · rfl
  · split
    · exact State.rd_ring hin hout
    · exact State.rd_setDoorbells hin hout

theorem State.rd_senderBell {s : State} {m i : Nat} {f : Field} (hin : Reg.MBX_DB_IN.id ≠ f.id) (hout : Reg.MBX_DB_OUT.id ≠ f.id) :
    (s.senderBell m).rd f i = s.rd f i := by
  unfold State.senderBell
  split
  · exact State.rd_ring hin hout
  · rfl

@[simp] theorem State.receiverBell_backlog (s : State) (m : Nat) (b : Bool) : (s.receiverBell m b).mail.backlog = s.mail.backlog := by
  unfold State.receiverBell State.unring
  split
  · rfl
  · split <;> simp

@[simp] theorem State.senderBell_backlog (s : State) (m : Nat) : (s.senderBell m).mail.backlog = s.mail.backlog := by
  unfold State.senderBell; split <;> simp

/-- The receiver's bell of a mailbox that a host sends is a bit of the firmware. -/
theorem State.receiverBell_firmware (s : State) {m : Nat} (l : m < 64) (h : sentByHost m = true) (b : Bool) :
    bit (s.receiverBell m b).mail.firmware.toNat m = b := by
  unfold State.receiverBell; rw [if_pos h, State.bit_setFirmware _ l]

/-- The receiver's bell of a mailbox that the firmware sends is a doorbell bit of its port. -/
theorem State.receiverBell_doorbell (s : State) {m : Nat} (h : sentByHost m = false) :
    bit ((s.receiverBell m true).doorbells (mailPort m)) (m % 16) = true := by
  unfold State.receiverBell
  rw [if_neg (by simp [h]), if_pos rfl]
  exact State.bit_ring _ _ (by omega)

theorem State.senderBell_doorbell (s : State) {m : Nat} (h : sentByHost m = true) :
    bit ((s.senderBell m).doorbells (mailPort m)) (16 + m % 16) = true := by
  unfold State.senderBell
  rw [if_pos h]
  exact State.bit_ring _ _ (by omega)

theorem State.senderBell_firmware (s : State) {m : Nat} (l : m < 64) (h : sentByHost m = false) :
    bit (s.senderBell m).mail.firmware.toNat m = true := by
  unfold State.senderBell; rw [if_neg (by simp [h]), State.bit_setFirmware _ l]

theorem State.senderBell_keepsFirmware (s : State) {m : Nat} (h : sentByHost m = true) :
    (s.senderBell m).mail.firmware = s.mail.firmware := by
  unfold State.senderBell; rw [if_pos h, State.ring_mail]

/-! A commit (R297, R298) -/

/-- A commit fills the mailbox and clears the marks of the last message. -/
theorem State.mailCommit_fields (s : State) (m word : Nat) :
    (s.mailCommit m word).rd Reg.MBX_STATUS_FULL m = 1 ∧ (s.mailCommit m word).rd Reg.MBX_DATA_WORD m = word % 2 ^ 64 ∧
    (s.mailCommit m word).rd Reg.MBX_ACK_VALID m = 0 ∧ (s.mailCommit m word).rd Reg.MBX_STATUS_TMO m = 0 ∧
    (s.mailCommit m word).rd Reg.MBX_STATUS_REJ m = 0 := by
  have width : Reg.MBX_DATA_WORD.width = 64 := rfl
  simp (disch := decide) only [State.mailCommit, State.rd_receiverBell, State.setTimer_rd, State.rd_wr_ne, State.rd_wr_fit,
    State.rd_wr_self _ Reg.MBX_DATA_WORD, width, and_self]

/-- A commit leaves the word and FULL of every other mailbox. -/
theorem State.mailCommit_other (s : State) {m q : Nat} (word : Nat) (h : q % 16777216 ≠ m % 16777216) :
    (s.mailCommit m word).rd Reg.MBX_DATA_WORD q = s.rd Reg.MBX_DATA_WORD q ∧
    (s.mailCommit m word).rd Reg.MBX_STATUS_FULL q = s.rd Reg.MBX_STATUS_FULL q := by
  simp (disch := decide) only [State.mailCommit, State.rd_receiverBell, State.setTimer_rd, State.rd_wr_ne, State.rd_wr_other h, and_self]

@[simp] theorem State.mailCommit_backlog (s : State) (m word : Nat) : (s.mailCommit m word).mail.backlog = s.mail.backlog := by
  simp only [State.mailCommit, State.receiverBell_backlog, State.setTimer_backlog, State.wr_mail]

/-- A write of the high half by the sender of an empty mailbox commits both halves. -/
theorem State.mailWrite_empty {s : State} {who : Requester} {m : Nat} (sender : isSender who m = true)
    (empty : s.is Reg.MBX_STATUS_FULL m = false) (high : W32) :
    s.mailWrite who m high = (s.setLatch who (mailOffset m 0) none).mailCommit m
      (s.joinHalves who (mailOffset m 0) (s.rd Reg.MBX_DATA_WORD m) high.toNat).1 := by
  have empty' : (s.setLatch who (mailOffset m 0) none).is Reg.MBX_STATUS_FULL m = false := empty
  simp [State.mailWrite, State.joinHalves, sender, empty']

/-- The same on a full mailbox is refused with REJ. -/
theorem State.mailWrite_full {s : State} {f : PciFn} {m : Nat} (sender : isSender (.fn f) m = true)
    (full : s.is Reg.MBX_STATUS_FULL m = true) (high : W32) :
    s.mailWrite (.fn f) m high = (((s.setLatch (.fn f) (mailOffset m 0) none).wr Reg.MBX_STATUS_REJ m 1).bump Reg.MBX_CNT_REJECT).emit
      (.unsupported (fnCode f)) := by
  have full' : (s.setLatch (.fn f) (mailOffset m 0) none).is Reg.MBX_STATUS_FULL m = true := full
  simp [State.mailWrite, State.joinHalves, sender, full']

/-! Taking a message (R300) -/

/-- The receiver takes the message of a full mailbox: its code is acknowledged and the sender learns of it; then the firmware may send
what it held back. -/
def State.mailTaken (s : State) (m code : Nat) : State :=
  (((((s.wr Reg.MBX_STATUS_FULL m 0).wr Reg.MBX_ACK_CODE m code).wr Reg.MBX_ACK_VALID m 1).setTimer m
    { SMap.get {} s.mail.timers m with running := false }).receiverBell m false).senderBell m

theorem State.mailTake_full {s : State} {m : Nat} (full : s.is Reg.MBX_STATUS_FULL m = true) (code : Nat) :
    s.mailTake m code = if sentByHost m then s.mailTaken m code else (s.mailTaken m code).mailFreed m := by
  simp only [State.mailTake, full, State.mailTaken]
  rfl

theorem State.mailTaken_fields (s : State) (m : Nat) {code : Nat} (h : code < 2 ^ 16) :
    (s.mailTaken m code).rd Reg.MBX_STATUS_FULL m = 0 ∧ (s.mailTaken m code).rd Reg.MBX_ACK_CODE m = code ∧
    (s.mailTaken m code).rd Reg.MBX_ACK_VALID m = 1 := by
  have fits : code < 2 ^ Reg.MBX_ACK_CODE.width := h
  simp (disch := decide) only [State.mailTaken, State.rd_senderBell, State.rd_receiverBell, State.setTimer_rd, State.rd_wr_ne,
    State.rd_wr_fit fits, State.rd_wr_fit, and_self]

@[simp] theorem State.mailTaken_backlog (s : State) (m code : Nat) : (s.mailTaken m code).mail.backlog = s.mail.backlog := by
  simp only [State.mailTaken, State.senderBell_backlog, State.receiverBell_backlog, State.setTimer_backlog, State.wr_mail]

/-- Taking a host's message clears the firmware's bit and rings the host. -/
theorem State.mailTaken_bells (s : State) {m : Nat} (l : m < 64) (h : sentByHost m = true) (code : Nat) :
    bit (s.mailTaken m code).mail.firmware.toNat m = false ∧ bit ((s.mailTaken m code).doorbells (mailPort m)) (16 + m % 16) = true := by
  unfold State.mailTaken
  exact ⟨by rw [State.senderBell_keepsFirmware _ h, State.receiverBell_firmware _ l h], State.senderBell_doorbell _ h⟩

theorem State.mailFreed_empty {s : State} {m : Nat} (h : SMap.get [] s.mail.backlog m = []) (a : m ≠ 41) (b : m ≠ 57) :
    s.mailFreed m = s := by
  simp [State.mailFreed, h, a, b]

theorem State.mailFreed_next {s : State} {m w : Nat} {rest : List Nat} (h : SMap.get [] s.mail.backlog m = w :: rest) :
    s.mailFreed m = ({ s with mail := { s.mail with backlog := SMap.put [] s.mail.backlog m rest } }).mailCommit m w := by
  simp [State.mailFreed, h]

/-- A PF's write to the other side's register is counted, and no mailbox changes. -/
theorem State.foreignMail_counts {s : State} {who : Requester} (h : (pfPort who).isSome = true) (a : Nat) :
    s.counts (s.foreignMail who a) Reg.MBX_CNT_FOREIGN ∧ ∀ q, (s.foreignMail who a).rd Reg.MBX_STATUS_FULL q = s.rd Reg.MBX_STATUS_FULL q := by
  unfold State.foreignMail
  rw [if_pos h]
  simp (disch := decide) only [State.counts, State.noteDiscard, State.emit_rd, State.rd_wr_ne, State.bump, implies_true, and_true]
  exact State.rd_wr_fit (saturated_lt _ _)

/-! Withdrawal, timeout, ECHO -/

theorem State.mailWithdraw_full {s : State} {who : Requester} {m : Nat} (sender : isSender who m = true)
    (full : s.is Reg.MBX_STATUS_FULL m = true) (h : sentByHost m = true) :
    s.mailWithdraw who m = (((s.wr Reg.MBX_STATUS_FULL m 0).wr Reg.MBX_STATUS_WD_FAIL m 0).setTimer m
      { SMap.get {} s.mail.timers m with running := false }).receiverBell m false := by
  simp [State.mailWithdraw, sender, full, h]

theorem State.mailWithdraw_empty {s : State} {who : Requester} {m : Nat} (sender : isSender who m = true)
    (empty : s.is Reg.MBX_STATUS_FULL m = false) : s.mailWithdraw who m = s.wr Reg.MBX_STATUS_WD_FAIL m 1 := by
  simp [State.mailWithdraw, sender, empty]

/-! Holds (R309) -/

theorem State.takeStop_mail (s : State) (d : Nat) : (s.takeStop d).mail = s.mail := by
  have k := State.takeStop_keeps (a1 := d) (Keeps.refl _ s) (Nat.and_self _)
  exact k.mail (by decide +kernel)

/-- Releasing deferred stops ends no hold. -/
theorem State.releaseStops_holdSince (s : State) : s.releaseStops.mail.holdSince = s.mail.holdSince := by
  have fold : ∀ (l : List Nat) (u : State), (l.foldl (fun s d => (s.undeferStop d).takeStop d) u).mail.holdSince = u.mail.holdSince := by
    intro l
    induction l with
    | nil => exact fun _ => rfl
    | cons d l ih =>
      intro u
      rw [List.foldl_cons, ih, State.takeStop_mail]
      rfl
  unfold State.releaseStops
  dsimp only
  split
  · rfl
  · exact fold _ s

theorem State.releaseStops_rd {s : State} (f : Field) (i : Nat) (h : f ∈ [Reg.CLK_KEEP_HOLD, Reg.CLK_KEEP_LAPSED]) :
    s.releaseStops.rd f i = s.rd f i := by
  have k := State.releaseStops_keeps (Keeps.refl _ s) (Nat.and_self _)
  simp only [List.mem_cons, List.not_mem_nil, or_false] at h
  rcases h with rfl | rfl <;> exact k.rd _ i (by decide) (by decide +kernel)

/-- A hold that is written 0 has ended. -/
theorem State.clockHold_false (s : State) (p : Nat) : (s.clockHold p false).rd Reg.CLK_KEEP_HOLD p = 0 ∧
    (s.clockHold p false).rd Reg.CLK_KEEP_LAPSED p = s.rd Reg.CLK_KEEP_LAPSED p ∧
    SMap.find? (s.clockHold p false).mail.holdSince p = none := by
  have hold : s.clockHold p false = ({ s.wr Reg.CLK_KEEP_HOLD p 0 with
      mail := { s.mail with holdSince := SMap.erase s.mail.holdSince p } } : State).releaseStops := rfl
  rw [hold, State.releaseStops_rd _ _ (by simp), State.releaseStops_rd _ _ (by simp), State.releaseStops_holdSince]
  have held : (s.wr Reg.CLK_KEEP_HOLD p 0).rd Reg.CLK_KEEP_HOLD p = 0 := State.rd_wr_fit (by decide)
  have lapsed : (s.wr Reg.CLK_KEEP_HOLD p 0).rd Reg.CLK_KEEP_LAPSED p = s.rd Reg.CLK_KEEP_LAPSED p := State.rd_wr_ne (by decide)
  exact ⟨held, lapsed, SMap.find?_erase_self _ _⟩

/-- A hold that is set stands from now. -/
theorem State.clockHold_true {s : State} {p : Nat} (h : s.is Reg.CLK_KEEP_HOLD p = false) :
    s.clockHold p true = { s.wr Reg.CLK_KEEP_HOLD p 1 with mail := { s.mail with holdSince := SMap.insert s.mail.holdSince p s.time } } := by
  simp [State.clockHold, h]

/-! The commands -/

theorem mailOffset_lt {m k : Nat} (h : m < 64) (hk : k < 32) : mailOffset m k < 0x1000000 := by unfold mailOffset; omega

theorem exec_mailboxCommit {s : State} {who : Requester} {m : Mailbox} (h : s.reaches who (mailOffset m 4) = true) (high : W32) :
    exec (.mailboxCommit who m high) s = .next (s.mailWrite who m high) :=
  congrArg _ (State.access_low h (mailOffset_lt m.isLt (by decide)) _ _)

theorem exec_mailboxAck {s : State} {who : Requester} {m : Mailbox} (h : s.reaches who (mailOffset m 12) = true) (code : W16) :
    exec (.mailboxAck who m code) s = .next (s.mailAck who m code.toNat) :=
  congrArg _ (State.access_low h (mailOffset_lt m.isLt (by decide)) _ _)

theorem exec_mailboxWithdraw {s : State} {who : Requester} {m : Mailbox} (h : s.reaches who (mailOffset m 20) = true) :
    exec (.mailboxWithdraw who m) s = .next (s.mailWithdraw who m) :=
  congrArg _ (State.access_low h (mailOffset_lt m.isLt (by decide)) _ _)

theorem State.mailAck_receiver {s : State} {who : Requester} {m : Nat} (h : isReceiver who m = true) (code : Nat) :
    s.mailAck who m code = s.mailTake m code := if_pos h

theorem State.sameBut_setLatch (s : State) (who : Requester) (a : Nat) (v : Option Nat) (fs : List Field) :
    s.sameBut (s.setLatch who a v) [.latches] fs :=
  ⟨fun p hp => by cases p with | latches => exact absurd (List.mem_singleton_self _) hp | _ => rfl, fun _ _ _ _ => rfl⟩

/-- Different mailboxes have different copies of a field; among the 64 of them a remainder is taken by 0, which leaves the number. -/
theorem mailbox_copy_ne {m q : Mailbox} (h : q % 16777216 ≠ m) : (q : Nat) % 16777216 ≠ (m : Nat) % 16777216 := by
  have : q % 16777216 = q := Fin.ext (Nat.mod_zero _)
  have : (q : Nat) ≠ m := fun e => h (this.trans (Fin.ext e))
  omega

/-- A refused commit: REJ, the count, the Unsupported Request, and the latch released; nothing else. -/
theorem State.mailWrite_full_effect {s : State} {f : PciFn} {m : Nat} (sender : isSender (.fn f) m = true)
    (full : s.is Reg.MBX_STATUS_FULL m = true) (high : W32) :
    (s.mailWrite (.fn f) m high).rd Reg.MBX_STATUS_REJ m = 1 ∧ s.counts (s.mailWrite (.fn f) m high) Reg.MBX_CNT_REJECT ∧
    (s.mailWrite (.fn f) m high).out = s.out ++ [.unsupported (fnCode f)] ∧
    s.sameBut (s.mailWrite (.fn f) m high) [.latches, .out] [Reg.MBX_STATUS_REJ, Reg.MBX_CNT_REJECT] := by
  rw [State.mailWrite_full sender full]
  refine ⟨?_, ?_, rfl, ?_⟩
  · simp (disch := decide) only [State.emit_rd, State.bump, State.rd_wr_ne, State.rd_wr_fit]
  · simp (disch := decide) only [State.counts, State.emit_rd, State.bump, State.rd_wr_ne, State.setLatch_rd]
    exact State.rd_wr_fit (saturated_lt _ _)
  · have latched : s.sameBut (s.setLatch (.fn f) (mailOffset m 0) none) [.latches, .out] [Reg.MBX_STATUS_REJ, Reg.MBX_CNT_REJECT] :=
      (s.sameBut_setLatch _ _ _ _).mono (by simp) (List.Subset.refl _)
    exact ((latched.trans (State.sameBut_wr_mem _ (by simp) _ _ _)).trans (State.sameBut_wr_mem _ (by simp) _ _ _)).trans
      ((State.sameBut_emit _ _ _).mono (by simp) (List.Subset.refl _))

/-- Setting a port's doorbells changes nothing else. -/
theorem State.sameBut_setDoorbells (s : State) (p v : Nat) : s.sameBut (s.setDoorbells p v) [] [Reg.MBX_DB_IN, Reg.MBX_DB_OUT] :=
  (State.sameBut_wr_mem s (by simp) _ _ _).trans (State.sameBut_wr_mem _ (by simp) _ _ _)

/-- A write of the mask stores it and may interrupt. -/
theorem State.writeMask_eq (s : State) (p : Nat) (v : W32) : s.writeMask p v =
    if s.doorbells p &&& (2 ^ 32 - 1 - v.toNat) = 0 then s.wr Reg.MBX_DB_MASK_MASK p v.toNat
    else (s.wr Reg.MBX_DB_MASK_MASK p v.toNat).doorbellIrq p := by
  have same : (s.wr Reg.MBX_DB_MASK_MASK p v.toNat).doorbells p = s.doorbells p := by
    unfold State.doorbells
    rw [State.rd_wr_ne (by decide), State.rd_wr_ne (by decide)]
  unfold State.writeMask
  simp only [same]

/-- An enabled doorbell vector within the table goes out at a PF that serves. -/
theorem State.doorbellIrq_out {s : State} {p : Nat} (en : s.is Reg.MBX_IRQ_EN p = true) (vec : s.rd Reg.MBX_IRQ_VECTOR p < 512)
    (flr : (s.fnState (32 * p)).flr = false) : (s.doorbellIrq p).out = s.out ++ [.msix (32 * p) (s.rd Reg.MBX_IRQ_VECTOR p)] := by
  have table : vectorsOf (32 * p) = 512 := by simp [vectorsOf]
  unfold State.doorbellIrq State.msix
  rw [if_pos en, if_pos (by simp [table, vec, flr])]
  rfl

/-- A PF whose access reaches its register runs no FLR. -/
theorem State.noFlr_of_reaches {s : State} {p : Fin 2} {a : Nat} (h : s.reaches (.fn ⟨p, 0⟩) a = true) : (s.fnState (32 * p)).flr = false := by
  simp only [State.reaches, State.served, State.fnServes, Bool.and_eq_true, Bool.not_eq_true'] at h
  exact h.1.1.1.2

theorem exec_mbxDbClear {s : State} {p : Fin 2} (h : s.reaches (.fn ⟨p, 0⟩) 0x10800 = true) (v : W32) :
    exec (.mbxDbClear p v) s = .next (s.setDoorbells p (s.doorbells p &&& (2 ^ 32 - 1 - v.toNat))) :=
  congrArg Host.Outcome.next (State.access_low h (by decide) _ _)

theorem exec_mbxDbMaskWrite {s : State} {p : Fin 2} (h : s.reaches (.fn ⟨p, 0⟩) 0x10804 = true) (v : W32) :
    exec (.mbxDbMaskWrite p v) s = .next (s.writeMask p v) :=
  congrArg Host.Outcome.next (State.access_low h (by decide) _ _)

theorem exec_clockHold {s : State} {p : Fin 2} (h : s.reaches (.fn ⟨p, 0⟩) 0x150020 = true) (hold : Bool) :
    exec (.clockHold p hold) s = .next (s.clockHold p hold) :=
  congrArg Host.Outcome.next (State.access_low h (by decide) _ _)

/-- The timer of a mailbox that is due marks the message and tells the sender. -/
theorem exec_mailboxTimeout {s : State} {m : Mailbox} {x : MailTimer} (timer : SMap.get {} s.mail.timers m = x)
    (full : s.is Reg.MBX_STATUS_FULL m = true) : exec (.mailboxTimeout m) s =
      .next (if x.running = true ∧ x.timeout ≠ 0 ∧ x.committed + 1000 * x.timeout ≤ s.time then
        ((s.setTimer m { x with running := false }).wr Reg.MBX_STATUS_TMO m 1).senderBell m else s) := by
  show execMailboxTimeout m s = _
  simp only [execMailboxTimeout, timer, full, Bool.and_eq_true, bne_iff_ne, decide_eq_true_eq, and_true, and_assoc]

theorem exec_echo {s : State} {m : Mailbox} (host : sentByHost m = true) (echo : s.rd Reg.MBX_DATA_WORD m >>> 56 = 1) :
    exec (.echo m) s = .next (s.mailTake m (256 * (s.rd Reg.MBX_DATA_WORD m % 256))) := by
  show execEcho m s = _
  simp [execEcho, host, echo, codeOk]

theorem exec_holdLapse {s : State} {p : Fin 2} {since : Nat} (stands : SMap.find? s.mail.holdSince p = some since)
    (held : s.is Reg.CLK_KEEP_HOLD p = true) : exec (.holdLapse p) s =
      .next (if since + 100000000 ≤ s.time then (s.wr Reg.CLK_KEEP_LAPSED p 1).clockHold p false else s) := by
  show execHoldLapse p s = _
  simp [execHoldLapse, stands, held]

/-- Settles O41: each command of a mailbox, a doorbell or a hold, by what its operation does. -/
theorem mailboxesAndHolds : Obligations.MailboxesAndHolds := by
  unfold Obligations.MailboxesAndHolds
  refine ⟨?commit, ?ack, ?withdraw, ?timers, ?ports⟩
  case commit =>
    intro s who m high reach
    refine ⟨fun sender empty => does_next (exec_mailboxCommit reach high) ?_, fun f hf sender full => ?_⟩
    · rw [State.mailWrite_empty sender empty]
      obtain ⟨hfull, hword, hvalid, htmo, hrej⟩ := State.mailCommit_fields (s.setLatch who (mailOffset m 0) none) m
        (s.joinHalves who (mailOffset m 0) (s.rd Reg.MBX_DATA_WORD m) high.toNat).1
      exact ⟨hfull, hword, hvalid, htmo, hrej, fun h => State.receiverBell_firmware _ m.isLt h true,
        fun h => State.receiverBell_doorbell _ h, fun q hq => State.mailCommit_other _ _ (mailbox_copy_ne hq)⟩
    · subst hf
      exact does_next (exec_mailboxCommit reach high) (State.mailWrite_full_effect sender full high)
  case ack =>
    intro s who m code reach
    obtain ⟨hfull, hcode, hvalid⟩ := s.mailTaken_fields m code.isLt
    refine ⟨fun receiver full host => does_next (exec_mailboxAck reach code) ?_,
      fun receiver full fw idle h41 h57 => does_next (exec_mailboxAck reach code) ?_,
      fun w rest receiver full fw held => does_next (exec_mailboxAck reach code) ?_,
      fun receiver empty => does_next (exec_mailboxAck reach code) ?_,
      fun other pf => does_next (exec_mailboxAck reach code) ?_⟩
    · rw [State.mailAck_receiver receiver, State.mailTake_full full, if_pos host]
      exact ⟨hfull, hcode, hvalid, s.mailTaken_bells m.isLt host _⟩
    · have noneHeld : SMap.get [] (s.mailTaken m code.toNat).mail.backlog m = [] := by rw [State.mailTaken_backlog, idle]
      rw [State.mailAck_receiver receiver, State.mailTake_full full, if_neg (by simp [fw]),
        State.mailFreed_empty noneHeld (fun e => h41 (Fin.ext e)) (fun e => h57 (Fin.ext e))]
      exact ⟨hfull, hcode, hvalid⟩
    · have next : SMap.get [] (s.mailTaken m code.toNat).mail.backlog m = w :: rest := by rw [State.mailTaken_backlog, held]
      rw [State.mailAck_receiver receiver, State.mailTake_full full, if_neg (by simp [fw]), State.mailFreed_next next]
      obtain ⟨nfull, nword, -⟩ := State.mailCommit_fields ({ s.mailTaken m code.toNat with
        mail := { (s.mailTaken m code.toNat).mail with backlog := SMap.put [] (s.mailTaken m code.toNat).mail.backlog m rest } }) m w
      refine ⟨nfull, nword, ?_⟩
      rw [State.mailCommit_backlog]
      exact SMap.get_put_self _ _ _ _
    · simp [State.mailAck, State.mailTake, receiver, empty]
    · rw [State.mailAck, if_neg (by simp [other])]
      exact State.foreignMail_counts pf _
  case withdraw =>
    intro s who m reach sender
    refine ⟨fun full host => does_next (exec_mailboxWithdraw reach) ?_, fun empty => does_next (exec_mailboxWithdraw reach) ?_⟩
    · rw [State.mailWithdraw_full sender full host]
      refine ⟨?_, ?_, State.receiverBell_firmware _ m.isLt host false, ?_⟩ <;>
        simp (disch := decide) only [State.rd_receiverBell, State.setTimer_rd, State.rd_wr_ne, State.rd_wr_fit]
    · rw [State.mailWithdraw_empty sender empty]
      exact ⟨State.rd_wr_fit (by decide), s.sameBut_wr _ _ _, s.otherCopies_wr _ _ _⟩
  case timers =>
    intro s m x timer full
    refine ⟨fun running set due => does_next (exec_mailboxTimeout timer full) ?_,
      fun early => does_next (exec_mailboxTimeout timer full) (if_neg fun due => absurd due.2.2 (by omega)),
      fun host echo => does_next (exec_echo host echo) ?_⟩
    · rw [if_pos ⟨running, set, due⟩]
      refine ⟨?_, ?_, fun host => State.senderBell_doorbell _ host, fun fw => State.senderBell_firmware _ m.isLt fw⟩ <;>
        simp (disch := decide) only [State.rd_senderBell, State.setTimer_rd, State.rd_wr_ne, State.rd_wr_fit]
    · rw [State.mailTake_full full, if_pos host]
      exact s.mailTaken_fields m (by omega)
  case ports =>
    intro s port v
    refine ⟨fun reach => does_next (exec_mbxDbClear reach v) ?_, fun reach => ⟨fun quiet => does_next (exec_mbxDbMaskWrite reach v) ?_,
        fun due en vec => does_next (exec_mbxDbMaskWrite reach v) ?_⟩,
      fun reach => ⟨fun free => does_next (exec_clockHold reach true) ?_, does_next (exec_clockHold reach false) ?_⟩,
      fun since stands held => ⟨fun due => does_next (exec_holdLapse stands held) ?_,
        fun early => does_next (exec_holdLapse stands held) (if_neg (by omega))⟩⟩
    · have fits : s.doorbells port &&& (2 ^ 32 - 1 - v.toNat) < 2 ^ 32 := Nat.and_lt_two_pow _ (by omega)
      exact ⟨(s.doorbells_setDoorbells _ _).trans (Nat.mod_eq_of_lt fits), s.sameBut_setDoorbells _ _⟩
    · rw [State.writeMask_eq, if_pos quiet]
      exact ⟨State.rd_wr_fit v.isLt, s.sameBut_wr _ _ _⟩
    · have noFlr : ((s.wr Reg.MBX_DB_MASK_MASK port v.toNat).fnState (32 * port)).flr = false := State.noFlr_of_reaches reach
      have mask : (s.wr Reg.MBX_DB_MASK_MASK port v.toNat).rd Reg.MBX_DB_MASK_MASK port = v.toNat := State.rd_wr_fit v.isLt
      have vector : (s.wr Reg.MBX_DB_MASK_MASK port v.toNat).rd Reg.MBX_IRQ_VECTOR port = s.rd Reg.MBX_IRQ_VECTOR port :=
        State.rd_wr_ne (by decide)
      have enable : (s.wr Reg.MBX_DB_MASK_MASK port v.toNat).is Reg.MBX_IRQ_EN port = true := by
        unfold State.is; rw [State.rd_wr_ne (by decide)]; exact en
      rw [State.writeMask_eq, if_neg due, State.doorbellIrq_rd, State.doorbellIrq_out enable (vector.symm ▸ vec) noFlr, vector]
      exact ⟨mask, rfl⟩
    · rw [State.clockHold_true free]
      have held : (s.wr Reg.CLK_KEEP_HOLD port 1).rd Reg.CLK_KEEP_HOLD port = 1 := State.rd_wr_fit (by decide)
      have stored := (s.sameBut_wr_mem (f := Reg.CLK_KEEP_HOLD) (List.mem_singleton_self _) [.mail] port 1)
      exact ⟨held, SMap.find?_insert_self _ _ _, stored.trans (State.sameBut_mail _ _ _)⟩
    · obtain ⟨ended, -, gone⟩ := s.clockHold_false port
      exact ⟨ended, gone⟩
    · rw [if_pos due]
      obtain ⟨ended, lapsed, -⟩ := (s.wr Reg.CLK_KEEP_LAPSED port 1).clockHold_false port
      exact ⟨ended, lapsed.trans (State.rd_wr_fit (by decide))⟩

/-! Sensing: the sensors' states and the trips -/

/-- The sensors' states and the trips stand as they were. -/
structure State.SensingKept (s t : State) : Prop where
  sensors : t.thermal.sensors = s.thermal.sensors
  trips : t.thermal.trips = s.thermal.trips
  tripNext : t.thermal.tripNext = s.thermal.tripNext
  tripped : t.thermal.tripped = s.thermal.tripped

theorem State.SensingKept.trans {s t u : State} (h : s.SensingKept t) (g : t.SensingKept u) : s.SensingKept u :=
  ⟨g.sensors.trans h.sensors, g.trips.trans h.trips, g.tripNext.trans h.tripNext, g.tripped.trans h.tripped⟩

theorem State.SensingKept.of_thermal {s t : State} (h : t.thermal = s.thermal) : s.SensingKept t := by
  constructor <;> rw [h]

theorem State.SensingKept.sensor {s t : State} (h : s.SensingKept t) (n : Nat) : t.sensor n = s.sensor n := by
  unfold State.sensor; rw [h.sensors]

/-! The clamp -/

/-- f follows the lesser of f_T and f_P, and is 0 after a trip. -/
theorem State.setClamp_f (s : State) : s.setClamp.rd Reg.TRM_CLAMP_F =
    if s.thermal.tripped = true then 0 else min (s.rd Reg.TRM_CLAMP_F_T) (s.rd Reg.TRM_CLAMP_F_P) % 2 ^ 9 := by
  unfold State.setClamp
  rw [State.rd_wr_self]
  split <;> rfl

theorem State.setClamp_rd {s : State} {f : Field} {i : Nat} (h : Reg.TRM_CLAMP_F.id ≠ f.id) : s.setClamp.rd f i = s.rd f i := State.rd_wr_ne h

theorem ftTarget_le (t : Int) : ftTarget t ≤ 32000000 := by unfold ftTarget; split <;> omega

/-- f_T follows its target: down at once, up with time. -/
theorem State.judgeFt_ft (s : State) (t : Int) : (s.judgeFt t).rd Reg.TRM_CLAMP_F_T =
    (if ftTarget t < s.thermal.ftFine then ftTarget t else min (ftTarget t) (s.thermal.ftFine + (s.time - s.thermal.ftTime))) / 125000 := by
  have bound := ftTarget_le t
  unfold State.judgeFt
  rw [State.setClamp_rd (by decide)]
  refine State.rd_wr_fit ?_
  simp only [Reg.TRM_CLAMP_F_T]
  split <;> omega

theorem State.judgeFt_rd {s : State} {t : Int} {f : Field} {i : Nat} (hf : Reg.TRM_CLAMP_F.id ≠ f.id) (ht : Reg.TRM_CLAMP_F_T.id ≠ f.id) :
    (s.judgeFt t).rd f i = s.rd f i := by
  unfold State.judgeFt
  rw [State.setClamp_rd hf, State.rd_wr_ne ht]
  rfl

theorem State.judgeFt_sensing (s : State) (t : Int) : s.SensingKept (s.judgeFt t) := ⟨rfl, rfl, rfl, rfl⟩

/-! Levels (R363, R364) -/

theorem State.postThermal_thermal (s : State) (n : Nat) (t : Int) (level : Nat) (reached : Bool) :
    (s.postThermal n t level reached).thermal = s.thermal :=
  (State.postThermal_keeps (Keeps.refl _ s) (Nat.and_self _)).thermal (by decide +kernel)

/-- What a judgement of the heat shows in registers. -/
def heatFields : List Field :=
  [Reg.TRM_HOT_TEMP, Reg.TRM_HOT_SENSOR, Reg.TRM_PEAK_TEMP, Reg.TRM_PEAK_SENSOR, Reg.TRM_STATUS_WARN, Reg.TRM_STATUS_THROT,
   Reg.TRM_CLAMP_F_T, Reg.TRM_CLAMP_F]

theorem State.postThermal_rd {s : State} {n : Nat} {t : Int} {level : Nat} {reached : Bool} {f : Field} (h : f ∈ heatFields) (i : Nat) :
    (s.postThermal n t level reached).rd f i = s.rd f i :=
  (State.postThermal_keeps (Keeps.refl _ s) (Nat.and_self _)).spared (by decide +kernel) h i

/-- A level keeps its field, or sets or clears it and posts. -/
theorem State.judgeLevel_cases (s : State) (f : Field) (level : Nat) (hi lo : Int) (n : Nat) (t : Int) :
    (s.judgeLevel f level hi lo n t = (s.wr f 0 1).postThermal n t level true ∧ s.is f = false ∧ hi < t) ∨
    (s.judgeLevel f level hi lo n t = (s.wr f 0 0).postThermal n t level false ∧ s.is f = true ∧ t ≤ lo) ∨
    (s.judgeLevel f level hi lo n t = s ∧ (s.is f = false → t ≤ hi) ∧ (s.is f = true → lo < t)) := by
  unfold State.judgeLevel
  split
  · next reached =>
    simp only [Bool.and_eq_true, Bool.not_eq_true', decide_eq_true_eq] at reached
    exact .inl ⟨rfl, reached⟩
  · next notReached =>
    split
    · next cleared =>
      simp only [Bool.and_eq_true, decide_eq_true_eq] at cleared
      exact .inr (.inl ⟨rfl, cleared⟩)
    · next notCleared =>
      simp only [Bool.and_eq_true, Bool.not_eq_true', decide_eq_true_eq, not_and, Int.not_lt, Int.not_le] at notReached notCleared
      exact .inr (.inr ⟨rfl, notReached, notCleared⟩)

theorem State.judgeLevel_thermal (s : State) (f : Field) (level : Nat) (hi lo : Int) (n : Nat) (t : Int) :
    (s.judgeLevel f level hi lo n t).thermal = s.thermal := by
  rcases s.judgeLevel_cases f level hi lo n t with ⟨e, -⟩ | ⟨e, -⟩ | ⟨e, -⟩ <;> rw [e]
  · exact State.postThermal_thermal _ _ _ _ _
  · exact State.postThermal_thermal _ _ _ _ _

theorem State.judgeLevel_time (s : State) (f : Field) (level : Nat) (hi lo : Int) (n : Nat) (t : Int) :
    (s.judgeLevel f level hi lo n t).time = s.time := by
  rcases s.judgeLevel_cases f level hi lo n t with ⟨e, -⟩ | ⟨e, -⟩ | ⟨e, -⟩ <;> rw [e]
  · exact (State.postThermal_keeps (Keeps.refl _ _) (Nat.and_self _)).time (by decide +kernel)
  · exact (State.postThermal_keeps (Keeps.refl _ _) (Nat.and_self _)).time (by decide +kernel)

theorem State.judgeLevel_rd {s : State} {f : Field} {level : Nat} {hi lo : Int} {n : Nat} {t : Int} {g : Field} (h : g ∈ heatFields)
    (hne : f.id ≠ g.id) : (s.judgeLevel f level hi lo n t).rd g = s.rd g := by
  rcases s.judgeLevel_cases f level hi lo n t with ⟨e, -⟩ | ⟨e, -⟩ | ⟨e, -⟩ <;> rw [e]
  · rw [State.postThermal_rd h, State.rd_wr_ne hne]
  · rw [State.postThermal_rd h, State.rd_wr_ne hne]

/-- A level is reached above its upper bound, cleared at or below its lower one, and stands between them. -/
theorem State.judgeLevel_is {s : State} {f : Field} {level : Nat} {hi lo : Int} {n : Nat} {t : Int} (h : f ∈ heatFields)
    (width : f.width = 1) (apart : lo < hi) : (hi < t → (s.judgeLevel f level hi lo n t).is f = true) ∧
    (t ≤ lo → (s.judgeLevel f level hi lo n t).is f = false) ∧
    (lo < t → t ≤ hi → (s.judgeLevel f level hi lo n t).is f = s.is f) := by
  have shows : ∀ b : Bool, ((s.wr f 0 b.toNat).postThermal n t level b).is f = b := by
    intro b
    unfold State.is
    rw [State.postThermal_rd h, State.rd_wr_self, width]
    cases b <;> rfl
  rcases s.judgeLevel_cases f level hi lo n t with ⟨e, was, above⟩ | ⟨e, was, below⟩ | ⟨e, low, high⟩
  · have is := shows true
    rw [e]
    exact ⟨fun _ => is, fun _ => by omega, fun _ _ => by omega⟩
  · have is := shows false
    rw [e]
    exact ⟨fun _ => by omega, fun _ => is, fun _ _ => by omega⟩
  · rw [e]
    refine ⟨fun above => ?_, fun below => ?_, fun _ _ => rfl⟩
    · exact Bool.of_not_eq_false fun was => absurd (low was) (by omega)
    · exact Bool.of_not_eq_true fun was => absurd (high was) (by omega)

/-! Tmax (R363) -/

/-- The hottest place and its peak are shown. -/
def State.showHottest (s : State) (n : Nat) (t : Int) : State :=
  let s := (s.wr Reg.TRM_HOT_TEMP 0 (ofSigned 16 t)).wr Reg.TRM_HOT_SENSOR 0 n
  let s := if !s.thermal.peakSeen || decide (toSigned 16 (s.rd Reg.TRM_PEAK_TEMP) < t) then
    (s.wr Reg.TRM_PEAK_TEMP 0 (ofSigned 16 t)).wr Reg.TRM_PEAK_SENSOR 0 n else s
  { s with thermal := { s.thermal with peakSeen := true } }

theorem State.judgeHeat_some {s : State} {n : Nat} {t : Int} (h : s.hottest = some (n, t)) : s.judgeHeat =
    (((s.showHottest n t).judgeLevel Reg.TRM_STATUS_WARN 1 1520 1472 n t).judgeLevel Reg.TRM_STATUS_THROT 2 1600 1552 n t).judgeFt t := by
  unfold State.judgeHeat
  rw [h]
  rfl

theorem ofSigned_lt (n : Nat) (i : Int) : ofSigned n i < 2 ^ n := by
  unfold ofSigned
  have pos : (0 : Int) < ((2 ^ n : Nat) : Int) := Int.natCast_pos.2 (Nat.two_pow_pos n)
  have := Int.emod_lt_of_pos i pos
  have := Int.emod_nonneg i (Int.ne_of_gt pos)
  omega

/-- What `TRM_HOT` is given. -/
def State.showHot (s : State) (n : Nat) (t : Int) : State := (s.wr Reg.TRM_HOT_TEMP 0 (ofSigned 16 t)).wr Reg.TRM_HOT_SENSOR 0 n

theorem State.showHottest_rd (s : State) (n : Nat) (t : Int) (f : Field) (i : Nat) : (s.showHottest n t).rd f i =
    if s.thermal.peakSeen = false ∨ toSigned 16 (s.rd Reg.TRM_PEAK_TEMP) < t then
      (((s.showHot n t).wr Reg.TRM_PEAK_TEMP 0 (ofSigned 16 t)).wr Reg.TRM_PEAK_SENSOR 0 n).rd f i
    else (s.showHot n t).rd f i := by
  have peak : (s.showHot n t).rd Reg.TRM_PEAK_TEMP = s.rd Reg.TRM_PEAK_TEMP := by
    unfold State.showHot; rw [State.rd_wr_ne (by decide), State.rd_wr_ne (by decide)]
  have shown : (s.showHottest n t).rd f i = (if !s.thermal.peakSeen || decide (toSigned 16 ((s.showHot n t).rd Reg.TRM_PEAK_TEMP) < t) then
    ((s.showHot n t).wr Reg.TRM_PEAK_TEMP 0 (ofSigned 16 t)).wr Reg.TRM_PEAK_SENSOR 0 n else s.showHot n t).rd f i := rfl
  rw [shown, peak]
  simp only [Bool.or_eq_true, Bool.not_eq_true', decide_eq_true_eq]
  split <;> rfl

theorem State.showHottest_hot (s : State) (n : Nat) (t : Int) : (s.showHottest n t).rd Reg.TRM_HOT_TEMP = ofSigned 16 t ∧
    (s.showHottest n t).rd Reg.TRM_HOT_SENSOR = n % 2 ^ 8 := by
  have fits : ofSigned 16 t < 2 ^ Reg.TRM_HOT_TEMP.width := ofSigned_lt 16 t
  have width : Reg.TRM_HOT_SENSOR.width = 8 := rfl
  constructor <;> rw [State.showHottest_rd] <;> split <;>
    simp (disch := decide) only [State.showHot, State.rd_wr_ne, State.rd_wr_fit fits, State.rd_wr_self _ Reg.TRM_HOT_SENSOR, width]

/-- A new peak is shown. -/
theorem State.showHottest_peak {s : State} {t : Int} (h : s.thermal.peakSeen = false ∨ toSigned 16 (s.rd Reg.TRM_PEAK_TEMP) < t) (n : Nat) :
    (s.showHottest n t).rd Reg.TRM_PEAK_TEMP = ofSigned 16 t ∧ (s.showHottest n t).rd Reg.TRM_PEAK_SENSOR = n % 2 ^ 8 := by
  have fits : ofSigned 16 t < 2 ^ Reg.TRM_PEAK_TEMP.width := ofSigned_lt 16 t
  constructor <;> rw [State.showHottest_rd, if_pos h]
  · rw [State.rd_wr_ne (by decide), State.rd_wr_fit fits]
  · exact State.rd_wr_self _ _ _ _

theorem State.showHottest_other (s : State) (n : Nat) (t : Int) {f : Field} (i : Nat) (h : f ∈ [Reg.TRM_STATUS_WARN, Reg.TRM_STATUS_THROT]) :
    (s.showHottest n t).rd f i = s.rd f i := by
  simp only [List.mem_cons, List.not_mem_nil, or_false] at h
  rcases h with rfl | rfl <;> rw [State.showHottest_rd] <;> split <;>
    simp (disch := decide) only [State.showHot, State.rd_wr_ne]

theorem State.showHottest_thermal (s : State) (n : Nat) (t : Int) : (s.showHottest n t).thermal = { s.thermal with peakSeen := true } := by
  unfold State.showHottest
  dsimp only
  split <;> rfl

theorem State.showHottest_time (s : State) (n : Nat) (t : Int) : (s.showHottest n t).time = s.time := by
  unfold State.showHottest
  dsimp only
  split <;> rfl

/-- Judging the heat leaves the sensors and the trips. -/
theorem State.judgeHeat_sensing (s : State) : s.SensingKept s.judgeHeat := by
  cases hot : s.hottest with
  | none => unfold State.judgeHeat; rw [hot]; exact ⟨rfl, rfl, rfl, rfl⟩
  | some x =>
    rw [State.judgeHeat_some (n := x.1) (t := x.2) hot]
    have shown : s.SensingKept (s.showHottest x.1 x.2) := by constructor <;> rw [State.showHottest_thermal]
    exact ((shown.trans (.of_thermal (State.judgeLevel_thermal _ _ _ _ _ _ _))).trans
      (.of_thermal (State.judgeLevel_thermal _ _ _ _ _ _ _))).trans (State.judgeFt_sensing _ _)

/-- What judging the heat shows of Tmax (R363, R364, R366). -/
structure State.HeatShown (s t : State) (n : Nat) (w : Int) : Prop where
  hot : t.rd Reg.TRM_HOT_TEMP = ofSigned 16 w ∧ t.rd Reg.TRM_HOT_SENSOR = n % 2 ^ 8
  peak : s.thermal.peakSeen = false ∨ toSigned 16 (s.rd Reg.TRM_PEAK_TEMP) < w →
    t.rd Reg.TRM_PEAK_TEMP = ofSigned 16 w ∧ t.rd Reg.TRM_PEAK_SENSOR = n % 2 ^ 8
  warn : (1520 < w → t.is Reg.TRM_STATUS_WARN = true) ∧ (w ≤ 1472 → t.is Reg.TRM_STATUS_WARN = false) ∧
    (1472 < w → w ≤ 1520 → t.is Reg.TRM_STATUS_WARN = s.is Reg.TRM_STATUS_WARN)
  throt : (1600 < w → t.is Reg.TRM_STATUS_THROT = true) ∧ (w ≤ 1552 → t.is Reg.TRM_STATUS_THROT = false) ∧
    (1552 < w → w ≤ 1600 → t.is Reg.TRM_STATUS_THROT = s.is Reg.TRM_STATUS_THROT)
  ft : t.rd Reg.TRM_CLAMP_F_T = (if ftTarget w < s.thermal.ftFine then ftTarget w
    else min (ftTarget w) (s.thermal.ftFine + (s.time - s.thermal.ftTime))) / 125000

theorem State.judgeHeat_shows {s : State} {n : Nat} {w : Int} (h : s.hottest = some (n, w)) : s.HeatShown s.judgeHeat n w := by
  rw [State.judgeHeat_some h]
  have kept : ∀ f ∈ [Reg.TRM_HOT_TEMP, Reg.TRM_HOT_SENSOR, Reg.TRM_PEAK_TEMP, Reg.TRM_PEAK_SENSOR],
      ((((s.showHottest n w).judgeLevel Reg.TRM_STATUS_WARN 1 1520 1472 n w).judgeLevel Reg.TRM_STATUS_THROT 2 1600 1552 n w).judgeFt w).rd f =
        (s.showHottest n w).rd f := by
    intro f hf
    simp only [List.mem_cons, List.not_mem_nil, or_false] at hf
    rcases hf with rfl | rfl | rfl | rfl <;>
      rw [State.judgeFt_rd (by decide) (by decide), State.judgeLevel_rd (by decide) (by decide), State.judgeLevel_rd (by decide) (by decide)]
  have others : ∀ f ∈ [Reg.TRM_STATUS_WARN, Reg.TRM_STATUS_THROT], (s.showHottest n w).rd f = s.rd f :=
    fun f hf => s.showHottest_other n w 0 hf
  obtain ⟨hotTemp, hotSensor⟩ := s.showHottest_hot n w
  constructor
  case hot => exact ⟨(kept _ (by simp)).trans hotTemp, (kept _ (by simp)).trans hotSensor⟩
  case peak =>
    intro higher
    obtain ⟨peakTemp, peakSensor⟩ := State.showHottest_peak higher n
    exact ⟨(kept _ (by simp)).trans peakTemp, (kept _ (by simp)).trans peakSensor⟩
  case warn =>
    unfold State.is
    rw [State.judgeFt_rd (by decide) (by decide), State.judgeLevel_rd (by decide) (by decide), ← others Reg.TRM_STATUS_WARN (by simp)]
    exact State.judgeLevel_is (by decide) rfl (by decide)
  case throt =>
    have before : ((s.showHottest n w).judgeLevel Reg.TRM_STATUS_WARN 1 1520 1472 n w).is Reg.TRM_STATUS_THROT = s.is Reg.TRM_STATUS_THROT := by
      unfold State.is
      rw [State.judgeLevel_rd (by decide) (by decide), others Reg.TRM_STATUS_THROT (by simp)]
    rw [← before]
    unfold State.is
    rw [State.judgeFt_rd (by decide) (by decide)]
    exact State.judgeLevel_is (by decide) rfl (by decide)
  case ft =>
    rw [State.judgeFt_ft, State.judgeLevel_thermal, State.judgeLevel_thermal, State.judgeLevel_time, State.judgeLevel_time,
      State.showHottest_thermal, State.showHottest_time]

/-! The trip (R370 to R372) -/

/-- A device that has not tripped trips: its record is kept, written and told of, and f is 0. -/
theorem State.trip_effect {s : State} (h : s.thermal.tripped = false) (cause n : Nat) :
    (s.trip cause n).thermal.tripped = true ∧ (s.trip cause n).rd Reg.TRM_CLAMP_F = 0 ∧
    (s.trip cause n).rd Reg.TRM_TRIP_STATUS_WRITTEN = 1 ∧
    (s.trip cause n).rd Reg.TRM_TRIP_STATUS_UNACK = min 8 (s.rd Reg.TRM_TRIP_STATUS_UNACK + 1) ∧ .pldm pldmTrip ∈ (s.trip cause n).out ∧
    ∃ r, (s.trip cause n).thermal.trips = (r :: s.thermal.trips).take 8 ∧ r.cause = cause ∧ r.sensor = n ∧ r.temp = (s.sensor n).last ∧
      r.seq = s.thermal.tripNext := by
  have fits : min 8 (s.rd Reg.TRM_TRIP_STATUS_UNACK + 1) < 2 ^ Reg.TRM_TRIP_STATUS_UNACK.width := by
    simp only [Reg.TRM_TRIP_STATUS_UNACK]; omega
  unfold State.trip
  rw [if_neg (by simp [h])]
  refine ⟨rfl, ?_, ?_, ?_, by simp [State.emit], _, rfl, rfl, rfl, rfl, rfl⟩
  · rw [State.emit_rd, State.setClamp_f]
    rfl
  · rw [State.emit_rd, State.setClamp_rd (by decide), State.rd_wr_fit (by decide)]
  · rw [State.emit_rd, State.setClamp_rd (by decide), State.rd_wr_ne (by decide)]
    exact State.rd_wr_fit fits

theorem State.trip_sensors (s : State) (cause n : Nat) : (s.trip cause n).thermal.sensors = s.thermal.sensors := by
  unfold State.trip; split <;> rfl

/-! After the heat is judged -/

/-- The course's HOT, cooling and the trip follow the judgement of a sample. -/
def State.concludeSample (s : State) (n : Nat) : State :=
  let s := (s.judgeCourseHeat n).settleCooling
  if s.sensorUsed n && decide (2 ≤ (s.sensor n).hot) then s.trip 1 n else s

theorem State.judgeCourseHeat_thermal (s : State) (n : Nat) : (s.judgeCourseHeat n).thermal = s.thermal :=
  (State.judgeCourseHeat_keeps (Keeps.refl _ s) (Nat.and_self _)).thermal (by decide +kernel)

theorem State.settleCooling_sensing (s : State) : s.SensingKept s.settleCooling := by
  unfold State.settleCooling
  split
  · exact ⟨rfl, rfl, rfl, rfl⟩
  · exact .of_thermal rfl

theorem State.settled_sensing (s : State) (n : Nat) : s.SensingKept (s.judgeCourseHeat n).settleCooling :=
  (State.SensingKept.of_thermal (State.judgeCourseHeat_thermal s n)).trans (State.settleCooling_sensing _)

/-- What the sample and its judgement show in registers. -/
def sampleFields : List Field :=
  [Reg.TRM_SENSOR_TEMP, Reg.TRM_SENSOR_RATE, Reg.TRM_SENSOR_FAILED, Reg.FLT_CNT_REPORT_COUNT, Reg.TRM_HOT_TEMP, Reg.TRM_HOT_SENSOR,
   Reg.TRM_PEAK_TEMP, Reg.TRM_PEAK_SENSOR, Reg.TRM_STATUS_WARN, Reg.TRM_STATUS_THROT, Reg.TRM_CLAMP_F_T]

theorem State.settled_rd {s : State} {f : Field} (h : f ∈ sampleFields) (n i : Nat) :
    (s.judgeCourseHeat n).settleCooling.rd f i = s.rd f i :=
  ((State.settleCooling_keeps (Keeps.refl _ _) (Nat.and_self _)).spared (by decide +kernel) h i).trans
    ((State.judgeCourseHeat_keeps (Keeps.refl _ s) (Nat.and_self _)).spared (by decide +kernel) h i)

theorem State.concludeSample_rd {s : State} {f : Field} (h : f ∈ sampleFields) (n i : Nat) : (s.concludeSample n).rd f i = s.rd f i := by
  unfold State.concludeSample
  dsimp only
  split
  · exact ((State.trip_keeps (Keeps.refl _ _) (Nat.and_self _)).spared (by decide +kernel) h i).trans (State.settled_rd h n i)
  · exact State.settled_rd h n i

theorem State.concludeSample_sensors (s : State) (n : Nat) : (s.concludeSample n).thermal.sensors = s.thermal.sensors := by
  have settled := (s.settled_sensing n).sensors
  unfold State.concludeSample
  dsimp only
  split
  · rw [State.trip_sensors, settled]
  · exact settled

/-! A reading (R360, R361) -/

/-- The state with the reading of a sample taken: on the factory trims, with the traced offset. -/
abbrev State.readSensor (s : State) (n : Nat) (x : Int) : State := s.takeReading n (x + SMap.get 0 s.cal.offsets n)

/-- A reading is judged, with the sensor failed where it shows that. -/
theorem State.sample_eq (s : State) (n : Nat) (x : Int) : s.sample n x =
    let u := s.readSensor n x
    ((if !u.is Reg.TRM_SENSOR_FAILED n && u.readingFails n then u.failSensor n else u).judgeHeat).concludeSample n := rfl

/-- The register fields of a sensor, which judging the heat leaves. -/
theorem State.judgeHeat_rd {s : State} {f : Field}
    (h : f ∈ [Reg.TRM_SENSOR_TEMP, Reg.TRM_SENSOR_RATE, Reg.TRM_SENSOR_FAILED, Reg.FLT_CNT_REPORT_COUNT]) (i : Nat) :
    s.judgeHeat.rd f i = s.rd f i :=
  (State.judgeHeat_keeps (Keeps.refl _ s) (Nat.and_self _)).spared (by decide +kernel) h i

@[simp] theorem State.setAgg_rd (s : State) (a : Nat) (g : Aggregator) (f : Field) (i : Nat) : (s.setAgg a g).rd f i = s.rd f i := rfl

/-- What both branches leave, a choice between them leaves. -/
theorem State.rd_ite {c : Prop} [Decidable c] {a b u : State} {f : Field} {i : Nat} (ha : a.rd f i = u.rd f i) (hb : b.rd f i = u.rd f i) :
    (if c then a else b).rd f i = u.rd f i := by
  split
  · exact ha
  · exact hb

/-- Beside its count, a report opens at most one record. -/
theorem State.report_rd (s : State) (r : Report) (i : Nat) :
    (s.report r).rd Reg.FLT_CNT_REPORT_COUNT i = (s.bump Reg.FLT_CNT_REPORT_COUNT r.cls).rd Reg.FLT_CNT_REPORT_COUNT i := by
  unfold State.report
  generalize s.bump Reg.FLT_CNT_REPORT_COUNT r.cls = u
  have record : ∀ k, (u.bump Reg.FLT_CNT_RECORD_COUNT k).rd Reg.FLT_CNT_REPORT_COUNT i = u.rd Reg.FLT_CNT_REPORT_COUNT i :=
    fun _ => State.rd_wr_ne (by decide)
  refine State.rd_ite rfl ?_
  dsimp only
  split
  · rfl
  · refine State.rd_ite ?_ (record _)
    rw [State.setAgg_rd]
    exact State.rd_ite (record _) rfl

theorem State.report_counts (s : State) (r : Report) : s.counts (s.report r) Reg.FLT_CNT_REPORT_COUNT r.cls := by
  unfold State.counts
  rw [State.report_rd]
  exact State.rd_wr_fit (saturated_lt _ _)

/-- A sensor that fails is marked and reported. -/
theorem State.failSensor_effect (s : State) (n : Nat) : (s.failSensor n).rd Reg.TRM_SENSOR_FAILED n = 1 ∧
    s.counts (s.failSensor n) Reg.FLT_CNT_REPORT_COUNT 10 := by
  unfold State.failSensor
  constructor
  · rw [(State.report_keeps (Keeps.refl _ _) (Nat.and_self _)).rd Reg.TRM_SENSOR_FAILED n (by decide) (by decide +kernel)]
    exact State.rd_wr_fit (by decide)
  · have counted := (s.wr Reg.TRM_SENSOR_FAILED n 1).report_counts { sender := unitDie 5, unit := unitSensor n, cls := 10 }
    unfold State.counts at counted ⊢
    rw [counted, State.rd_wr_ne (by decide)]

theorem State.failSensor_thermal (s : State) (n : Nat) : (s.failSensor n).thermal = s.thermal :=
  (State.failSensor_keeps (Keeps.refl _ s) (Nat.and_self _)).thermal (by decide +kernel)

theorem State.failSensor_rd {s : State} {f : Field} (h : f ∈ [Reg.TRM_SENSOR_TEMP, Reg.TRM_SENSOR_RATE]) (n i : Nat) :
    (s.failSensor n).rd f i = s.rd f i :=
  (State.failSensor_keeps (Keeps.refl _ s) (Nat.and_self _)).spared (by decide +kernel) h i

/-- The sensor's state after a reading. -/
theorem State.takeReading_sensor (s : State) (n : Nat) (t : Int) : ((s.takeReading n t).sensor n).last = t ∧
    ((s.takeReading n t).sensor n).seen = true ∧ ((s.takeReading n t).sensor n).time = s.time ∧
    ((s.takeReading n t).sensor n).hot = if 1840 ≤ t then min 2 ((s.sensor n).hot + 1) else 0 := by
  have set : ∀ x, (((s.setSensor n x).wr Reg.TRM_SENSOR_TEMP n (ofSigned 16 t)).wr Reg.TRM_SENSOR_RATE n (rateOf t)).sensor n = x :=
    fun x => State.sensor_setSensor s n x
  unfold State.takeReading
  simp only [set, and_self]

theorem rateOf_lt (t : Int) : rateOf t < 4 := by
  unfold rateOf
  split
  · decide
  · split <;> decide

theorem State.takeReading_shows (s : State) (n : Nat) (t : Int) : (s.takeReading n t).rd Reg.TRM_SENSOR_TEMP n = ofSigned 16 t ∧
    (s.takeReading n t).rd Reg.TRM_SENSOR_RATE n = rateOf t := by
  have temp : ofSigned 16 t < 2 ^ Reg.TRM_SENSOR_TEMP.width := ofSigned_lt 16 t
  have rate : rateOf t < 2 ^ Reg.TRM_SENSOR_RATE.width := rateOf_lt t
  unfold State.takeReading
  exact ⟨by rw [State.rd_wr_ne (by decide), State.rd_wr_fit temp], State.rd_wr_fit rate⟩

theorem State.takeReading_rd {s : State} {f : Field} (h : f ∈ Reg.TRM_SENSOR_FAILED :: Reg.FLT_CNT_REPORT_COUNT :: heatFields)
    (n : Nat) (t : Int) (i : Nat) : (s.takeReading n t).rd f i = s.rd f i :=
  (State.takeReading_keeps (Keeps.refl _ s) (Nat.and_self _)).spared (by decide +kernel) h i

/-- A reading outside the range of a sensor fails it. -/
theorem State.readingFails_of_range {s : State} {n : Nat} (h : (s.sensor n).last < -640 ∨ 2400 < (s.sensor n).last) :
    s.readingFails n = true := by
  unfold State.readingFails
  rcases h with h | h <;> simp [h]

section
variable {s : State} {n : Nat} {x : Int}

/-- A sample that shows no failure, or of a sensor that has failed before. -/
theorem State.sample_passes (h : s.is Reg.TRM_SENSOR_FAILED n = true ∨
    (s.readSensor n x).readingFails n = false) :
    s.sample n x = ((s.readSensor n x).judgeHeat).concludeSample n := by
  have failed : (s.readSensor n x).is Reg.TRM_SENSOR_FAILED n = s.is Reg.TRM_SENSOR_FAILED n := by
    unfold State.is; rw [State.takeReading_rd (by simp)]
  rw [State.sample_eq]
  dsimp only
  rw [if_neg]
  rcases h with h | h <;> simp [failed, h]

/-- A sample whose reading fails its sensor. -/
theorem State.sample_fails (h : s.is Reg.TRM_SENSOR_FAILED n = false)
    (fails : (s.readSensor n x).readingFails n = true) :
    s.sample n x = (((s.readSensor n x).failSensor n).judgeHeat).concludeSample n := by
  have failed : (s.readSensor n x).is Reg.TRM_SENSOR_FAILED n = s.is Reg.TRM_SENSOR_FAILED n := by
    unfold State.is; rw [State.takeReading_rd (by simp)]
  rw [State.sample_eq]
  dsimp only
  rw [if_pos (by simp [failed, h, fails])]

/-- A sample leaves the reading's state of the sensors. -/
theorem State.sample_sensors (s : State) (n : Nat) (x : Int) :
    (s.sample n x).thermal.sensors = (s.readSensor n x).thermal.sensors := by
  rw [State.sample_eq]
  dsimp only
  rw [State.concludeSample_sensors, (State.judgeHeat_sensing _).sensors]
  split
  · rw [State.failSensor_thermal]
  · rfl

theorem State.sample_sensor (s : State) (n : Nat) (x : Int) :
    (s.sample n x).sensor n = (s.readSensor n x).sensor n := by
  unfold State.sensor; rw [State.sample_sensors]

theorem State.sample_reading {f : Field} (h : f ∈ [Reg.TRM_SENSOR_TEMP, Reg.TRM_SENSOR_RATE]) (s : State) (n : Nat) (x : Int) :
    (s.sample n x).rd f n = (s.readSensor n x).rd f n := by
  rw [State.sample_eq]
  dsimp only
  rw [State.concludeSample_rd (List.mem_append_left _ h), State.judgeHeat_rd (List.mem_append_left _ h)]
  split
  · exact State.failSensor_rd h n n
  · rfl

/-- Tmax is shown as the reading leaves it. -/
theorem State.sample_shows {m : Nat} {w : Int} (h : s.is Reg.TRM_SENSOR_FAILED n = true ∨
    (s.readSensor n x).readingFails n = false)
    (hot : (s.readSensor n x).hottest = some (m, w)) : s.HeatShown (s.sample n x) m w := by
  rw [State.sample_passes h]
  have before : ∀ f ∈ heatFields, (s.readSensor n x).rd f = s.rd f :=
    fun f hf => State.takeReading_rd (by simp [hf]) _ _ _
  have after : ∀ f ∈ sampleFields, (((s.readSensor n x).judgeHeat).concludeSample n).rd f =
      (s.readSensor n x).judgeHeat.rd f := fun f hf => State.concludeSample_rd hf _ _
  obtain ⟨hot, peak, warn, throt, ft⟩ := State.judgeHeat_shows hot
  unfold State.is at warn throt
  rw [before _ (by decide)] at peak warn throt
  constructor
  case hot => rw [after _ (by decide), after _ (by decide)]; exact hot
  case peak => rw [after _ (by decide), after _ (by decide)]; exact peak
  case warn => unfold State.is; rw [after _ (by decide)]; exact warn
  case throt => unfold State.is; rw [after _ (by decide)]; exact throt
  case ft => rw [after _ (by decide)]; exact ft

/-- A second reading at or above 115 °C trips the device. -/
theorem State.sample_trips (working : s.is Reg.TRM_SENSOR_FAILED n = false)
    (passes : (s.readSensor n x).readingFails n = false) (hot : 1840 ≤ x + SMap.get 0 s.cal.offsets n)
    (again : 1 ≤ (s.sensor n).hot) : ∃ w : State, s.sample n x = w.trip 1 n ∧
    (s.readSensor n x).SensingKept w := by
  have kept := (State.judgeHeat_sensing (s.readSensor n x)).trans (State.settled_sensing _ n)
  refine ⟨_, ?_, kept⟩
  obtain ⟨-, seen, -, heat⟩ := s.takeReading_sensor n (x + SMap.get 0 s.cal.offsets n)
  rw [State.sample_passes (.inr passes)]
  unfold State.concludeSample State.sensorUsed State.is
  dsimp only
  rw [State.settled_rd (by decide), State.judgeHeat_rd (by simp), State.takeReading_rd (by simp), kept.sensor, seen, heat, if_pos hot, if_pos]
  unfold State.is at working
  rw [working]
  simp only [Bool.not_false, Bool.and_self, Bool.true_and, decide_eq_true_eq]
  omega

end

theorem exec_sensorSample {s : State} (powered : s.board.powered = true) (n : Sensor) (x : Int) :
    exec (.sensorSample n x) s = .next (s.sample n x) := by
  show execSensorSample n x s = _
  unfold execSensorSample
  rw [if_pos powered]

/-! Power (R367 to R369) -/

/-- f_P after a power above the cap. -/
def loweredFp (f cap p pu : Nat) : Nat := max 32 (f * (cap - pu) / (p - pu)) % 2 ^ 9

theorem State.lowerFp_over {s : State} {p : Nat} (h : s.powerCap < p) (pu : Nat) :
    (s.lowerFp p pu).rd Reg.TRM_CLAMP_F_P = loweredFp (s.rd Reg.TRM_CLAMP_F_P) s.powerCap p pu ∧
    (s.lowerFp p pu).rd Reg.TRM_STATUS_CAP_UNMET = (decide (s.rd Reg.TRM_CLAMP_F_P = 32)).toNat := by
  unfold State.lowerFp
  dsimp only
  rw [if_neg (by omega)]
  exact ⟨by rw [State.rd_wr_ne (by decide)]; exact State.rd_wr_self _ _ _ _, State.rd_wr_fit (Bool.toNat_lt _)⟩

theorem State.lowerFp_within {s : State} {p : Nat} (h : p ≤ s.powerCap) (pu : Nat) : s.lowerFp p pu = s := if_pos h

theorem State.lowerFp_thermal (s : State) (p pu : Nat) : (s.lowerFp p pu).thermal = s.thermal :=
  (State.lowerFp_keeps (Keeps.refl _ s) (Nat.and_self _)).thermal (by decide +kernel)

/-- CAPPED and f follow f_P. -/
theorem State.showCapped_effect (s : State) : s.showCapped.rd Reg.TRM_STATUS_CAPPED = (decide (s.rd Reg.TRM_CLAMP_F_P < 256)).toNat ∧
    s.showCapped.rd Reg.TRM_CLAMP_F =
      (if s.thermal.tripped = true then 0 else min (s.rd Reg.TRM_CLAMP_F_T) (s.rd Reg.TRM_CLAMP_F_P) % 2 ^ 9) := by
  unfold State.showCapped
  constructor
  · rw [State.setClamp_rd (by decide)]
    exact State.rd_wr_fit (Bool.toNat_lt _)
  · rw [State.setClamp_f, State.rd_wr_ne (by decide), State.rd_wr_ne (by decide), State.wr_thermal]

theorem State.showCapped_rd {s : State} {f : Field} (h : f ∈ [Reg.TRM_CLAMP_F_P, Reg.TRM_STATUS_CAP_UNMET, Reg.TRM_POWER_P, Reg.TRM_POWER_P_U,
    Reg.TRM_STATUS_ALERT]) (i : Nat) : s.showCapped.rd f i = s.rd f i :=
  (State.showCapped_keeps (Keeps.refl _ s) (Nat.and_self _)).spared (by decide +kernel) h i

theorem State.showCapped_thermal (s : State) : s.showCapped.thermal = s.thermal := rfl

/-- An interval's measurement is noted. -/
def State.notePower (s : State) (p pu : Nat) : State :=
  let l := (p :: s.thermal.powers).take 100
  (({ s with thermal := { s.thermal with powers := l } }).wr Reg.TRM_POWER_P 0 (l.sum / l.length)).wr Reg.TRM_POWER_P_U 0 pu

/-- f_P after an interval: lower above the cap, else 4 higher. -/
def State.stepFp (s : State) (p pu : Nat) : State :=
  if s.powerCap < p then s.lowerFp p pu
  else (s.wr Reg.TRM_CLAMP_F_P 0 (min 256 (s.rd Reg.TRM_CLAMP_F_P + 4))).wr Reg.TRM_STATUS_CAP_UNMET 0 0

theorem State.powerStep_eq (s : State) (p pu : Nat) : s.powerStep p pu = ((s.notePower p pu).stepFp p pu).showCapped := rfl

theorem State.notePower_rd {s : State} {p pu : Nat} {f : Field} {i : Nat} (hp : Reg.TRM_POWER_P.id ≠ f.id) (hu : Reg.TRM_POWER_P_U.id ≠ f.id) :
    (s.notePower p pu).rd f i = s.rd f i := by
  unfold State.notePower
  rw [State.rd_wr_ne hu, State.rd_wr_ne hp]
  rfl

theorem State.notePower_powerCap (s : State) (p pu : Nat) : (s.notePower p pu).powerCap = s.powerCap := by
  unfold State.powerCap State.is
  simp (disch := decide) only [State.notePower_rd]

theorem State.stepFp_effect (s : State) (p pu : Nat) : (s.stepFp p pu).rd Reg.TRM_CLAMP_F_P =
      (if s.powerCap < p then loweredFp (s.rd Reg.TRM_CLAMP_F_P) s.powerCap p pu else min 256 (s.rd Reg.TRM_CLAMP_F_P + 4)) ∧
    (s.stepFp p pu).rd Reg.TRM_STATUS_CAP_UNMET = (decide (s.powerCap < p) && decide (s.rd Reg.TRM_CLAMP_F_P = 32)).toNat := by
  unfold State.stepFp
  by_cases above : s.powerCap < p
  · simp only [if_pos above, decide_eq_true above, Bool.true_and]
    exact State.lowerFp_over above pu
  · have fits : min 256 (s.rd Reg.TRM_CLAMP_F_P + 4) < 2 ^ Reg.TRM_CLAMP_F_P.width := by simp only [Reg.TRM_CLAMP_F_P]; omega
    simp only [if_neg above, decide_eq_false above, Bool.false_and, Bool.toNat_false]
    exact ⟨by rw [State.rd_wr_ne (by decide), State.rd_wr_fit fits], State.rd_wr_fit (by decide)⟩

theorem State.stepFp_rd {s : State} {p pu : Nat} {f : Field} (h : f ∈ [Reg.TRM_CLAMP_F_T, Reg.TRM_POWER_P, Reg.TRM_POWER_P_U]) (i : Nat) :
    (s.stepFp p pu).rd f i = s.rd f i := by
  unfold State.stepFp
  refine State.rd_ite ((State.lowerFp_keeps (Keeps.refl _ s) (Nat.and_self _)).spared (by decide +kernel) h i) ?_
  simp only [List.mem_cons, List.not_mem_nil, or_false] at h
  rcases h with rfl | rfl | rfl <;> rw [State.rd_wr_ne (by decide), State.rd_wr_ne (by decide)]

theorem State.stepFp_thermal (s : State) (p pu : Nat) : (s.stepFp p pu).thermal = s.thermal := by
  unfold State.stepFp
  split
  · exact State.lowerFp_thermal _ _ _
  · rfl

/-- What a power interval shows. -/
structure State.PowerShown (s t : State) (p pu : Nat) : Prop where
  fp : t.rd Reg.TRM_CLAMP_F_P =
    if s.powerCap < p then loweredFp (s.rd Reg.TRM_CLAMP_F_P) s.powerCap p pu else min 256 (s.rd Reg.TRM_CLAMP_F_P + 4)
  unmet : t.rd Reg.TRM_STATUS_CAP_UNMET = (decide (s.powerCap < p) && decide (s.rd Reg.TRM_CLAMP_F_P = 32)).toNat
  capped : t.rd Reg.TRM_STATUS_CAPPED = (decide (t.rd Reg.TRM_CLAMP_F_P < 256)).toNat
  clamp : t.rd Reg.TRM_CLAMP_F = if s.thermal.tripped = true then 0 else min (s.rd Reg.TRM_CLAMP_F_T) (t.rd Reg.TRM_CLAMP_F_P) % 2 ^ 9
  unclampable : t.rd Reg.TRM_POWER_P_U = pu % 2 ^ 16
  powers : t.thermal.powers = (p :: s.thermal.powers).take 100
  mean : t.rd Reg.TRM_POWER_P = t.thermal.powers.sum / t.thermal.powers.length % 2 ^ 16

theorem State.powerStep_shows (s : State) (p pu : Nat) : s.PowerShown (s.powerStep p pu) p pu := by
  have fp := ((s.notePower p pu).stepFp_effect p pu).1
  have unmet := ((s.notePower p pu).stepFp_effect p pu).2
  rw [State.notePower_powerCap, State.notePower_rd (by decide) (by decide)] at fp unmet
  obtain ⟨capped, clamp⟩ := ((s.notePower p pu).stepFp p pu).showCapped_effect
  rw [State.powerStep_eq]
  have shown : ∀ f ∈ [Reg.TRM_CLAMP_F_P, Reg.TRM_STATUS_CAP_UNMET, Reg.TRM_POWER_P, Reg.TRM_POWER_P_U],
      (((s.notePower p pu).stepFp p pu).showCapped).rd f = ((s.notePower p pu).stepFp p pu).rd f :=
    fun f hf => State.showCapped_rd (List.mem_append_left [Reg.TRM_STATUS_ALERT] hf) 0
  have thermal : (((s.notePower p pu).stepFp p pu).showCapped).thermal = (s.notePower p pu).thermal := by
    rw [State.showCapped_thermal, State.stepFp_thermal]
  constructor
  case fp => rw [shown _ (by simp), fp]
  case unmet => rw [shown _ (by simp), unmet]
  case capped => rw [shown Reg.TRM_CLAMP_F_P (by simp), capped]
  case clamp =>
    rw [shown Reg.TRM_CLAMP_F_P (by simp), clamp, State.stepFp_thermal, State.stepFp_rd (by simp), State.notePower_rd (by decide) (by decide)]
    rfl
  case unclampable => rw [shown _ (by simp), State.stepFp_rd (by simp)]; exact State.rd_wr_self _ _ _ _
  case powers => rw [thermal]; rfl
  case mean =>
    rw [shown _ (by simp), State.stepFp_rd (by simp), thermal]
    unfold State.notePower
    rw [State.rd_wr_ne (by decide)]
    exact State.rd_wr_self _ _ _ _

/-- PWR_CAP_ALERT# stands: its own cap counts. -/
theorem State.alert_powerCap (s : State) : (s.wr Reg.TRM_STATUS_ALERT 0 1).powerCap =
    8 * max 300 (min 750 (min (s.rd Reg.TRM_CAP_ALERT_W) (s.rd Reg.TRM_CAP_HOST_W))) := by
  have alert : (s.wr Reg.TRM_STATUS_ALERT 0 1).rd Reg.TRM_STATUS_ALERT = 1 := State.rd_wr_fit (by decide)
  unfold State.powerCap State.is
  simp (disch := decide) only [alert, State.rd_wr_ne]
  rfl

/-- The alert shows, and f_P follows at once from the last measurement. -/
def State.alerted (s : State) : State :=
  match s.thermal.powers with
  | p :: _ => ((s.wr Reg.TRM_STATUS_ALERT 0 1).lowerFp p (s.rd Reg.TRM_POWER_P_U)).showCapped
  | [] => s.wr Reg.TRM_STATUS_ALERT 0 1

theorem exec_capAlert (s : State) : exec .capAlert s = .next s.alerted := by
  have unclampable : (s.wr Reg.TRM_STATUS_ALERT 0 1).rd Reg.TRM_POWER_P_U = s.rd Reg.TRM_POWER_P_U := State.rd_wr_ne (by decide)
  unfold State.alerted
  rw [← unclampable]
  rfl

theorem State.alerted_alert (s : State) : s.alerted.rd Reg.TRM_STATUS_ALERT = 1 := by
  have alert : (s.wr Reg.TRM_STATUS_ALERT 0 1).rd Reg.TRM_STATUS_ALERT = 1 := State.rd_wr_fit (by decide)
  unfold State.alerted
  split
  · rw [State.showCapped_rd (by simp),
      (State.lowerFp_keeps (Keeps.refl _ _) (Nat.and_self _)).rd Reg.TRM_STATUS_ALERT 0 (by decide) (by decide +kernel), alert]
  · exact alert

/-- f_P falls to what the alert's cap asks of the last measurement. -/
theorem State.alerted_fp {s : State} {p : Nat} {rest : List Nat} (h : s.thermal.powers = p :: rest) :
    s.alerted.rd Reg.TRM_CLAMP_F_P =
      (if (s.wr Reg.TRM_STATUS_ALERT 0 1).powerCap < p then
        loweredFp (s.rd Reg.TRM_CLAMP_F_P) (s.wr Reg.TRM_STATUS_ALERT 0 1).powerCap p (s.rd Reg.TRM_POWER_P_U)
      else s.rd Reg.TRM_CLAMP_F_P) := by
  have fp : (s.wr Reg.TRM_STATUS_ALERT 0 1).rd Reg.TRM_CLAMP_F_P = s.rd Reg.TRM_CLAMP_F_P := State.rd_wr_ne (by decide)
  unfold State.alerted
  rw [h]
  dsimp only
  rw [State.showCapped_rd (by simp)]
  split
  · rw [(State.lowerFp_over ‹_› _).1, fp]
  · rw [State.lowerFp_within (by omega), fp]

/-! Trip records (R373) -/

theorem foldl_max_lt_iff {l : List Nat} {a b : Nat} : l.foldl max a < b ↔ a < b ∧ ∀ q ∈ l, q < b := by
  induction l generalizing a with
  | nil => simp
  | cons c l ih => rw [List.foldl_cons, ih, Nat.max_lt, List.forall_mem_cons, and_assoc]

/-- The highest SEQ acknowledged after `seq` is written. -/
def State.ackTop (s : State) (seq : Nat) : Nat :=
  ((s.thermal.trips.map (fun r => r.seq)).filter (fun q => decide (q ≤ seq))).foldl max (s.rd Reg.TRM_TRIP_ACK_SEQ)

/-- A record stays unacknowledged when it is above the SEQ written and the one that stood. -/
theorem State.ackTop_lt {s : State} {r : TripRecord} (h : r ∈ s.thermal.trips) (seq : Nat) :
    s.ackTop seq < r.seq ↔ seq < r.seq ∧ s.rd Reg.TRM_TRIP_ACK_SEQ < r.seq := by
  unfold State.ackTop
  rw [foldl_max_lt_iff]
  constructor
  · rintro ⟨stood, below⟩
    refine ⟨Decidable.byContradiction fun written => ?_, stood⟩
    exact Nat.lt_irrefl _ (below r.seq (List.mem_filter.2 ⟨List.mem_map_of_mem h, decide_eq_true (Nat.le_of_not_lt written)⟩))
  · rintro ⟨written, stood⟩
    exact ⟨stood, fun q hq => Nat.lt_of_le_of_lt (of_decide_eq_true (List.mem_filter.1 hq).2) written⟩

/-- How many records stay unacknowledged. -/
def State.tripsLeft (s : State) (seq : Nat) : Nat :=
  (s.thermal.trips.filter (fun r => decide (seq < r.seq) && decide (s.rd Reg.TRM_TRIP_ACK_SEQ < r.seq))).length

theorem State.tripsLeft_eq (s : State) (seq : Nat) :
    (s.thermal.trips.filter (fun r => decide (s.ackTop seq < r.seq))).length = s.tripsLeft seq := by
  unfold State.tripsLeft
  congr 1
  refine List.filter_congr (fun r hr => ?_)
  rw [← Bool.decide_and, decide_eq_decide]
  exact State.ackTop_lt hr seq

/-- The acknowledged SEQ and the count of what is left are stored; without any left the record's mark clears. -/
def State.acknowledge (s : State) (seq : Nat) : State :=
  let s' := (s.wr Reg.TRM_TRIP_ACK_SEQ 0 (s.ackTop seq)).wr Reg.TRM_TRIP_STATUS_UNACK 0 (s.tripsLeft seq)
  if s.tripsLeft seq = 0 then s'.wr Reg.HIF_DEV_STATE_TRIP_REC 0 0 else s'

theorem State.ackTrips_eq (s : State) (seq : Nat) : s.ackTrips seq = ((s.acknowledge seq).noteNv).leaveLimited := by
  unfold State.acknowledge
  rw [← State.tripsLeft_eq]
  rfl

theorem State.acknowledge_unack (s : State) (seq : Nat) : (s.acknowledge seq).rd Reg.TRM_TRIP_STATUS_UNACK = s.tripsLeft seq % 16 := by
  unfold State.acknowledge
  dsimp only
  split
  · rw [State.rd_wr_ne (by decide)]; exact State.rd_wr_self _ _ _ _
  · exact State.rd_wr_self _ _ _ _

theorem State.acknowledge_none {s : State} {seq : Nat} (h : s.tripsLeft seq = 0) : (s.acknowledge seq).rd Reg.HIF_DEV_STATE_TRIP_REC = 0 ∧
    (s.acknowledge seq).rd Reg.HIF_DEV_STATE_STATE = s.rd Reg.HIF_DEV_STATE_STATE ∧
    (s.acknowledge seq).rd Reg.HIF_DEV_STATE_VERIFY = s.rd Reg.HIF_DEV_STATE_VERIFY := by
  unfold State.acknowledge
  dsimp only
  rw [if_pos h]
  exact ⟨State.rd_wr_fit (by decide), by simp (disch := decide) only [State.rd_wr_ne], by simp (disch := decide) only [State.rd_wr_ne]⟩

/-- LIMITED is left, or the state is as it was. -/
theorem State.leaveLimited_cases (s : State) : s.leaveLimited = s ∨
    s.leaveLimited = (s.wr Reg.HIF_DEV_STATE_STATE 0 2).wr Reg.HIF_DEV_STATE_TRIP_REC 0 0 := by
  unfold State.leaveLimited
  split
  · exact .inr rfl
  · exact .inl rfl

/-- LIMITED ends once the sweep is complete and no trip record is left. -/
theorem State.leaveLimited_serves {s : State} (limited : s.rd Reg.HIF_DEV_STATE_STATE = 1) (verified : s.is Reg.HIF_DEV_STATE_VERIFY = false)
    (noneLeft : s.rd Reg.TRM_TRIP_STATUS_UNACK = 0) : s.leaveLimited.rd Reg.HIF_DEV_STATE_STATE = 2 := by
  unfold State.leaveLimited State.tripPending
  rw [if_pos (by simp [limited, verified, noneLeft]), State.rd_wr_ne (by decide)]
  exact State.rd_wr_fit (by decide)

theorem State.leaveLimited_tripRec {s : State} (h : s.rd Reg.HIF_DEV_STATE_TRIP_REC = 0) : s.leaveLimited.rd Reg.HIF_DEV_STATE_TRIP_REC = 0 := by
  rcases s.leaveLimited_cases with e | e <;> rw [e]
  · exact h
  · exact State.rd_wr_fit (by decide)

theorem State.leaveLimited_unack (s : State) : s.leaveLimited.rd Reg.TRM_TRIP_STATUS_UNACK = s.rd Reg.TRM_TRIP_STATUS_UNACK :=
  (State.leaveLimited_keeps (Keeps.refl _ s) (Nat.and_self _)).rd _ _ (by decide) (by decide +kernel)

/-! The commands -/

theorem exec_tripAck {s : State} {who : Requester} (h : s.reachesOwned who 0x120068 = true) (seq : W32) :
    exec (.tripAck who seq) s = .next (s.ackTrips seq.toNat) :=
  congrArg Host.Outcome.next (State.ownedAccess_low h (by decide) _ _)

theorem exec_peakRead {s : State} {who : Requester} (h : s.reaches who 0x12000C = true) : exec (.peakRead who) s = .next (s.readPeak who) :=
  congrArg Host.Outcome.next (State.access_low h (by decide) _ _)

theorem exec_barMaxRead {s : State} {who : Requester} (h : s.reaches who 0xC003C = true) : exec (.barMaxRead who) s = .next (s.readBarMax who) :=
  congrArg Host.Outcome.next (State.access_low h (by decide) _ _)

theorem exec_scanStall (s : State) (n : Sensor) : exec (.scanStall n) s =
    .next (if s.sensorUsed n = true ∧ (s.sensor n).time + 10000000 ≤ s.time then s.trip 2 n else s) := rfl

/-- Reading the peak returns and clears it (R6). -/
theorem State.readPeak_effect (s : State) (who : Requester) :
    (s.readPeak who).out = s.out ++ [.readData (reqCode who) (s.rd Reg.TRM_PEAK_TEMP + s.rd Reg.TRM_PEAK_SENSOR * 65536)] ∧
    (s.readPeak who).thermal.peakSeen = false ∧ (s.readPeak who).rd Reg.TRM_PEAK_TEMP = 0 ∧ (s.readPeak who).rd Reg.TRM_PEAK_SENSOR = 0 ∧
    s.sameBut (s.readPeak who) [.thermal, .out] [Reg.TRM_PEAK_TEMP, Reg.TRM_PEAK_SENSOR] := by
  have read : ∀ (f : Field) (i : Nat), (s.readPeak who).rd f i = ((s.wr Reg.TRM_PEAK_TEMP 0 0).wr Reg.TRM_PEAK_SENSOR 0 0).rd f i :=
    fun _ _ => rfl
  refine ⟨rfl, rfl, ?_, ?_, (State.readPeak_keeps (Keeps.refl _ s) (Nat.and_self _)).sameBut (by decide +kernel)⟩
  · rw [read, State.rd_wr_ne (by decide), State.rd_wr_fit (by decide)]
  · rw [read, State.rd_wr_fit (by decide)]

/-- Reading the longest barrier returns and clears it (R6). -/
theorem State.readBarMax_effect (s : State) (who : Requester) :
    (s.readBarMax who).out = s.out ++ [.readData (reqCode who) (s.rd Reg.NOC_BAR_MAX_CLOCKS)] ∧
    (s.readBarMax who).rd Reg.NOC_BAR_MAX_CLOCKS = 0 ∧ s.sameBut (s.readBarMax who) [.out] [Reg.NOC_BAR_MAX_CLOCKS] :=
  ⟨rfl, State.rd_wr_fit (by decide), (State.readBarMax_keeps (Keeps.refl _ s) (Nat.and_self _)).sameBut (by decide +kernel)⟩

/-- Settles O49: samples, power, stalled sensors, trip records and the two peaks, each by what its operation shows. -/
theorem heatAndPowerClampIssue : Obligations.HeatAndPowerClampIssue := by
  unfold Obligations.HeatAndPowerClampIssue
  refine ⟨?sample, ?power, ?stall, ?ack, ?peaks⟩
  case sample =>
    intro s n x powered
    have run := exec_sensorSample powered n x
    obtain ⟨last, seen, time, -⟩ := s.takeReading_sensor n (x + SMap.get 0 s.cal.offsets n)
    obtain ⟨temp, rate⟩ := s.takeReading_shows n (x + SMap.get 0 s.cal.offsets n)
    refine ⟨does_next run ?_, fun working outside => does_next run ?_, fun working passes hot again live => does_next run ?_,
      fun m w passes hottest => does_next run ?_⟩
    · rw [State.sample_sensor, State.sample_reading (by simp), State.sample_reading (by simp)]
      exact ⟨last, seen, time, temp, rate⟩
    · have fails := State.readingFails_of_range (last.symm ▸ outside)
      obtain ⟨failed, counted⟩ := (s.readSensor n x).failSensor_effect n
      have mark : (s.sample n x).rd Reg.TRM_SENSOR_FAILED n = 1 := by
        rw [State.sample_fails working fails, State.concludeSample_rd (by decide), State.judgeHeat_rd (by simp), failed]
      refine ⟨mark, ?_, by simp [State.sensorUsed, State.is, mark]⟩
      unfold State.counts at counted ⊢
      rw [State.sample_fails working fails, State.concludeSample_rd (by decide), State.judgeHeat_rd (by simp), counted,
        State.takeReading_rd (by simp)]
    · obtain ⟨w, trips, kept⟩ := State.sample_trips working passes hot again
      obtain ⟨tripped, clamp, written, -, told, r, records, cause, sensor, reading, seq⟩ := State.trip_effect (kept.tripped.trans live) 1 n
      rw [trips]
      refine ⟨tripped, clamp, written, told, r, ?_, cause, sensor, ?_, seq.trans kept.tripNext⟩
      · rw [records, kept.trips]; rfl
      · rw [reading, kept.sensor, last]
    · obtain ⟨⟨hotTemp, hotSensor⟩, peak, ⟨warn1, warn0, warnSame⟩, ⟨throt1, throt0, throtSame⟩, ft⟩ := State.sample_shows passes hottest
      exact ⟨hotTemp, hotSensor, peak, warn1, warn0, warnSame, throt1, throt0, throtSame, fun down => by rw [ft, if_pos down],
        fun up => by rw [ft, if_neg (by omega)]⟩
  case power =>
    intro s
    refine ⟨fun p pu => does_next rfl ?_, does_next (exec_capAlert s) ?_, does_next rfl ?_, fun watts => ⟨does_next rfl ?_, does_next rfl ?_⟩⟩
    · obtain ⟨fp, unmet, capped, clamp, unclampable, powers, mean⟩ := s.powerStep_shows p.toNat pu.toNat
      exact ⟨fp, unmet, capped, clamp, unclampable.trans (Nat.mod_eq_of_lt pu.isLt), powers, mean⟩
    · refine ⟨s.alerted_alert, fun p rest measured => ?_⟩
      rw [State.alerted_fp measured, State.alert_powerCap]
      rfl
    · exact ⟨State.rd_wr_fit (by decide), s.sameBut_wr _ _ _⟩
    · exact ⟨State.rd_wr_fit watts.isLt, s.sameBut_wr _ _ _⟩
    · exact ⟨State.rd_wr_fit watts.isLt, s.sameBut_wr _ _ _⟩
  case stall =>
    intro s n
    refine ⟨fun fresh => does_next (exec_scanStall s n) (if_neg ?_), fun used due live => does_next (exec_scanStall s n) ?_⟩
    · rintro ⟨used, due⟩
      rcases fresh with unused | early
      · exact absurd used (by simp [unused])
      · omega
    · obtain ⟨tripped, clamp, -, unack, -, r, records, cause, sensor, -⟩ := State.trip_effect live 2 n
      rw [if_pos ⟨used, due⟩]
      exact ⟨tripped, clamp, unack, r, records, cause, sensor⟩
  case ack =>
    intro s who seq reach
    refine does_next (exec_tripAck reach seq) ?_
    rw [State.ackTrips_eq]
    refine ⟨?_, fun noneLeft => ?_, fun noneLeft limited verified => ?_⟩
    · rw [State.leaveLimited_unack]; exact s.acknowledge_unack _
    · exact State.leaveLimited_tripRec (State.acknowledge_none noneLeft).1
    · obtain ⟨-, state, verify⟩ := State.acknowledge_none noneLeft
      refine State.leaveLimited_serves (state.trans limited) ?_ ?_
      · unfold State.is at verified ⊢
        rw [State.rd_noteNv, verify, verified]
      · exact (s.acknowledge_unack _).trans (by rw [show s.tripsLeft seq.toNat = 0 from noneLeft])
  case peaks =>
    exact fun s who => ⟨fun reach => does_next (exec_peakRead reach) (s.readPeak_effect who),
      fun reach => does_next (exec_barMaxRead reach) (s.readBarMax_effect who)⟩

end Sys2Proof.Machine

namespace Sys2Proof.Machine

/-! Where a member's PASS does not wait (R241, R242)

A statement about every state is also about one whose map of cores is not in canonical form: one that lists a core twice, first with
the core map's default. The core that runs the pass is then seen by `State.passIdle`, which walks the list, but not by `State.core`,
which reads the first entry. A PASS with a LATENCY slot asks that core's slots to leave (`State.askPreempt`): it stores back the
default it read, which erases both entries, so that the partition looks idle and the pass starts at once instead of waiting. -/

/-- A member that serves and has entry 5, with core 0 listed first as the default and then as running a pass of partition 0. It meets
`State.good`, which speaks of the registers and the memories alone. -/
def coreListedTwice : State :=
  { (State.reset.wr Reg.HIF_DEV_STATE_STATE 0 2).setRequest 5 { state := .queued, member := true } with
    cores := [(0, {}), (0, { running := true })] }

/-- The header of a PASS with one slot record (Table 7.8). -/
def passOfOne : BitVec 256 := BitVec.ofNat 256 (2 + 2 ^ 8)

/-- A slot record of class LATENCY: context 5, one token, step 9 (Table 7.7). -/
def latencySlot : BitVec 256 := BitVec.ofNat 256 (5 + 2 ^ 16 + 2 ^ 64 + 9 * 2 ^ 192)

/-- The message is a PASS of one record for a member that has its program. -/
theorem passOfOne_arrives : smKind passOfOne = 2 ∧ smCount passOfOne = 1 ∧ coreListedTwice.admits 0 = false ∧
    bit (coreListedTwice.rd Reg.FLT_PROG_LOST_PART 0) 0 = false := by decide +kernel

/-- The record names a member entry of the partition. -/
theorem latencySlot_known : (coreListedTwice.request (slotOf latencySlot).context).state ≠ .free ∧
    (coreListedTwice.request (slotOf latencySlot).context).part = 0 ∧
    (coreListedTwice.request (slotOf latencySlot).context).member = true := by decide +kernel

/-- The pages of the record's step are there. -/
theorem latencySlot_pages :
    let x := slotOf latencySlot
    let r := coreListedTwice.request x.context
    ((coreListedTwice.setRequest x.context
      { r with kvlen := x.kvlen, ntok := x.ntok, epoch := x.epoch, step := x.step }).getPages x.context x.ntok).isSome := by
  decide +kernel

/-- Core 0 runs a pass, so that no other may start; once asked for the BULK prefill slots it runs, it is listed no more, and one may. -/
theorem coreListedTwice_busy_until_asked : coreListedTwice.passes 0 = false ∧
    (coreListedTwice.askPreempt 0 (fun x => x.cls == 2 && decide (1 < x.ntok))).passes 0 = true := by decide +kernel

/-- The run of the PASS: nothing waits after it. -/
theorem waiting_after_pass {t : State} (run : exec (.passMessage 0 passOfOne [latencySlot]) coreListedTwice = .next t) :
    SMap.get [] t.serving.waiting 0 = [] := by
  have evaluated : (match exec (.passMessage 0 passOfOne [latencySlot]) coreListedTwice with
      | .next u => SMap.get [] u.serving.waiting 0
      | _ => [[]]) = [] := by decide +kernel
  rwa [run] at evaluated

/-- Refutes O44: a PASS with a LATENCY slot that meets a core listed twice starts at once, where the statement has it wait. -/
theorem not_membersFollow : ¬ Obligations.MembersFollow := by
  unfold Obligations.MembersFollow
  rintro ⟨-, pass, -⟩
  obtain ⟨kind, count, member, program⟩ := passOfOne_arrives
  obtain ⟨live, part, entry⟩ := latencySlot_known
  obtain ⟨known, -⟩ := pass coreListedTwice 0 passOfOne latencySlot kind count member program
  obtain ⟨t, run, -, -, -, -, waits, -⟩ := known live part entry latencySlot_pages
  obtain ⟨busy, -⟩ := coreListedTwice_busy_until_asked
  have queued := (waiting_after_pass run).symm.trans (waits busy)
  exact List.append_ne_nil_of_right_ne_nil _ (List.cons_ne_nil _ _) queued.symm

end Sys2Proof.Machine
